-- ==== Sys2Proof/Word.lean ====
section
/-! DEFINITION. The word types of the package and their plainest arithmetic (R13: bit 0 is least significant). -/
namespace Sys2Proof

abbrev Byte := BitVec 8
abbrev W16 := BitVec 16
abbrev W32 := BitVec 32
abbrev W64 := BitVec 64

/-- Bits `hi` down to `lo` of a number (R13). -/
def fld (x hi lo : Nat) : Nat := x / 2 ^ lo % 2 ^ (hi + 1 - lo)

/-- One bit of a number, as a flag. -/
def bitOf (x i : Nat) : Bool := x / 2 ^ i % 2 == 1

/-- A flag as 0 or 1. -/
def b2n (b : Bool) : Nat := if b then 1 else 0

/-- The two halves of the package (R17). -/
inductive Half where
  | a
  | b
deriving DecidableEq, Repr

/-- The other half. -/
def Half.other : Half → Half
  | .a => .b
  | .b => .a

/-- Half number in commands and log sources: 0 for Half A, 1 for Half B (R71). -/
def Half.n : Half → Nat
  | .a => 0
  | .b => 1

/-- The half a number names (R71); only 0 and 1 name one. -/
def halfOf (k : Nat) : Half := if k = 0 then .a else .b

end Sys2Proof
end

