-- ==== Sys2Proof/Machine/Tab.lean ====
section
/-! DEFINITION. Sparse tables in one canonical form (keys strictly rising, no entry equal to the default), and
byte lists read as little-endian numbers (R13). -/
namespace Sys2Proof.Machine

/-- A sparse table: key and value pairs, in canonical form for a given default. -/
abbrev Tab (α : Type) := List (Nat × α)

/-- The value at a key: the default where the table lists nothing. -/
def tget {α : Type} (d : α) : Tab α → Nat → α
  | [], _ => d
  | (k', v) :: t, k => if k' = k then v else tget d t k

/-- Write a value, keeping the canonical form. -/
def tset {α : Type} [DecidableEq α] (d : α) : Tab α → Nat → α → Tab α
  | [], k, v => if v = d then [] else [(k, v)]
  | (k', v') :: t, k, v =>
    if k < k' then (if v = d then (k', v') :: t else (k, v) :: (k', v') :: t)
    else if k = k' then (if v = d then t else (k, v) :: t)
    else (k', v') :: tset d t k v

/-- Change the value at a key. -/
def tmod {α : Type} [DecidableEq α] (d : α) (t : Tab α) (k : Nat) (f : α → α) : Tab α :=
  tset d t k (f (tget d t k))

/-- The keys below all others are listed first, each once, and no listed value is the default. -/
def tabWf {α : Type} [DecidableEq α] (d : α) : Tab α → Bool
  | [] => true
  | [(_, v)] => decide (v ≠ d)
  | (k, v) :: (k', v') :: t => decide (v ≠ d) && decide (k < k') && tabWf d ((k', v') :: t)

/-- Sorted sets of numbers without repeats: a poison mark per sector, a mask of LCNs. -/
def setIns : List Nat → Nat → List Nat
  | [], k => [k]
  | k' :: t, k => if k < k' then k :: k' :: t else if k = k' then k' :: t else k' :: setIns t k

def setDel (l : List Nat) (k : Nat) : List Nat := l.filter (fun x => x ≠ k)

/-- A little-endian number as `n` bytes (R13). -/
def toBytes : Nat → Nat → List Byte
  | 0, _ => []
  | n + 1, x => BitVec.ofNat 8 x :: toBytes n (x / 256)

/-- The little-endian number of a byte list (R13). -/
def ofBytes : List Byte → Nat
  | [] => 0
  | b :: t => b.toNat + 256 * ofBytes t

/-- `n` bytes of a list from an offset, zero beyond its end. -/
def slice (l : List Byte) (off n : Nat) : List Byte :=
  let t := (l.drop off).take n
  t ++ List.replicate (n - t.length) 0

/-- The little-endian number of `n` bytes at an offset. -/
def fieldAt (l : List Byte) (off n : Nat) : Nat := ofBytes (slice l off n)

/-- Overwrite the bytes of a list from an offset. -/
def splice (l : List Byte) (off : Nat) (d : List Byte) : List Byte :=
  l.take off ++ d ++ l.drop (off + d.length)

/-- Pack a little-endian structure given as (size, value) fields. -/
def pack : List (Nat × Nat) → List Byte
  | [] => []
  | (n, v) :: t => toBytes n v ++ pack t

/-- Put bit fields given as (low bit, value) into one number. -/
def putBits : List (Nat × Nat) → Nat
  | [] => 0
  | (lo, v) :: t => v * 2 ^ lo + putBits t

/-- Replace bits `hi` down to `lo` of a number. -/
def setFld (x hi lo v : Nat) : Nat := x - fld x hi lo * 2 ^ lo + (v % 2 ^ (hi + 1 - lo)) * 2 ^ lo

/-- The list 0, 1, …, n − 1. -/
def upTo (n : Nat) : List Nat := List.range n

/-- Replace or add one element by its key. -/
def modAt {α : Type} (l : List α) (i : Nat) (f : α → α) : List α :=
  match l, i with
  | [], _ => []
  | x :: t, 0 => f x :: t
  | x :: t, i + 1 => x :: modAt t i f

end Sys2Proof.Machine
end

