-- ==== Sys2Proof/Machine/StPackage.lean ====
section
/-! DEFINITION. State of the package: variant (R2), modes (R34–R48), event log (R563–R574) and Harbourmaster (R52–R69). -/
namespace Sys2Proof.Machine

/-- One item per half. -/
structure Pair (α : Type) where
  a : α
  b : α
deriving DecidableEq, Repr

def Pair.get {α : Type} (p : Pair α) : Half → α
  | .a => p.a
  | .b => p.b

def Pair.set {α : Type} (p : Pair α) (h : Half) (v : α) : Pair α :=
  match h with
  | .a => ⟨v, p.b⟩
  | .b => ⟨p.a, v⟩

/-- Part codes (R5). -/
inductive Part where
  | q1600a
  | q1600c
  | q1200a
  | q0800a
deriving DecidableEq, Repr

/-- Package modes (R35). -/
inductive Mode where
  | off
  | hold
  | bringup
  | unified
  | mirrored
  | split
  | degraded
  | drain
deriving DecidableEq, Repr

def Mode.n : Mode → Nat
  | .off => 0
  | .hold => 1
  | .bringup => 2
  | .unified => 3
  | .mirrored => 4
  | .split => 5
  | .degraded => 6
  | .drain => 7

/-- The mode a number encodes (R35); none above 0x7. -/
def modeOf : Nat → Option Mode
  | 0 => some .off
  | 1 => some .hold
  | 2 => some .bringup
  | 3 => some .unified
  | 4 => some .mirrored
  | 5 => some .split
  | 6 => some .degraded
  | 7 => some .drain
  | _ => none

/-- Half states (R36). -/
inductive HState where
  | absent
  | held
  | bringup
  | running
  | draining
  | fenced
  | resilvering
deriving DecidableEq, Repr

def HState.n : HState → Nat
  | .absent => 0
  | .held => 1
  | .bringup => 2
  | .running => 3
  | .draining => 4
  | .fenced => 5
  | .resilvering => 6

/-- A command source and with it the ring or queue a packet came on (R52, R53). -/
inductive Src where
  /-- core ring of a hub: level 0 U, 1 S, 2 H -/
  | ring (h : Half) (level : Nat)
  /-- PF0 admin queue of a port 0–3 -/
  | admin (port : Nat)
  /-- command queue of a function: port, function number, queue pair -/
  | func (port fn qp : Nat)
  /-- I3C management port of a hub -/
  | mgmt (h : Half)
deriving DecidableEq, Repr

/-- A command packet (R62) with its source; OPCODE stands in `op`. -/
structure Pkt where
  src : Src
  op : Nat
  tag : Nat
  flags : Nat
  plen : Nat
  /-- the 64-bit IPTR word (R62) -/
  iptr : Nat
  /-- the 48 parameter bytes as one little-endian number -/
  prm : Nat
deriving DecidableEq, Repr

/-- Parameter field at +k of n bytes (R62, R72). -/
def Pkt.f (p : Pkt) (k n : Nat) : Nat := p.prm / 256 ^ k % 256 ^ n

/-- A status reply (R64); FINAL, LOGGED and DUP are flags, PHASE is set when the reply is posted. -/
structure Reply where
  src : Src
  tag : Nat
  status : Nat
  final : Bool
  logged : Bool
  dup : Bool
  op : Nat
  rlen : Nat
  /-- the 24 result bytes as one little-endian number -/
  result : Nat
  /-- NOTIFY of the command (R63) -/
  notify : Bool
deriving DecidableEq, Repr

/-- A command in progress (R66, R67). `mute`: its ring has stopped, so that it completes and its replies are not posted
(R59). -/
structure Prog where
  pkt : Pkt
  mute : Bool
deriving DecidableEq, Repr

/-- A packet that waits for a fence (R63); `dup` when its tag was that of a command in progress as it was fetched (R67). -/
structure Waiting where
  pkt : Pkt
  dup : Bool
deriving DecidableEq, Repr

/-- The registers of one core ring and what the Harbourmaster keeps of it (R54–R59, R64, R67). -/
structure Ring where
  crBase : W64
  srBase : W64
  en : Bool
  stopped : Bool
  vector : Nat
  size : Nat
  lcn : Nat
  crTail : Nat
  crHead : Nat
  srHead : Nat
  srTail : Nat
  /-- PHASE of the pass through the status ring (R64): 1 on the first pass -/
  phase : Bool
  /-- replies held while the status ring is full (R67) -/
  held : List Reply
deriving DecidableEq, Repr

/-- The I3C target of a hub (R60). -/
structure I3c where
  /-- dynamic address, none until one is assigned -/
  dyn : Option Nat
  /-- in-band interrupts enabled by ENEC, disabled by DISEC -/
  ibiEn : Bool
  fifo : List Reply
  /-- payloads of in-band interrupts raised, oldest first (R60, R563, R623) -/
  ibi : List Nat
  /-- data the target last answered on the bus, and whether it acknowledged -/
  ack : Bool
  out : List Byte
deriving DecidableEq, Repr

/-- A transition in progress (R38, R39, R43, R47). -/
structure Trans where
  source : Mode
  target : Mode
  /-- mode that follows a drain -/
  follow : Mode
  /-- the half a MODE_SET DEGRADED fences -/
  half : Option Half
  /-- the MODE_SET that owns it; none for an automatic one -/
  cmd : Option Prog
  /-- the aborting MODE_SET of a drain (R43) -/
  abortCmd : Option Prog
  /-- 0 running toward the target; 1 draining; 2 leaving DRAIN to the follow-on; 3 returning to the source -/
  phase : Nat
  /-- PWRFAIL_WARN_N arrived and the drain to HOLD follows (R43) -/
  pfw : Bool
deriving DecidableEq, Repr

/-- Package-level mode state (R34, R42, R45, R48, R49). -/
structure Pkg where
  mode : Mode
  prev : Mode
  target : Mode
  hstate : Pair HState
  trans : Option Trans
  /-- half-named transitions of SPLIT (R48): none, or its command and whether it is a drain -/
  htrans : Pair (Option Trans)
  /-- SYS_DRAIN_CTL of each hub: RSHARE, PFW_LIMIT, LIMIT (R42) -/
  rshare : Pair Nat
  pfwLimit : Pair Nat
  limit : Pair Nat
  /-- all clocks lost: the package has stopped (R531) -/
  stopped : Bool
  /-- each hub's alive line toggles (R558) -/
  alive : Pair Bool
  /-- nanoseconds Hub B's ST64 still leaves out as it slews, and ns counted since it last left one out (R506) -/
  slow : Nat
  slowAt : Nat
  /-- resilver pointer: half-local address of the next line (R49) -/
  resilver : Nat
deriving DecidableEq, Repr

/-- A log entry (R566). -/
structure LogEntry where
  ts : Nat
  index : Nat
  source : Nat
  level : Nat
  cls : Nat
  code : Nat
  rep : Nat
  lost : Nat
  rsv : Bool
  peer : Bool
  bucket : Bool
  notice : Bool
  damaged : Bool
  ovf : Nat
  tlast : Nat
  data : Nat
deriving DecidableEq, Repr

/-- A report to the log (R569): SOURCE, LEVEL, CLASS, CODE, DATA and, for a bucket overflow, its threshold. -/
structure Report where
  source : Nat
  level : Nat
  cls : Nat
  code : Nat
  data : Nat
  bucket : Option Nat
deriving DecidableEq, Repr

/-- A report in a latch with the ST64 at which it entered (R569). -/
structure Latched where
  ts : Nat
  rpt : Report
deriving DecidableEq, Repr

/-- The event log of a hub (R563–R574). -/
structure Log where
  ufEn : Bool
  ucEn : Bool
  crEn : Bool
  ceEn : Bool
  vector : Nat
  ibi : Bool
  lcn : Nat
  entries : List LogEntry
  nextIdx : Nat
  /-- LOG_LOST -/
  lostTotal : Nat
  /-- drops since the previous entry was written -/
  lostSince : Nat
  /-- OVF count per source -/
  ovf : Tab Nat
  latches : List Latched
  /-- ST64 of the last write, none before the first -/
  lastWrite : Option Nat
deriving DecidableEq, Repr

/-- A leaky bucket (R143, R148, R277). -/
structure Bucket where
  count : Nat
  thresh : Nat
  leak : Nat
  ovf : Nat
deriving DecidableEq, Repr

/-- A module kind in a channel (R263): kind 0 none, 1 RDIMM, 2 MRDIMM, 3 unsupported. -/
structure Dimm where
  kind : Nat
  /-- modules in the channel -/
  dpc : Nat
  /-- log2 of the logical ranks of the channel -/
  rankb : Nat
  /-- 32 Gb devices -/
  d32 : Bool
deriving DecidableEq, Repr

/-- What fuses, the board and the OTP fix (R2, R4, R21, R263, R487, R548). -/
structure Cfg where
  part : Part
  step : Pair Nat
  /-- stepping of a die where it differs from its hub's -/
  dieStep : Tab Nat
  /-- spare PC numbers of a die, where they are not 64 to 67 -/
  spares : Tab (List Nat)
  /-- modules of a channel, key half × 16 + channel, where they differ from `dimm` -/
  dimms : Tab Dimm
  dimm : Dimm
  /-- BOOT_MODE straps and TEST_EN (R548) -/
  bootMode : Nat
  testEn : Bool
deriving DecidableEq, Repr

end Sys2Proof.Machine
end

