-- ==== Sys2Proof/Machine/StMemory.lean ====
section
/-! DEFINITION. State of the memory channels (R263–R294), the caches and homes (R195–R231) and the fabric (R232–R262). -/
namespace Sys2Proof.Machine

/-- The coherence and fabric messages (R213, R237). -/
inductive MsgOp where
  | rds | rdx | upg | rdc | wrf | wrp | atm | mnt
  | rrd | rwr | ops | int
  | snps | snpx | snpc | snpk | snpi | purge
  | rspI | rspS | rspE | rspO | rspM | rspMiss | rspEvicting
  | gntS | gntE | gntM | cmp | cack | wback | retry
  | domainAsleep | domainOff | aerr | mirack
  | wbn | mirw | mirh
deriving DecidableEq, Repr

/-- What a message carries beside its OP (R236, R239). Agents: 0–15 CDn, 16 and 17 the CPE cache groups, 31 none,
and 64 + node × 16 + port for every non-caching agent (R210, R233). -/
structure Msg where
  /-- the agent that sends it, or for a home's message the agent it goes to -/
  agent : Nat
  /-- the home concerned -/
  home : Half
  /-- half of the requester, which in SPLIT selects the address space -/
  from_ : Half
  /-- PA[51:6] -/
  sector : Nat
  txid : Nat
  tide : Nat
  poison : Bool
  hasData : Bool
  data : List Byte
  /-- byte mask of the sector for WRP -/
  mask : Nat
  /-- MNT operation, ATM operation and size, or HINT (R236) -/
  aux : Nat
  /-- first and second operand of ATM (R239) -/
  opd1 : Nat
  opd2 : Nat
  /-- one-shot tag (R239): request ID, LCN, context -/
  rid : Nat
  lcn : Nat
  ctx : Nat
deriving DecidableEq, Repr

/-- A message on its way. -/
structure NetMsg where
  op : MsgOp
  m : Msg
deriving DecidableEq, Repr

/-- States of a sector in a caching agent (R208). -/
inductive Moesi where
  | i | s | e | m | o
deriving DecidableEq, Repr

/-- A sector in a caching agent: the freshest copy of its L3 (or CPE cache) and the L2s it includes. -/
structure CSector where
  st : Moesi
  data : List Byte
  poison : Bool
deriving DecidableEq, Repr

def CSector.none : CSector := ⟨.i, [], false⟩

/-- A victim-buffer sector awaiting WBACK (R225). -/
structure Victim where
  agent : Nat
  sector : Nat
  hasData : Bool
  data : List Byte
  poison : Bool
deriving DecidableEq, Repr

/-- A home directory entry (R210); `lru` orders entries of a set by last use (R221). -/
structure DirEnt where
  v : Bool
  pin : Bool
  psn : Nat
  pv : Nat
  hp : Nat
  own : List Nat
  lru : Nat
deriving DecidableEq, Repr

def DirEnt.none : DirEnt := ⟨false, false, 0, 0, 0, [31, 31, 31, 31], 0⟩

/-- An open home transaction (R214). Phase 0: responses awaited; 1: grant sent, CACK awaited; 2: mirror awaited.
`backInv` marks a back-invalidation of a whole line (R221). -/
structure HTrans where
  req : MsgOp
  m : Msg
  await : List Nat
  /-- agents that answered RSP_EVICTING and owe their WBN (R224) -/
  evicting : List Nat
  dirty : Option (List Byte)
  poison : Bool
  phase : Nat
  backInv : Bool
deriving DecidableEq, Repr

/-- A request waiting at the home or for a RETRY to expire. -/
structure HReq where
  req : MsgOp
  m : Msg
deriving DecidableEq, Repr

/-- A maintenance slot (R227, R228): sector to do next, sectors left after it. -/
structure Maint where
  addr : Nat
  busy : Bool
  err : Bool
  op : Nat
  count : Nat
  /-- sector of the outstanding MNT -/
  cur : Nat
  left : Nat
deriving DecidableEq, Repr

def Maint.reset : Maint := ⟨0, false, false, 0, 0, 0, 0⟩

/-- The home of a half (R210–R231). -/
structure Home where
  dir : Tab DirEnt
  clock : Nat
  bcast : List Nat
  trans : Tab (Option HTrans)
  waiting : List HReq
  park : List HReq
  timer : Nat
  maint : Tab Maint
  /-- lines of DRAM the Stockpot holds, PA[51:8], oldest allocation first (R200) -/
  stock : List Nat
deriving DecidableEq, Repr

/-- Channel states (R291). -/
inductive ChState where
  | down | training | zeroing | mapped | unmapped | spare | copying | failed
deriving DecidableEq, Repr

def ChState.n : ChState → Nat
  | .down => 0 | .training => 1 | .zeroing => 2 | .mapped => 3
  | .unmapped => 4 | .spare => 5 | .copying => 6 | .failed => 7

/-- A throttled requester (R281): node, port, level, and whether an aggressor was found in this window. -/
structure Throttle where
  src : Nat
  port : Nat
  level : Nat
  fresh : Bool
deriving DecidableEq, Repr

/-- A merge entry (R275): sector of the half, byte mask and data. -/
structure Merge where
  sector : Nat
  mask : Nat
  data : List Byte
deriving DecidableEq, Repr

/-- A memory channel (R273–R292). -/
structure Chan where
  st : ChState
  speed : Nat
  kind : Nat
  dpc : Nat
  rankb : Nat
  row17 : Bool
  hold : Bool
  retrains : Nat
  ueV : Bool
  ueCmd : Bool
  ueMore : Bool
  uePa : Nat
  rhEn : Bool
  rhThresh : Nat
  rhSrc : Nat
  rhPort : Nat
  rhDetect : Nat
  throttled : List Throttle
  /-- sector the patrol scrubber reads next -/
  scrub : Nat
  merges : List Merge
  /-- activations of each bank since its last RFM (R280) -/
  act : Tab Nat
  /-- RFM and DRFM commands issued -/
  rfm : Nat
deriving DecidableEq, Repr

/-- A channel after the hub's reset (R278, R282, R290). -/
def Chan.reset : Chan :=
  { st := .down, speed := 0, kind := 0, dpc := 0, rankb := 0, row17 := false, hold := false, retrains := 0,
    ueV := false, ueCmd := false, ueMore := false, uePa := 0, rhEn := true, rhThresh := 2048,
    rhSrc := 0, rhPort := 0, rhDetect := 0, throttled := [], scrub := 0, merges := [], act := [], rfm := 0 }

/-- The hub-wide memory registers (R293, R294) and its DRAM, addressed by the half-local address L (R266). -/
structure Mem where
  chans : Tab Chan
  fixed : Bool
  spareEn : Bool
  auto : Bool
  spareCh : Nat
  /-- channel of each slot; its length is N (R294) -/
  map : List Nat
  kshift : Nat
  scrubH : Nat
  copy : Bool
  copySrc : Nat
  copyDst : Nat
  /-- channel-local line A[38:8] of the next line to copy -/
  copyPtr : Nat
  /-- the MEM_SPARE that waits for the copy -/
  copyCmd : Option Prog
  /-- channels the hold domain records as FAILED (R288) -/
  failedHold : List Nat
  dram : Tab Byte
  /-- poisoned sectors, L / 64 (R271) -/
  poison : List Nat
deriving DecidableEq, Repr

/-- Rytum module states (R257). -/
inductive RytState where
  | down | training | up | hold | fenced
deriving DecidableEq, Repr

def RytState.n : RytState → Nat
  | .down => 0 | .training => 1 | .up => 2 | .hold => 3 | .fenced => 4

/-- One side of a Rytum module (R251–R258). -/
structure Ryt where
  st : RytState
  width : Nat
  pwidth : Nat
  clkmode : Bool
  spares : Nat
  retrains : Nat
  attempt : Nat
  lanes : Nat
  /-- LSEQs of the flits sent and not covered by LACK, next LSEQ to send and to receive (R251) -/
  replay : List Nat
  nextSeq : Nat
  rxNext : Nat
  /-- failures in a row of the flit at the head; ST64 of each replay of the last millisecond -/
  fails : Nat
  replays : List Nat
  /-- heartbeat periods since the last heartbeat from the peer; WIDTH in a heartbeat on its way here -/
  missed : Nat
  hb : Option Nat
  /-- a NAK on its way here, with the receiver's last good LSEQ -/
  nak : Option Nat
  /-- this side trains alone after its own reset (R540) -/
  solo : Bool
deriving DecidableEq, Repr

def Ryt.reset : Ryt :=
  { st := .down, width := 0, pwidth := 0, clkmode := false, spares := 0, retrains := 0, attempt := 0, lanes := 0,
    replay := [], nextSeq := 0, rxNext := 0, fails := 0, replays := [], missed := 0, hb := none, nak := none, solo := false }

/-- Route changes of a scope (R245, R246): the EPOCH value injected now, a change running, changes waiting; the packets injected
before the change that may still be under way, and the bucket table they follow where the change gives a pair of dies another. -/
structure Route where
  epoch : Bool
  changing : Bool
  queued : Nat
  old : List NetMsg
  table : List Nat
deriving DecidableEq, Repr

def Route.reset : Route := ⟨false, false, 0, [], []⟩

/-- A held request of a closed stop: the request, how many DOMAIN_ASLEEP answers it got (R247) and the HINT of the last: it is sent
again 64 × 2^HINT FCLK later (R539). -/
structure Asleep where
  op : MsgOp
  m : Msg
  n : Nat
  hint : Nat
deriving DecidableEq, Repr

/-- Fabric state of the package. `modules` has key die code × 32 + module (R71, R233); `buckets` holds the 64-entry
table of R241 of each pair of dies, key hub × 32 + die code, 16 for the Breakwater. -/
structure Fabric where
  modules : Tab Ryt
  buckets : Tab (List Nat)
  /-- key: 0–15 a die, 16 and 17 a half, 18 the package -/
  routes : Tab Route
  asleep : List Asleep
  /-- dies on their standby PLL (R259); 16 and 17 are the hubs -/
  standby : List Nat
  /-- address errors given to agents, oldest first: agent and sector (R29) -/
  aerrs : List (Nat × Nat)
deriving DecidableEq, Repr

/-- Caches, victim buffers, L3 line records and messages of the package. Keys: agent × 2^46 + sector, or line; of a core's
caches core × 2^46 + sector with core = die × 128 + PC; of a CPE cache (hub × 32 + CPE) × 2^46 + line. -/
structure Coh where
  cache : Tab CSector
  /-- sectors the L2s hold, in state M, E or S, newest last within a core (R195, R198); their bytes are those of `cache` -/
  l2 : Tab Moesi
  /-- sectors the L1 caches hold (R195), a part of what the L2 holds -/
  l1d : List Nat
  l1i : List Nat
  /-- lines the CPE caches hold (R195, R202) -/
  cpec : List Nat
  victim : List Victim
  /-- requests a home has answered RETRY to, which their requesters keep (R222) -/
  refused : List HReq
  /-- HOLDER of an L3 line (R197), key agent × 2^46 + line -/
  holder : Tab Nat
  /-- lines deleted (R206): key die × 17 + slice, value the (set × 16 + way) list -/
  deleted : Tab (List Nat)
  /-- L3 entries that erred, with the ST64 of the error (R206): key as `deleted`, value (set × 16 + way, time) -/
  erred : Tab (List (Nat × Nat))
  /-- requests that got RETRY and wait (R222) -/
  retries : List HReq
  net : List NetMsg
deriving DecidableEq, Repr

end Sys2Proof.Machine
end

