-- ==== Sys2Proof/Machine/Forms.lean ====
section
/-! DEFINITION. Operand forms that several rows of the opcode table share. -/
namespace Sys2Proof

/-- An AN instruction at a context: FMT and TYPE of parcel 0 (R81) and the parcels after it; the row gives OPC. -/
structure AnOp where
  lcn : Nat
  ctx : Nat
  fmt : Nat
  ty : Nat
  rest : List W16
deriving DecidableEq, Repr

/-- An A5 instruction at a context: RA, RB and F (R131); the row gives OP. -/
structure A5Op where
  lcn : Nat
  ctx : Nat
  ra : Nat
  rb : Nat
  f : Nat
deriving DecidableEq, Repr

/-- A CPE instruction (R341): hub and CPE that execute it, bits 25:21, bits 20:16, bits 15:0, and the data a path-window
load is answered with. -/
structure CpeOp where
  hub : Half
  cpe : Nat
  x : Nat
  y : Nat
  imm : Nat
  dev : Nat
deriving DecidableEq, Repr

/-- A host request to a BAR of a function (R455, R459, R460): a write with its EP mark, a read, or an AtomicOp
(0 FetchAdd, 1 Swap, 2 CAS) of a size in bytes with its operands. -/
inductive InKind where
  | wr (d : List Byte) (ep : Bool)
  | rd (n : Nat)
  | atom (op size a b : Nat)
deriving DecidableEq, Repr

/-- The request: port, function, BAR (0 or 2), offset, and the host's tag. -/
structure InReq where
  port : Nat
  fn : Nat
  bar : Nat
  off : Nat
  tag : Nat
  kind : InKind
deriving DecidableEq, Repr

/-- Where the data of a tagged instruction's operand came from (R593): nowhere, L1D or (`frame`) the frame store, the own L2, the L3 of
a die, the Stockpot, or DRAM. An operand in register space or a window was served by a device. -/
inductive DataSrc where
  | none
  | l1 (frame : Bool)
  | l2
  | l3 (die : Nat)
  | stockpot
  | dram
deriving DecidableEq, Repr

/-- What served its translation (R592). -/
inductive TlbSrc where
  | l1
  | l2
  | locked
  | walkCached
  | walk
  | none
deriving DecidableEq, Repr

/-- What the core measured for a tagged instruction (R592): the operand fields of its sample record. -/
structure SampleOp where
  pc : Nat
  dva : Nat
  dpa : Nat
  fetch : Nat
  issue : Nat
  mem : Nat
  retire : Nat
  total : Nat
  source : DataSrc
  tlb : TlbSrc
  parcel : Nat
  ctx : Nat
  a5 : Bool
  pl : Nat
  exc : Bool
  store : Bool
  atomic : Bool
  uncached : Bool
deriving DecidableEq, Repr

/-- An event of core trace (R608): the VA of the next instruction, CCLK since the last record, TYPE 1–5, and whether the
group buffer is still being written. -/
structure TraceOp where
  target : Nat
  delta : Nat
  typ : Nat
  busy : Bool
deriving DecidableEq, Repr

/-- The structures of a core that are checked (R142). `late`: a check reported after its group's checkpoint came into force. -/
inductive CoreArr where
  | arith | control | l1i | l1d | frame | l1tag | l2tag | l2data | tlbLock | late
deriving DecidableEq, Repr

def CoreArr.n : CoreArr → Nat
  | .arith => 0 | .control => 1 | .l1i => 2 | .l1d => 3 | .frame => 4
  | .l1tag => 5 | .l2tag => 6 | .l2data => 7 | .tlbLock => 8 | .late => 9

/-- An uncorrectable error of a core (R142): LCN, the context that used the structure, the structure, its entry (set × 16 +
way of a cache, place in the lock array), and the sector of a cache line. -/
structure CoreErr where
  lcn : Nat
  ctx : Nat
  arr : CoreArr
  entry : Nat
  sector : Nat
deriving DecidableEq, Repr

/-- What a check of a core found beside the entry: the context, the structure and the sector. -/
structure CoreFind where
  ctx : Nat
  arr : CoreArr
  sector : Nat
deriving DecidableEq, Repr

/-- What a move meets: spares, in the order of choice, whose wake check fails (R151), and dirty L2 sectors that cannot be
corrected (R155). -/
structure MoveErrs where
  spares : List Nat
  sectors : List Nat
deriving DecidableEq, Repr

/-- A one-shot device operation as its unit receives it (R141, R237): the operation with its parameters. -/
inductive DevOp where
  /-- CSTART: subchannel, CPA, TAG, FLAGS, TMO (R312) -/
  | start (sub cpa tag flags tmo : Nat)
  | test (sub : Nat)
  | halt (sub : Nat)
  | clear (sub : Nat)
  /-- LAPPEND: stream, RECADDR, LENGTH, TAG, FLAGS (R112) -/
  | append (id addr len tag flags : Nat)
  /-- CMD: hub operand and packet (R118) -/
  | cmd (hub : Nat) (packet : List Byte)
deriving DecidableEq, Repr

/-- Who sends a one-shot operation: LCN, context, its level (0 U, 1 S, 2 H) and VMID, and the request ID (R140). -/
structure DevReq where
  lcn : Nat
  ctx : Nat
  level : Nat
  vmid : Nat
  rid : Nat
deriving DecidableEq, Repr

end Sys2Proof
end

