-- ==== Sys2Proof/Syntax.lean ====
section
/-! DEFINITION. The commands of the block: one constructor per row of the opcode table. -/
namespace Sys2Proof
open Machine

inductive Instr where
  /-- MODE_GET: Returns SYS_MODE and the current leader. -/
  | modeGet (p : Pkt)
  /-- MODE_SET: Checks and starts a package or half mode transition, or aborts a drain, and ends with one status. -/
  | modeSet (p : Pkt)
  /-- DRAIN_CTL_SET: Writes SYS_DRAIN_CTL in both hubs and returns the value held. -/
  | drainCtlSet (p : Pkt)
  /-- CLK_STEP_SET: Sets the CCLK divider of a run of LCNs, recording refused requests for later. -/
  | clkStepSet (p : Pkt)
  /-- PWR_STATE_SET: Requests a block power state, possibly through the deferred sequence for blocks in secure use. -/
  | pwrStateSet (p : Pkt)
  /-- PWR_STATE_GET: Returns the power state of a named unit. -/
  | pwrStateGet (p : Pkt)
  /-- CLK_STATUS_GET: Returns the root reference, fall-back die mask and last monitor counts. -/
  | clkStatusGet (p : Pkt)
  /-- TEMP_READ: Returns the temperature of a named die. -/
  | tempRead (p : Pkt)
  /-- SPARE_CORE: Moves an LCN to a spare in the given scope or ends FAILED when none is free. -/
  | spareCore (p : Pkt)
  /-- SPARE_STATE_GET: Returns the free spares and free-spare mask of a die. -/
  | spareStateGet (p : Pkt)
  /-- CORE_OFFLINE: Frees an LCN's physical core as a spare, or discards a parked LCN's images. -/
  | coreOffline (p : Pkt)
  /-- CORE_ONLINE: Gives an offline LCN a free spare of its half or ends FAILED. -/
  | coreOnline (p : Pkt)
  /-- L3_LINE_DELETE: Takes a named L3 set and way out of service. -/
  | l3LineDelete (p : Pkt)
  /-- MEM_SPARE: Starts copying a mapped channel onto the free spare channel. -/
  | memSpare (p : Pkt)
  /-- PATH_SET: Takes a path port offline or online, starting recovery where needed. -/
  | pathSet (p : Pkt)
  /-- BUCKET_SET: Sets threshold and leak period of a unit's corrected-error or retry bucket. -/
  | bucketSet (p : Pkt)
  /-- HOME_TIMER_SET: Sets the home transaction timeout of a half. -/
  | homeTimerSet (p : Pkt)
  /-- POOL_GET: Returns free pool resources for an attach port. -/
  | poolGet (p : Pkt)
  /-- VF_CREATE: Creates a VF with resources drawn from the hub pools. -/
  | vfCreate (p : Pkt)
  /-- VF_DESTROY: Returns a VF's resources, retires frozen entries and closes its streams. -/
  | vfDestroy (p : Pkt)
  /-- VF_QUIESCE: Stops reading a VF's SQs and waits for its work to end or a limit. -/
  | vfQuiesce (p : Pkt)
  /-- VF_FREEZE: Freezes a VF's work and writes its migration image. -/
  | vfFreeze (p : Pkt)
  /-- VF_RESTORE: Checks a migration image and restores it into a target VF. -/
  | vfRestore (p : Pkt)
  /-- VF_RESUME: Resumes a frozen or quiesced VF's queues and operations. -/
  | vfResume (p : Pkt)
  /-- VF_RESET: Resets a VF's host-visible state when it has no work in flight. -/
  | vfReset (p : Pkt)
  /-- LDG_STREAM_OPEN: Opens a ledger stream, chaining a GENESIS or RESUME frame and requesting an OPEN checkpoint. -/
  | ldgStreamOpen (p : Pkt)
  /-- LDG_STREAM_CLOSE: Stops appends, chains accepted ones and closes the stream after its CLOSE checkpoint. -/
  | ldgStreamClose (p : Pkt)
  /-- LDG_HEAD_READ: Copies a stream's 64-byte head to the caller's buffer. -/
  | ldgHeadRead (p : Pkt)
  /-- LDG_CHECKPOINT: Requests a COMMAND checkpoint of a stream. -/
  | ldgCheckpoint (p : Pkt)
  /-- LDG_SPOOL_SET: Binds or unbinds a stream's spool subchannel. -/
  | ldgSpoolSet (p : Pkt)
  /-- KEY_LOAD_SLOT: Unwraps a key into a slot bound to a world, function and job ring. -/
  | keyLoadSlot (p : Pkt)
  /-- KEY_GENERATE: Generates a key into a slot from the Lighthouse DRBG. -/
  | keyGenerate (p : Pkt)
  /-- KEY_ERASE: Overwrites a key slot and removes engine copies. -/
  | keyErase (p : Pkt)
  /-- KEY_SLOT_INFO: Returns a key slot's algorithm, world, function, ring and state. -/
  | keySlotInfo (p : Pkt)
  /-- KEY_PUBLIC_READ: Returns the public key of an ECDSA slot or of slot 0 or 1. -/
  | keyPublicRead (p : Pkt)
  /-- LOG_READ: Copies live event-log entries in write order to a buffer. -/
  | logRead (p : Pkt)
  /-- LOG_CLEAR: Removes live log entries up to a named index and frees reserved slots. -/
  | logClear (p : Pkt)
  /-- LOG_STATUS: Returns the oldest and newest index, lost count and reserved use. -/
  | logStatus (p : Pkt)
  /-- TIME_GET: Returns ST64, the UTC offset and its attested mark. -/
  | timeGet (p : Pkt)
  /-- TIME_SET_OFFSET: Sets the UTC offset in both hubs, attested when a valid time token is supplied. -/
  | timeSetOffset (p : Pkt)
  /-- TIME_ATTEST: Writes a DEVID-signed time statement with the caller's nonce. -/
  | timeAttest (p : Pkt)
  /-- PCT_SELECT: Selects an event for a counter and restarts it at zero. -/
  | pctSelect (p : Pkt)
  /-- PCT_COLLECT_SET: Starts, changes or stops periodic counter collection for a half. -/
  | pctCollectSet (p : Pkt)
  /-- PCT_FREEZE: Issues one freeze pulse and writes one MANUAL record. -/
  | pctFreeze (p : Pkt)
  /-- PCT_UREAD_SET: Allows or forbids RDPCT at U for one context. -/
  | pctUreadSet (p : Pkt)
  /-- PCT_SAMPLE_SET: Enables or stops instruction sampling on an LCN. -/
  | pctSampleSet (p : Pkt)
  /-- DIAG_PING: Echoes the first 24 parameter bytes. -/
  | diagPing (p : Pkt)
  /-- DIAG_SCRUB: Runs one full scrub pass of a channel and reports error counts. -/
  | diagScrub (p : Pkt)
  /-- DIAG_LINK_RETRAIN: Runs the retrain sequence on a named Rytum module. -/
  | diagLinkRetrain (p : Pkt)
  /-- DIAG_CORE_TEST: Tests the core that last served an offline LCN. -/
  | diagCoreTest (p : Pkt)
  /-- CAP_GET: Returns HUB_CAP0 to HUB_CAP3 of a half. -/
  | capGet (p : Pkt)
  /-- REV_GET: Returns firmware and image versions of a half. -/
  | revGet (p : Pkt)
  /-- PAIRING_GET: Returns both hub steppings and the pairing verdict. -/
  | pairingGet (p : Pkt)
  /-- COMMAND_TIMEOUT: An asynchronous command exceeds its bound and ends TIMEOUT with a log entry. -/
  | commandTimeout (src : Src) (tag : Nat)
  /-- STATUS_REPLY_POST: A held reply is posted once room appears in a full status ring. -/
  | statusReplyPost (h : Half) (level : Nat)
  /-- SYS_CR_TAIL_DOORBELL: A write of SYS_CR_TAIL makes the Harbourmaster fetch new command packets. -/
  | sysCrTailDoorbell (h : Half) (level : Nat) (v : Nat)
  /-- SYS_SR_HEAD_WRITE: Software consumes status replies, freeing room in the status ring. -/
  | sysSrHeadWrite (h : Half) (level : Nat) (v : Nat)
  /-- RING_STOP: A fetch or post error stops a command ring and completes its commands without replies. -/
  | ringStop (h : Half) (level : Nat)
  /-- STOPPED_CLEAR: Writing 1 to a ring's STOPPED bit clears it for recovery. -/
  | stoppedClear (h : Half) (level : Nat)
  /-- I3C_PRIVATE_WRITE: A 64-byte private write posts a command packet; other lengths are NACKed. -/
  | i3cPrivateWrite (h : Half) (d : List Byte)
  /-- I3C_PRIVATE_READ: A private read returns the oldest unread status reply or is NACKed. -/
  | i3cPrivateRead (h : Half)
  /-- ENTDAA: I3C dynamic address assignment. -/
  | entdaa (h : Half) (a : Nat)
  /-- SETDASA: I3C set dynamic address from static address. -/
  | setdasa (static : Nat) (a : Nat)
  /-- RSTDAA: I3C reset dynamic address. -/
  | rstdaa
  /-- GETPID: I3C read provisional ID. -/
  | getpid (h : Half)
  /-- GETBCR: I3C read bus characteristics register. -/
  | getbcr (h : Half)
  /-- GETDCR: I3C read device characteristics register. -/
  | getdcr (h : Half)
  /-- GETSTATUS: I3C read device status. -/
  | getstatus (h : Half)
  /-- ENEC: I3C enable events such as in-band interrupts. -/
  | enec (h : Half) (ev : Nat)
  /-- DISEC: I3C disable events. -/
  | disec (h : Half) (ev : Nat)
  /-- BUNDLE_WRITE: The management controller writes image bundle bytes to the Lighthouse at 0x2E or 0x2F. -/
  | bundleWrite (h : Half) (d : List Byte)
  /-- BUNDLE_READ: A private read returns the bundle acceptance state byte. -/
  | bundleRead (h : Half)
  /-- DRAIN_LIMIT_EXPIRY: The drain limit passes and units stop in-flight work as DRAIN requires. -/
  | drainLimitExpiry (half : Option Half)
  /-- DRAIN_COMPLETE: All units finish in-flight work and the package leaves DRAIN for its follow-on mode. -/
  | drainComplete (half : Option Half)
  /-- MODE_TRANSITION_COMPLETE: A running transition reaches its target mode and its MODE_SET receives its final reply. -/
  | modeTransitionComplete
  /-- RESILVER_COMPLETE: The copy to a rejoining half ends and the package becomes MIRRORED. -/
  | resilverComplete
  /-- HALF_BRINGUP_COMPLETE: A half brought up alone reaches RUNNING or fails back to HELD. -/
  | halfBringupComplete (h : Half)
  /-- HALF_LOSS: A half is lost and the package acts according to its mode. -/
  | halfLoss (h : Half) (cause : Nat)
  /-- BREAKWATER_LOSS: All Breakwater modules are fenced or silent while both alive lines toggle. -/
  | breakwaterLoss
  /-- ALIVE_LINE_TIMEOUT: The other hub's alive line shows no toggle for 4 µs, declaring that hub lost. -/
  | aliveLineTimeout (h : Half)
  /-- HARBOURMASTER_WATCHDOG: The Harbourmaster's 100 µs watchdog is not serviced and the alive line stops. -/
  | harbourmasterWatchdog (h : Half)
  /-- DIE_LOST: The region broker fences, resolves and resets a compute die declared lost. -/
  | dieLost (d : Nat) (cause : Nat)
  /-- BR: Branches to operand 1's address. -/
  | br (o : AnOp)
  /-- BCC: Branches when the TYPE condition holds on CC. -/
  | bcc (o : AnOp)
  /-- CALL: Pushes the return address and branches. -/
  | call (o : AnOp)
  /-- RET: Pops the return address into PC. -/
  | ret (o : AnOp)
  /-- SVC: Traps to S with a service number. -/
  | svc (o : AnOp)
  /-- HVC: Traps to H with a service number. -/
  | hvc (o : AnOp)
  /-- XRET: Restores PC and PSW from XPC and XPSW of the current level. -/
  | xret (o : AnOp)
  /-- NOP: Does nothing. -/
  | nop (o : AnOp)
  /-- WAIT: Stops issuing until an event is pending or the limit passes. -/
  | wait (o : AnOp)
  /-- WAIT_LIMIT_EXPIRY: A WAIT's µs limit passes and WAIT completes with CC 0x1. -/
  | waitLimitExpiry (lcn : Nat) (ctx : Nat)
  /-- ADD: Adds operands of the TYPE and sets CC. -/
  | add (o : AnOp)
  /-- SUB: Subtracts operands and sets CC. -/
  | sub (o : AnOp)
  /-- MUL: Signed multiply. -/
  | mul (o : AnOp)
  /-- MULU: Unsigned multiply. -/
  | mulu (o : AnOp)
  /-- DIV: Signed divide. -/
  | div (o : AnOp)
  /-- DIVU: Unsigned divide. -/
  | divu (o : AnOp)
  /-- REM: Signed remainder. -/
  | rem (o : AnOp)
  /-- REMU: Unsigned remainder. -/
  | remu (o : AnOp)
  /-- CMP: Signed compare writing only CC. -/
  | cmp (o : AnOp)
  /-- CMPU: Unsigned compare writing only CC. -/
  | cmpu (o : AnOp)
  /-- NEG: Negates operand. -/
  | neg (o : AnOp)
  /-- ABS: Absolute value. -/
  | abs (o : AnOp)
  /-- SQRT: Square root. -/
  | sqrt (o : AnOp)
  /-- MIN: Minimum of operands. -/
  | min (o : AnOp)
  /-- MAX: Maximum of operands. -/
  | max (o : AnOp)
  /-- MOV: Copies operand 1 to operand 2. -/
  | mov (o : AnOp)
  /-- CLR: Clears operand. -/
  | clr (o : AnOp)
  /-- CVT: Converts operand 1 between data types. -/
  | cvt (o : AnOp)
  /-- LEA: Writes operand 1's address to operand 2. -/
  | lea (o : AnOp)
  /-- AND: Bitwise AND. -/
  | and (o : AnOp)
  /-- OR: Bitwise OR. -/
  | or (o : AnOp)
  /-- XOR: Bitwise XOR. -/
  | xor (o : AnOp)
  /-- NOT: Bitwise NOT. -/
  | not (o : AnOp)
  /-- SHL: Shift left filling zeros. -/
  | shl (o : AnOp)
  /-- SHR: Shift right filling zeros. -/
  | shr (o : AnOp)
  /-- SAR: Shift right filling sign. -/
  | sar (o : AnOp)
  /-- ROT: Rotate left. -/
  | rot (o : AnOp)
  /-- TEST: Sets N and Z from AND of operands. -/
  | test (o : AnOp)
  /-- MOVS: Copies a byte string. -/
  | movs (o : AnOp)
  /-- CMPS: Compares byte strings. -/
  | cmps (o : AnOp)
  /-- TRS: Translates bytes through a 256-byte table. -/
  | trs (o : AnOp)
  /-- SRCH: Finds a byte in a string and writes its offset to G0. -/
  | srch (o : AnOp)
  /-- CAS: Atomic compare-and-swap at the home. -/
  | cas (o : AnOp)
  /-- SWAP: Atomic swap. -/
  | swap (o : AnOp)
  /-- FADD: Atomic fetch-and-add. -/
  | fadd (o : AnOp)
  /-- MFCR: Reads a control register. -/
  | mfcr (o : AnOp)
  /-- MTCR: Writes a control register. -/
  | mtcr (o : AnOp)
  /-- MFPSW: Reads PSW. -/
  | mfpsw (o : AnOp)
  /-- MTPSW: Writes the RW fields of PSW. -/
  | mtpsw (o : AnOp)
  /-- WRFB: Writes a frame bank base and drops its frame-store lines. -/
  | wrfb (o : AnOp)
  /-- RDFB: Reads a frame bank base. -/
  | rdfb (o : AnOp)
  /-- SVA5: Saves A5 state to a 256-byte area. -/
  | sva5 (o : AnOp)
  /-- LDA5: Loads A5 state from a 256-byte area. -/
  | lda5 (o : AnOp)
  /-- TLBIVA: Broadcast invalidation of unlocked entries for a VA. -/
  | tlbiva (o : AnOp)
  /-- TLBIASID: Broadcast invalidation by ASID. -/
  | tlbiasid (o : AnOp)
  /-- TLBIALL: Broadcast invalidation of all unlocked entries of the regime. -/
  | tlbiall (o : AnOp)
  /-- TLBIVMID: Broadcast invalidation by VMID. -/
  | tlbivmid (o : AnOp)
  /-- TLBIIPA: Broadcast invalidation by IPA. -/
  | tlbiipa (o : AnOp)
  /-- TLBILCK: Broadcast removal of locked entries for a VA. -/
  | tlbilck (o : AnOp)
  /-- TLBSYNC: Waits until earlier broadcast invalidations have completed everywhere. -/
  | tlbsync (o : AnOp)
  /-- TLBIVA_L: Local TLBIVA on the executing core. -/
  | tlbivaL (o : AnOp)
  /-- TLBIASID_L: Local TLBIASID. -/
  | tlbiasidL (o : AnOp)
  /-- TLBIALL_L: Local TLBIALL. -/
  | tlbiallL (o : AnOp)
  /-- TLBIVMID_L: Local TLBIVMID. -/
  | tlbivmidL (o : AnOp)
  /-- TLBIIPA_L: Local TLBIIPA. -/
  | tlbiipaL (o : AnOp)
  /-- TLBILCK_L: Local TLBILCK. -/
  | tlbilckL (o : AnOp)
  /-- TLB_INVALIDATION_ARRIVAL: A broadcast invalidation reaches a core and removes matching entries. -/
  | tlbInvalidationArrival (lcn : Nat)
  /-- PUBLISH: Completes when all earlier stores of the context are globally performed. -/
  | publish (o : AnOp)
  /-- CSTART: Starts a channel operation, writing an IFT entry before replying. -/
  | cstart (o : AnOp)
  /-- CTEST: Stores a subchannel's status record. -/
  | ctest (o : AnOp)
  /-- CHALT: Sends HALT to a subchannel's active operation. -/
  | chalt (o : AnOp)
  /-- CCLEAR: Clears queued starts and resets the active operation. -/
  | cclear (o : AnOp)
  /-- LAPPEND: Submits one record to a ledger stream. -/
  | lappend (o : AnOp)
  /-- WRPKR: Writes PKR. -/
  | wrpkr (o : AnOp)
  /-- RDPKR: Reads PKR. -/
  | rdpkr (o : AnOp)
  /-- TLOCK: Translates an address and locks its L2 TLB entry. -/
  | tlock (o : AnOp)
  /-- TUNLOCK: Unlocks a locked TLB entry. -/
  | tunlock (o : AnOp)
  /-- RDPCT: Reads a counter of the executing core. -/
  | rdpct (o : AnOp)
  /-- CMD: Copies a packet into the command ring of the current level and rings it. -/
  | cmd (o : AnOp)
  /-- A5_NOP: A5 no operation. -/
  | a5Nop (o : A5Op)
  /-- A5_LD: A5 load register from EA(RB,F). -/
  | a5Ld (o : A5Op)
  /-- A5_ST: A5 store register to EA(RB,F). -/
  | a5St (o : A5Op)
  /-- A5_LDS: A5 load from short address. -/
  | a5Lds (o : A5Op)
  /-- A5_STS: A5 store to short address. -/
  | a5Sts (o : A5Op)
  /-- A5_LDB: A5 load byte into a D register. -/
  | a5Ldb (o : A5Op)
  /-- A5_STB: A5 store byte from a D register. -/
  | a5Stb (o : A5Op)
  /-- A5_LEA: A5 load effective address into an A register. -/
  | a5Lea (o : A5Op)
  /-- A5_MOV: A5 move between registers under class rules. -/
  | a5Mov (o : A5Op)
  /-- A5_LDI: A5 load sign-extended immediate. -/
  | a5Ldi (o : A5Op)
  /-- A5_LUI: A5 load upper immediate. -/
  | a5Lui (o : A5Op)
  /-- A5_ADD: A5 add. -/
  | a5Add (o : A5Op)
  /-- A5_SUB: A5 subtract. -/
  | a5Sub (o : A5Op)
  /-- A5_ADDI: A5 add immediate. -/
  | a5Addi (o : A5Op)
  /-- A5_MUL: A5 accumulator multiply. -/
  | a5Mul (o : A5Op)
  /-- A5_DIV: A5 accumulator divide. -/
  | a5Div (o : A5Op)
  /-- A5_REM: A5 accumulator remainder. -/
  | a5Rem (o : A5Op)
  /-- A5_DADD: A5 packed-decimal add. -/
  | a5Dadd (o : A5Op)
  /-- A5_DSUB: A5 packed-decimal subtract. -/
  | a5Dsub (o : A5Op)
  /-- A5_DMUL: A5 packed-decimal multiply. -/
  | a5Dmul (o : A5Op)
  /-- A5_DDIV: A5 packed-decimal divide. -/
  | a5Ddiv (o : A5Op)
  /-- A5_AND: A5 AND of D registers. -/
  | a5And (o : A5Op)
  /-- A5_OR: A5 OR of D registers. -/
  | a5Or (o : A5Op)
  /-- A5_XOR: A5 XOR of D registers. -/
  | a5Xor (o : A5Op)
  /-- A5_NOT: A5 NOT of a D register. -/
  | a5Not (o : A5Op)
  /-- A5_SHL: A5 shift left. -/
  | a5Shl (o : A5Op)
  /-- A5_SHR: A5 logical shift right. -/
  | a5Shr (o : A5Op)
  /-- A5_SAR: A5 arithmetic shift right. -/
  | a5Sar (o : A5Op)
  /-- A5_ROT: A5 rotate left. -/
  | a5Rot (o : A5Op)
  /-- A5_CMP: A5 signed compare. -/
  | a5Cmp (o : A5Op)
  /-- A5_CMPU: A5 unsigned compare. -/
  | a5Cmpu (o : A5Op)
  /-- A5_CMPI: A5 compare with immediate. -/
  | a5Cmpi (o : A5Op)
  /-- A5_BC: A5 conditional branch. -/
  | a5Bc (o : A5Op)
  /-- A5_CALL: A5 call by offset. -/
  | a5Call (o : A5Op)
  /-- A5_CALLR: A5 call through register. -/
  | a5Callr (o : A5Op)
  /-- A5_RET: A5 return. -/
  | a5Ret (o : A5Op)
  /-- A5_JMP: A5 jump. -/
  | a5Jmp (o : A5Op)
  /-- A5_TRAP: A5 supervisor call trap. -/
  | a5Trap (o : A5Op)
  /-- EXTERNAL_INTERRUPT: A pending external interrupt is taken between instructions. -/
  | externalInterrupt (l : Nat) (c : Nat) (vector : Nat)
  /-- MODE_CHANGE_INTERRUPT: The mode-change interrupt is taken at DRAIN entry. -/
  | modeChangeInterrupt (l : Nat) (c : Nat)
  /-- CLOCK_LOSS_INTERRUPT: The non-maskable clock-loss event is taken. -/
  | clockLossInterrupt (l : Nat) (c : Nat)
  /-- DEBUG_EXCEPTION: A single-step DEBUG exception follows an instruction under PSW.SS. -/
  | debugException (l : Nat) (c : Nat)
  /-- CORE_ERROR_DETECTED: A check detects an error eligible for retry and the core rolls back to the checkpoint. -/
  | coreErrorDetected (l : Nat) (entry : Nat) (kind : CoreFind)
  /-- RETRY_ATTEMPT_END: A retry attempt succeeds, fails or exceeds 4 µs, leading to success, a second attempt or sparing. -/
  | retryAttemptEnd (l : Nat) (ok : Bool)
  /-- CORRECTED_ERROR: A corrected error adds 1 to its unit's leaky bucket. -/
  | correctedError (u : Nat)
  /-- BUCKET_LEAK: A leak period passes and a bucket's count falls by 1. -/
  | bucketLeak (u : Nat)
  /-- CORE_MOVE: The die broker moves an LCN's contexts to a spare core. -/
  | coreMove (l : Nat) (bad : MoveErrs)
  /-- CORE_MOVE_COMPLETE: The route epoch change ends and the spare resumes both contexts. -/
  | coreMoveComplete (l : Nat)
  /-- CONTEXT_LOST: An uncorrectable checkpoint or store-buffer error loses a context, which resumes at MACHINE_CHECK. -/
  | contextLost (l : Nat) (c : Nat) (n : Nat)
  /-- RDS: A home receives a read-to-share request. -/
  | rds (m : Msg) (err : Nat)
  /-- RDX: A home receives a read-for-ownership request. -/
  | rdx (m : Msg)
  /-- UPG: A home receives an upgrade request. -/
  | upg (m : Msg)
  /-- RDC: A home receives a current-copy read. -/
  | rdc (m : Msg)
  /-- WRF: A home receives a full-sector write. -/
  | wrf (m : Msg)
  /-- WRP: A home receives a partial write. -/
  | wrp (m : Msg) (err : Nat)
  /-- ATM: A home's NMU executes an atomic. -/
  | atm (m : Msg)
  /-- MNT: A home executes a maintenance operation on a sector. -/
  | mnt (m : Msg)
  /-- WBN: A home absorbs a writeback notice and clears the owner. -/
  | wbn (m : Msg)
  /-- SNPS: An agent answers a shared snoop. -/
  | snps (m : Msg)
  /-- SNPX: An agent answers an invalidating snoop. -/
  | snpx (m : Msg)
  /-- SNPC: An agent returns dirty data keeping state. -/
  | snpc (m : Msg)
  /-- SNPK: An agent writes dirty data to memory keeping a clean copy. -/
  | snpk (m : Msg)
  /-- SNPI: An agent invalidates discarding dirty data. -/
  | snpi (m : Msg)
  /-- PURGE: An L2 writes back every dirty line of a set after an L3 tag error. -/
  | purge (die : Nat) (slice : Nat) (set : Nat) (way : Nat) (line : Nat) (ue : List Nat) (stateErr : Bool)
  /-- RSP_I: A home receives a snoop response leaving I. -/
  | rspI (m : Msg)
  /-- RSP_S: A home receives a snoop response leaving S. -/
  | rspS (m : Msg)
  /-- RSP_E: A home receives a snoop response leaving E. -/
  | rspE (m : Msg)
  /-- RSP_O: A home receives a snoop response leaving O. -/
  | rspO (m : Msg)
  /-- RSP_M: A home receives a snoop response leaving M. -/
  | rspM (m : Msg)
  /-- RSP_MISS: A home receives a miss response, poisoning when a recorded owner misses. -/
  | rspMiss (m : Msg)
  /-- RSP_EVICTING: A home receives an evicting response and waits for the WBN. -/
  | rspEvicting (m : Msg)
  /-- GNT_S: A requester receives a shared grant. -/
  | gntS (m : Msg)
  /-- GNT_E: A requester receives an exclusive grant. -/
  | gntE (m : Msg)
  /-- GNT_M: A requester receives a modified grant. -/
  | gntM (m : Msg)
  /-- CMP_COMPLETION: A requester receives completion of a non-caching request. -/
  | cmpCompletion (m : Msg)
  /-- CACK: A home receives a grant acknowledgement and unlocks the sector. -/
  | cack (m : Msg)
  /-- WBACK: An owner frees its victim-buffer entry. -/
  | wback (m : Msg)
  /-- RETRY: A requester receives RETRY and waits its HINT before resending. -/
  | retry (op : MsgOp) (m : Msg)
  /-- RETRY_RESEND: The RETRY wait expires and the request is sent again. -/
  | retryResend (agent : Nat) (sector : Nat)
  /-- HOME_PARK_RELEASE: A needed entry frees and the oldest parked tide-7 request is served. -/
  | homeParkRelease (h : Half)
  /-- HOME_TIMEOUT: A home transaction timer expires and the sector is poisoned. -/
  | homeTimeout (h : Half) (tx : Nat)
  /-- LATE_RESPONSE: A response or WBN for an ended transaction is discarded and the agent sent SNPI. -/
  | lateResponse (op : MsgOp) (m : Msg)
  /-- RRD: A unit receives an uncached register or window read. -/
  | rrd (m : Msg)
  /-- RWR: A unit receives an uncached register or window write. -/
  | rwr (m : Msg)
  /-- OPS: A unit receives a one-shot device operation, answering from its reply latch when repeated. -/
  | ops (q : DevReq) (x : DevOp)
  /-- ONE_SHOT_RELEASE: A unit frees a reply latch on release or a new request ID. -/
  | oneShotRelease (lcn : Nat) (ctx : Nat) (rid : Nat)
  /-- INT: An interrupt packet reaches an LCN. -/
  | int (lcn : Nat) (vector : Nat)
  /-- DOMAIN_ASLEEP: A sending stop receives DOMAIN_ASLEEP and resends after the HINT wait. -/
  | domainAsleep (op : MsgOp) (m : Msg) (unit : Nat)
  /-- DOMAIN_OFF: A sending stop receives DOMAIN_OFF and gives its agent an address error. -/
  | domainOff (op : MsgOp) (m : Msg) (unit : Nat)
  /-- AERR: A requester receives an address-error response. -/
  | aerr (m : Msg)
  /-- MIRW: A mirror home applies a sector write from the ordering home. -/
  | mirw (m : Msg)
  /-- MIRACK: The ordering side receives acknowledgement of a mirrored update. -/
  | mirack (m : Msg)
  /-- MIRH: A hub stores 64 bytes of a mirrored hold-domain item. -/
  | mirh (h : Half)
  /-- TIDE_RAISE: A packet waiting 256 FCLK at a stop rises one tide level. -/
  | tideRaise (j : Nat)
  /-- ROUTE_EPOCH_CHANGE: A two-epoch route change completes when the old-epoch population reaches zero. -/
  | routeEpochChange (scope : Nat)
  /-- FLIT_CHECK_FAIL: A receiver finds a bad CRC or LSEQ and sends NAK. -/
  | flitCheckFail (k : Nat) (n : Nat)
  /-- NAK: A sender receives NAK and resends from the next LSEQ. -/
  | nak (k : Nat) (ok : Bool)
  /-- RYTUM_RETRAIN: A module retrains after 8 failures or 16 replays in 1 ms. -/
  | rytumRetrain (k : Nat)
  /-- RYTUM_TRAINING_END: Training ends at a width or fails, leading to a further attempt or fencing. -/
  | rytumTrainingEnd (k : Nat) (failed : Nat) (spare : Nat)
  /-- HEARTBEAT_SEND: Every 1,024 FCLK each side sends its trained width on SB0. -/
  | heartbeatSend (k : Nat)
  /-- HEARTBEAT: A side receives a heartbeat and starts a hold and retrain on width disagreement. -/
  | heartbeat (k : Nat)
  /-- FORWARDED_CLOCK_LOSS: A die's forwarded clock misses 16 RCLK and it moves to its standby PLL. -/
  | forwardedClockLoss (d : Nat)
  /-- MODULE_RESET: The Harbourmaster resets one side of a Rytum module after a sideband fault. -/
  | moduleReset (k : Nat)
  /-- CA_PARITY_ALERT: A command/address parity alert replays commands or forces a full retrain. -/
  | caParityAlert (h : Half) (c : Nat) (outcome : Nat) (lost : List Nat)
  /-- MERGE_DRAIN: A merge entry drains when full, after 256 FCLK, or when needed. -/
  | mergeDrain (h : Half) (c : Nat) (j : Nat) (err : Nat)
  /-- PATROL_SCRUB: The scrubber reads the next sector on its schedule. -/
  | patrolScrub (h : Half) (c : Nat) (err : Nat)
  /-- RFM_ISSUE: A bank's activation count reaches the module threshold and RFM is issued. -/
  | rfmIssue (h : Half) (c : Nat) (bank : Nat)
  /-- AGGRESSOR_DETECTED: A row reaches the aggressor threshold; neighbours are refreshed and the requester throttled. -/
  | aggressorDetected (h : Half) (c : Nat) (src : Nat) (port : Nat)
  /-- REFRESH_WINDOW_END: A refresh window ends and throttle levels without new aggressors fall by 1. -/
  | refreshWindowEnd (h : Half) (c : Nat)
  /-- PERIODIC_RETRAIN: A channel pauses for its periodic retrain every 100 ms. -/
  | periodicRetrain (h : Half) (c : Nat) (outcome : Nat)
  /-- SPARING_COPY_LINE: The home copies the line at PTR from the failing channel to the spare. -/
  | sparingCopyLine (h : Half) (errs : List Nat)
  /-- SPARING_COPY_COMPLETE: The last line is copied and the spare takes the slot. -/
  | sparingCopyComplete (h : Half)
  /-- CHANNEL_ZEROING_COMPLETE: A channel finishes zeroing and its readiness bit sets. -/
  | channelZeroingComplete (h : Half) (c : Nat)
  /-- MEM_UE_CLEAR: Writing 1 to MEM_UE.V clears the latch and MORE. -/
  | memUeClear (h : Half) (c : Nat)
  /-- CSS_CQ_HEAD_WRITE: A head write retires completion-queue records and their IFT entries. -/
  | cssCqHeadWrite (h : Half) (q : Nat) (v : Nat)
  /-- CQ_POST: A decided final status is posted into its completion queue when room allows. -/
  | cqPost (h : Half) (j : Nat)
  /-- ATTACH_START_ENTRY: An attach START entry starts a channel operation as CSTART does. -/
  | attachStartEntry (q : Nat)
  /-- OPERATION_DISPATCH: The oldest queued start is dispatched when the previous final status is decided. -/
  | operationDispatch (h : Half) (n : Nat)
  /-- OPERATION_TIMEOUT: An operation timeout expires; ABORT runs and the path is treated as lost. -/
  | operationTimeout (h : Half) (j : Nat)
  /-- PATHDOWN: A path is lost under an active operation, leading to redispatch, redrive or query. -/
  | pathdown (h : Half) (j : Nat)
  /-- RECOVERY_QUERY_END: The image's QUERY entry ends with DONE, NOT_DONE or UNKNOWN. -/
  | recoveryQueryEnd (h : Half) (j : Nat) (outcome : Nat)
  /-- HALT_CONFIRM_TIMEOUT: A halt or clear is not confirmed within 100 ms and ends INDETERMINATE. -/
  | haltConfirmTimeout (h : Half) (j : Nat)
  /-- FREEZE_TIMEOUT: A device command unfinished 4 ms after FREEZE is aborted. -/
  | freezeTimeout (h : Half) (j : Nat)
  /-- DEVICE_EVENT: A device completion wakes a parked operation's RESUME entry. -/
  | deviceEvent (h : Half) (j : Nat)
  /-- EVENT_PAGE_WRITE: An endpoint write to an event slot wakes the parked operation. -/
  | eventPageWrite (h : Half) (cpe : Nat) (slot : Nat)
  /-- PATH_PORT_FAILED: A path port becomes FAILED and writes PATH_FAILED. -/
  | pathPortFailed (pp : Nat) (cause : Nat)
  /-- PATH_RECOVERY_CYCLE: A FAILED port pulses PERST#, trains and runs PATHUP entries. -/
  | pathRecoveryCycle (pp : Nat) (gen : Nat) (width : Nat) (switch : Bool)
  /-- PATH_TRAINING_TIMEOUT: A port fails to train within 1 s and repeats the cycle later. -/
  | pathTrainingTimeout (pp : Nat)
  /-- PATHUP_END: A PATHUP entry ends and the port returns ONLINE or stays FAILED. -/
  | pathupEnd (pp : Nat) (image : Nat) (outcome : Nat)
  /-- PATH_OFFLINE_LIMIT: Operations still active 1 ms after PATH_SET offline are moved as on path loss. -/
  | pathOfflineLimit (pp : Nat)
  /-- PATH_INBOUND_REQUEST: A path port endpoint's memory request is served or answered UR. -/
  | pathInboundRequest (pp : Nat) (pa : Nat) (n : Nat) (wr : Option (List Byte))
  /-- CPE_WAIT: CPE parks the operation until an event. -/
  | cpeWait (o : CpeOp)
  /-- CPE_ADD: CPE add. -/
  | cpeAdd (o : CpeOp)
  /-- CPE_SUB: CPE subtract. -/
  | cpeSub (o : CpeOp)
  /-- CPE_AND: CPE AND. -/
  | cpeAnd (o : CpeOp)
  /-- CPE_OR: CPE OR. -/
  | cpeOr (o : CpeOp)
  /-- CPE_XOR: CPE XOR. -/
  | cpeXor (o : CpeOp)
  /-- CPE_SLL: CPE shift left. -/
  | cpeSll (o : CpeOp)
  /-- CPE_SRL: CPE logical shift right. -/
  | cpeSrl (o : CpeOp)
  /-- CPE_SRA: CPE arithmetic shift right. -/
  | cpeSra (o : CpeOp)
  /-- CPE_SLTU: CPE set if less than unsigned. -/
  | cpeSltu (o : CpeOp)
  /-- CPE_ADDI: CPE add immediate. -/
  | cpeAddi (o : CpeOp)
  /-- CPE_ANDI: CPE AND immediate. -/
  | cpeAndi (o : CpeOp)
  /-- CPE_ORI: CPE OR immediate. -/
  | cpeOri (o : CpeOp)
  /-- CPE_LUI: CPE load upper immediate. -/
  | cpeLui (o : CpeOp)
  /-- CPE_LW: CPE load word with load delay. -/
  | cpeLw (o : CpeOp)
  /-- CPE_LHU: CPE load halfword. -/
  | cpeLhu (o : CpeOp)
  /-- CPE_LBU: CPE load byte. -/
  | cpeLbu (o : CpeOp)
  /-- CPE_SW: CPE store word. -/
  | cpeSw (o : CpeOp)
  /-- CPE_SH: CPE store halfword. -/
  | cpeSh (o : CpeOp)
  /-- CPE_SB: CPE store byte. -/
  | cpeSb (o : CpeOp)
  /-- CPE_BEQ: CPE branch if equal. -/
  | cpeBeq (o : CpeOp)
  /-- CPE_BNE: CPE branch if not equal. -/
  | cpeBne (o : CpeOp)
  /-- CPE_BLTU: CPE branch if less unsigned. -/
  | cpeBltu (o : CpeOp)
  /-- CPE_BGEU: CPE branch if greater or equal unsigned. -/
  | cpeBgeu (o : CpeOp)
  /-- CPE_JAL: CPE jump and link. -/
  | cpeJal (o : CpeOp)
  /-- CPE_JR: CPE jump to register. -/
  | cpeJr (o : CpeOp)
  /-- NXCMD: Loads and checks the next channel command, ending the operation on a fault. -/
  | nxcmd (o : CpeOp)
  /-- WSET: Sets a CPE window base. -/
  | wset (o : CpeOp)
  /-- CPE_POST: Ends the operation with a final status. -/
  | cpePost (o : CpeOp)
  /-- CKPT: Writes TOUCHED, NONIDEM or SENSE to the IFT entry and waits for it. -/
  | ckpt (o : CpeOp)
  /-- CPE_END: Ends a service entry with an outcome. -/
  | cpeEnd (o : CpeOp)
  /-- EVADDR: Returns the physical address of the operation's event slot. -/
  | evaddr (o : CpeOp)
  /-- INTERRUPTED_REPORT: Enabling a CQ after bring-up posts its INTERRUPTED entries. -/
  | interruptedReport (h : Half) (q : Nat)
  /-- SEAL_RING_TAIL_DOORBELL: A job-ring tail write makes the bound engine fetch descriptors. -/
  | sealRingTailDoorbell (h : Half) (r : Nat) (v : Nat)
  /-- SEAL_RING_ENABLE: Setting EN binds the ring to an engine. -/
  | sealRingEnable (h : Half) (r : Nat)
  /-- SEAL_JOB_START: An engine takes the next job at a job boundary and checks it. -/
  | sealJobStart (h : Half) (e : Nat)
  /-- SEAL_JOB_COMPLETE: A job ends and its completion is posted when room allows. -/
  | sealJobComplete (h : Half) (e : Nat) (arrayErr : Bool)
  /-- SEAL_RING_CHEAD_WRITE: Software consumes completions, freeing room for held records. -/
  | sealRingCheadWrite (h : Half) (r : Nat) (v : Nat)
  /-- SEAL_RING_STOP: A fetch or post error stops a seal ring. -/
  | sealRingStop (h : Half) (r : Nat)
  /-- SEAL_POWER_PREEMPT: A job still running 2 ms after a power request ends PREEMPTED_BY_POWER. -/
  | sealPowerPreempt (h : Half) (e : Nat)
  /-- SEAL_ENG_ERR_CLEAR: Writing 1 to SEAL_ENG_ERR.V clears the latch. -/
  | sealEngErrClear (h : Half) (e : Nat)
  /-- MOV_CH_TAIL_DOORBELL: A mover channel tail write makes descriptors waiting. -/
  | movChTailDoorbell (h : Half) (m : Nat) (ch : Nat) (v : Nat)
  /-- MOVER_DESCRIPTOR_START: A mover takes the next channel's descriptor and checks it. -/
  | moverDescriptorStart (h : Half) (m : Nat)
  /-- MOVER_BURST: A channel starts a burst once its pacing interval has passed. -/
  | moverBurst (h : Half) (m : Nat)
  /-- MOVER_DESCRIPTOR_COMPLETE: A descriptor's writes complete and RESULT is written. -/
  | moverDescriptorComplete (h : Half) (m : Nat)
  /-- MOVER_HALT: A failed access halts the channel and latches the error. -/
  | moverHalt (h : Half) (m : Nat) (pa : Nat) (wr : Bool) (poison : Bool)
  /-- RESUME: A halted channel retries its failing access and continues. -/
  | resume (h : Half) (m : Nat) (ch : Nat)
  /-- SKIP: A halted descriptor completes FAILED and the channel continues. -/
  | skip (h : Half) (m : Nat) (ch : Nat)
  /-- ABORT: As SKIP, then the channel clears EN. -/
  | abort (h : Half) (m : Nat) (ch : Nat)
  /-- MOVER_POWER_STOP: A mover leaving ACTIVE stops at a burst boundary. -/
  | moverPowerStop (h : Half) (m : Nat)
  /-- APPEND_ENTRY: An attach APPEND entry submits a record to a function's stream. -/
  | appendEntry (q : Nat)
  /-- APPEND_FORMAT: The formatter reads, seals, hashes and frames an accepted append. -/
  | appendFormat (id : Nat) (sealFail : Bool)
  /-- APPEND_CHAIN: A framed append is chained, written and its head updated in sequence order. -/
  | appendChain (id : Nat)
  /-- LEDGER_COMPLETION_POST: The engine posts a completion entry when the ring has room. -/
  | ledgerCompletionPost (id : Nat)
  /-- RING_SPACE_WAIT: Appends waiting for record-area space resume once RHEAD or the spool advances. -/
  | ringSpaceWait (id : Nat)
  /-- CHECKPOINT_TIMER: T ms since the last checkpoint with new frames requests one. -/
  | checkpointTimer (id : Nat)
  /-- CHECKPOINT_SIGN: The Lighthouse signs a head snapshot and the CHECKPOINT frame is written. -/
  | checkpointSign (h : Half)
  /-- CLOSE_TIMEOUT: A close checkpoint not written within 100 ms ends the close TIMEOUT. -/
  | closeTimeout (id : Nat)
  /-- SPOOL_START: The engine starts a spool operation for unspooled frames. -/
  | spoolStart (id : Nat)
  /-- SPOOL_FINAL_STATUS: A spool operation's final status advances DSEQ or fails the spool. -/
  | spoolFinalStatus (h : Half) (j : Nat)
  /-- LDG_ERR_CLEAR: Writing 1 to LDG_ERR.V clears the latch. -/
  | ldgErrClear (h : Half)
  /-- PCIE_CONFIG_REQUEST: An attach port answers a configuration request, with CRS before readiness. -/
  | pcieConfigRequest (port : Nat) (fn : Nat) (off : Nat) (tag : Nat) (wr : Option (Nat × Nat))
  /-- INBOUND_MEMORY_REQUEST: A host request to BAR2 is matched against windows and performed or answered UR. -/
  | inboundMemoryRequest (r : InReq)
  /-- PEER_FORWARD: A PF0 request matching a peer window is re-issued on the target port. -/
  | peerForward (r : InReq)
  /-- ATT_QP_SQTAIL_DOORBELL: An SQ tail write makes the port read and hand on SQ entries. -/
  | attQpSqtailDoorbell (q : Nat) (v : Nat)
  /-- ATT_QP_CQHEAD_WRITE: The host consumes CQ entries, freeing room for held entries. -/
  | attQpCqheadWrite (q : Nat) (v : Nat)
  /-- QUEUE_PAIR_STOP: A queue pair stops with a cause. -/
  | queuePairStop (q : Nat) (cause : Nat)
  /-- ATT_MSG_TXTAIL_DOORBELL: Software's send-ring tail write makes the port deliver replies to the host CQ. -/
  | attMsgTxtailDoorbell (q : Nat) (v : Nat)
  /-- ATT_MSG_RXHEAD_WRITE: Software consumes receive-ring entries, releasing a held SQ. -/
  | attMsgRxheadWrite (q : Nat) (v : Nat)
  /-- ATT_WIN_COMMIT: A commit checks and swaps a window set, clearing GO once old accesses end. -/
  | attWinCommit (port : Nat) (v : Nat)
  /-- FUNCTION_LEVEL_RESET: An FLR resets a function's host-visible state while package work runs on. -/
  | functionLevelReset (k : Nat)
  /-- HOT_RESET: A hot reset or link-down acts as FLR of every function and clears VF Enable. -/
  | hotReset (port : Nat) (down : Bool)
  /-- BUS_MASTER_DISABLE: Clearing Bus Master Enable freezes the function's requests and queues. -/
  | busMasterDisable (k : Nat)
  /-- BME_LOST_CLEAR: Writing 1 to BME_LOST with Bus Master Enable set resumes the queues. -/
  | bmeLostClear (k : Nat)
  /-- ATTACH_WINDOW_ACCESS: A core's access to an attach window is sent to the partner host. -/
  | attachWindowAccess (lcn : Nat) (ctx : Nat) (port : Nat) (off : Nat) (n : Nat) (wr : Option (List Byte))
  /-- ATTACH_COMPLETION_TIMEOUT: A port request times out and is reported. -/
  | attachCompletionTimeout (port : Nat) (tag : Nat)
  /-- LTR_UPDATE: The port sends an LTR message when its state calls for a new value. -/
  | ltrUpdate (port : Nat)
  /-- ATT_FN_ISR_CLEAR: Writing 1 to ISR bits clears INTx pending bits. -/
  | attFnIsrClear (k : Nat) (v : Nat)
  /-- LH_MB_DB: A mailbox doorbell marks an inbound slot pending. -/
  | lhMbDb (h : Half) (mask : Nat)
  /-- MAILBOX_TAKE: The Lighthouse takes the next pending request in round-robin order. -/
  | mailboxTake (h : Half)
  /-- LH_MB_OUTPEND_CLEAR: Software acknowledges a reply, freeing the slot. -/
  | lhMbOutpendClear (h : Half) (mask : Nat)
  /-- DBG_CHALLENGE: Returns a new nonce, serial and lifecycle. -/
  | dbgChallenge (h : Half)
  /-- DBG_UNLOCK: Verifies an unlock token and grants debug enables. -/
  | dbgUnlock (h : Half)
  /-- DBG_RELOCK: Ends the current debug grant. -/
  | dbgRelock (h : Half)
  /-- LC_ADVANCE: Verifies a lifecycle token and blows lifecycle bits in both hubs. -/
  | lcAdvance (h : Half)
  /-- FW_STAGE: Verifies an envelope from DRAM and stages or installs the image. -/
  | fwStage (h : Half)
  /-- GRANT_EXPIRY: A debug grant's duration passes and enables return to defaults. -/
  | grantExpiry
  /-- DEFERRED_POWER_LIMIT: A secure job still running 2 ms after DEFERRED is preempted and the block goes down. -/
  | deferredPowerLimit (u : Nat)
  /-- ST64_STEER: Hub B steers its ST64 towards Hub A's. -/
  | st64Steer (d : Nat)
  /-- FEED_LOSS: A main feed is declared lost and the other carries the package. -/
  | feedLoss (k : Nat)
  /-- FEED_RETURN: A lost feed has been in range 10 ms and serves again. -/
  | feedReturn (k : Nat)
  /-- BOTH_FEEDS_LOST: Both main feeds are lost; the hold domain moves to VHOLD and the package enters HOLD. -/
  | bothFeedsLost
  /-- VHOLD_LOSS: VHOLD leaves range while used and the package passes to OFF. -/
  | vholdLoss
  /-- HOLD_POWER_UP: The hold domain powers from OFF and the package reaches HOLD. -/
  | holdPowerUp (k : Nat)
  /-- PWRFAIL_WARN: PWRFAIL_WARN_N becomes active and the package drains to HOLD. -/
  | pwrfailWarn
  /-- RESET_N_ASSERT: RESET_N asserted takes the package to or keeps it in HOLD. -/
  | resetNAssert
  /-- RESET_N_RELEASE: RESET_N released with a feed in range enters BRINGUP. -/
  | resetNRelease
  /-- THROTTLE_N: THROTTLE_N changes and cores run at divider 6 or return. -/
  | throttleN (on : Bool)
  /-- SERVICE_N: SERVICE_N becomes active and sets SVC with an in-band interrupt. -/
  | serviceN (on : Bool)
  /-- SIDEBAND_STUCK: An input active beyond its limit is masked as stuck. -/
  | sidebandStuck (j : Nat)
  /-- SIDEBAND_CHATTER: An input with over 16 edges in 1 ms is masked as chattering. -/
  | sidebandChatter (j : Nat)
  /-- SIDEBAND_MASK_END: A stuck or chattering mask ends. -/
  | sidebandMaskEnd (j : Nat)
  /-- PMU_SIDEBAND_SVC_CLEAR: Writing 1 to SVC clears it. -/
  | pmuSidebandSvcClear
  /-- PMU_SUPPLY_LOST_CLEAR: Writing 1 to A_LOST or B_LOST clears it. -/
  | pmuSupplyLostClear (v : Nat)
  /-- CLOCK_MONITOR_WINDOW: A 10 µs monitor window ends with its XTAL and IRO counts. -/
  | clockMonitorWindow (x : Nat) (j : Nat)
  /-- IRO_FAILURE: IRO shows no edge for 1 µs and AON and ST64 take XTAL. -/
  | iroFailure
  /-- ALL_CLOCKS_LOST: IRO and XTAL both stop and FAULT_N stops the package. -/
  | allClocksLost
  /-- DIE_TEMPERATURE_THRESHOLD: A die reaching 105 °C or falling below 100 °C changes its divider. -/
  | dieTemperatureThreshold (d : Nat) (t : Int)
  /-- DIE_OVERTEMPERATURE: A die at 115 °C switches itself off and is lost. -/
  | dieOvertemperature (d : Nat)
  /-- PACKAGE_RESET: Entry to BRINGUP resets both halves apart from hold domains. -/
  | packageReset
  /-- LIGHTHOUSE_BOOT: The Lighthouse draws keys, loads images and places the image region as bring-up proceeds. -/
  | lighthouseBoot (h : Half) (step : Nat)
  /-- UNIT_READY: A unit passes self-test and dependencies and its readiness bit sets. -/
  | unitReady (h : Half) (k : Nat) (pass : Bool)
  /-- CORE_SELF_TEST: Cores self-test at bring-up and failed ones are spared. -/
  | coreSelfTest (d : Nat) (bad : List Nat)
  /-- PAIRING: The Lighthouses exchange steppings and set the feature level. -/
  | pairing
  /-- SYS_AUTO_MODE_SET: The leader issues the strapped MODE_SET when conditions hold or WAIT passes. -/
  | sysAutoModeSet (waited : Bool)
  /-- LOG_REPORT: A report reaches a log latch and is written, coalesced or dropped. -/
  | logReport (h : Half) (r : Report)
  /-- FREEZE_PULSE: The collector interval passes and a freeze pulse latches the half's counters. -/
  | freezePulse (h : Half) (busy : Bool)
  /-- SAMPLE_RECORD: A tagged instruction retires and a sample record is written. -/
  | sampleRecord (l : Nat) (r : Option SampleOp)
  /-- TRACE_RECORD: A traced event writes a 16-byte record. -/
  | traceRecord (l : Nat) (ctx : Nat) (r : TraceOp)
  /-- TRST_N: TRST_N low resets every TAP controller. -/
  | trstN
  /-- IDCODE: Selects the 32-bit identity register. -/
  | idcode (n : Nat)
  /-- SAMPLE_PRELOAD: Selects the hub boundary register. -/
  | samplePreload (h : Half) (v : Nat)
  /-- EXTEST: Boundary register drives the hub's lands. -/
  | extest (h : Half) (v : Nat)
  /-- CLAMP: Lands held from the boundary register with BYPASS. -/
  | clamp (h : Half)
  /-- HIGHZ: Hub land outputs off. -/
  | highz (h : Half)
  /-- IJTAG: Selects the die's IEEE 1687 instrument network. -/
  | ijtag (n : Nat)
  /-- BYPASS: Selects the one-bit bypass register. -/
  | bypass (n : Nat)
  /-- DBGAP: An Update-DR starts a register or memory access through the access port. -/
  | dbgap (h : Half) (op : Nat) (size : Nat) (addr : Nat) (data : Nat)
  /-- DBG_HALT: HALT stops named contexts at their checkpoint. -/
  | dbgHalt (h : Half) (l : Nat) (mask : Nat)
  /-- DBG_RESUME: RESUME restarts named contexts. -/
  | dbgResume (h : Half) (l : Nat) (mask : Nat)
  /-- DBG_STEP: STEP with RESUME retires one instruction and halts. -/
  | dbgStep (h : Half) (l : Nat) (mask : Nat)
  /-- BREAKPOINT_MATCH: A breakpoint or watchpoint halts the context before the instruction. -/
  | breakpointMatch (l : Nat) (ctx : Nat) (b : Nat) (acc : Option (Nat × Bool))
  /-- REGISTER_WRITE: A write to a register without behaviour of its own updates its fields per access type. -/
  | registerWrite (h : Half) (off : Nat) (n : Nat) (v : Nat)
  /-- PWRFAIL_WARN_RELEASE: PWRFAIL_WARN_N becomes inactive after its filter, clearing PFW and starting the 10 ms wait before a drain abort is allowed. -/
  | pwrfailWarnRelease
  /-- SUPPLY_RANGE_CHANGE: A main feed or VHOLD crosses its in-range limits without being declared lost, changing A_OK, B_OK or H_OK. -/
  | supplyRangeChange (k : Nat) (ok : Bool)
  /-- PATH_PERST_RELEASE: 100 ms after a path port's readiness bit sets, the port releases PERST# and starts link training. -/
  | pathPerstRelease (pp : Nat)
  /-- ATTACH_PERST_N: An attach port's PERST# input is asserted or released, holding the port in or letting it out of fundamental reset. -/
  | attachPerstN (port : Nat) (low : Bool)
  /-- ATTACH_LINK_TRAINED: An attach port's link finishes training and ATT_PORT_STAT.STATE becomes UP. -/
  | attachLinkTrained (port : Nat) (gen : Nat) (width : Nat)
  /-- MEM_TRAINING_END: A memory channel finishes training and enters ZEROING, or is left DOWN or UNMAPPED under R264. -/
  | memTrainingEnd (h : Half) (c : Nat) (ok : Bool)
  /-- ASYNC_COMMAND_COMPLETE: The work of an asynchronous Harbourmaster or Lighthouse command, such as KEY_GENERATE or DIAG_SCRUB, ends and its final reply is posted. -/
  | asyncCommandComplete (src : Src) (tag : Nat) (pass : Bool) (errs : List (Nat × Nat))
  /-- POWER_STATE_REACHED: A block finishes going down to its requested state or finishes waking, and held packets are delivered. -/
  | powerStateReached (u : Nat)
  /-- DEBUG_WAKE_EXPIRY: 10 µs after the last debug access, a block woken from DROWSE by debug returns to DROWSE. -/
  | debugWakeExpiry (u : Nat)
  /-- ATTACH_READ_COMPLETION: A completion TLP from the host arrives for a read the attach port issued, such as an SQ read or an attach-window load. -/
  | attachReadCompletion (port : Nat) (tag : Nat) (status : Nat) (d : List Byte) (ep : Bool)
  /-- MAINTENANCE_SLOT_START: Writing 1 to FAB_MNT_CTL.BUSY starts a maintenance slot sending MNT requests over its range. -/
  | maintenanceSlotStart (h : Half) (k : Nat) (v : Nat)
  /-- VF_QUIESCE_LIMIT: The limit of a VF_QUIESCE passes with work still open and the command ends FAILED with reason 0x20. -/
  | vfQuiesceLimit (k : Nat)
deriving DecidableEq, Repr

end Sys2Proof
end

