-- ==== Sys2Proof/Decode.lean ====
section
/-! DEFINITION. The commands the table's bits spell: none, since no row of the table gives bits (log 6). The opcodes of the AN, A5 and
CPE instructions (R81, R101, R104, R131, R133, R191, R341, R342), which pick the command of an encoded instruction, and their encoder. -/
namespace Sys2Proof

/-- The command a word spells. No row gives bits. -/
def decodeTableWord (_nbits _w : Nat) : Option Instr := none

/-! ### AN instructions -/

/-- The instruction of an OPC (R101, R104, R191); none raises ILLEGAL. -/
def anInstr : Nat → Option (AnOp → Instr)
  | 0x0 => some .br
  | 0x1 => some .bcc
  | 0x2 => some .call
  | 0x3 => some .ret
  | 0x4 => some .svc
  | 0x5 => some .hvc
  | 0x6 => some .xret
  | 0x7 => some .nop
  | 0x8 => some .wait
  | 0x10 => some .add
  | 0x11 => some .sub
  | 0x12 => some .mul
  | 0x13 => some .mulu
  | 0x14 => some .div
  | 0x15 => some .divu
  | 0x16 => some .rem
  | 0x17 => some .remu
  | 0x18 => some .cmp
  | 0x19 => some .cmpu
  | 0x1A => some .neg
  | 0x1B => some .abs
  | 0x1C => some .sqrt
  | 0x1E => some .min
  | 0x1F => some .max
  | 0x20 => some .mov
  | 0x21 => some .clr
  | 0x22 => some .cvt
  | 0x23 => some .lea
  | 0x30 => some .and
  | 0x31 => some .or
  | 0x32 => some .xor
  | 0x33 => some .not
  | 0x34 => some .shl
  | 0x35 => some .shr
  | 0x36 => some .sar
  | 0x37 => some .rot
  | 0x38 => some .test
  | 0x40 => some .movs
  | 0x41 => some .cmps
  | 0x42 => some .trs
  | 0x43 => some .srch
  | 0x50 => some .cas
  | 0x51 => some .swap
  | 0x52 => some .fadd
  | 0x60 => some .mfcr
  | 0x61 => some .mtcr
  | 0x62 => some .mfpsw
  | 0x63 => some .mtpsw
  | 0x64 => some .wrfb
  | 0x65 => some .rdfb
  | 0x66 => some .sva5
  | 0x67 => some .lda5
  | 0x70 => some .tlbiva
  | 0x71 => some .tlbiasid
  | 0x72 => some .tlbiall
  | 0x73 => some .tlbivmid
  | 0x74 => some .tlbiipa
  | 0x75 => some .tlbilck
  | 0x76 => some .tlbsync
  | 0x78 => some .tlbivaL
  | 0x79 => some .tlbiasidL
  | 0x7A => some .tlbiallL
  | 0x7B => some .tlbivmidL
  | 0x7C => some .tlbiipaL
  | 0x7D => some .tlbilckL
  | 0x80 => some .publish
  | 0x81 => some .cstart
  | 0x82 => some .ctest
  | 0x83 => some .chalt
  | 0x84 => some .cclear
  | 0x85 => some .lappend
  | 0x86 => some .wrpkr
  | 0x87 => some .tlock
  | 0x88 => some .tunlock
  | 0x89 => some .rdpct
  | 0x8A => some .cmd
  | 0x8B => some .rdpkr
  | _ => none

/-- OPC and fields of an AN instruction. -/
def anOpc : Instr → Option (Nat × AnOp)
  | .br o => some (0x0, o)
  | .bcc o => some (0x1, o)
  | .call o => some (0x2, o)
  | .ret o => some (0x3, o)
  | .svc o => some (0x4, o)
  | .hvc o => some (0x5, o)
  | .xret o => some (0x6, o)
  | .nop o => some (0x7, o)
  | .wait o => some (0x8, o)
  | .add o => some (0x10, o)
  | .sub o => some (0x11, o)
  | .mul o => some (0x12, o)
  | .mulu o => some (0x13, o)
  | .div o => some (0x14, o)
  | .divu o => some (0x15, o)
  | .rem o => some (0x16, o)
  | .remu o => some (0x17, o)
  | .cmp o => some (0x18, o)
  | .cmpu o => some (0x19, o)
  | .neg o => some (0x1A, o)
  | .abs o => some (0x1B, o)
  | .sqrt o => some (0x1C, o)
  | .min o => some (0x1E, o)
  | .max o => some (0x1F, o)
  | .mov o => some (0x20, o)
  | .clr o => some (0x21, o)
  | .cvt o => some (0x22, o)
  | .lea o => some (0x23, o)
  | .and o => some (0x30, o)
  | .or o => some (0x31, o)
  | .xor o => some (0x32, o)
  | .not o => some (0x33, o)
  | .shl o => some (0x34, o)
  | .shr o => some (0x35, o)
  | .sar o => some (0x36, o)
  | .rot o => some (0x37, o)
  | .test o => some (0x38, o)
  | .movs o => some (0x40, o)
  | .cmps o => some (0x41, o)
  | .trs o => some (0x42, o)
  | .srch o => some (0x43, o)
  | .cas o => some (0x50, o)
  | .swap o => some (0x51, o)
  | .fadd o => some (0x52, o)
  | .mfcr o => some (0x60, o)
  | .mtcr o => some (0x61, o)
  | .mfpsw o => some (0x62, o)
  | .mtpsw o => some (0x63, o)
  | .wrfb o => some (0x64, o)
  | .rdfb o => some (0x65, o)
  | .sva5 o => some (0x66, o)
  | .lda5 o => some (0x67, o)
  | .tlbiva o => some (0x70, o)
  | .tlbiasid o => some (0x71, o)
  | .tlbiall o => some (0x72, o)
  | .tlbivmid o => some (0x73, o)
  | .tlbiipa o => some (0x74, o)
  | .tlbilck o => some (0x75, o)
  | .tlbsync o => some (0x76, o)
  | .tlbivaL o => some (0x78, o)
  | .tlbiasidL o => some (0x79, o)
  | .tlbiallL o => some (0x7A, o)
  | .tlbivmidL o => some (0x7B, o)
  | .tlbiipaL o => some (0x7C, o)
  | .tlbilckL o => some (0x7D, o)
  | .publish o => some (0x80, o)
  | .cstart o => some (0x81, o)
  | .ctest o => some (0x82, o)
  | .chalt o => some (0x83, o)
  | .cclear o => some (0x84, o)
  | .lappend o => some (0x85, o)
  | .wrpkr o => some (0x86, o)
  | .tlock o => some (0x87, o)
  | .tunlock o => some (0x88, o)
  | .rdpct o => some (0x89, o)
  | .cmd o => some (0x8A, o)
  | .rdpkr o => some (0x8B, o)
  | _ => none

/-- The command of the parcels of an AN instruction at a context: FMT in bits 15:14 of parcel 0, OPC in 13:4, TYPE in 3:0 (R81). -/
def decodeParcels (lcn ctx : Nat) : List W16 → Option Instr
  | [] => none
  | p :: rest => (anInstr (p.toNat / 16 % 1024)).map (fun f => f ⟨lcn, ctx, p.toNat / 2 ^ 14, p.toNat % 16, rest⟩)

/-- The parcels of an AN instruction. -/
def encodeParcels (i : Instr) : Option (List W16) :=
  (anOpc i).map (fun x => BitVec.ofNat 16 (x.2.fmt * 2 ^ 14 + x.1 * 16 + x.2.ty) :: x.2.rest)

/-! ### A5 instructions -/

/-- The instruction of an A5 OP (R133); none raises ILLEGAL. -/
def a5Instr : Nat → Option (A5Op → Instr)
  | 0x0 => some .a5Nop
  | 0x1 => some .a5Ld
  | 0x2 => some .a5St
  | 0x3 => some .a5Lds
  | 0x4 => some .a5Sts
  | 0x5 => some .a5Ldb
  | 0x6 => some .a5Stb
  | 0x7 => some .a5Lea
  | 0x8 => some .a5Mov
  | 0x9 => some .a5Ldi
  | 0xA => some .a5Lui
  | 0x10 => some .a5Add
  | 0x11 => some .a5Sub
  | 0x12 => some .a5Addi
  | 0x13 => some .a5Mul
  | 0x14 => some .a5Div
  | 0x15 => some .a5Rem
  | 0x16 => some .a5Dadd
  | 0x17 => some .a5Dsub
  | 0x18 => some .a5Dmul
  | 0x19 => some .a5Ddiv
  | 0x20 => some .a5And
  | 0x21 => some .a5Or
  | 0x22 => some .a5Xor
  | 0x23 => some .a5Not
  | 0x24 => some .a5Shl
  | 0x25 => some .a5Shr
  | 0x26 => some .a5Sar
  | 0x27 => some .a5Rot
  | 0x28 => some .a5Cmp
  | 0x29 => some .a5Cmpu
  | 0x2A => some .a5Cmpi
  | 0x30 => some .a5Bc
  | 0x31 => some .a5Call
  | 0x32 => some .a5Callr
  | 0x33 => some .a5Ret
  | 0x34 => some .a5Jmp
  | 0x38 => some .a5Trap
  | _ => none

/-- OP and fields of an A5 instruction. -/
def a5Opc : Instr → Option (Nat × A5Op)
  | .a5Nop o => some (0x0, o)
  | .a5Ld o => some (0x1, o)
  | .a5St o => some (0x2, o)
  | .a5Lds o => some (0x3, o)
  | .a5Sts o => some (0x4, o)
  | .a5Ldb o => some (0x5, o)
  | .a5Stb o => some (0x6, o)
  | .a5Lea o => some (0x7, o)
  | .a5Mov o => some (0x8, o)
  | .a5Ldi o => some (0x9, o)
  | .a5Lui o => some (0xA, o)
  | .a5Add o => some (0x10, o)
  | .a5Sub o => some (0x11, o)
  | .a5Addi o => some (0x12, o)
  | .a5Mul o => some (0x13, o)
  | .a5Div o => some (0x14, o)
  | .a5Rem o => some (0x15, o)
  | .a5Dadd o => some (0x16, o)
  | .a5Dsub o => some (0x17, o)
  | .a5Dmul o => some (0x18, o)
  | .a5Ddiv o => some (0x19, o)
  | .a5And o => some (0x20, o)
  | .a5Or o => some (0x21, o)
  | .a5Xor o => some (0x22, o)
  | .a5Not o => some (0x23, o)
  | .a5Shl o => some (0x24, o)
  | .a5Shr o => some (0x25, o)
  | .a5Sar o => some (0x26, o)
  | .a5Rot o => some (0x27, o)
  | .a5Cmp o => some (0x28, o)
  | .a5Cmpu o => some (0x29, o)
  | .a5Cmpi o => some (0x2A, o)
  | .a5Bc o => some (0x30, o)
  | .a5Call o => some (0x31, o)
  | .a5Callr o => some (0x32, o)
  | .a5Ret o => some (0x33, o)
  | .a5Jmp o => some (0x34, o)
  | .a5Trap o => some (0x38, o)
  | _ => none

/-- The command of an A5 word at a context: OP in bits 31:26, RA in 25:21, RB in 20:16, F in 15:0 (R131). -/
def decodeA5 (lcn ctx w : Nat) : Option Instr :=
  (a5Instr (w / 2 ^ 26 % 64)).map (fun f => f ⟨lcn, ctx, w / 2 ^ 21 % 32, w / 2 ^ 16 % 32, w % 2 ^ 16⟩)

/-- The word of an A5 instruction. -/
def encodeA5 (i : Instr) : Option Nat :=
  (a5Opc i).map (fun x => x.1 * 2 ^ 26 + x.2.ra * 2 ^ 21 + x.2.rb * 2 ^ 16 + x.2.f)

/-! ### CPE instructions -/

/-- OPC and fields of a CPE instruction. -/
def cpeOpc : Instr → Option (Nat × CpeOp)
  | .cpeAdd o => some (0x0, o)
  | .cpeSub o => some (0x1, o)
  | .cpeAnd o => some (0x2, o)
  | .cpeOr o => some (0x3, o)
  | .cpeXor o => some (0x4, o)
  | .cpeSll o => some (0x5, o)
  | .cpeSrl o => some (0x6, o)
  | .cpeSra o => some (0x7, o)
  | .cpeSltu o => some (0x8, o)
  | .cpeAddi o => some (0x10, o)
  | .cpeAndi o => some (0x11, o)
  | .cpeOri o => some (0x12, o)
  | .cpeLui o => some (0x13, o)
  | .cpeLw o => some (0x18, o)
  | .cpeLhu o => some (0x19, o)
  | .cpeLbu o => some (0x1A, o)
  | .cpeSw o => some (0x1C, o)
  | .cpeSh o => some (0x1D, o)
  | .cpeSb o => some (0x1E, o)
  | .cpeBeq o => some (0x20, o)
  | .cpeBne o => some (0x21, o)
  | .cpeBltu o => some (0x22, o)
  | .cpeBgeu o => some (0x23, o)
  | .cpeJal o => some (0x24, o)
  | .cpeJr o => some (0x25, o)
  | .nxcmd o => some (0x30, o)
  | .wset o => some (0x31, o)
  | .cpeWait o => some (0x32, o)
  | .cpePost o => some (0x33, o)
  | .ckpt o => some (0x34, o)
  | .cpeEnd o => some (0x35, o)
  | .evaddr o => some (0x36, o)
  | _ => none

/-- The word of a CPE instruction (R341): OPC in bits 31:26, the two register fields in 25:21 and 20:16, the rest in 15:0. A word that
spells none has an undefined OPC. -/
def encodeCpe (i : Instr) : Option Nat :=
  (cpeOpc i).map (fun x => x.1 * 2 ^ 26 + x.2.x * 2 ^ 21 + x.2.y * 2 ^ 16 + x.2.imm)

end Sys2Proof
end

