-- ==== Sys2Proof/Config.lean ====
section
/-! DEFINITION. The free values: what the spec leaves open, as opaque constants no proof can see into. -/
namespace Sys2Proof.Config

/-- A value of a run the spec leaves open, for the n-th draw of a run (log 3). -/
opaque free : Nat → Nat

/-- Whether binary underflow is detected after rounding: IEEE 754 leaves it to the implementation (R96, log 3). -/
opaque tinyAfter : Bool

/-- Set of the L2 TLB of a virtual page number: the hash is not given (R187, log 36). -/
opaque tlbHash : Nat → Nat

/-- What standards outside the spec compute (SHA, AES, DEFLATE, ECDSA, the formats private to a unit): a function of a
code for the algorithm, its parameters and its input; nothing else is known of it (log 11). -/
opaque prim : Nat → List Nat → List Byte → List Byte

/-- A check of such an algorithm: a signature, a tag, a point on a curve (log 11). -/
opaque primB : Nat → List Nat → List Byte → Bool

/-- A number such an algorithm or a part's fuses give: bytes consumed, a serial number (log 11). -/
opaque primN : Nat → List Nat → List Byte → Nat

/-- The next state of the sampling LFSR: its polynomial is not given (R590, log 3). -/
opaque lfsr : Nat → Nat

end Sys2Proof.Config
end

