-- ==== Sys2Proof/Machine/StCore.lean ====
section
/-! DEFINITION. State of the cores: contexts (R74–R78, R168), TLBs (R187), logical cores (R24) and compute dies (R142–R165). -/
namespace Sys2Proof.Machine

/-- Privilege levels (R77). -/
inductive Lvl where
  | u | s | h
deriving DecidableEq, Repr

def Lvl.n : Lvl → Nat
  | .u => 0
  | .s => 1
  | .h => 2

/-- A condition code: N, Z, V, C (R77). -/
structure Cc where
  n : Bool
  z : Bool
  v : Bool
  c : Bool
deriving DecidableEq, Repr

def Cc.zero : Cc := ⟨false, false, false, false⟩

/-- CC as a number: 3 N, 2 Z, 1 V, 0 C (R77). -/
def Cc.toNat (c : Cc) : Nat := 8 * b2n c.n + 4 * b2n c.z + 2 * b2n c.v + b2n c.c

def ccOf (x : Nat) : Cc := ⟨bitOf x 3, bitOf x 2, bitOf x 1, bitOf x 0⟩

/-- PSW without CTX, which is the context's number (R77). -/
structure Psw where
  pl : Lvl
  a5 : Bool
  ie : Bool
  ss : Bool
  iv : Bool
  dv : Bool
  fe : Nat
  ff : Nat
  rm : Nat
  cc : Cc
deriving DecidableEq, Repr

def Psw.reset : Psw := ⟨.h, false, false, false, false, false, 0, 0, 0, Cc.zero⟩

/-- PSW as its 32-bit register (R77). -/
def Psw.toNat (p : Psw) (ctx : Nat) : Nat :=
  putBits [(30, p.pl.n), (29, b2n p.a5), (28, b2n p.ie), (27, b2n p.ss), (26, b2n p.iv), (25, b2n p.dv), (20, p.fe),
           (15, p.ff), (12, p.rm), (8, ctx), (0, p.cc.toNat)]

/-- A PC as it is held: bits 63:57 copy bit 56 (R74). -/
def canonPc (a : Nat) : W64 := BitVec.ofNat 64 (a % 2 ^ 57 + (if bitOf a 56 then 127 * 2 ^ 57 else 0))

/-- The exception registers of one level (R78, R182). -/
structure XRegs where
  evb : W64
  xpc : W64
  xpsw : W64
  xcode : W64
  xaddr : W64
  xinfo : W64
deriving DecidableEq, Repr

def XRegs.zero : XRegs := ⟨0, 0, 0, 0, 0, 0⟩

/-- A store-buffer entry (R135): physical address, bytes (at most 32), and whether it goes uncached. -/
structure SbEntry where
  pa : Nat
  data : List Byte
  uncached : Bool
deriving DecidableEq, Repr

/-- A piece of a BS instruction that is left (R139): the stores it performs. -/
structure Piece where
  stores : List SbEntry
deriving DecidableEq, Repr

/-- A hardware context (R74, R78, R93, R127, R140, R153, R168). -/
structure Ctx where
  g : Tab W64
  pc : W64
  psw : Psw
  pkr : W64
  fb : Tab W64
  a5a : Tab W32
  a5d : Tab W64
  a5ac : Tab (BitVec 128)
  bnk : Byte
  a5cc : Cc
  xs : XRegs
  xh : XRegs
  cbase : W64
  clim : W64
  /-- PCT_UREAD, read as PCTU bit 0 (R582) -/
  uread : Bool
  ttbrS : W64
  ttbrH : W64
  vttbr : W64
  /-- TCTL.SUA; TCTL.ADH cleared by software, so that ADH reads 1 at reset where the NMU is present (R170) -/
  sua : Bool
  adhOffS : Bool
  adhOffH : Bool
  s2va : W64
  s2ipa : W64
  s2info : W64
  sb : List SbEntry
  /-- physical address of a poisoned store PUBLISH has to report (R106) -/
  badStore : Option Nat
  reqId : Nat
  ckSeq : Nat
  /-- lines of the bank pages resident in the frame store (R94): key bank × 64 + line, value their sector -/
  frame : Tab Nat
  /-- streaming detector (R201): the run's next sector, mask of its bytes written so far, complete sectors of the run -/
  sdNext : Nat
  sdBytes : Nat
  sdRun : Nat
  /-- WAIT in progress with its limit in µs (R102) -/
  wait : Option Nat
  modeChange : Bool
  clockLoss : Bool
  /-- a single step or breakpoint is due (R120, R123) -/
  debugDue : Bool
  /-- a MACHINE_CHECK is due: subcode and address (R123, R160) -/
  mcheck : Option (Nat × Nat)
  /-- cause of a halt, 0 while running (R604), and whether the context halts after its next instruction -/
  halt : Nat
  stepping : Bool
  /-- attach-window loads of the instruction under way that have been answered and used so far (R461) -/
  winIdx : Nat
  /-- virtual address of the one-shot access the context sent last, which an address error names (R121, R140) -/
  shotVa : Nat
  /-- the instruction under way stands last in its retire group (R136) -/
  last : Bool
  /-- pieces the instruction under way leaves to perform (R139); `Ckpt.rest` holds them from then on -/
  pieces : List Piece
deriving DecidableEq, Repr

def Ctx.reset : Ctx :=
  { g := [], pc := 0, psw := Psw.reset, pkr := 0, fb := [], a5a := [], a5d := [], a5ac := [], bnk := 0, a5cc := Cc.zero,
    xs := XRegs.zero, xh := XRegs.zero, cbase := 0, clim := 0, uread := false, ttbrS := 0, ttbrH := 0, vttbr := 0,
    sua := false, adhOffS := false, adhOffH := false, s2va := 0, s2ipa := 0, s2info := 0, sb := [], badStore := none,
    reqId := 0, ckSeq := 0, frame := [], sdNext := 0, sdBytes := 0, sdRun := 0, wait := none, modeChange := false,
    clockLoss := false, debugDue := false, mcheck := none,
    halt := 0, stepping := false, winIdx := 0, shotVa := 0, last := false, pieces := [] }

/-- A TLB entry with the combined result of both stages (R187). `va` and `pa` are page bases of a page of `size` bytes. -/
structure TlbEntry where
  regH : Bool
  vmid : Nat
  asid : Nat
  g : Bool
  va : Nat
  size : Nat
  pa : Nat
  key : Nat
  unc : Bool
  u : Bool
  w : Bool
  x : Bool
  d : Bool
  /-- stage 2 permits a write, a fetch; the IPA of `va`, none without stage 2 -/
  s2w : Bool
  s2x : Bool
  ipa : Option Nat
  /-- levels of the leaves of stages 1 and 2; `size` is the smaller of their pages -/
  lvl1 : Nat
  lvl2 : Nat
deriving DecidableEq, Repr

/-- A walk-cache entry (R187): a non-leaf entry of `lvl` 4 to 1 that a walk of either stage read for addresses that agree
with `tag` above that level's index; `table` is the table it names. -/
structure WalkEnt where
  s2 : Bool
  regH : Bool
  vmid : Nat
  asid : Nat
  lvl : Nat
  tag : Nat
  table : Nat
deriving DecidableEq, Repr

/-- A TLB invalidation on its way to other cores (R191–R193): kind 0 VA, 1 ASID, 2 ALL, 3 VMID, 4 IPA, 5 locked VA;
the LCNs it has not reached, and the context (LCN × 2 + context) that sent it. -/
structure Tlbi where
  kind : Nat
  regH : Bool
  vmid : Nat
  asid : Nat
  arg : Nat
  left : List Nat
  src : Nat
deriving DecidableEq, Repr

/-- Counter of a core, a die or a unit (R575): value, event, overflow. -/
structure Ctr where
  val : Nat
  ev : Nat
  ovf : Bool
deriving DecidableEq, Repr

def Ctr.zero : Ctr := ⟨0, 0, false⟩

/-- Instruction sampling of an LCN (R590, R591). -/
structure Samp where
  n : Nat
  base : Nat
  size : Nat
  off : Nat
  seq : Nat
  missed : Nat
  lfsr : Nat
deriving DecidableEq, Repr

/-- Checkpoints of a context (R136, R137, R139). -/
structure Ckpt where
  /-- which of the two entries of the checkpoint array is in force -/
  sel : Bool
  /-- instructions of the group in flight -/
  n : Nat
  /-- contents of the entry in force while a group is in flight; none: the context as it stands -/
  snap : Option Ctx
  /-- store-buffer pointer: how many entries of `Ctx.sb`, the oldest, retired stores made -/
  sbn : Nat
  /-- a BS instruction between its pieces: the working context its last piece puts in force, and the pieces left -/
  rest : Option (Ctx × List Piece)
deriving DecidableEq, Repr

def Ckpt.reset : Ckpt := ⟨false, 0, none, 0, none⟩

/-- The state images of an LCN whose contexts have left their core (R153), in the reserved region of the L3 slice (die × 17 +
slice) of the spare's tile. A request still open at a unit is listed with its ID; its parameters are the instruction's, which
runs again. -/
structure LcnImage where
  slice : Nat
  ctxA : Ctx
  ctxB : Ctx
  restA : Option (Ctx × List Piece)
  restB : Option (Ctx × List Piece)
  ext : List Nat
  oneShots : List (Nat × Nat)
  ctrs : List (Nat × Ctr)
  samp : Samp
  locks : List TlbEntry
deriving DecidableEq, Repr

/-- What belongs to a logical core. -/
structure Lcn where
  /-- external vectors held pending (R24, R154) -/
  ext : List Nat
  /-- the TLBs, newest entry first (R187, R188): L1 for fetches and for data, the set-associative part of the L2 TLB, the
  lock array's locked entries and the unlocked ones in its free slots; and the walk cache -/
  itlb : List TlbEntry
  dtlb : List TlbEntry
  tlb : List TlbEntry
  locks : List TlbEntry
  slots : List TlbEntry
  walks : List WalkEnt
  samp : Samp
  /-- breakpoints (R606) -/
  bp : Tab W64
  /-- trace (R607, R608) -/
  trcBase : W64
  trcEn : Bool
  trcWrap : Bool
  trcFull : Bool
  trcCtx : Nat
  trcPages : Nat
  trcPtr : Nat
  /-- records dropped since the last one written, and the records of the group being filled (R608) -/
  trcLost : Nat
  trcBuf : List Byte
  trcCount : Nat
  /-- CCLK divider requested (R533); R535 gives the one in force -/
  div : Nat
  /-- physical core: die × 128 + PC, when it differs from that of R22; `off` while it has none -/
  moved : Option Nat
  off : Bool
  /-- parked (R157); left without a core until the next bring-up gives it one (R161, R632); lost (R45, R556); and the last
  core it ran on (R633) -/
  parked : Bool
  bare : Bool
  lost : Bool
  last : Option Nat
  /-- core error retry (R145–R147): attempt 0–2 or a mark of `needsSpare`, the contexts rolled back, the array entries that
  erred in this sequence, those its core has rewritten since, and the L2 lines deleted (set × 16 + way) -/
  attempt : Nat
  rolled : List Nat
  errs : List Nat
  rewritten : List Nat
  l2deleted : List Nat
deriving DecidableEq, Repr

def Lcn.reset : Lcn :=
  { ext := [], itlb := [], dtlb := [], tlb := [], locks := [], slots := [], walks := [], samp := ⟨0, 0, 0, 0, 0, 0, 1⟩, bp := [], trcBase := 0, trcEn := false, trcWrap := false, trcFull := false, trcCtx := 0, trcPages := 0, trcPtr := 0,
    trcLost := 0, trcBuf := [], trcCount := 0, div := 3, moved := none, off := false, parked := false,
    bare := false, lost := false, last := none, attempt := 0, rolled := [], errs := [], rewritten := [], l2deleted := [] }

/-- A core move in progress (R152): LCN, old and new core (die × 128 + PC), cause, its SPARE_CORE. -/
structure Move where
  lcn : Nat
  old : Nat
  new : Nat
  cause : Nat
  cmd : Option Prog
deriving DecidableEq, Repr

/-- A compute die (R8, R142–R165, R542–R544). -/
structure Die where
  /-- cores out of service, and cores that differ from their state at shipment otherwise -/
  failed : List Nat
  retry : Tab Nat
  moves : Nat
  ready : Bool
  /-- the self-tests of its cores have run (R161), and the cores that passed -/
  tested : Bool
  coreReady : List Nat
  /-- lost (R556) or held out by pairing (R550) -/
  lost : Bool
  heldOut : Bool
  /-- temperature in 1/8 °C, two's complement as an integer (R72, R535) -/
  temp : Int
  clamp : Bool
  hot : Bool
  /-- when a home timeout named the die as an agent that did not answer, newest first, at most three (R556) -/
  silent : List Nat
deriving DecidableEq, Repr

def Die.reset : Die :=
  { failed := [], retry := [], moves := 0, ready := false,
    tested := false, coreReady := [], lost := false, heldOut := false, temp := 0, clamp := false, hot := false, silent := [] }

end Sys2Proof.Machine
end

