-- ==== Sys2Proof/Machine/StAttach.lean ====
section
/-! DEFINITION. State of the attach ports (R435–R478) and of their functions and queue pairs. Port numbers are 0–3; a
function's key is port × 64 + function; a queue pair's key is hub × 2048 + hub queue-pair number, the admin queue of a
port being number 1024 + local port. -/
namespace Sys2Proof.Machine

/-- An inbound window (R454). -/
structure Win where
  en : Bool
  wr : Bool
  rd : Bool
  off : Nat
  tgt : Nat
  log2 : Nat
deriving DecidableEq, Repr

def Win.zero : Win := ⟨false, false, false, 0, 0, 0⟩

/-- A peer window (R456). -/
structure Peer where
  en : Bool
  wr : Bool
  rd : Bool
  off : Nat
  haddr : Nat
  log2 : Nat
  tport : Nat
deriving DecidableEq, Repr

def Peer.zero : Peer := ⟨false, false, false, 0, 0, 0, 0⟩

/-- A queue pair (R446–R451) and its MSG rings (R452). -/
structure Qp where
  sqBase : Nat
  cqBase : Nat
  en : Bool
  stopped : Bool
  typ : Nat
  cause : Nat
  sqSize : Nat
  cqSize : Nat
  ien : Bool
  vec : Nat
  bind : Nat
  sqTail : Nat
  sqHead : Nat
  cqTail : Nat
  cqHead : Nat
  /-- PHASE of the pass through the CQ: 1 on the first pass -/
  phase : Bool
  /-- CQ entries held while the queue is full or frozen (R450, R466), and SQ entries read and not yet accepted (R449) -/
  held : List (List Byte)
  got : List (List Byte)
  rxBase : Nat
  rxEn : Bool
  rxSize : Nat
  rxVec : Nat
  rxLcn : Nat
  rxHead : Nat
  rxTail : Nat
  txBase : Nat
  txTail : Nat
  txHead : Nat
deriving DecidableEq, Repr

def Qp.reset : Qp :=
  { sqBase := 0, cqBase := 0, en := false, stopped := false, typ := 0, cause := 0, sqSize := 0, cqSize := 0, ien := false,
    vec := 0, bind := 0, sqTail := 0, sqHead := 0, cqTail := 0, cqHead := 0, phase := true, held := [], got := [],
    rxBase := 0, rxEn := false, rxSize := 0, rxVec := 0, rxLcn := 0, rxHead := 0, rxTail := 0, txBase := 0, txTail := 0,
    txHead := 0 }

/-- A function (R442–R445, R454, R462, R466). -/
structure Fn where
  /-- VF_CREATE gave it resources; PF0 always has them -/
  created : Bool
  /-- writable configuration words that differ from their reset values (R438), key byte offset -/
  cfg : Tab Nat
  firstQp : Nat
  nqp : Nat
  nmsix : Nat
  /-- first of its vectors in the numbers of the port (R442) -/
  firstMsix : Nat
  nwin : Nat
  nkey : Nat
  nstream : Nat
  subs : List Nat
  isr : Nat
  evtEn : Bool
  evtVec : Nat
  bmeLost : Bool
  frozen : Bool
  quiesced : Bool
  oldWork : Bool
  urcnt : Nat
  /-- MSI-X table, 16 bytes each as one number; pending entries; pending MSI vectors and undelivered entries (R462) -/
  msix : Tab Nat
  pba : List Nat
  msiPend : List Nat
  undel : List Nat
  shadow : List Win
  active : List Win
  /-- AER status: uncorrectable and correctable (R463) -/
  aerU : Nat
  aerC : Nat
  /-- VF_QUIESCE waiting for the function's work (R469) -/
  quiesceCmd : Option Prog
  /-- VF_FREEZE under way (R471) -/
  freezeCmd : Option Prog
deriving DecidableEq, Repr

/-- A message a port sends to its host. -/
inductive Tlp where
  | write (fn : Nat) (addr : Nat) (data : List Byte) (ep : Bool)
  | read (fn : Nat) (addr n tag : Nat)
  /-- completion: function, host's tag, status (0 SC, 1 UR, 2 CRS, 4 CA), data, poisoned -/
  | cpl (fn : Nat) (tag status : Nat) (data : List Byte) (ep : Bool)
  | inta (assert : Bool)
  /-- LTR with its value and scale, or no requirement -/
  | ltr (v : Option (Nat × Nat))
deriving DecidableEq, Repr

/-- What an outstanding read of a port is for (R449, R456, R461). -/
inductive HostFor where
  /-- `n` SQ entries of a queue pair; none of them once they are to be discarded -/
  | sq (qp n : Nat)
  /-- a core's load -/
  | load (lcn ctx rid n : Nat)
  /-- a peer read: originating port, function and tag -/
  | peer (port fn tag : Nat)
deriving DecidableEq, Repr

/-- It reads the SQ of this queue pair. -/
def HostFor.ofSq (q : Nat) : HostFor → Bool
  | .sq k _ => k == q
  | _ => false

/-- The read of an SQ whose entries will be discarded when they come. -/
def HostFor.discard (q : Nat) : HostFor → HostFor
  | .sq k n => if k = q then .sq k 0 else .sq k n
  | w => w

/-- A read that waits for a tag (R435). -/
structure HostWait where
  fn : Nat
  addr : Nat
  n : Nat
  why : HostFor
deriving DecidableEq, Repr

/-- An outstanding request of a port. -/
structure HostReq where
  tag : Nat
  fn : Nat
  why : HostFor
deriving DecidableEq, Repr

/-- A port (R477, R478). Link: 0 DOWN, 1 TRAINING, 2 UP. -/
structure Port where
  link : Nat
  gen : Nat
  width : Nat
  perst : Bool
  go : Bool
  err : Bool
  set : Nat
  nmsix : Nat
  nqp : Nat
  peersS : List Peer
  peers : List Peer
  reqs : List HostReq
  /-- reads that wait for a free tag, oldest first (R435) -/
  waiting : List HostWait
  nextTag : Nat
  /-- quarantined tags with their function (R467) -/
  quar : List (Nat × Nat)
  /-- last LTR value sent, as the row of R465 -/
  ltr : Option Nat
  inta : Bool
  out : List Tlp
deriving DecidableEq, Repr

def Port.reset : Port :=
  { link := 0, gen := 0, width := 0, perst := true, go := false, err := false, set := 0, nmsix := 32, nqp := 16,
    peersS := List.replicate 16 Peer.zero, peers := List.replicate 16 Peer.zero, reqs := [], waiting := [], nextTag := 0, quar := [],
    ltr := none, inta := false, out := [] }

def Fn.reset : Fn :=
  { created := false, cfg := [], firstQp := 0, nqp := 0, nmsix := 0, firstMsix := 0, nwin := 0, nkey := 0, nstream := 0, subs := [],
    isr := 0, evtEn := false, evtVec := 0, bmeLost := false, frozen := false, quiesced := false, oldWork := false,
    urcnt := 0, msix := [], pba := [], msiPend := [], undel := [], shadow := List.replicate 8 Win.zero,
    active := List.replicate 8 Win.zero, aerU := 0, aerC := 0, quiesceCmd := none, freezeCmd := none }

/-- All attach ports. -/
structure Att where
  ports : Tab Port
  fns : Tab Fn
  qps : Tab Qp
deriving DecidableEq, Repr

end Sys2Proof.Machine
end

