-- ==== Sys2Proof/Machine/StCss.lean ====
section
/-! DEFINITION. State of the channel subsystem (R295–R349). -/
namespace Sys2Proof.Machine

/-- A subchannel's registers (R296–R300). -/
structure Sub where
  v : Bool
  en : Bool
  otype : Nat
  owner : Nat
  cq : Nat
  image : Nat
  tmo : Nat
  path : Nat
  fence : Nat
  dev : Nat
  sense : Nat
deriving DecidableEq, Repr

def Sub.reset : Sub := ⟨false, false, 0, 0, 0, 0, 30000, 0, 0, 0, 0⟩

/-- A completion queue (R319, R320) with the PHASE of its pass (R321). -/
structure Cq where
  base : Nat
  en : Bool
  stopped : Bool
  imode : Nat
  vector : Nat
  size : Nat
  target : Nat
  head : Nat
  tail : Nat
  otype : Nat
  owner : Nat
  phase : Bool
deriving DecidableEq, Repr

def Cq.reset : Cq := ⟨0, false, false, 0, 0, 0, 0, 0, 0, 0, 0, true⟩

/-- A path port (R304). `st`: 0 DOWN, 1 TRAINING, 2 ONLINE, 3 OFFLINE, 4 FAILED. `cycle`: 0 none, 1 PERST# asserted,
2 training, 3 PATHUP entries running, 4 waiting 1 s. -/
structure PathPort where
  st : Nat
  gen : Nat
  width : Nat
  fails : Nat
  urs : Nat
  cause : Nat
  linkUp : Bool
  perst : Bool
  /-- a PERST# pulse lets the port go on by itself (R304), the first release waits for R610 -/
  cycle : Nat
  /-- images whose PATHUP entry has not ended -/
  pathups : List Nat
  /-- consecutive operations that timed out on the port (R317) -/
  touts : Nat
  /-- its PATH_SET in progress, with the operations moved so far -/
  cmd : Option Prog
deriving DecidableEq, Repr

def PathPort.reset : PathPort := ⟨0, 0, 0, 0, 0, 0, false, true, 0, [], 0, none⟩

/-- An IFT entry (R327, R328) and what the hub keeps of the running operation. `st` uses the numbers of R328. -/
structure Ift where
  st : Nat
  opno : Nat
  /-- subchannel with its hub bit 11 -/
  sub : Nat
  tag : Nat
  cpa : Nat
  notify : Bool
  lca : Nat
  pp : Nat
  pathIdx : Nat
  redrives : Nat
  resid : Nat
  cq : Nat
  fstat : Nat
  dstat : Nat
  reason : Nat
  touched : Bool
  nonidem : Bool
  sense : Bool
  migrated : Bool
  halfLoss : Bool
  otype : Nat
  owner : Nat
  tmo : Nat
  accept : Nat
  slot : Nat
  image : Nat
  cpe : Nat
  /-- park slot assigned at dispatch, and whether the operation is parked in it (R339) -/
  park : Option Nat
  parked : Bool
  /-- event mask of the WAIT, events pending, address of the next command (R342) -/
  mask : Nat
  evs : Nat
  cmdp : Nat
  /-- LINK byte and KIND of the command loaded last, commands since a data transfer (R307, R310) -/
  link : Nat
  kind : Nat
  idle : Nat
  /-- why a service entry runs: 0 none, 1 path lost, 2 timeout, 3 halt, 4 clear, 5 freeze, 6 query -/
  why : Nat
  /-- a service entry has started and not ended -/
  svc : Bool
  /-- the path was given up because of a timeout (R333) -/
  timedOut : Bool
  /-- acceptance order within the hub (the model's own count, R314) -/
  seq : Nat
deriving DecidableEq, Repr

def Ift.free : Ift :=
  { st := 0, opno := 0, sub := 0, tag := 0, cpa := 0, notify := false, lca := 0, pp := 0, pathIdx := 0, redrives := 0,
    resid := 0, cq := 0, fstat := 0xFF, dstat := 0, reason := 0, touched := false, nonidem := false, sense := false,
    migrated := false, halfLoss := false, otype := 0, owner := 0, tmo := 0, accept := 0, slot := 0, image := 0, cpe := 0,
    park := none, parked := false, mask := 0, evs := 0, cmdp := 0, link := 0, kind := 0, idle := 0, why := 0, svc := false, timedOut := false, seq := 0 }

/-- What a CPE runs (R339, R346): entry kinds 0 START, 1 RESUME, 2 ABORT, 3 QUERY, 4 RESET, 5 PATHUP; an operation by
its IFT entry, a PATHUP by its path port and image. -/
structure Job where
  kind : Nat
  ift : Nat
  pp : Nat
  image : Nat
deriving DecidableEq, Repr

/-- A CPE (R339–R343). -/
structure Cpe where
  k : Tab W32
  pc : Nat
  /-- window bases set by WSET in this entry -/
  wins : List (Nat × Nat)
  /-- loads whose values are not yet in their registers (R343) -/
  delay : List (Nat × W32)
  count : Nat
  cur : Option Job
  ready : List Job
  faults : Nat
  /-- streaming detector (R201): the run's next sector, mask of its bytes written so far, complete sectors of the run -/
  stream : Nat × Nat × Nat
deriving DecidableEq, Repr

def Cpe.reset : Cpe := ⟨[], 0, [], [], 0, none, [], 0, (0, 0, 0)⟩

/-- What a path port sends its endpoint. -/
inductive PathTlp where
  /-- a write of a CPE through a window: offset in the path window and bytes -/
  | write (off : Nat) (d : List Byte)
  /-- the answer to a request of the endpoint: UR, or data with its poison mark -/
  | ur
  | cpl (d : List Byte) (ep : Bool)
deriving DecidableEq, Repr

/-- The channel subsystem of a hub. While the other hub's units are adopted (R336), its subchannels have keys 2048 + s
and its completion queues keys 512 + q. -/
structure Css where
  subs : Tab Sub
  cqs : Tab Cq
  pps : Tab PathPort
  ift : Tab Ift
  cpes : Tab Cpe
  opCtr : Nat
  /-- bits 51:24 of the image region, locked once set; slots loaded (R349) -/
  imgBase : Nat
  imgLock : Bool
  loaded : List Nat
  /-- VERSION of the image in each slot (R349) -/
  vers : Tab Nat
  adopted : Bool
  /-- what the path ports sent, oldest first -/
  out : List (Nat × PathTlp)
  /-- acceptance order of the next start -/
  seqCtr : Nat
deriving DecidableEq, Repr

def Css.reset : Css := ⟨[], [], [], [], [], 0, 0, false, [], [], false, [], 0⟩

end Sys2Proof.Machine
end

