-- ==== Sys2Proof/Machine/StUnits.lean ====
section
/-! DEFINITION. State of the seal engines (R351–R385), movers (R386–R398), ledger engines (R399–R434), Lighthouses
(R479–R521), supplies and clocks (R522–R553), the counter collector (R583–R589) and the test access chain (R595–R606). -/
namespace Sys2Proof.Machine

/-! ### Seal engines -/

/-- A job ring (R352–R356); its owner type is 3 at reset, its bound engine 15 when none. -/
structure SRing where
  base : Nat
  cbase : Nat
  en : Bool
  stopped : Bool
  imode : Nat
  vector : Nat
  size : Nat
  eng : Nat
  target : Nat
  otype : Nat
  owner : Nat
  first : Nat
  last : Nat
  tail : Nat
  head : Nat
  chead : Nat
  ctail : Nat
  phase : Bool
  bound : Nat
  /-- descriptors fetched ahead with their slots (R357), at most four -/
  fetched : List (Nat × List Byte)
  /-- completion records held while the completion ring is full, with NOTIFY (R366) -/
  held : List (List Byte × Bool)
  /-- jobs of an attach function accepted before its reset, whose completions are discarded (R467) -/
  stale : Nat
deriving DecidableEq, Repr

def SRing.reset : SRing :=
  { base := 0, cbase := 0, en := false, stopped := false, imode := 0, vector := 0, size := 0, eng := 15, target := 0,
    otype := 3, owner := 0, first := 0, last := 0, tail := 0, head := 0, chead := 0, ctail := 0, phase := true,
    bound := 15, fetched := [], held := [], stale := 0 }

/-- The job an engine runs: ring, slot, descriptor, and the first failing check as (STATUS, REASON) (R363). -/
structure SJob where
  ring : Nat
  slot : Nat
  desc : List Byte
  verdict : Option (Nat × Nat)
deriving DecidableEq, Repr

/-- A seal engine (R357, R358, R380, R381, R385). -/
structure SEng where
  cur : Option SJob
  /-- ring served last, and whether the last job was of the secure world -/
  lastRing : Nat
  secure : Bool
  errV : Bool
  errW : Bool
  errMore : Bool
  errRing : Nat
  errPa : Nat
  /-- save counter of the wrap unit -/
  seq : Nat
deriving DecidableEq, Repr

def SEng.reset : SEng := ⟨none, 255, false, false, false, false, 0, 0, 0⟩

/-! ### Movers -/

/-- A mover channel (R387, R388, R395, R396). `st`: 0 not running, 2 RUNNING, 3 HALTED. -/
structure MCh where
  base : Nat
  en : Bool
  stopped : Bool
  imode : Nat
  vector : Nat
  size : Nat
  target : Nat
  otype : Nat
  owner : Nat
  first : Nat
  last : Nat
  tail : Nat
  head : Nat
  burst : Nat
  share : Nat
  st : Nat
  desc : List Byte
  /-- source bytes whose results are written; a COPY's whole source, read before writing when the ranges overlap (R390) -/
  done : Nat
  buf : List Byte
  errAddr : Nat
  errV : Bool
  errDir : Bool
  errCause : Nat
  errIdx : Nat
  errDone : Nat
deriving DecidableEq, Repr

def MCh.reset : MCh :=
  { base := 0, en := false, stopped := false, imode := 0, vector := 0, size := 0, target := 0, otype := 3, owner := 0,
    first := 0, last := 0, tail := 0, head := 0, burst := 4, share := 0, st := 0, desc := [], done := 0, buf := [],
    errAddr := 0, errV := false, errDir := false, errCause := 0, errIdx := 0, errDone := 0 }

/-- A mover: the channel served last and the one that runs (R386). -/
structure Mover where
  lastCh : Nat
  cur : Option Nat
deriving DecidableEq, Repr

def Mover.reset : Mover := ⟨7, none⟩

/-! ### Ledger engines -/

/-- A stream head (R415); all zero in a FREE stream. -/
structure Head where
  chain : List Byte
  seq : Nat
  lts : Nat
deriving DecidableEq, Repr

def Head.free : Head := ⟨[], 0, 0⟩

/-- An accepted append (R408). `frame` is set once it is framed: header, body and CAUSE of a VOID. -/
structure Append where
  seq : Nat
  addr : Nat
  len : Nat
  tag : Nat
  notify : Bool
  durable : Bool
  framed : Bool
  hdr : List Byte
  body : List Byte
  /-- 0 a record, 1 VOID READ, 2 VOID SEAL -/
  cause : Nat
deriving DecidableEq, Repr

/-- A completion entry that waits for room (R419). -/
structure LComp where
  seq : Nat
  tag : Nat
  status : Nat
  comp : Bool
  enc : Bool
  ts : Nat
  off : Nat
  flen : Nat
  notify : Bool
deriving DecidableEq, Repr

/-- A spool operation outstanding (R424): its IFT entry, the record-area offset it ends at, the last SEQ it covers whole and how many
frames it ends. -/
structure SpoolOp where
  ift : Nat
  to_ : Nat
  seq : Nat
  n : Nat
deriving DecidableEq, Repr

/-- What an OPEN stream's control entry holds (R400–R407, R420–R425). -/
structure Stream where
  base : Nat
  size : Nat
  policy : Nat
  otype : Nat
  owner : Nat
  n : Nat
  t : Nat
  sigSlot : Nat
  openId : Nat
  keyId : List Byte
  /-- the keys of its slots: no command changes them while it is OPEN, and its CLOSE checkpoint is still signed with them when
  VF_DESTROY erased the slots (R416, R422, R432, R443) -/
  sigKey : List Byte
  encKey : List Byte
  rtail : Nat
  ctail : Nat
  phase : Bool
  intctl : Nat
  spShift : Nat
  spLba : Nat
  prevTs : Nat
  nextSeq : Nat
  appends : List Append
  held : List LComp
  /-- chained frames since the last checkpoint, and the pending request's cause (R420) -/
  since : Nat
  ckpt : Option Nat
  /-- no append is accepted; a close is in progress (R422) -/
  closing : Bool
  ending : Bool
  closeCmd : Option Prog
  ckptCmd : Option Prog
  spool : Option Nat
  /-- a new binding that waits for the operations in progress to end (R423) -/
  spoolNext : Option (Option Nat)
  spoolFailed : Bool
  spoolPos : Nat
  spoolTo : Nat
  dseq : Nat
  ops : List SpoolOp
  /-- appended and not yet durable requests: SEQ, TAG, notify, TS, OFFSET, FLEN -/
  want : List LComp
  /-- frames placed and not yet spooled, in order: offset, bytes, highest SEQ chained with it in place -/
  frames : List (Nat × Nat × Nat)
deriving DecidableEq, Repr

/-- A ledger engine (R406, R415, R433). Adopted streams keep their IDs (R431). -/
structure Ldg where
  heads : Tab Head
  streams : List (Nat × Stream)
  openCtr : Nat
  /-- streams that requested a checkpoint, in order -/
  sigq : List Nat
  lanes : Nat
  fmt : Bool
  errV : Bool
  errW : Bool
  errMore : Bool
  errCause : Nat
  errPa : Nat
  errStream : Nat
deriving DecidableEq, Repr

/-! ### Lighthouses -/

/-- A key slot (R373, R499, R500). State: 0 EMPTY, 1 LOADED, 2 GENERATING. -/
structure KSlot where
  st : Nat
  alg : Nat
  world : Nat
  fn : Nat
  ring : Nat
  key : List Byte
deriving DecidableEq, Repr

def KSlot.empty : KSlot := ⟨0, 0, 0, 0, 0, []⟩

/-- A cached image: VERSION, SVN, body. -/
structure Image where
  version : Nat
  svn : Nat
  body : List Byte
deriving DecidableEq, Repr

/-- A Lighthouse (R479–R514). `seed`, keys and floors of the OTP are constants of the part but for LC and SVN (R487). -/
structure Lh where
  /-- OTP read since hold power-up; lifecycle (R488) -/
  otp : Bool
  lc : Nat
  svn : Tab Nat
  hmok : Bool
  cfwok : Bool
  fmtok : Bool
  nvmok : Bool
  cache : Tab Image
  /-- bytes of the bundle received, and what a private read answers (R494) -/
  bundle : List Byte
  bundleAns : Nat
  slots : Tab KSlot
  /-- slots 0 and 1 withdrawn by a grant of DBGEN_S (R514) -/
  noDev : Bool
  bootId : Nat
  wrapOn : Bool
  /-- mailbox (R484) -/
  mbIen : Bool
  mbVec : Nat
  mbLcn : Nat
  inpend : List Nat
  outpend : List Nat
  lastSlot : Nat
  mbIn : Tab (List Byte)
  mbOut : Tab (List Byte)
  /-- request taken and not answered: slot and message -/
  taken : Option (Nat × List Byte)
  nonce : Option (List Byte)
  utc : Nat
  att : Bool
  /-- Stockpot partition (R510) -/
  smask : Nat
  nmask : Nat
deriving DecidableEq, Repr

def Lh.off (lc : Nat) : Lh :=
  { otp := false, lc := lc, svn := [], hmok := false, cfwok := false, fmtok := false, nvmok := false, cache := [],
    bundle := [], bundleAns := 0, slots := [], noDev := false, bootId := 0, wrapOn := false, mbIen := false, mbVec := 0,
    mbLcn := 0, inpend := [], outpend := [], lastSlot := 15, mbIn := [], mbOut := [], taken := none, nonce := none,
    utc := 0, att := false, smask := 0, nmask := 0x1FFF }

/-- Debug enables (R483, R511–R513): bits 3 DBGEN_N, 2 NIDEN_N, 1 DBGEN_S, 0 NIDEN_S. -/
structure Dbg where
  dflt : Nat
  grant : Nat
  left : Nat
  /-- DBG_HUB_CTL.NOGATE of each hub -/
  nogate : Pair Bool
  /-- blocks a debug access woke from DROWSE (R518) -/
  woken : List Nat
deriving DecidableEq, Repr

/-! ### Supplies, clocks, sideband, readiness -/

/-- A supply: in range now, declared lost (feeds). -/
structure Feed where
  ok : Bool
  lost : Bool
  sticky : Bool
  losses : Nat
deriving DecidableEq, Repr

/-- Supplies, clocks and sideband lines of the package (R522–R535, R618–R624). -/
structure Pwr where
  feedA : Feed
  feedB : Feed
  hOk : Bool
  onHold : Bool
  /-- ST64 at which PWRFAIL_WARN_N last became inactive (R526) -/
  pfwEnd : Nat
  /-- sideband inputs 0–3: active after the filter, stuck, chattering -/
  active : List Nat
  stuck : List Nat
  chat : List Nat
  svc : Bool
  masks : Nat
  /-- RESET_N was released before HOLD (R625) -/
  resetPend : Bool
  /-- CLK_STAT and CLK_MON (R532); windows in range in a row, saturating at 16 -/
  ref : Bool
  lock : Bool
  xok : Bool
  irok : Bool
  losses : Nat
  xcnt : Nat
  icnt : Nat
  good : Nat
deriving DecidableEq, Repr

/-- Pairing of the package (R549–R552). Verdict: 0 compatible, 1 no MIRRORED, 2 SPLIT only. -/
structure Pairing where
  valid : Bool
  verdict : Nat
  drfm : Bool
  evx : Bool
deriving DecidableEq, Repr

/-- SYS_AUTO of a hub (R548). -/
structure Auto where
  en : Bool
  target : Nat
  wait : Nat
deriving DecidableEq, Repr

/-- The counter collector of a half (R583–R589). -/
structure Coll where
  run : Bool
  base : Nat
  size : Nat
  interval : Nat
  next : Nat
  seq : Nat
  miss : Nat
  missed : Nat
deriving DecidableEq, Repr

def Coll.reset : Coll := ⟨false, 0, 0, 0, 0, 0, 0, 0⟩

/-- The test access chain (R595–R601): instruction register of each controller (key 0–15 the dies, 16 and 17 the hubs;
listed where it is not IDCODE), what its data register captured last, the boundary register of each hub, and the access
port of a hub with an access that waits for its target's power state (R518). -/
structure Tap where
  ir : Tab Nat
  dr : Tab Nat
  bsr : Pair Nat
  apDone : Pair Bool
  apResp : Pair Nat
  apAddr : Pair Nat
  apData : Pair Nat
  apHeld : Pair (Option (Nat × Nat × Nat × Nat))
deriving DecidableEq, Repr

/-- A block power request in progress (R519, R520, R538). -/
structure PowerReq where
  unit : Nat
  target : Nat
  deferred : Bool
  cmd : Option Prog
  /-- wake-pending: a packet was answered while the block was closing (R247) -/
  wake : Bool
deriving DecidableEq, Repr

/-- Units of the package beside channels, caches, cores, ports and the channel subsystem. Keys: hub × 256 + ring,
hub × 8 + engine, (hub × 16 + mover) × 8 + channel, hub × 16 + mover. -/
structure Units where
  rings : Tab SRing
  engs : Tab SEng
  chs : Tab MCh
  movers : Tab Mover
  ldg : Pair Ldg
  lh : Pair Lh
  dbg : Dbg
  pwr : Pwr
  pairing : Pairing
  auto : Pair Auto
  coll : Pair Coll
  tap : Tap
  /-- readiness bits set (R543): n × 32 + bit for the bits that no other state decides -/
  ready : Pair (List Nat)
  /-- block power states that are not ACTIVE, key UNIT (R537) -/
  pstate : Tab Nat
  preq : List PowerReq
  /-- the half was FENCED when its units last stopped, so its Stockpot is tested (R545) -/
  spTest : Pair Bool
  /-- SYS_AUTO has issued its MODE_SET in this bring-up -/
  autoDone : Bool
  /-- leaky buckets, key UNIT (R143, R148, R277) -/
  buckets : Tab Bucket
  /-- merge entries of the SRAM array groups (R276), words oldest first. Key hub × 16 + group: 0–11 the Stockpot part of a home
  slice, 12 the Lighthouse SRAM, 13 the IFT, 14 the event log, 15 the ledger stream heads. A word is named by its Stockpot line, IFT
  entry or log INDEX. -/
  sram : Tab (List Nat)
deriving DecidableEq, Repr

end Sys2Proof.Machine
end

