-- ==== Sys2Proof/Machine/State.lean ====
section
/-! DEFINITION. The state of the package, its faults and refusals, and the state after reset. -/
namespace Sys2Proof.Machine

/-- A hold-domain item one hub sends the other over MIRH (R261, R571). -/
inductive MirItem where
  /-- a new log entry -/
  | logNew (e : LogEntry)
  /-- REPEAT and TLAST of an entry changed: source, code and index at the sender -/
  | logChange (source code index rep tlast : Nat)
deriving DecidableEq, Repr

/-- A reply latch of a unit for a context (R141): unit as its fabric node, request ID and reply. -/
structure Latch where
  unit : Nat
  lcn : Nat
  ctx : Nat
  rid : Nat
  reply : List Byte
deriving DecidableEq, Repr

/-- The reasons for which the machine stops. -/
inductive Fault where
  /-- nothing raises it: the package has no stop of its own that the model keeps outside State (safe) -/
  | none
deriving DecidableEq, Repr

/-- The reasons for which a command gets no meaning. -/
inductive Refusal where
  /-- raised by Dispatch for a command the model gives no meaning (safe) -/
  | notModelled (mnemonic : String)
deriving DecidableEq, Repr

/-- The whole machine. -/
structure State where
  cfg : Cfg
  pkg : Pkg
  rings : Tab Ring
  prog : List Prog
  /-- packets that wait for a fence, oldest first (R63) -/
  waitFence : List Waiting
  i3c : Pair I3c
  log : Pair Log
  /-- FAULT_N asserted (R564) -/
  faultN : Bool
  st64 : Pair W64
  mem : Pair Mem
  home : Pair Home
  coh : Coh
  /-- items on their way to a hub over MIRH, oldest first -/
  mirq : Pair (List MirItem)
  fab : Fabric
  latches : List Latch
  /-- hardware contexts, key LCN × 2 + context -/
  ctxs : Tab Ctx
  /-- checkpoints, key as `ctxs` -/
  cks : Tab Ckpt
  lcns : Tab Lcn
  /-- broadcast TLB invalidations under way, oldest first -/
  tlbq : List Tlbi
  dies : Tab Die
  moves : List Move
  /-- state images of LCNs that move or are parked, key LCN (R153, R157) -/
  images : Tab (Option LcnImage)
  /-- LCNs that wait for a physical core, parked longest first (R157, R158, R632) -/
  parks : List Nat
  /-- event counters (R575): key UNIT × 8 + index, a core's UNIT being 0xFF00_0000 + LCN -/
  ctrs : Tab Ctr
  att : Att
  css : Pair Css
  units : Units
  nonce : Nat
  /-- commands that wait, first in, first out -/
  pending : List Instr
deriving DecidableEq, Repr

/-! ### Reset -/

/-- The event log after the hold domain powers up (R563, R565). -/
def Log.reset : Log :=
  { ufEn := true, ucEn := true, crEn := false, ceEn := false, vector := 0, ibi := true, lcn := 0, entries := [],
    nextIdx := 0, lostTotal := 0, lostSince := 0, ovf := [], latches := [], lastWrite := none }

/-- The memory side of a hub after its reset (R293, R294). -/
def Mem.reset : Mem :=
  { chans := [], fixed := false, spareEn := false, auto := false, spareCh := 15, map := [], kshift := 0, scrubH := 24,
    copy := false, copySrc := 0, copyDst := 0, copyPtr := 0, copyCmd := none, failedHold := [], dram := [], poison := [] }

/-- The homes of a hub after its reset: home timer 200 µs (R218). -/
def Home.reset : Home :=
  { dir := [], clock := 0, bcast := [], trans := [], waiting := [], park := [], timer := 200, maint := [], stock := [] }

def I3c.reset : I3c := { dyn := none, ibiEn := true, fifo := [], ibi := [], ack := false, out := [] }

def Ldg.reset : Ldg :=
  { heads := [], streams := [], openCtr := 0, sigq := [], lanes := 0, fmt := false, errV := false, errW := false,
    errMore := false, errCause := 0, errPa := 0, errStream := 0 }

def Coh.reset : Coh := { cache := [], l2 := [], l1d := [], l1i := [], cpec := [], victim := [], refused := [], holder := [], deleted := [], erred := [], retries := [], net := [] }
def Fabric.reset : Fabric := { modules := [], buckets := [], routes := [], asleep := [], standby := [], aerrs := [] }
def Feed.reset : Feed := ⟨false, false, false, 0⟩

/-- Supplies, clocks and sideband after the hold domain powers up (R524, R532, R624). -/
def Pwr.reset : Pwr :=
  { feedA := Feed.reset, feedB := Feed.reset, hOk := false, onHold := false, pfwEnd := 0, active := [], stuck := [],
    chat := [], svc := false, masks := 0, resetPend := false, ref := true, lock := false, xok := false, irok := true,
    losses := 0, xcnt := 0, icnt := 0, good := 0 }

def Dbg.reset : Dbg := ⟨0, 0, 0, ⟨false, false⟩, []⟩
def Tap.reset : Tap := ⟨[], [], ⟨0, 0⟩, ⟨false, false⟩, ⟨0, 0⟩, ⟨0, 0⟩, ⟨0, 0⟩, ⟨none, none⟩⟩

/-- The lifecycle the OTP of a part holds: PRODUCTION (log 2). -/
def Units.reset : Units :=
  { rings := [], engs := [], chs := [], movers := [], ldg := ⟨Ldg.reset, Ldg.reset⟩, lh := ⟨Lh.off 3, Lh.off 3⟩,
    dbg := Dbg.reset, pwr := Pwr.reset, pairing := ⟨false, 0, false, false⟩, auto := ⟨⟨false, 0, 4000⟩, ⟨false, 0, 4000⟩⟩,
    coll := ⟨Coll.reset, Coll.reset⟩, tap := Tap.reset, ready := ⟨[], []⟩, pstate := [], preq := [],
    spTest := ⟨false, false⟩, autoDone := false, buckets := [], sram := [] }

/-- The attach ports: PF0 of port 0 and of port 2 of a hub's pair starts at queue pair 0, of the other at 16 (R443). -/
def Att.reset : Att :=
  { ports := [], fns := [(64, { Fn.reset with firstQp := 16 }), (192, { Fn.reset with firstQp := 16 })], qps := [] }

/-- The part of the model: AZ-Q1600-A of stepping B1, one 128 GB MRDIMM in each channel (log 2). -/
def Cfg.shipped : Cfg :=
  { part := .q1600a, step := ⟨0xB1, 0xB1⟩, dieStep := [], spares := [], dimms := [],
    dimm := { kind := 2, dpc := 1, rankb := 1, d32 := true }, bootMode := 0, testEn := false }

/-- The mode registers after the hold domain powers up (R34, R42). -/
def Pkg.reset : Pkg :=
  { mode := .hold, prev := .off, target := .off, hstate := ⟨.held, .held⟩, trans := none, htrans := ⟨none, none⟩,
    rshare := ⟨16, 16⟩, pfwLimit := ⟨10, 10⟩, limit := ⟨100, 100⟩, stopped := false, alive := ⟨true, true⟩, slow := 0, slowAt := 0, resilver := 0 }

/-- The package when its hold domain powers up from OFF: HOLD, every field at its reset value (R16, R540). -/
def State.reset : State :=
  { cfg := Cfg.shipped, pkg := Pkg.reset, rings := [], prog := [], waitFence := [], i3c := ⟨I3c.reset, I3c.reset⟩,
    log := ⟨Log.reset, Log.reset⟩, faultN := false, st64 := ⟨0, 0⟩, mem := ⟨Mem.reset, Mem.reset⟩,
    home := ⟨Home.reset, Home.reset⟩, coh := Coh.reset, mirq := ⟨[], []⟩, fab := Fabric.reset, latches := [], ctxs := [],
    cks := [], lcns := [], tlbq := [], dies := [], moves := [], images := [], parks := [], ctrs := [], att := Att.reset, css := ⟨Css.reset, Css.reset⟩,
    units := Units.reset, nonce := 0, pending := [] }

end Sys2Proof.Machine
end

