-- ==== Sys2Proof/Machine/HomeOps.lean ====
section
/-! DEFINITION. Where an address lies (R266), DRAM of a half, the caching agents, and what a home does with requests, snoops and
responses (R195–R222); coherent writes of one sector (R204, R220, R230). -/
namespace Sys2Proof.Machine

/-! ### Small updates of State -/

def updMem (h : Half) (f : Mem → Mem) (s : State) : State := { s with mem := s.mem.set h (f (s.mem.get h)) }
def updHome (h : Half) (f : Home → Home) (s : State) : State := { s with home := s.home.set h (f (s.home.get h)) }
def updLog (h : Half) (f : Log → Log) (s : State) : State := { s with log := s.log.set h (f (s.log.get h)) }
def updI3c (h : Half) (f : I3c → I3c) (s : State) : State := { s with i3c := s.i3c.set h (f (s.i3c.get h)) }
def updCoh (f : Coh → Coh) (s : State) : State := { s with coh := f s.coh }
def updFab (f : Fabric → Fabric) (s : State) : State := { s with fab := f s.fab }
def updPkg (f : Pkg → Pkg) (s : State) : State := { s with pkg := f s.pkg }
def updLcn (l : Nat) (f : Lcn → Lcn) (s : State) : State := { s with lcns := tmod Lcn.reset s.lcns l f }
def setHState (h : Half) (x : HState) (s : State) : State := updPkg (fun p => { p with hstate := p.hstate.set h x }) s

/-- Remove the first element that satisfies `p`. -/
def dropFirst {α : Type} (p : α → Bool) : List α → List α
  | [] => []
  | x :: t => if p x then t else x :: dropFirst p t

/-- A free value of this run (log 3): the constant no proof can see, at the next draw. -/
def freeVal (s : State) : Nat := Config.free s.nonce

/-- The state after a draw. -/
def drawn (s : State) : State := { s with nonce := s.nonce + 1 }

/-! ### Merge entries of SRAM arrays (R276) -/

def updSram (k : Nat) (f : List Nat → List Nat) (s : State) : State :=
  { s with units := { s.units with sram := tmod [] s.units.sram k f } }

/-- A narrow write of an SRAM array group merges into the entry of its word, or takes one of 16; with all in use the oldest drains. -/
def sramPut (h : Half) (grp w : Nat) (s : State) : State :=
  updSram (h.n * 16 + grp) (fun l => if l.contains w then l else if l.length < 16 then l ++ [w] else l.drop 1 ++ [w]) s

/-! ### Event counters (R575–R579) -/

def coreUnit (lcn : Nat) : Nat := 0xFF000000 + lcn

/-- Count `n` more: wrap at 2^48 with the sticky overflow bit (R578). -/
def Ctr.add (c : Ctr) (n : Nat) : Ctr :=
  { c with val := (c.val + n) % 2 ^ 48, ovf := c.ovf || decide (2 ^ 48 ≤ c.val + n) }

/-- Debug enables in force; a set DBGEN makes its NIDEN read 1 (R483). -/
def dbgEff (d : Dbg) : Nat :=
  let x := d.dflt.lor d.grant
  putBits [(3, b2n (bitOf x 3)), (2, b2n (bitOf x 2 || bitOf x 3)), (1, b2n (bitOf x 1)), (0, b2n (bitOf x 0 || bitOf x 1))]

/-- LH_DBG.NIDEN_S. -/
def nidenS (s : State) : Bool := bitOf (dbgEff s.units.dbg) 0

/-- A seal engine runs a job of a secure ring, or a mover a channel with OTYPE 0b10 (R580). -/
def secureBlock (s : State) (unit : Nat) : Bool :=
  let h := unit / 2 ^ 24
  let i := unit % 256
  if unit / 256 % 65536 = 0xFF04 then
    (match (tget SEng.reset s.units.engs (h * 8 + i)).cur with
     | some j => (tget SRing.reset s.units.rings (h * 256 + j.ring)).otype == 2
     | none => false)
  else if unit / 256 % 65536 = 0xFF05 then
    (match (tget Mover.reset s.units.movers (h * 16 + i)).cur with
     | some ch => (tget MCh.reset s.units.chs ((h * 16 + i) * 8 + ch)).otype == 2
     | none => false)
  else false

/-- A counter of a block for an event counts nothing: the block is OFF, pairing masks the event, or the block does secure-world work
that may not be observed (R553, R579, R580). -/
def ctrIdle (s : State) (unit ev : Nat) : Bool :=
  tget 0 s.units.pstate unit == 3 || (decide (0x800 ≤ ev) && s.units.pairing.valid && !s.units.pairing.evx) ||
    (secureBlock s unit && !nidenS s)

/-- An event of a block happens `n` times: every counter of the block that selects it counts (R575, R579). -/
def bump (unit ev n : Nat) (s : State) : State :=
  { s with ctrs := s.ctrs.map (fun e =>
      if e.1 / 8 = unit ∧ e.2.ev = ev ∧ ¬ ctrIdle s unit ev then (e.1, e.2.add n) else e) }

/-- An event of a block caused by work of the secure world (`sec`) or the normal one (R580). -/
def bumpFor (sec : Bool) (unit ev n : Nat) (s : State) : State := if sec && !nidenS s then s else bump unit ev n s

/-- Events of which no step of the model shows every occurrence: cycles, stalls, lookups and misses, flits, requests and
snoops, bytes of memory traffic (log 9). -/
def openEvents : List Nat :=
  [0x001, 0x006, 0x007, 0x008, 0x00B, 0x00E, 0x800, 0x101, 0x102, 0x103, 0x105, 0x106, 0x201, 0x202, 0x207, 0x281, 0x282, 0x285,
   0x286, 0x301, 0x302, 0x601, 0x602, 0x3A1, 0x3A3, 0x405, 0x484, 0x504]

/-- SOURCE and UNIT numbers (R71, R567). -/
def srcOf (h : Half) (die typ inst : Nat) : Nat := h.n * 2 ^ 24 + die * 2 ^ 16 + typ * 2 ^ 8 + inst

/-! ### Variant and mode (R2, R9, R34, R37) -/

/-- Hubs carry a near-memory unit (R2). -/
def hasNmu (s : State) : Bool := s.cfg.part != .q0800a

def hubPresent (s : State) (h : Half) : Bool := h == .a || s.cfg.part != .q0800a

/-- Populated dies (R2): CD0–CD15, but CD6, CD7, CD14, CD15 on AZ-Q1200-A and CD8–CD15 on AZ-Q0800-A. -/
def diePresent (s : State) (d : Nat) : Bool :=
  match s.cfg.part with
  | .q1600a => d < 16
  | .q1600c => d < 16
  | .q1200a => d < 6 || (8 ≤ d && d < 14)
  | .q0800a => d < 8

def dieHalf (d : Nat) : Half := if d < 8 then .a else .b

/-- The Harbourmaster that leads mode control (R37). -/
def leader (s : State) : Half :=
  if s.pkg.hstate.a = .fenced ∨ s.pkg.hstate.a = .absent then .b else .a

/-- The mode whose rules units follow: in DRAIN the mode being drained (R41, R261). -/
def effMode (s : State) : Mode :=
  match s.pkg.mode, s.pkg.trans with
  | .drain, some t => t.source
  | m, _ => m

/-- A half that works in the current mode: running or draining. -/
def halfUp (s : State) (h : Half) : Bool :=
  s.pkg.hstate.get h == .running || s.pkg.hstate.get h == .draining

/-- The package drains, or a half of SPLIT on its own (R41, R48). -/
def draining (s : State) (h : Half) : Bool := s.pkg.mode == .drain || s.pkg.hstate.get h == .draining

/-- The drain limit has passed and the package returns to its source mode (R38, R41). -/
def pastLimit (s : State) : Bool :=
  match s.pkg.mode, s.pkg.trans with
  | .drain, some t => t.phase == 3 && t.abortCmd.isNone
  | _, _ => false

/-- The running half of DEGRADED. -/
def runHalf (s : State) : Half := if halfUp s .a then .a else .b

/-! ### Where a DRAM address lies (R30, R266, R267, R269) -/

/-- Capacity of a half's interleave set: N × K. -/
def capacity (s : State) (h : Half) : Nat :=
  let m := s.mem.get h
  if m.fixed then m.map.length * 2 ^ m.kshift else 0

/-- The DRAM limit of the machine a requester of half `h` belongs to (R30). -/
def dramLimit (s : State) (h : Half) : Nat :=
  match effMode s with
  | .unified => capacity s .a + capacity s .b
  | .mirrored => capacity s .a
  | .degraded => capacity s (runHalf s)
  | .split => capacity s h
  | _ => 0

/-- Home of a DRAM address: ordering half, half-local address, and the half that mirrors it (R49, R266). -/
structure Place where
  half : Half
  l : Nat
  mirror : Option Half
deriving DecidableEq, Repr

def placeOf (s : State) (h : Half) (pa : Nat) : Place :=
  match effMode s with
  | .unified =>
    let ca := capacity s .a
    let cb := capacity s .b
    let m := min ca cb
    if pa < 2 * m then ⟨if bitOf pa 12 then .b else .a, pa / 8192 * 4096 + pa % 4096, none⟩
    else ⟨if cb > ca then .b else .a, pa - m, none⟩
  | .mirrored => if bitOf pa 12 then ⟨.b, pa, some .a⟩ else ⟨.a, pa, some .b⟩
  | .degraded =>
    let r := runHalf s
    if s.pkg.hstate.get r.other = .resilvering ∧ pa < s.pkg.resilver then ⟨r, pa, some r.other⟩ else ⟨r, pa, none⟩
  | _ => ⟨h, pa, none⟩

/-- The channel that holds a half-local address (R269), with an open copy taken into account (R287). -/
def chanOf (m : Mem) (l : Nat) : Nat :=
  let n := m.map.length
  let c := m.map.getD ((l / 256) % n) 15
  if m.copy ∧ c = m.copySrc ∧ l / 256 / n < m.copyPtr then m.copyDst else c

/-! ### DRAM of a half by sector (L / 64) -/

/-- Lay the masked bytes of `new` over `old`. -/
def overlay : List Byte → List Byte → Nat → List Byte
  | o :: os, n :: ns, m => (if m % 2 = 1 then n else o) :: overlay os ns (m / 2)
  | os, _, _ => os

/-- The bytes of a sector as a read finds them: DRAM with the merge entries over it (R275). -/
def memBytes (m : Mem) (sec : Nat) : List Byte :=
  let raw := (upTo 64).map (fun i => tget 0 m.dram (sec * 64 + i))
  let c := tget Chan.reset m.chans (chanOf m (sec * 64))
  (c.merges.filter (fun e => e.sector = sec)).foldl (fun d e => overlay d e.data e.mask) raw

/-- A read is poisoned by the mark, or because its channel has FAILED (R273, R288). -/
def memPoisoned (m : Mem) (sec : Nat) : Bool :=
  m.poison.contains sec || (tget Chan.reset m.chans (chanOf m (sec * 64))).st == .failed

/-- Store the bytes of a sector; `none` bytes are left. -/
def storeBytes : Tab Byte → Nat → List Byte → Tab Byte
  | t, _, [] => t
  | t, a, b :: bs => storeBytes (tset 0 t a b) (a + 1) bs

/-- DRAM is in canonical form: addresses strictly rising, no zero byte listed (an unlisted byte is zero, R40, log 4). -/
def Memory.wf (m : Mem) : Bool := tabWf 0 m.dram

/-- Write a whole sector with its poison mark (R271), taking any merge entry of it along. -/
def memPut (m : Mem) (sec : Nat) (d : List Byte) (poison : Bool) : Mem :=
  let c := chanOf m (sec * 64)
  { m with
    dram := storeBytes m.dram (sec * 64) (d.take 64)
    poison := if poison then setIns m.poison sec else setDel m.poison sec
    chans := tmod Chan.reset m.chans c (fun ch => { ch with merges := ch.merges.filter (fun e => e.sector ≠ sec) }) }

/-! ### Caching agents (R207, R208) -/

def ckey (agent sector : Nat) : Nat := agent * 2 ^ 46 + sector

/-- Half of a caching agent: its die's, or its hub's. -/
def agentHalf (a : Nat) : Half := if a < 8 ∨ a = 16 then .a else .b

/-- Caching agents of the coherence domain of a requester of half `h` (R192). -/
def inDomain (s : State) (h : Half) (a : Nat) : Bool :=
  (if a < 16 then diePresent s a else hubPresent s (agentHalf a)) &&
  (match effMode s with
    | .split => agentHalf a == h
    | .degraded => agentHalf a == runHalf s
    | _ => true)

def domain (s : State) (h : Half) : List Nat := (upTo 18).filter (inDomain s h)

def csec (s : State) (agent sector : Nat) : CSector := tget CSector.none s.coh.cache (ckey agent sector)

/-- A key of a core's cache is that of a sector in a core of a die. -/
def inDie (die sector key : Nat) : Bool := key / 2 ^ 46 / 128 == die && key % 2 ^ 46 == sector

/-- The L2s of a die follow the state of its L3 sector (R195, R198): an L2 holds M or E only under M or E, nothing under I;
the L1s hold only what their L2 holds. -/
def fitL2 (agent sector : Nat) (st : Moesi) (k : Coh) : Coh :=
  if 16 ≤ agent then k
  else match st with
  | .i => { k with l2 := k.l2.filter (fun e => !inDie agent sector e.1), l1d := k.l1d.filter (fun e => !inDie agent sector e),
                   l1i := k.l1i.filter (fun e => !inDie agent sector e) }
  | .s => { k with l2 := k.l2.map (fun e => if inDie agent sector e.1 then (e.1, .s) else e) }
  | .o => { k with l2 := k.l2.map (fun e => if inDie agent sector e.1 then (e.1, .s) else e) }
  | _ => k

def setCsec (agent sector : Nat) (c : CSector) (s : State) : State :=
  updCoh (fun k => fitL2 agent sector c.st { k with cache := tset CSector.none k.cache (ckey agent sector) c }) s

def Moesi.dirty : Moesi → Bool
  | .m => true
  | .o => true
  | _ => false

/-- The agent of the domain that holds a sector dirty, if one does. -/
def dirtyHolder (s : State) (h : Half) (sector : Nat) : Option Nat :=
  (domain s h).find? (fun a => (csec s a sector).st.dirty)

/-- A WBN of an agent for a sector is on its way (R225). -/
def wbnOut (s : State) (a sector : Nat) : Bool := s.coh.net.any (fun x => x.op == .wbn && x.m.agent == a && x.m.sector == sector)

/-- The victim-buffer copy of a sector whose WBN has not been absorbed (R225). -/
def victimOf (s : State) (h : Half) (sector : Nat) : Option Victim :=
  s.coh.victim.find? (fun v => v.sector = sector && v.hasData && inDomain s h v.agent && wbnOut s v.agent sector)

/-- Directory entry of a line (R210), key PA[51:8]. -/
def dirOf (s : State) (h : Half) (line : Nat) : DirEnt := tget DirEnt.none (s.home.get h).dir line

def setDir (h : Half) (line : Nat) (f : DirEnt → DirEnt) (s : State) : State :=
  updHome h (fun m => { m with dir := tmod DirEnt.none m.dir line f }) s

/-- Owner of a sector as the directory records it; 31 for none. -/
def ownerOf (d : DirEnt) (sector : Nat) : Nat := d.own.getD (sector % 4) 31

def setOwner (sector a : Nat) (d : DirEnt) : DirEnt := { d with own := d.own.set (sector % 4) a }

/-! ### A sector of memory and of the domain -/

/-- PSN of a line's entry is a copy of the mark in memory (R210, R220). -/
def markPsn (h : Half) (sector : Nat) (poison : Bool) (s : State) : State :=
  if (dirOf s h (sector / 4)).v then
    setDir h (sector / 4) (fun e => { e with psn :=
      if poison then (if bitOf e.psn (sector % 4) then e.psn else e.psn + 2 ^ (sector % 4))
      else (if bitOf e.psn (sector % 4) then e.psn - 2 ^ (sector % 4) else e.psn) }) s
  else s

/-- Write a whole sector to memory, and to the mirror where there is one (R209, R274). -/
def putSector (s : State) (h : Half) (sector : Nat) (d : List Byte) (poison : Bool) : State :=
  let p := placeOf s h (sector * 64)
  let s1 := updMem p.half (fun m => memPut m (p.l / 64) d poison) s
  markPsn p.half sector poison (match p.mirror with
    | some o => updMem o (fun m => memPut m (p.l / 64) d poison) s1
    | none => s1)

/-! ### Messages on their way -/

/-- The tide level a packet enters the fabric with, by its class (R237, R243). -/
def startTide (op : MsgOp) : Nat :=
  match op with
  | .rds => 0 | .rdx => 0 | .upg => 0 | .rdc => 0 | .wrf => 0 | .wrp => 0 | .atm => 0 | .mnt => 0
  | .rrd => 0 | .rwr => 0 | .ops => 0 | .int => 0
  | .snps => 2 | .snpx => 2 | .snpc => 2 | .snpk => 2 | .snpi => 2 | .purge => 2
  | _ => 4

/-- A packet is sent at a tide level it has reached already (R243). -/
def resend (op : MsgOp) (m : Msg) (s : State) : State := updCoh (fun k => { k with net := k.net ++ [⟨op, m⟩] }) s

/-- A packet enters the fabric. -/
def send (op : MsgOp) (m : Msg) (s : State) : State := resend op { m with tide := startTide op } s

/-- A message arrives: it is on its way no more. -/
def take (op : MsgOp) (m : Msg) (s : State) : State :=
  updCoh (fun k => { k with net := dropFirst (fun x => x == ⟨op, m⟩) k.net }) s

/-- A message without operands from a request. -/
def bare (m : Msg) (agent : Nat) : Msg :=
  { m with agent := agent, poison := false, hasData := false, data := [], mask := 0, aux := 0, opd1 := 0, opd2 := 0 }

/-! ### The directory -/

def upAgent (a : Nat) : Bool := a < 18

/-- Agents the directory lists for a line (PV and HP of R210). -/
def listed (d : DirEnt) : List Nat :=
  (upTo 18).filter (fun a => if a < 16 then bitOf d.pv a else bitOf d.hp (a - 16))

def addHolder (a : Nat) (d : DirEnt) : DirEnt :=
  if a < 16 then { d with pv := if bitOf d.pv a then d.pv else d.pv + 2 ^ a }
  else if a < 18 then { d with hp := if bitOf d.hp (a - 16) then d.hp else d.hp + 2 ^ (a - 16) } else d

def delHolder (a : Nat) (d : DirEnt) : DirEnt :=
  if a < 16 then { d with pv := if bitOf d.pv a then d.pv - 2 ^ a else d.pv }
  else if a < 18 then { d with hp := if bitOf d.hp (a - 16) then d.hp - 2 ^ (a - 16) else d.hp } else d

/-- Directory set of a line PA[51:8]: PA[25:8] XOR PA[43:26] (R210). -/
def dirSet (line : Nat) : Nat := (line % 2 ^ 18).xor (line / 2 ^ 18 % 2 ^ 18)

def setOf (h : Home) (line : Nat) : List (Nat × DirEnt) := h.dir.filter (fun e => e.2.v && dirSet e.1 == dirSet line)

/-- The home of a sector's address for a requester of half `f`. -/
def homeFor (s : State) (f : Half) (sector : Nat) : Half := (placeOf s f (sector * 64)).half

/-- The home slice of a sector as a unit (R567, R575). -/
def homeSource (s : State) (h : Half) (f : Half) (sector : Nat) : Nat :=
  srcOf h 0xFF 0x11 (chanOf (s.mem.get h) (placeOf s f (sector * 64)).l)

/-- A home slice counts an event (R594). -/
def homeCount (h : Half) (f : Half) (sector ev n : Nat) (s : State) : State := bump (homeSource s h f sector) ev n s

/-- A sector is locked while a transaction on it is open, or its line is being back-invalidated (R214, R221). -/
def locks (t : HTrans) (sector : Nat) : Bool :=
  if t.backInv then t.m.sector / 4 == sector / 4 else t.m.sector == sector

def locked (h : Home) (sector : Nat) : Bool :=
  h.trans.any (fun e => match e.2 with | some t => locks t sector | none => false)

/-- A free transaction entry of the 4,096 (R214). -/
def freeTx (h : Home) : Option Nat :=
  if h.trans.length < 4096 then (upTo (h.trans.length + 1)).find? (fun i => tget none h.trans i == none) else none

def putTx (h : Half) (tx : Nat) (t : Option HTrans) (s : State) : State :=
  updHome h (fun m => { m with trans := tset none m.trans tx t }) s

/-- Set or clear PIN of a line by whether a transaction on it is open (R214, R221). -/
def repin (h : Half) (line : Nat) (s : State) : State :=
  let m := s.home.get h
  let open_ := m.trans.any (fun e => match e.2 with | some t => t.m.sector / 4 == line | none => false)
  if (tget DirEnt.none m.dir line).v then setDir h line (fun d => { d with pin := open_ }) s else s

/-- Agents to snoop for a request (R215, R226): none, the owner, or every holder; never the requester. In broadcast
mode every caching agent of the domain (R212). -/
def snoopSet (s : State) (h : Half) (req : MsgOp) (m : Msg) : List Nat :=
  let d := dirOf s h (m.sector / 4)
  let own := if d.v ∧ ownerOf d m.sector ≠ 31 then [ownerOf d m.sector] else []
  let all := if d.v then (listed d ++ own).eraseDups else []
  let bc := (s.home.get h).bcast.contains (dirSet (m.sector / 4))
  let base := match req with
    | .rds => own
    | .rdc => own
    | .mnt => if m.aux = 0 then own else all
    | _ => all
  (if bc then (domain s m.from_) else base).filter (fun a => a ≠ m.agent)

/-- The snoop a request sends (R215, R226). -/
def snoopOp (req : MsgOp) (aux : Nat) : MsgOp :=
  match req with
  | .rds => .snps
  | .rdc => .snpc
  | .wrf => .snpi
  | .mnt => if aux = 0 then .snpk else if aux = 2 then .snpx else .snpi
  | _ => .snpx

/-- Memory of a home as a transaction reads it. -/
def homeMem (s : State) (f : Half) (sector : Nat) : List Byte × Bool :=
  let p := placeOf s f (sector * 64)
  (memBytes (s.mem.get p.half) (p.l / 64), memPoisoned (s.mem.get p.half) (p.l / 64))

/-- The channel of a sector has FAILED: writes complete with POISON (R288). -/
def homeFailed (s : State) (f : Half) (sector : Nat) : Bool :=
  let p := placeOf s f (sector * 64)
  (tget Chan.reset (s.mem.get p.half).chans (chanOf (s.mem.get p.half) p.l)).st == .failed

/-- The ordering home writes a whole sector to its own memory (R215), and to a half that is being resilvered past it
(R49); PSN follows the mark. -/
def homePut (f : Half) (sector : Nat) (d : List Byte) (poison : Bool) (s : State) : State :=
  let p := placeOf s f (sector * 64)
  let s0 := updMem p.half (fun m => memPut m (p.l / 64) d poison) s
  let s1 := match p.mirror with
    | some o => if effMode s = .degraded then updMem o (fun m => memPut m (p.l / 64) d poison) s0 else s0
    | none => s0
  markPsn p.half sector poison s1

/-- A partial write goes into a merge entry of its channel, the oldest one draining when all 32 are in use (R275). -/
def mergeIn (m : Mem) (sec : Nat) (mask : Nat) (d : List Byte) : Mem :=
  let c := chanOf m (sec * 64)
  let ch := tget Chan.reset m.chans c
  match ch.merges.find? (fun e => e.sector = sec) with
  | some e =>
    let e' : Merge := ⟨sec, e.mask.lor mask, overlay e.data d mask⟩
    if e'.mask = 2 ^ 64 - 1 then memPut m sec e'.data (m.poison.contains sec)
    else
      let ch' := { ch with merges := ch.merges.map (fun x => if x.sector = sec then e' else x) }
      { m with chans := tset Chan.reset m.chans c ch' }
  | none =>
    let m1 := match ch.merges with
      | o :: _ => if ch.merges.length < 32 then m else memPut m o.sector (memBytes m o.sector) (m.poison.contains o.sector)
      | [] => m
    let add := fun (k : Chan) => { k with merges := k.merges ++ [⟨sec, mask, overlay (List.replicate 64 0) d mask⟩] }
    { m1 with chans := tmod Chan.reset m1.chans c add }

/-- Result of CAS, SWAP and FADD at the NMU on the old value (R92, R215, R236). -/
def atomNew (aux : Nat) (size : Nat) (old a b : Nat) : Nat :=
  if aux % 4 = 0 then (if old = a % 256 ^ size then b % 256 ^ size else old)
  else if aux % 4 = 1 then a % 256 ^ size
  else (old + a) % 256 ^ size

/-- Operand size of an ATM: AUX bits 29:28 (R236). -/
def atomSize (aux : Nat) : Nat := if aux / 4 % 4 = 1 then 4 else if aux / 4 % 4 = 2 then 8 else 16

/-! ### End of a transaction -/

/-- Completion to the requester. -/
def complete (op : MsgOp) (t : HTrans) (d : Option (List Byte)) (poison : Bool) (s : State) : State :=
  send op { bare t.m t.m.agent with poison := poison, hasData := d.isSome, data := d.getD [] } s

/-- Take a transaction entry away and unpin its line. -/
def endTx (h : Half) (tx : Nat) (t : HTrans) (s : State) : State := repin h (t.m.sector / 4) (putTx h tx none s)

/-- In MIRRORED mode an update goes to the mirror home and the completion waits for MIRACK (R215, R262). -/
def mirrorOrEnd (h : Half) (tx : Nat) (t : HTrans) (d : Option (List Byte)) (poison : Bool) (s : State) : State :=
  if effMode s = .mirrored then
    let c := homeMem s t.m.from_ t.m.sector
    putTx h tx (some { t with phase := 2, dirty := d, poison := poison })
      (send .mirw { bare t.m t.m.agent with txid := tx, home := h, poison := c.2, hasData := true, data := c.1 } s)
  else endTx h tx t (complete .cmp t d poison s)

/-- Lock the sector for a grant and send it (R214). -/
def grant (h : Half) (tx : Nat) (t : HTrans) (op : MsgOp) (d : Option (List Byte)) (poison : Bool) (s : State) : State :=
  complete op { t with m := { t.m with txid := tx } } d poison (putTx h tx (some { t with phase := 1 }) s)

/-- The grant for ownership: GNT_M, or GNT_E in MIRRORED mode (R209, R215). -/
def ownGrant (s : State) : MsgOp := if effMode s = .mirrored then .gntE else .gntM

/-- Bytes `n` at `off` of a sector replaced by a number. -/
def putNum (d : List Byte) (off n v : Nat) : List Byte := splice d off (toBytes n v)

/-- Data ways of a Stockpot that the normal world allocates in (R200, R510). -/
def normalWays (s : State) (h : Half) : Nat := (upTo 13).foldl (fun (n : Nat) w => n + b2n (bitOf (s.units.lh.get h).nmask w)) 0

/-- The Stockpot allocates a line that a home transaction reads from DRAM in the normal ways of its set (R200, R510); that the
set is the line modulo 65,536, and which line leaves, the spec does not say (log 3, log 36). -/
def stockRead (h : Half) (line : Nat) (s : State) : State :=
  let k := (s.home.get h).stock
  let ks := k.filter (fun x => x % 65536 == line % 65536)
  if k.contains line ∨ tget 0 s.units.pstate (srcOf h 0xFF 0xB 0) ≠ 0 then s
  else if ks.length < normalWays s h then updHome h (fun m => { m with stock := k ++ [line] }) s
  else updHome h (fun m => { m with stock := k.erase (ks.getD (freeVal s % ks.length) 0) ++ [line] }) (drawn s)

/-- A request whose data memory supplies when no agent holds it dirty (R215). -/
def readsMem (req : MsgOp) : Bool :=
  match req with
  | .rds => true
  | .rdx => true
  | .rdc => true
  | .atm => true
  | _ => false

/-- Every response is in: send the grant or the completion (R215, R226). -/
def finishTx (h : Half) (tx : Nat) (t : HTrans) (s0 : State) : State :=
  let f := t.m.from_
  let sec := t.m.sector
  let s := if readsMem t.req && t.dirty.isNone && !t.backInv then stockRead h (sec / 4) s0 else s0
  let mem := homeMem s f sec
  let cur := match t.dirty with | some d => (d, t.poison) | none => mem
  let d := dirOf s h (sec / 4)
  if t.backInv then endTx h tx t (setDir h (sec / 4) (fun _ => DirEnt.none) s)
  else match t.req with
  | .rds =>
    let alone := decide (ownerOf d sec = 31) && (listed d).all (fun a => a == t.m.agent)
    grant h tx t (if alone && t.dirty.isNone then .gntE else .gntS) (some cur.1) cur.2 s
  | .rdx => grant h tx t (ownGrant s) (some cur.1) cur.2 s
  | .upg =>
    if (listed d).contains t.m.agent && (csec s t.m.agent sec).st != .i then grant h tx t (ownGrant s) none false s
    else grant h tx t (ownGrant s) (some cur.1) cur.2 s
  | .rdc => endTx h tx t (complete .cmp t (some cur.1) cur.2 s)
  | .wrf => mirrorOrEnd h tx t none (homeFailed s f sec) (homePut f sec t.m.data t.m.poison s)
  | .wrp =>
    let s1 := match t.dirty with
      | some o => homePut f sec (overlay o t.m.data t.m.mask) t.poison s
      | none =>
        let p := placeOf s f (sec * 64)
        if effMode s = .degraded ∧ p.mirror.isSome then homePut f sec (overlay mem.1 t.m.data t.m.mask) mem.2 s
        else
          let u := updMem p.half (fun m => mergeIn m (p.l / 64) t.m.mask t.m.data) s
          if (s.home.get h).stock.contains (sec / 4) then sramPut h (chanOf (s.mem.get h) p.l % 12) (sec / 4) u else u
    mirrorOrEnd h tx t none (homeFailed s f sec) s1
  | .atm =>
    let n := atomSize t.m.aux
    let old := fieldAt cur.1 t.m.mask n
    let new := putNum cur.1 t.m.mask n (atomNew t.m.aux n old t.m.opd1 t.m.opd2)
    let out := toBytes n old
    let s1 := homePut f sec new cur.2 s
    mirrorOrEnd h tx t (some out) cur.2
      { s1 with latches := s1.latches.filter (fun x => ¬ (x.unit = 1024 + h.n ∧ x.lcn = t.m.lcn ∧ x.ctx = t.m.ctx)) ++
                  [⟨1024 + h.n, t.m.lcn, t.m.ctx, t.m.rid, out⟩] }
  | .mnt =>
    if t.m.aux = 0 then
      (match t.dirty with
        | some o => mirrorOrEnd h tx t none t.poison (homePut f sec o t.poison s)
        | none => endTx h tx t (complete .cmp t none mem.2 s))
    else if t.m.aux = 1 then endTx h tx t (complete .cmp t none false s)
    else if t.m.aux = 2 then
      (match t.dirty with
        | some o => mirrorOrEnd h tx t none t.poison (homePut f sec o t.poison s)
        | none => endTx h tx t (complete .cmp t none mem.2 s))
    else mirrorOrEnd h tx t none false (homePut f sec (List.replicate 64 0) false s)
  | _ => endTx h tx t s

/-- Start one ordered request: snoop, or finish at once when nobody need be asked (R214, R215). -/
def startTx (h : Half) (tx : Nat) (q : HReq) (s : State) : State :=
  let aw := snoopSet s h q.req q.m
  let t : HTrans := ⟨q.req, { q.m with txid := tx }, aw, [], none, false, 0, false⟩
  let s1 := repin h (q.m.sector / 4) (putTx h tx (some t) s)
  let s2 := aw.foldl (fun u a => send (snoopOp q.req q.m.aux) { bare q.m a with txid := tx, home := h } u) s1
  if aw = [] then finishTx h tx t s2 else s2

/-- Only a request that will leave a copy at its agent needs a directory entry (R210). -/
def needsEntry (req : MsgOp) : Bool :=
  match req with
  | .rds => true
  | .rdx => true
  | .upg => true
  | _ => false

/-- Give the line an entry, or count it as used. -/
def touchEntry (h : Half) (line : Nat) (s : State) : State :=
  updHome h (fun m =>
    let used := fun (d : DirEnt) =>
      if d.v then { d with lru := m.clock + 1 } else { DirEnt.none with v := true, lru := m.clock + 1 }
    { m with clock := m.clock + 1, dir := tmod DirEnt.none m.dir line used }) s

/-- The unpinned entry of a full set that was used least recently (R221). -/
def victimEntry (h : Home) (line : Nat) : Option (Nat × DirEnt) :=
  ((setOf h line).filter (fun e => !e.2.pin)).foldl
    (fun b e => match b with | none => some e | some x => if e.2.lru < x.2.lru then some e else some x) none

/-- RETRY with its HINT, or the park queue for a request at tide level 7; a request that finds the park queue full
waits before it, oldest first (R222). The requester keeps a refused request until RETRY reaches it. -/
def refuse (h : Half) (q : HReq) (hint : Nat) (s : State) : State :=
  if q.m.tide = 7 then updHome h (fun m => { m with park := m.park ++ [q] }) s
  else homeCount h q.m.from_ q.m.sector 0x203 1
    (send .retry { bare q.m q.m.agent with aux := hint } (updCoh (fun k => { k with refused := k.refused ++ [q] }) s))

/-- Evict an entry for a request that needs one: the request waits for it (R221). -/
def backInvalidate (h : Half) (tx : Nat) (e : Nat × DirEnt) (q : HReq) (s : State) : State :=
  let aw := (listed e.2 ++ e.2.own.filter (fun a => a ≠ 31)).eraseDups
  let m : Msg := { bare q.m 31 with sector := e.1 * 4, txid := tx, home := h }
  let t : HTrans := ⟨.rdx, m, aw.flatMap (fun a => [a, a, a, a]), [], none, false, 0, true⟩
  let s1 := repin h e.1 (putTx h tx (some t) s)
  let s2 := updHome h (fun k => { k with waiting := k.waiting ++ [q] }) s1
  aw.foldl (fun u a => (upTo 4).foldl (fun v i => send .snpx { m with agent := a, sector := e.1 * 4 + i } v) u)
    (homeCount h q.m.from_ (e.1 * 4) 0x206 1 s2)

/-- A request meets its home: it waits behind an open transaction, or is ordered (R214, R221, R222). -/
def homeServe (h : Half) (q : HReq) (s : State) : State :=
  let m := s.home.get h
  let line := q.m.sector / 4
  if locked m q.m.sector then updHome h (fun k => { k with waiting := k.waiting ++ [q] }) s
  else match freeTx m with
  | none => refuse h q 5 s
  | some tx =>
    if needsEntry q.req && !(dirOf s h line).v && decide (24 ≤ (setOf m line).length) then
      match victimEntry m line with
      | none => refuse h q 2 s
      | some e =>
        if listed e.2 = [] ∧ e.2.own.all (fun a => a == 31) then
          startTx h tx q (touchEntry h line (setDir h e.1 (fun _ => DirEnt.none) (homeCount h q.m.from_ (e.1 * 4) 0x206 1 s)))
        else backInvalidate h tx e q s
    else startTx h tx q (if needsEntry q.req then touchEntry h line s else s)

/-- Serve requests that wait for a sector which is locked no more, in arrival order (R214). -/
def serveWaiting (h : Half) : Nat → State → State
  | 0, s => s
  | n + 1, s =>
    let m := s.home.get h
    match m.waiting.find? (fun q => !locked m q.m.sector) with
    | none => s
    | some q => serveWaiting h n (homeServe h q (updHome h (fun k => { k with waiting := dropFirst (fun x => x == q) k.waiting }) s))

/-- After a transaction made progress: serve who waits. -/
def settle (h : Half) (s : State) : State := serveWaiting h (s.home.get h).waiting.length s

/-- All responses and awaited WBNs are in. -/
def advance (h : Half) (tx : Nat) (t : HTrans) (s : State) : State :=
  if t.await = [] ∧ t.evicting = [] ∧ t.phase = 0 then settle h (finishTx h tx t s) else putTx h tx (some t) s

/-! ### Accesses that one step makes whole (R204, R214, R230) -/

/-- A response of an agent to a snoop. -/
def isRsp : MsgOp → Bool
  | .rspI => true | .rspS => true | .rspE => true | .rspO => true | .rspM => true | .rspMiss => true | .rspEvicting => true
  | _ => false

/-- A message between a home and an agent for an open transaction. -/
def txOp : MsgOp → Bool
  | .snps => true | .snpx => true | .snpc => true | .snpk => true | .snpi => true
  | .gntS => true | .gntE => true | .gntM => true | .cack => true | .mirw => true | .mirack => true
  | op => isRsp op

def ofTx (h : Half) (tx line : Nat) (x : NetMsg) : Bool :=
  txOp x.op && x.m.home == h && x.m.txid == tx && x.m.sector / 4 == line

/-- Dirty data that no agent holds any more and memory not yet: in a response on its way to an open transaction, or with the
home until its grant is acknowledged (R214, R215). -/
def flightOf (s : State) (h : Half) (sector : Nat) : Option (List Byte × Bool) :=
  let g := homeFor s h sector
  (s.home.get g).trans.findSome? (fun e => match e.2 with
    | none => none
    | some t =>
      if ¬ locks t sector ∨ t.phase = 2 then none
      else match t.dirty with
        | some d => some (d, t.poison)
        | none =>
          (s.coh.net.find? (fun x => isRsp x.op && x.m.hasData && x.m.sector == sector && x.m.home == g && x.m.txid == e.1 &&
            t.await.contains x.m.agent)).map (fun x => (x.m.data, x.m.poison)))

/-- The sector's data where memory does not hold it: a dirty copy, one in a victim buffer, or one under way. -/
def dirtyData (s : State) (h : Half) (sector : Nat) : Option (List Byte × Bool) :=
  match dirtyHolder s h sector with
  | some a => some ((csec s a sector).data, (csec s a sector).poison)
  | none =>
    match victimOf s h sector with
    | some v => some (v.data, v.poison)
    | none => flightOf s h sector

/-- The current bytes of a sector and its poison mark, as an RDC returns them (R215, R220, R230). -/
def curSector (s : State) (h : Half) (sector : Nat) : List Byte × Bool := (dirtyData s h sector).getD (homeMem s h sector)

/-- Take every cached copy of a sector away and clear its owner (SNPX and SNPI of R216). -/
def purgeCopies (h : Half) (sector : Nat) (s : State) : State :=
  let s1 := (domain s h).foldl (fun t a => setCsec a sector CSector.none t) s
  let p := placeOf s h (sector * 64)
  if (dirOf s p.half (sector / 4)).v then setDir p.half (sector / 4) (setOwner sector 31) s1 else s1

/-- An agent's WBN of a sector arrives and is acknowledged: its victim-buffer entry frees (R211, R225). -/
def absorbVictim (f : Half) (sector : Nat) (s : State) : State :=
  match s.coh.victim.find? (fun v => v.sector == sector && inDomain s f v.agent) with
  | none => s
  | some v =>
    let h := homeFor s f sector
    let out := wbnOut s v.agent sector
    let s1 := if out && v.hasData then putSector s f sector v.data v.poison else s
    let s2 := if out && (dirOf s1 h (sector / 4)).v && ownerOf (dirOf s1 h (sector / 4)) sector == v.agent then
      setDir h (sector / 4) (setOwner sector 31) s1 else s1
    updCoh (fun k => { k with
      victim := dropFirst (fun x => x == v) k.victim
      net := k.net.filter (fun x => !(x.op == .wbn && x.m.agent == v.agent && x.m.sector == sector)) }) s2

/-- A line loses its directory entry (R221): every copy of it goes, dirty data into memory. -/
def dropEntry (h f : Half) (line : Nat) (s : State) : State :=
  let one := fun (t : State) (i : Nat) =>
    let sec := line * 4 + i
    let t1 := absorbVictim f sec t
    purgeCopies f sec (match dirtyData t1 f sec with | some x => putSector t1 f sec x.1 x.2 | none => t1)
  setDir h line (fun _ => DirEnt.none) ((upTo 4).foldl one s)

/-- An entry for a line is there or can be had: that of a full set used least recently goes (R221). None while every one of
the set is pinned. -/
def entryRoom (h f : Half) (line : Nat) (s : State) : Option State :=
  let m := s.home.get h
  if (dirOf s h line).v || decide ((setOf m line).length < 24) then some s
  else (victimEntry m line).map (fun e => dropEntry h f e.1 (homeCount h f (e.1 * 4) 0x206 1 s))

/-- The mirror has the sector, and the request completes (R215, R262). -/
def mirrorEnd (h : Half) (tx : Nat) (t : HTrans) (s : State) : State :=
  let c := homeMem s t.m.from_ t.m.sector
  endTx h tx t (complete .cmp t t.dirty t.poison (putSector s t.m.from_ t.m.sector c.1 c.2))

/-- The transaction that locks a sector. -/
def lockTx (s : State) (h : Half) (sector : Nat) : Option (Nat × HTrans) :=
  (s.home.get h).trans.findSome? (fun e => match e.2 with
    | some t => if locks t sector then some (e.1, t) else none
    | none => none)

/-- An access that finds its sector locked is ordered behind the open transaction (R214): within its step the messages of that
transaction arrive and it ends. A requester it grants the sector to has it until the access's own snoops, which follow. -/
def endLock (f : Half) (sector : Nat) (s : State) : State :=
  let h := homeFor s f sector
  match lockTx s h sector with
  | none => s
  | some (tx, t) =>
    let own := dirtyData s f sector
    let s1 := updCoh (fun k => { k with net := k.net.filter (fun x => !ofTx h tx (t.m.sector / 4) x) }) s
    let keep := fun (u : State) => match own with | some x => putSector u f sector x.1 x.2 | none => u
    if t.backInv then endTx h tx t (dropEntry h f (t.m.sector / 4) (keep s1))
    else if t.phase = 2 then mirrorEnd h tx t s1
    else if needsEntry t.req then endTx h tx t (keep s1)
    else
      let s2 := finishTx h tx { t with await := [], evicting := [], dirty := own.map (fun x => x.1), poison := (own.map (fun x => x.2)).getD false }
        (if t.req == .rdc || (t.req == .mnt && t.m.aux == 0) then s1 else purgeCopies f sector s1)
      match tget none (s2.home.get h).trans tx with
      | some t2 => mirrorEnd h tx t2 (updCoh (fun k => { k with net := k.net.filter (fun x => !ofTx h tx (t.m.sector / 4) x) }) s2)
      | none => s2

/-- A sector is free for an access: what locks it has ended, and no WBN of it is on its way. -/
def clearWay (f : Half) (sector : Nat) (s : State) : State := absorbVictim f sector (endLock f sector s)

/-- Requests that waited behind what the access ended are served after it. -/
def thenServe (f : Half) (sector : Nat) (was s : State) : State :=
  let h := homeFor was f sector
  if locked (was.home.get h) sector then settle h s else s

/-- One sector of a coherent write by a non-caching agent: bytes from `off`. A whole sector clears the poison mark,
a part keeps it (R220). -/
def writeSector (s : State) (h : Half) (sector off : Nat) (d : List Byte) : State :=
  let s1 := clearWay h sector s
  let c := curSector s1 h sector
  let whole := decide (off = 0 ∧ d.length = 64)
  thenServe h sector s (putSector (purgeCopies h sector s1) h sector (splice c.1 off d) (if whole then false else c.2))

/-- Such a write that leaves the sector poisoned (R463). -/
def writePoison (s : State) (h : Half) (sector off : Nat) (d : List Byte) : State :=
  let s1 := clearWay h sector s
  thenServe h sector s (putSector (purgeCopies h sector s1) h sector (splice (curSector s1 h sector).1 off d) true)

end Sys2Proof.Machine
end

