-- ==== Sys2Proof/Machine/Ops.lean ====
section
/-! DEFINITION. The named operations every family shares: coherent access to DRAM by address (R28–R30, R204, R220, R230),
interrupts held at an LCN (R24), the event log (R565–R571) and replies (R64). -/
namespace Sys2Proof.Machine

/-! ### Access by address (R28, R29) -/

/-- Regions of the physical address space (R28). -/
inductive Region where
  | dram
  /-- port 0–3 and offset in its window -/
  | attach (port off : Nat)
  /-- hub, path port and offset -/
  | path (h : Half) (pp off : Nat)
  /-- hub and offset from its register base -/
  | regs (h : Half) (off : Nat)
  | reserved
deriving DecidableEq, Repr

def regionOf (pa : Nat) : Region :=
  if pa < 0x100000000000 then .dram
  else if pa < 0xFC00000000000 then .reserved
  else if pa < 0xFE00000000000 then .attach ((pa - 0xFC00000000000) / 0x80000000000) ((pa - 0xFC00000000000) % 0x80000000000)
  else if pa < 0xFF00000000000 then
    let k := (pa - 0xFE00000000000) / 0x8000000000
    .path (if k < 16 then .a else .b) (k % 16) ((pa - 0xFE00000000000) % 0x8000000000)
  else if pa < 0xFFF0000000000 then .reserved
  else if pa < 0xFFF8000000000 then .regs .a (pa - 0xFFF0000000000)
  else if pa < 0x10000000000000 then .regs .b (pa - 0xFFF8000000000)
  else .reserved

/-- The access reaches into the image region of a hub whose addresses the requester shares (R345). -/
def inImage (s : State) (h : Half) (pa n : Nat) : Bool :=
  [Half.a, Half.b].any (fun g =>
    let c := s.css.get g
    (g == h || effMode s != .split) && c.imgLock && decide (pa < (c.imgBase + 1) * 2 ^ 24 ∧ c.imgBase * 2 ^ 24 < pa + n))

/-- Bytes `pa` to `pa + n` lie in the DRAM window below the limit (R29, R30). -/
def dramRaw (s : State) (h : Half) (pa n : Nat) : Bool := decide (pa + n ≤ dramLimit s h ∧ pa + n ≤ 0x100000000000)

/-- They are DRAM for an agent the image region is closed to (R345). -/
def dramOk (s : State) (h : Half) (pa n : Nat) : Bool := dramRaw s h pa n && !inImage s h pa n

/-- Bytes of DRAM as a coherent read finds them, with POISON. -/
def readRun (s : State) (h : Half) (pa n : Nat) : List Byte × Bool :=
  let secs := (upTo ((pa % 64 + n + 63) / 64)).map (fun i => curSector s h (pa / 64 + i))
  (slice (secs.flatMap (fun c => c.1)) (pa % 64) n, secs.any (fun c => c.2))

/-- A coherent read of DRAM by a non-caching agent of half `h`: none is an address error, the flag is POISON. -/
def dmaRead (s : State) (h : Half) (pa n : Nat) : Option (List Byte × Bool) :=
  if dramOk s h pa n then some (readRun s h pa n) else none

/-- The same for an agent the image region is open to (R345). -/
def dmaReadRaw (s : State) (h : Half) (pa n : Nat) : Option (List Byte × Bool) :=
  if dramRaw s h pa n then some (readRun s h pa n) else none

/-- The part of a write that falls into its i-th sector: offset in the sector and bytes. -/
def secPart (pa : Nat) (d : List Byte) (i : Nat) : Nat × List Byte :=
  if i = 0 then (pa % 64, d.take (64 - pa % 64)) else (0, (d.drop (64 * i - pa % 64)).take 64)

def writeRun (h : Half) (pa : Nat) (d : List Byte) (s : State) : State :=
  (upTo ((pa % 64 + d.length + 63) / 64)).foldl
    (fun t i => writeSector t h (pa / 64 + i) (secPart pa d i).1 (secPart pa d i).2) s

/-- A sector the write covers in part is poisoned and stays so (R220). -/
def writeBad (s : State) (h : Half) (pa : Nat) (d : List Byte) : Bool :=
  (upTo ((pa % 64 + d.length + 63) / 64)).any
    (fun i => decide ((secPart pa d i).2.length < 64) && (curSector s h (pa / 64 + i)).2)

/-- A coherent write of DRAM by a non-caching agent: none is an address error; the flag tells that a sector it wrote
in part was poisoned and stays so. -/
def dmaWrite (s : State) (h : Half) (pa : Nat) (d : List Byte) : Option (State × Bool) :=
  if dramOk s h pa d.length then some (writeRun h pa d s, writeBad s h pa d) else none

def dmaWriteRaw (s : State) (h : Half) (pa : Nat) (d : List Byte) : Option (State × Bool) :=
  if dramRaw s h pa d.length then some (writeRun h pa d s, writeBad s h pa d) else none

/-! ### Interrupts held at an LCN (R24, R41, R153) -/

/-- WAIT ends by an event or its limit: CC, and the PC passes the WAIT (R102). -/
def endWait (cc : Cc) (c : Ctx) : Ctx :=
  match c.wait with
  | some _ => { c with wait := none, pc := canonPc (c.pc.toNat + 4), psw := { c.psw with cc := cc }, debugDue := c.debugDue || c.psw.ss }
  | none => c

def modCtx (l c : Nat) (f : Ctx → Ctx) (s : State) : State := { s with ctxs := tmod Ctx.reset s.ctxs (l * 2 + c) f }

def wakeBoth (l : Nat) (s : State) : State := modCtx l 1 (endWait Cc.zero) (modCtx l 0 (endWait Cc.zero) s)

/-- An external interrupt reaches an LCN: a pending bit, and the end of a WAIT of its contexts (R24, R102, R154). -/
def raiseExt (lcn vector : Nat) (s : State) : State :=
  wakeBoth lcn (updLcn lcn (fun c => { c with ext := setIns c.ext vector }) s)

/-! ### In-band interrupts of the management port (R60) -/

def raiseIbi (h : Half) (payload : Nat) (s : State) : State :=
  if (s.i3c.get h).ibiEn then updI3c h (fun i => { i with ibi := i.ibi ++ [payload] }) s else s

/-! ### The event log (R565–R571) -/

/-- Classes (R554). -/
def clsCE : Nat := 0
def clsCR : Nat := 1
def clsUC : Nat := 2
def clsUF : Nat := 3
def clsNote : Nat := 4

/-- Rank of a class when the log is full: CE, CR and NOTE below UC below UF (R565). -/
def clsRank (c : Nat) : Nat := if c = 3 then 2 else if c = 2 then 1 else 0

def sat (n lim : Nat) : Nat := if n > lim then lim else n

/-- Place a new entry (R565): none when it is dropped. -/
def logPlace (es : List LogEntry) (e : LogEntry) : Option (List LogEntry) :=
  let rsv := (es.filter (fun x => x.rsv)).length
  let gen := (es.filter (fun x => !x.rsv)).length
  let hi := decide (0 < clsRank e.cls)
  if hi && decide (rsv < 256) then some (es ++ [{ e with rsv := true }])
  else if gen < 7936 then some (es ++ [e])
  else
    match es.find? (fun x => !x.rsv) with
    | none => some (es ++ [e])
    | some o =>
      if clsRank o.cls ≤ clsRank e.cls then some (dropFirst (fun x => !x.rsv) es ++ [e])
      else if es.any (fun x => !x.rsv && clsRank x.cls == 0) then
        some (dropFirst (fun x => !x.rsv && clsRank x.cls == 0) es ++ [e])
      else if hi then some (dropFirst (fun x => !x.rsv) es ++ [e])
      else none

/-- A dropped report (R565, R569). -/
def logDrop (l : Log) (source : Nat) : Log :=
  { l with lostTotal := sat (l.lostTotal + 1) 0xFFFFFFFF, lostSince := sat (l.lostSince + 1) 0xFFFFFFFF,
           ovf := tset 0 l.ovf source (sat (tget 0 l.ovf source + 1) 65535) }

/-- The newest entry with the SOURCE and CODE of a report, when the report coalesces into it (R570). LCN_LOST reports never
do: one entry is written for each lost LCN (R45, R556, R560). -/
def coalesces (l : Log) (ts : Nat) (r : Report) : Option LogEntry :=
  match l.entries.reverse.find? (fun e => e.source = r.source && e.code = r.code && !e.peer) with
  | none => none
  | some e =>
    if e.cls = r.cls ∧ r.code ≠ 0x0904 ∧ r.bucket = none ∧ e.bucket = false ∧ ts ≤ e.tlast + 1000 ∧
        (l.entries.drop (l.entries.length - 64)).any (fun x => x.index == e.index) then some e
    else none

/-- Items a hub mirrors to the other over MIRH are in `State.mirq`; here the new entry or the change of one. -/
def entryOf (l : Log) (ts : Nat) (r : Report) (notice : Bool) : LogEntry :=
  { ts := ts, index := l.nextIdx, source := r.source, level := r.level, cls := r.cls, code := r.code,
    rep := r.bucket.getD 1, lost := l.lostSince, rsv := false, peer := false, bucket := r.bucket.isSome,
    notice := notice, damaged := false, ovf := tget 0 l.ovf r.source, tlast := ts, data := r.data }

/-- The log after a new entry was written. -/
def logAdded (l : Log) (r : Report) (es : List LogEntry) : Log :=
  { l with entries := es, nextIdx := (l.nextIdx + 1) % 2 ^ 32, lostSince := 0, ovf := tset 0 l.ovf r.source 0 }

/-- The log after a report coalesced into entry `e` (R570). -/
def logMerged (l : Log) (ts : Nat) (e : LogEntry) : Log :=
  { l with entries := l.entries.map (fun x =>
      if x.index = e.index then { x with rep := sat (x.rep + 1) 0xFFFFFFFF, tlast := ts } else x) }

/-- In MIRRORED mode an item goes to the other hub as MIRH (R261, R571). -/
def mirSend (h : Half) (i : MirItem) (s : State) : State :=
  if effMode s = .mirrored then { s with mirq := s.mirq.set h.other (s.mirq.get h.other ++ [i]) } else s

/-- The RAS interrupt and the in-band interrupt of a new entry of the hub's own (R563). -/
def logSignals (h : Half) (r : Report) (s : State) : State :=
  let l := s.log.get h
  let en := (r.cls = 3 ∧ l.ufEn) ∨ (r.cls = 2 ∧ l.ucEn) ∨ (r.cls = 1 ∧ l.crEn) ∨ (r.cls = 0 ∧ l.ceEn) ∨ r.bucket.isSome
  let s1 := if en ∧ s.pkg.mode ≠ .hold then raiseExt l.lcn l.vector s else s
  let s2 := if (r.cls = 3 ∨ r.cls = 2) ∧ l.ibi then raiseIbi h 2 s1 else s1
  if r.cls = 3 then { s2 with faultN := true } else s2

/-- Write one report into the log of a hub: coalesce it, place a new entry, or drop it (R565, R569, R570, R571).
`notice` tells that a notice of it is posted. -/
def logBase (h : Half) (ts : Nat) (r : Report) (notice : Bool) (s : State) : State :=
  let l := s.log.get h
  match coalesces l ts r with
  | some e =>
    mirSend h (.logChange e.source e.code e.index (sat (e.rep + 1) 0xFFFFFFFF) ts)
      (sramPut h 14 e.index (updLog h (fun k => logMerged k ts e) s))
  | none =>
    let e := entryOf l ts r notice
    match logPlace l.entries e with
    | none => updLog h (fun k => logDrop k r.source) s
    | some es => logSignals h r (mirSend h (.logNew e) (updLog h (fun k => logAdded k r es) s))

/-! ### Replies and notices (R59, R64, R67, R562) -/

/-- Key of the ring of a hub and level in `State.rings`. -/
def ringKey (h : Half) (level : Nat) : Nat := h.n * 4 + level

def Ring.reset : Ring :=
  { crBase := 0, srBase := 0, en := false, stopped := false, vector := 0, size := 0, lcn := 0, crTail := 0, crHead := 0,
    srHead := 0, srTail := 0, phase := true, held := [] }

def ringOf (s : State) (h : Half) (level : Nat) : Ring := tget Ring.reset s.rings (ringKey h level)

def updRing (h : Half) (level : Nat) (f : Ring → Ring) (s : State) : State :=
  { s with rings := tmod Ring.reset s.rings (ringKey h level) f }

/-- Slots of each ring: 2^(SIZE+4), SIZE above 8 acting as 8 (R56). -/
def ringSlots (r : Ring) : Nat := 2 ^ ((if r.size > 8 then 8 else r.size) + 4)

/-- An index register as it reads and acts: bits at and above SIZE + 4 are 0 (R57). -/
def Ring.ix (r : Ring) (v : Nat) : Nat := v % ringSlots r

/-- The status ring is full (R58). -/
def srFull (r : Ring) : Bool := (r.srTail + 1) % ringSlots r == r.srHead % ringSlots r

/-- Stop a core ring on an address error or poison (R59): EN cleared, STOPPED set, a NOTE entry; its commands in progress
complete without replies, packets that wait for a fence have not started and are dropped (log 20); indices left. -/
def ringStop (h : Half) (level : Nat) (s : State) : State :=
  let s1 := updRing h level (fun r => { r with en := false, stopped := true, held := [] }) s
  let s2 := { s1 with
    prog := s1.prog.map (fun g => if g.pkt.src = .ring h level then { g with mute := true } else g)
    waitFence := s1.waitFence.filter (fun p => p.pkt.src ≠ .ring h level) }
  logBase h (s2.st64.get h).toNat
    { source := srcOf h 0xFF 0x13 0, level := 2, cls := clsNote, code := 0x0906,
      data := freeVal s2 % 2 ^ 192, bucket := none } false (drawn s2)

/-- The 32 bytes of a reply (R64). -/
def replyBytes (r : Reply) (phase : Bool) : List Byte :=
  pack [(2, r.tag), (1, r.status),
        (1, b2n r.final + 2 * b2n phase + 4 * b2n r.logged + 8 * b2n r.dup), (2, r.op), (1, r.rlen), (1, 0),
        (24, r.result)]

/-- Write one reply into the status ring of a core ring that has space, and interrupt on NOTIFY (R56, R64). -/
def ringWrite (h : Half) (level : Nat) (r : Reply) (s : State) : State :=
  let g := ringOf s h level
  match dmaWrite s h (g.srBase.toNat % 2 ^ 52 + g.ix g.srTail * 32) (replyBytes r g.phase) with
  | none => ringStop h level s
  | some (s1, true) => ringStop h level s1
  | some (s1, false) =>
    let t := (g.srTail + 1) % ringSlots g
    let s2 := updRing h level (fun k => { k with srTail := t, phase := if t = 0 then !k.phase else k.phase }) s1
    if r.final ∧ r.notify then raiseExt g.lcn g.vector s2 else s2

/-- Post a reply to a core ring, held while its status ring is full (R67). -/
def ringPost (h : Half) (level : Nat) (r : Reply) (s : State) : State :=
  let g := ringOf s h level
  if srFull g ∨ g.held ≠ [] then updRing h level (fun k => { k with held := k.held ++ [r] }) s
  else ringWrite h level r s

/-- Post a reply to the management port, with its in-band interrupt (R60). -/
def mgmtPost (h : Half) (r : Reply) (s : State) : State :=
  raiseIbi h 1 (updI3c h (fun i => { i with fifo := i.fifo ++ [r] }) s)

/-- A UF or UC entry's notice goes to the hub's own H ring when EN is 1, STOPPED is 0 and a slot is free (R562). -/
def noticeFits (h : Half) (s : State) : Bool :=
  let g := ringOf s h 2
  g.en && !g.stopped && !srFull g && g.held.isEmpty

/-- The notice of the newest entry (R562). -/
def noticeOf (h : Half) (e : LogEntry) : Reply :=
  { src := .ring h 2, tag := 0xFFFF, status := 0, final := true, logged := true, dup := false, op := 0, rlen := 24,
    result := ofBytes (pack [(4, e.index), (4, e.source), (1, e.cls), (1, e.level), (2, e.code)]) + (e.data % 2 ^ 96) * 2 ^ 96,
    notify := false }

/-- Write a report at a given time, with its notice. -/
def logAt (h : Half) (ts : Nat) (r : Report) (s : State) : State :=
  let want := decide (0 < clsRank r.cls) && noticeFits h s && (coalesces (s.log.get h) ts r).isNone
  let e := entryOf (s.log.get h) ts r want
  let s1 := logBase h ts r want s
  if want then ringWrite h 2 (noticeOf h e) s1 else s1

/-- Write a report now. -/
def logNow (h : Half) (r : Report) (s : State) : State := logAt h (s.st64.get h).toNat r s

/-- A report by its parts: source, broker level, class, code, data. -/
def rpt (source level cls code data : Nat) : Report := ⟨source, level, cls, code, data, none⟩

/-! ### Leaky buckets (R143, R148, R277) -/

/-- Add one error: the new bucket, and whether it overflowed; THRESH 0 acts as 1 (R143). -/
def bucketAdd (b : Bucket) : Bucket × Bool :=
  let th := if b.thresh = 0 then 1 else b.thresh
  if th ≤ b.count + 1 then ({ b with count := 0, ovf := sat (b.ovf + 1) 65535 }, true)
  else ({ b with count := b.count + 1 }, false)

/-- A leak period passed. -/
def bucketLeak (b : Bucket) : Bucket := { b with count := b.count - 1 }

end Sys2Proof.Machine
end

