-- ==== Sys2Proof/Machine/CohOps.lean ====
section
/-! DEFINITION. Responses, writeback notices, snoops and fills of the caching agents (R195–R231). -/
namespace Sys2Proof.Machine

/-- PA of a sector for log DATA: PA[51:6] in bits 45:0 (R568). -/
def logPa (sector : Nat) : Nat := sector % 2 ^ 46

/-- The home gives a sector up as lost (R218 steps 1 to 3): memory and the mirror poisoned, owner cleared, the requester
completed with POISON. A back-invalidation gives up every sector of its line. -/
def poisonTx (h : Half) (tx : Nat) (t : HTrans) (s : State) : State :=
  let f := t.m.from_
  let lose := fun (u : State) (sec : Nat) => homeCount h f sec 0x205 1 (putSector u f sec (homeMem u f sec).1 true)
  if t.backInv then
    endTx h tx t (setDir h (t.m.sector / 4) (fun _ => DirEnt.none) ((upTo 4).foldl (fun u i => lose u (t.m.sector / 4 * 4 + i)) s))
  else
    let sec := t.m.sector
    let s1 := lose s sec
    let old := (homeMem s1 f sec).1
    let s2 := if (dirOf s1 h (sec / 4)).v then setDir h (sec / 4) (setOwner sec 31) s1 else s1
    if needsEntry t.req then
      grant h tx { t with await := [], evicting := [], dirty := none } (if t.req = .rds then .gntS else ownGrant s) (some old) true s2
    else endTx h tx t (complete .cmp t (if t.req = .rdc ∨ t.req = .atm then some old else none) true s2)

/-- TXID of the SNPI that follows a late response: no transaction entry has it, so its answer is known (R219). -/
def lateTx : Nat := 4096

/-- A response for a transaction the home has ended: discarded, and the agent sent SNPI (R219). -/
def lateResponse (h : Half) (m : Msg) (s : State) : State :=
  if m.txid = lateTx then s else send .snpi { bare m m.agent with home := h, txid := lateTx } s

/-- Absorb a response of `m.agent` (R214, R216, R229). What it reports keeps the entry true: an agent with no sector of the
line is listed no more, one that keeps a copy is listed, and in broadcast mode one that keeps ownership is the owner (R212). -/
def response (op : MsgOp) (m : Msg) (s0 : State) : State :=
  let h := m.home
  let s := take op m s0
  match tget none (s.home.get h).trans m.txid with
  | none => lateResponse h m s
  | some t =>
    if ¬ t.await.contains m.agent ∨ ¬ locks t m.sector then lateResponse h m s
    else
      let a := m.agent
      let d := dirOf s h (m.sector / 4)
      let wasOwner := d.v && ownerOf d m.sector == a
      let bc := (s.home.get h).bcast.contains (dirSet (m.sector / 4))
      let rest := t.await.erase a
      let gone := (upTo 4).all (fun i => (csec s a (m.sector / 4 * 4 + i)).st == .i)
      let t1 := { t with await := rest,
                         dirty := if m.hasData ∧ ¬ t.backInv then some m.data else t.dirty,
                         poison := if m.hasData ∧ ¬ t.backInv then m.poison else t.poison }
      match op with
      | .rspMiss =>
        if wasOwner then
          let s1 := logNow h (rpt (homeSource s h m.from_ m.sector) 2 clsUC 0x0302 (logPa m.sector + a * 2 ^ 64)) s
          if t.backInv then
            advance h m.txid t1 (setDir h (m.sector / 4) (setOwner m.sector 31)
              (putSector s1 m.from_ m.sector (homeMem s1 m.from_ m.sector).1 true))
          else settle h (poisonTx h m.txid t1 s1)
        else advance h m.txid t1 (if d.v && gone then setDir h (m.sector / 4) (delHolder a) s else s)
      | .rspEvicting =>
        if wasOwner || (bc && wbnOut s a m.sector) then putTx h m.txid (some { t1 with evicting := t1.evicting ++ [a] }) s
        else advance h m.txid t1 s
      | .rspI =>
        let s1 := if t.backInv ∧ m.hasData then homePut m.from_ m.sector m.data m.poison s else s
        advance h m.txid t1 (if d.v then setDir h (m.sector / 4)
          (fun e => let e1 := if gone then delHolder a e else e
                    if wasOwner then setOwner m.sector 31 e1 else e1) s1 else s1)
      | .rspS =>
        advance h m.txid t1 (if d.v then setDir h (m.sector / 4) (fun e =>
          addHolder a (if wasOwner then setOwner m.sector 31 e else e)) s else s)
      | _ =>
        advance h m.txid t1 (if d.v then setDir h (m.sector / 4) (fun e =>
          addHolder a (if bc && ownerOf e m.sector == 31 then setOwner m.sector a e else e)) s else s)

/-- A writeback notice (R211, R219, R224, R225). -/
def writeback (m : Msg) (s0 : State) : State :=
  let h := homeFor s0 m.from_ m.sector
  let s := take .wbn m s0
  let held := s.coh.victim.any (fun v => v.agent = m.agent && v.sector = m.sector)
  let s := if held then s else setCsec m.agent m.sector CSector.none s
  let d := dirOf s h (m.sector / 4)
  let bc := (s.home.get h).bcast.contains (dirSet (m.sector / 4))
  let back := fun u => send .wback { bare m m.agent with home := h } u
  if (d.v ∧ ownerOf d m.sector = m.agent) ∨ bc then
    let s1 := if m.hasData then homePut m.from_ m.sector m.data m.poison s else s
    let s2 := if m.hasData ∧ m.poison then
      logNow h (rpt (homeSource s h m.from_ m.sector) 2 clsUC 0x0304 (logPa m.sector)) s1 else s1
    let s3 := if d.v then setDir h (m.sector / 4) (setOwner m.sector 31) s2 else s2
    let s4 := back s3
    match (s4.home.get h).trans.find? (fun e => match e.2 with | some t => locks t m.sector && t.evicting.contains m.agent | none => false) with
    | some (tx, some t) => advance h tx { t with evicting := t.evicting.erase m.agent } s4
    | _ => s4
  else back (lateResponse h m s)

/-! ### A caching agent -/

/-- State and data an agent answers a snoop with (R216). -/
def snoopReply (op : MsgOp) (c : CSector) : MsgOp × Bool × Moesi :=
  match op, c.st with
  | _, .i => (.rspMiss, false, .i)
  | .snps, .m => (.rspO, true, .o)
  | .snps, .o => (.rspO, true, .o)
  | .snps, _ => (.rspS, false, .s)
  | .snpx, .m => (.rspI, true, .i)
  | .snpx, .o => (.rspI, true, .i)
  | .snpx, _ => (.rspI, false, .i)
  | .snpc, .m => (.rspM, true, .m)
  | .snpc, .o => (.rspO, true, .o)
  | .snpc, .e => (.rspE, false, .e)
  | .snpc, .s => (.rspS, false, .s)
  | .snpk, .m => (.rspE, true, .e)
  | .snpk, .o => (.rspS, true, .s)
  | .snpk, .e => (.rspE, false, .e)
  | .snpk, .s => (.rspS, false, .s)
  | _, _ => (.rspI, false, .i)

/-- An agent answers a snoop: RSP_EVICTING while its WBN for the sector is outstanding (R216, R225). -/
def snoop (op : MsgOp) (m : Msg) (s0 : State) : State :=
  let s := take op m s0
  let inv := op == .snpx || op == .snpi
  if s.coh.victim.any (fun v => v.agent = m.agent && v.sector = m.sector) then
    let s1 := if inv then setCsec m.agent m.sector CSector.none s else s
    send .rspEvicting (bare m m.agent) s1
  else
    let c := csec s m.agent m.sector
    let r := snoopReply op c
    let s1 := setCsec m.agent m.sector (if r.2.2 = .i then CSector.none else { c with st := r.2.2 }) s
    send r.1 { bare m m.agent with hasData := r.2.1, data := if r.2.1 then c.data else [], poison := r.2.1 && c.poison } s1

/-- L3 slice and set of a sector: PA[43:8] modulo 17, PA[17:8] (R196). -/
def l3Slice (sector : Nat) : Nat := sector / 4 % 2 ^ 36 % 17
def l3Set (sector : Nat) : Nat := sector / 4 % 1024

/-- Lines of an agent in the L3 set of a sector. -/
def linesInSet (s : State) (agent sector : Nat) : List Nat :=
  ((s.coh.cache.filter (fun e => e.1 / 2 ^ 46 = agent ∧ l3Slice (e.1 % 2 ^ 46) = l3Slice sector ∧
      l3Set (e.1 % 2 ^ 46) = l3Set sector)).map (fun e => e.1 % 2 ^ 46 / 4)).eraseDups

/-- Ways of a die's L3 set in service (R206). -/
def waysLeft (s : State) (agent sector : Nat) : Nat :=
  16 - ((tget [] s.coh.deleted (agent * 17 + l3Slice sector)).filter (fun x => x / 16 = l3Set sector)).length

/-- One sector leaves an agent: an owned one by a WBN held in the victim buffer, a shared one silently (R211, R225). -/
def evictSector (agent : Nat) (sector : Nat) (s : State) : State :=
  let c := csec s agent sector
  let f := agentHalf agent
  let s1 := setCsec agent sector CSector.none s
  match c.st with
  | .i => s
  | .s => s1
  | _ =>
    let m : Msg := { agent := agent, home := homeFor s f sector, from_ := f, sector := sector, txid := 0, tide := 4,
                     poison := c.poison, hasData := c.st.dirty, data := if c.st.dirty then c.data else [], mask := 0,
                     aux := 0, opd1 := 0, opd2 := 0, rid := 0, lcn := 0, ctx := 0 }
    let s2 := if agent < 16 then bump (srcOf f agent 2 (l3Slice sector)) 0x104 1 s1 else s1
    send .wbn m (updCoh (fun k => { k with victim := k.victim ++ [⟨agent, sector, c.st.dirty, m.data, c.poison⟩] }) s2)

/-- A slice's victim buffer holds 16 lines (R225): with all in use an eviction waits for the WBACK of the oldest. -/
def victimRoom (agent line : Nat) (s : State) : State :=
  let mine := s.coh.victim.filter (fun v => v.agent == agent && l3Slice v.sector == l3Slice (line * 4))
  match mine with
  | [] => s
  | v :: _ => if (mine.map (fun x => x.sector / 4)).eraseDups.length < 16 then s
    else (upTo 4).foldl (fun t i => absorbVictim (agentHalf agent) (v.sector / 4 * 4 + i) t) s

def evictLine (agent line : Nat) (s : State) : State :=
  let s1 := (upTo 4).foldl (fun t i => evictSector agent (line * 4 + i) t) (victimRoom agent line s)
  updCoh (fun k => { k with holder := tset 0xFF k.holder (ckey agent line) 0xFF }) s1

/-- Make room for a line in a die's L3 set; which line leaves is open (log 3). -/
def makeRoom (agent sector : Nat) (s : State) : State :=
  let ls := linesInSet s agent sector
  if agent < 16 ∧ ¬ ls.contains (sector / 4) ∧ waysLeft s agent sector ≤ ls.length ∧ ls ≠ [] then
    evictLine agent (ls.getD (freeVal s % ls.length) 0) (drawn s)
  else s

/-- An L3 slice in DROWSE wakes on a packet (R247). -/
def wakeSlice (agent sector : Nat) (s : State) : State :=
  let u := srcOf (agentHalf agent) agent 2 (l3Slice sector)
  if agent < 16 ∧ tget 0 s.units.pstate u = 2 then { s with units := { s.units with pstate := tset 0 s.units.pstate u 0 } } else s

/-- Install a granted sector (R208, R214, R225). -/
def install (agent sector : Nat) (st : Moesi) (d : Option (List Byte)) (poison : Bool) (s : State) : State :=
  let s1 := makeRoom agent sector (wakeSlice agent sector s)
  let c := csec s1 agent sector
  setCsec agent sector ⟨st, d.getD c.data, if d.isSome then poison else c.poison⟩ s1

/-- A grant arrives at its requester, which installs it and acknowledges (R214). -/
def granted (op : MsgOp) (st : Moesi) (m : Msg) (s0 : State) : State :=
  let s := take op m s0
  let s1 := if upAgent m.agent then install m.agent m.sector st (if m.hasData then some m.data else none) m.poison s else s
  send .cack { bare m m.agent with opd1 := if st = .s then 0 else 1 } s1

/-! ### Whole fills, for the accesses of a core that are one step -/

/-- A caching agent obtains a sector to share as one indivisible home transaction (R215): every other copy is dealt with,
and the directory lists the agent. A sector in its victim buffer comes back from there (R225). Where the sector is locked, or
no directory entry can be had (R222), the access reads in place and nothing is filled. -/
def fillShared (agent sector : Nat) (s : State) : State :=
  let f := agentHalf agent
  let h := homeFor s f sector
  if (csec s agent sector).st ≠ .i then s
  else if s.coh.victim.any (fun v => v.agent == agent && v.sector == sector) then
    install agent sector .s (some (curSector s f sector).1) (curSector s f sector).2 s
  else if locked (s.home.get h) sector then s
  else match entryRoom h f (sector / 4) (absorbVictim f sector s) with
  | none => s
  | some s0 =>
    let cur := curSector s0 f sector
    let others := (domain s0 f).filter (fun a => a ≠ agent && (csec s0 a sector).st != .i)
    let s1 := others.foldl (fun t a =>
      let c := csec t a sector
      setCsec a sector { c with st := (snoopReply .snps c).2.2 } t) s0
    let keepOwner := (dirtyHolder s0 f sector).isSome
    let alone := others.isEmpty && !(listed (dirOf s0 h (sector / 4))).any (fun a => a ≠ agent)
    let s2 := install agent sector (if alone then .e else .s) (some cur.1) cur.2 (if keepOwner then s1 else stockRead h (sector / 4) s1)
    let s3 := touchEntry h (sector / 4) s2
    setDir h (sector / 4) (fun e =>
      addHolder agent (if keepOwner then e else setOwner sector (if (csec s3 agent sector).st = .e then agent else 31) e)) s3

/-- Own a sector for a store: M, or E in MIRRORED mode (R208, R209). What locks the sector ends first (R214). Where no
directory entry can be had, the agent owns nothing. -/
def fillOwned (agent sector : Nat) (s : State) : State :=
  let f := agentHalf agent
  if (csec s agent sector).st = .m ∨ (csec s agent sector).st = .e then s
  else
    let w := clearWay f sector s
    let h := homeFor w f sector
    match entryRoom h f (sector / 4) w with
    | none => w
    | some s0 =>
      let cur := curSector s0 f sector
      let dirty := (dirtyData s0 f sector).isSome
      let s1 := ((domain s0 f).filter (fun a => a ≠ agent)).foldl (fun t a => setCsec a sector CSector.none t) s0
      let s2 := install agent sector (if effMode s = .mirrored then .e else if dirty then .m else .e) (some cur.1) cur.2
        (if dirty then s1 else stockRead h (sector / 4) s1)
      thenServe f sector s (setDir h (sector / 4) (fun e => addHolder agent (setOwner sector agent e)) (touchEntry h (sector / 4) s2))

/-- A caching agent writes bytes of one sector it owns: it becomes M, in MIRRORED mode it stays E and the write reaches the home
and its mirror (R208, R209). Without ownership the write is made at the home. -/
def agentWrite (agent sector off : Nat) (d : List Byte) (s : State) : State :=
  let f := agentHalf agent
  let s0 := fillOwned agent sector s
  let c := csec s0 agent sector
  if c.st = .m ∨ c.st = .e then
    let nd := splice c.data off d
    if effMode s = .mirrored then putSector (setCsec agent sector { c with data := nd } s0) f sector nd c.poison
    else setCsec agent sector { c with st := .m, data := nd } s0
  else writeSector s0 f sector off d

end Sys2Proof.Machine
end

