-- ==== Sys2Proof/Machine/CoreMap.lean ====
section
/-! DEFINITION. LCNs and physical cores (R21–R24, R161–R164), and updates of contexts, LCNs and dies. -/
namespace Sys2Proof.Machine

def updDie (d : Nat) (f : Die → Die) (s : State) : State := { s with dies := tmod Die.reset s.dies d f }
def dieOf (s : State) (d : Nat) : Die := tget Die.reset s.dies d
def lcnOf (s : State) (l : Nat) : Lcn := tget Lcn.reset s.lcns l
def ctxOf (s : State) (l c : Nat) : Ctx := tget Ctx.reset s.ctxs (l * 2 + c)
def setCtx (l c : Nat) (x : Ctx) (s : State) : State := { s with ctxs := tset Ctx.reset s.ctxs (l * 2 + c) x }
def updCtx (l c : Nat) (f : Ctx → Ctx) (s : State) : State := setCtx l c (f (ctxOf s l c)) s

/-- Populated dies in LCN order (R22). -/
def dieOrder (s : State) : List Nat := (upTo 16).filter (diePresent s)

/-- Active LCNs of the variant (R50). -/
def lcnCount (s : State) : Nat := (dieOrder s).length * 64

/-- PCs of a die active at shipment, ascending (R21, R22). -/
def activePcs (s : State) (d : Nat) : List Nat :=
  (upTo 68).filter (fun p => !(tget [64, 65, 66, 67] s.cfg.spares d).contains p)

/-- Die and PC that R22 gives an LCN, as die × 128 + PC. -/
def homeCore (s : State) (l : Nat) : Nat :=
  let d := (dieOrder s).getD (l / 64) 0
  d * 128 + (activePcs s d).getD (l % 64) 0

def lcnHalf (s : State) (l : Nat) : Half := dieHalf (homeCore s l / 128)

/-- The physical core an LCN runs on; none while it is offline, parked or lost (R24, R157). -/
def coreOf (s : State) (l : Nat) : Option Nat :=
  let k := lcnOf s l
  let c := k.moved.getD (homeCore s l)
  let d := dieOf s (c / 128)
  if lcnCount s ≤ l ∨ k.off ∨ k.parked ∨ k.bare ∨ k.lost ∨ d.lost ∨ d.heldOut then none else some c

/-- The LCN that R22 gives a physical core, if it is active at shipment. -/
def homeLcn (s : State) (core : Nat) : Option Nat :=
  match (dieOrder s).idxOf? (core / 128), (activePcs s (core / 128)).idxOf? (core % 128) with
  | some i, some j => some (i * 64 + j)
  | _, _ => none

/-- The LCN a physical core serves. -/
def servedBy (s : State) (core : Nat) : Option Nat :=
  match homeLcn s core with
  | some l =>
    if coreOf s l = some core then some l
    else (s.lcns.find? (fun e => e.2.moved == some core && coreOf s e.1 == some core)).map (fun e => e.1)
  | none => (s.lcns.find? (fun e => e.2.moved == some core && coreOf s e.1 == some core)).map (fun e => e.1)

/-- The core an LCN without one last ran on, or its core by R22 (R633). -/
def lastCore (s : State) (l : Nat) : Nat := (coreOf s l).getD ((lcnOf s l).last.getD (homeCore s l))

/-- The die R150 starts from: that of the LCN's core, or of the core it last ran on. -/
def lastDie (s : State) (l : Nat) : Nat := lastCore s l / 128

/-- CD_PCMAP.STATE of a physical core: 1 SERVING, 2 SPARE, 3 MOVING, 4 FAILED (R164). -/
def coreState (s : State) (core : Nat) : Nat :=
  if s.moves.any (fun m => m.old == core || m.new == core) then 3
  else if (dieOf s (core / 128)).failed.contains (core % 128) then 4
  else if (servedBy s core).isSome then 1 else 2

/-- Free spares of a die, ascending (R163). -/
def freeSpares (s : State) (d : Nat) : List Nat :=
  if diePresent s d && !(dieOf s d).lost && !(dieOf s d).heldOut then
    (upTo 68).filter (fun p => coreState s (d * 128 + p) == 2)
  else []

/-- Those the broker can choose (R150, R161): the die is in service and not OFF, and the core passed its self-test. -/
def usableSpares (s : State) (d : Nat) : List Nat :=
  if tget 0 s.units.pstate (srcOf (dieHalf d) d 1 0) = 3 then [] else (freeSpares s d).filter (fun p => (dieOf s d).coreReady.contains p)

/-- The spare of R150: lowest on the die, else on the die of the half with the most, ties to the lowest number. -/
def chooseSpare (s : State) (d : Nat) (acrossDies : Bool) : Option Nat :=
  match usableSpares s d with
  | p :: _ => some (d * 128 + p)
  | [] =>
    if ¬ acrossDies then none
    else
      let best := ((upTo 16).filter (fun k => dieHalf k == dieHalf d)).foldl
        (fun (b : Option (Nat × List Nat)) k =>
          let f := usableSpares s k
          match b with
          | none => if f = [] then none else some (k, f)
          | some x => if x.2.length < f.length then some (k, f) else b) none
      best.map (fun x => x.1 * 128 + x.2.headD 0)

/-- The half's cores can execute: powered and not fenced or held. -/
def halfLive (s : State) (h : Half) : Bool :=
  match s.pkg.hstate.get h with
  | .running => true
  | .draining => true
  | .bringup => true
  | _ => false

/-- An LCN executes instructions: it has a core that is ready, no move of it runs, and the clocks run. -/
def lcnRuns (s : State) (l : Nat) : Bool :=
  match coreOf s l with
  | none => false
  | some c =>
    halfLive s (lcnHalf s l) && !s.pkg.stopped && !s.moves.any (fun m => m.lcn == l) &&
      (dieOf s (c / 128)).coreReady.contains (c % 128)

/-- A counter selects an open event and counts: those of a core only while it runs (R579, R581). -/
def tallies (s : State) (unit ev : Nat) : Bool :=
  openEvents.contains ev && !ctrIdle s unit ev && (decide (unit < 0xFF000000) || lcnRuns s (unit - 0xFF000000))

/-- Before counters are read: each that selects an open event has counted a free number of times (log 9). -/
def tally (s : State) : State :=
  { s with ctrs := s.ctrs.zipIdx.map (fun x =>
             if tallies s (x.1.1 / 8) x.1.2.ev then (x.1.1, x.1.2.add (Config.free (s.nonce + x.2))) else x.1)
           nonce := s.nonce + s.ctrs.length }

/-- The LCN has a core that passed its self-test. -/
def lcnReady (s : State) (l : Nat) : Bool :=
  match coreOf s l with
  | some c => (dieOf s (c / 128)).coreReady.contains (c % 128)
  | none => false

/-! ### Checkpoints (R136, R137) -/

def ckOf (s : State) (l c : Nat) : Ckpt := tget Ckpt.reset s.cks (l * 2 + c)
def setCk (l c : Nat) (k : Ckpt) (s : State) : State := { s with cks := tset Ckpt.reset s.cks (l * 2 + c) k }

/-- The trace counts the instructions that retire in the selected contexts (R607, R608). -/
def traced (l c n : Nat) (s : State) : State :=
  let k := lcnOf s l
  if k.trcEn ∧ bitOf k.trcCtx c then updLcn l (fun x => { x with trcCount := sat (x.trcCount + n) 65535 }) s else s

/-- A group retires: the entry not in force takes the context and comes into force (R137, R138), its instructions count
(R594), and its stores are retired ones. -/
def closeGroup (l c : Nat) (s : State) : State :=
  let k := ckOf s l c
  let s1 := bump (coreUnit l) 5 1 (bump (coreUnit l) (3 + c) k.n (bump (coreUnit l) 2 k.n s))
  setCk l c { k with sel := !k.sel, n := 0, snap := none, sbn := (ctxOf s l c).sb.length }
    (updCtx l c (fun x => { x with ckSeq := x.ckSeq + 1, last := false }) (traced l c k.n s1))

/-- The group in flight, if there is one, retires. -/
def retireGroup (l c : Nat) (s : State) : State := if (ckOf s l c).n = 0 then s else closeGroup l c s

/-- A context goes back to its checkpoint (R145): what has not retired is gone; what reached it from outside stays. -/
def rollBack (l c : Nat) (s : State) : State :=
  let k := ckOf s l c
  match k.snap with
  | none => s
  | some o =>
    setCk l c { k with n := 0, snap := none } (updCtx l c (fun x =>
      { o with sb := x.sb.take k.sbn, badStore := x.badStore, frame := x.frame, sdNext := 0, sdBytes := 0, sdRun := 0,
               uread := x.uread, modeChange := x.modeChange, clockLoss := x.clockLoss, mcheck := x.mcheck, halt := x.halt, shotVa := x.shotVa,
               stepping := x.stepping, ckSeq := x.ckSeq, winIdx := 0, last := false }) s)

/-- The core is in a retry that has rolled this context back, or awaits its move (R145, R149): nothing of it retires. -/
def inRetry (s : State) (l c : Nat) : Bool :=
  let k := lcnOf s l
  decide (3 ≤ k.attempt) || (k.attempt != 0 && k.rolled.contains c)

/-- A context can execute or take an event: its core executes, it is not halted (R605), in WAIT, in a retry or between the pieces
of a BS instruction (R125, R139). -/
def ctxUp (s : State) (l c : Nat) : Bool :=
  lcnRuns s l && (ctxOf s l c).halt == 0 && (ctxOf s l c).wait.isNone && !inRetry s l c && (ckOf s l c).rest.isNone

/-- A context executes its next instruction: no single step is due (R119). -/
def ctxRuns (s : State) (l c : Nat) : Bool := ctxUp s l c && !(ctxOf s l c).debugDue

/-! ### A core's caches (R195, R197, R198, R203) -/

def l2Of (s : State) (core sec : Nat) : Moesi := tget .i s.coh.l2 (ckey core sec)
def inL1d (s : State) (core sec : Nat) : Bool := s.coh.l1d.contains (ckey core sec)

/-- Keys a core holds in one set of a cache of `sets` sets; the set is the sector modulo their number (log 36). -/
def setKeys (sets core sec : Nat) (ks : List Nat) : List Nat :=
  ks.filter (fun k => k / 2 ^ 46 == core && k % 2 ^ 46 % sets == sec % sets)

/-- A line leaves a core's caches; its L2 data is what the L3 sector holds. -/
def dropL2 (key : Nat) (s : State) : State :=
  updCoh (fun k => { k with l2 := tset .i k.l2 key .i, l1d := k.l1d.filter (fun x => x ≠ key), l1i := k.l1i.filter (fun x => x ≠ key) }) s

/-- Ways an L2 set has in service (R147). -/
def l2Ways (s : State) (core sec : Nat) : Nat :=
  match servedBy s core with
  | some l => 16 - ((lcnOf s l).l2deleted.filter (fun x => x / 16 == sec % 512)).length
  | none => 16

/-- Room in the L2 set of a sector; which line leaves is open (log 3). -/
def l2Room (core sec : Nat) (s : State) : State :=
  let ks := setKeys 512 core sec (s.coh.l2.map (fun e => e.1))
  if ks.contains (ckey core sec) ∨ ks.length < l2Ways s core sec ∨ ks = [] then s
  else dropL2 (ks.getD (freeVal s % ks.length) 0) (drawn s)

/-- HOLDER of the line once a core holds a sector of it (R197). -/
def holderIn (core sec : Nat) (s : State) : State :=
  let key := ckey (core / 128) (sec / 4)
  updCoh (fun k =>
    let h := tget 0xFF k.holder key
    { k with holder := tset 0xFF k.holder key (if h = 0xFF ∨ h = core % 128 then core % 128 else 0xFE) }) s

/-- A core's L2 takes a sector its die's L3 holds, to read it: alone under E or M it holds E, else S, and no other core of the die
keeps M or E (R198). -/
def l2Read (core sec : Nat) (s : State) : State :=
  let a := core / 128
  if (csec s a sec).st = .i ∨ l2Of s core sec ≠ .i then s
  else
    let s1 := l2Room core sec s
    let others := s1.coh.l2.any (fun e => inDie a sec e.1)
    let st : Moesi := if ¬ others ∧ ((csec s a sec).st = .e ∨ (csec s a sec).st = .m) then .e else .s
    holderIn core sec (updCoh (fun k =>
      { k with l2 := tset .i (k.l2.map (fun e => if inDie a sec e.1 then (e.1, .s) else e)) (ckey core sec) st }) s1)

/-- A core's L2 takes a sector to write it: no other core of the die keeps it, and no L1I anywhere in the die (R198, R203). -/
def l2Write (core sec : Nat) (s : State) : State :=
  let a := core / 128
  let s1 := l2Room core sec s
  let key := ckey core sec
  let st : Moesi := if (csec s1 a sec).st = .m then .m else .e
  holderIn core sec (updCoh (fun k => { k with
    l2 := tset .i (k.l2.filter (fun e => !inDie a sec e.1)) key st
    l1d := k.l1d.filter (fun x => x = key ∨ !inDie a sec x), l1i := k.l1i.filter (fun x => !inDie a sec x) }) s1)

/-- One more key in an L1 list of 8 ways, the oldest choice open (log 3). -/
def l1Put (core sec pick : Nat) (ks : List Nat) : List Nat :=
  let here := setKeys 128 core sec ks
  let ks1 := if here.length < 8 then ks else ks.filter (fun x => x ≠ here.getD (pick % here.length) 0)
  setIns ks1 (ckey core sec)

/-- A load goes through the core's L2 and L1D. -/
def loadL1 (core sec : Nat) (s : State) : State :=
  let s1 := l2Read core sec s
  if l2Of s1 core sec = .i ∨ inL1d s1 core sec then s1
  else updCoh (fun k => { k with l1d := l1Put core sec (freeVal s1) k.l1d }) (drawn s1)

/-- A fetch goes through the core's L2 and L1I. -/
def fetchL1 (core sec : Nat) (s : State) : State :=
  let s1 := l2Read core sec s
  if l2Of s1 core sec = .i ∨ s1.coh.l1i.contains (ckey core sec) then s1
  else updCoh (fun k => { k with l1i := l1Put core sec (freeVal s1) k.l1i }) (drawn s1)

/-- A core's caches are emptied: its dirty data is in the L3 (R155). -/
def flushL2 (core : Nat) (s : State) : State :=
  updCoh (fun k => { k with l2 := k.l2.filter (fun e => e.1 / 2 ^ 46 ≠ core), l1d := k.l1d.filter (fun e => e / 2 ^ 46 ≠ core),
                            l1i := k.l1i.filter (fun e => e / 2 ^ 46 ≠ core) }) s

/-- An uncorrectable error of a dirty L2 sector: it goes to the L3 poisoned (R142, R155). -/
def poisonL2 (core sec : Nat) (s : State) : State :=
  let a := core / 128
  if l2Of s core sec ≠ .m then s
  else dropL2 (ckey core sec) (setCsec a sec { csec s a sec with st := .m, poison := true } s)

/-- The core an LCN runs on; its core by R22 while it has none. -/
def coreFor (s : State) (l : Nat) : Nat := (coreOf s l).getD (homeCore s l)

/-- No frame store of an LCN keeps a sector (R94). -/
def dropFrameSec (l sec : Nat) (s : State) : State :=
  let f := fun (x : Ctx) => { x with frame := x.frame.filter (fun e => e.2 ≠ sec) }
  updCtx l 1 f (updCtx l 0 f s)

/-- A core's translation caches without its locked entries are empty. -/
def Lcn.noTlb (k : Lcn) : Lcn := { k with itlb := [], dtlb := [], tlb := [], slots := [], walks := [] }

/-- The caching agent of an LCN: its die. -/
def lcnDie (s : State) (l : Nat) : Nat :=
  match coreOf s l with
  | some c => c / 128
  | none => homeCore s l / 128

end Sys2Proof.Machine
end

