-- ==== Sys2Proof/Machine/Crypto.lean ====
section
/-! DEFINITION. Checksums (R238, R364), the LZ-F decoder (R369, R370), and the algorithms of outside standards, which are
free functions of their operands (log 11). -/
namespace Sys2Proof.Machine

/-! ### Checksums -/

/-- Eight steps of a reflected CRC. -/
def crcBits (poly : Nat) : Nat → Nat → Nat
  | 0, c => c
  | n + 1, c => crcBits poly n (if c % 2 = 1 then (c / 2).xor poly else c / 2)

def crcBytes (poly : Nat) : List Byte → Nat → Nat
  | [], c => c
  | x :: t, c => crcBytes poly t (crcBits poly 8 (c.xor x.toNat))

/-- A running CRC continued over more bytes: the register starts at all ones and ends inverted. -/
def crcMore (poly c : Nat) (d : List Byte) : Nat := (crcBytes poly d (c.xor 0xFFFFFFFF)).xor 0xFFFFFFFF

/-- CRC-32C (R238). -/
def crc32c (c : Nat) (d : List Byte) : Nat := crcMore 0x82F63B78 c d
/-- CRC-32 of gzip. -/
def crc32 (c : Nat) (d : List Byte) : Nat := crcMore 0xEDB88320 c d
/-- Adler-32 of zlib: the value to continue from is 1 at the start. -/
def adler32 (c : Nat) (d : List Byte) : Nat :=
  let r := d.foldl (fun (p : Nat × Nat) x => ((p.1 + x.toNat) % 65521, (p.2 + p.1 + x.toNat) % 65521)) (c % 65536, c / 65536)
  r.2 * 65536 + r.1

/-! ### LZ-F (R369, R370) -/

/-- Decoder state: what is left of the body, output newest first, its length, the repeat offset. -/
structure Lz where
  body : List Byte
  out : List Byte
  n : Nat
  rep : Nat
deriving DecidableEq, Repr

/-- Unsigned LEB128 of at most 3 bytes. -/
def varint (l : List Byte) : Option (Nat × List Byte) :=
  match l with
  | [] => none
  | x :: t =>
    if x.toNat < 128 then some (x.toNat, t)
    else match t with
    | [] => none
    | y :: u =>
      if y.toNat < 128 then some (x.toNat % 128 + y.toNat * 128, u)
      else match u with
      | [] => none
      | z :: v => if z.toNat < 128 then some (x.toNat % 128 + y.toNat % 128 * 128 + z.toNat * 16384, v) else none

/-- Copy `m` bytes one at a time from `off` bytes back. -/
def copyBack : Nat → Nat → List Byte → List Byte
  | 0, _, o => o
  | m + 1, off, o => copyBack m off (o.getD (off - 1) 0 :: o)

/-- One sequence of a compressed body; none is DATA_ERROR. `w` is the window in bytes. -/
def lzSeq (w : Nat) (s : Lz) : Option Lz :=
  match s.body with
  | [] => none
  | tb :: b1 =>
    let t := tb.toNat
    let lit0 := t / 32
    match (if lit0 = 7 then varint b1 else some (0, b1)) with
    | none => none
    | some (v, b2) =>
      let lit := lit0 + v
      if b2.length < lit then none
      else
        let out1 := (b2.take lit).reverse ++ s.out
        let n1 := s.n + lit
        let b3 := b2.drop lit
        let form := t % 4
        let ml := t / 4 % 8
        if form = 3 then
          if lit = 0 ∨ ml ≠ 0 then none else some ⟨b3, out1, n1, s.rep⟩
        else match (if ml = 7 then varint b3 else some (0, b3)) with
        | none => none
        | some (mv, b4) =>
          let m := ml + 3 + mv
          let off := match form, b4 with
            | 0, b => some (s.rep, b)
            | 1, x :: b => some (x.toNat + 1, b)
            | 2, x :: y :: b => some (x.toNat + 256 * y.toNat + 1, b)
            | _, _ => none
          match off with
          | none => none
          | some (o, b5) => if n1 < o ∨ w < o then none else some ⟨b5, copyBack m o out1, n1 + m, o⟩

/-- The sequences of a body, as many as it can hold; none is DATA_ERROR. -/
def lzBody (w start : Nat) : Nat → Lz → Option Lz
  | 0, s => if s.body = [] then some s else none
  | f + 1, s =>
    if s.body = [] then some s
    else match lzSeq w s with
    | none => none
    | some u => if start + 65536 < u.n then none else lzBody w start f u

/-- How decoding of a frame stands: 0 the input ended inside the frame, 1 the frame ended, 2 DATA_ERROR, 3 CHECKSUM;
with the output and the input bytes used. -/
structure LzOut where
  st : Nat
  out : List Byte
  used : Nat
deriving DecidableEq, Repr

/-- Blocks of a frame from `inp`; `acc` is the output so far, newest first. -/
def lzBlocks (flags w : Nat) (csize : Option Nat) : Nat → List Byte → List Byte → Nat → Nat → Nat → LzOut
  | 0, _, acc, _, _, used => ⟨0, acc.reverse, used⟩
  | f + 1, inp, acc, n, rep, used =>
    if inp.length < 4 then ⟨0, acc.reverse, used⟩
    else
      let h := fieldAt inp 0 4
      let blen := h % 2 ^ 22
      let ck := if bitOf flags 0 then 4 else 0
      if h / 2 ^ 22 % 256 ≠ 0 ∨ blen = 0 ∨ 65536 < blen then ⟨2, acc.reverse, used⟩
      else if inp.length < 4 + blen + ck then ⟨0, acc.reverse, used⟩
      else
        let body := (inp.drop 4).take blen
        let r := if bitOf h 31 then some ⟨[], body.reverse ++ acc, n + blen, rep⟩ else lzBody w n blen ⟨body, acc, n, rep⟩
        match r with
        | none => ⟨2, acc.reverse, used⟩
        | some z =>
          let blk := (z.out.take (z.n - n)).reverse
          if ck = 4 ∧ fieldAt inp (4 + blen) 4 ≠ crc32c 0 blk then ⟨3, acc.reverse, used⟩
          else
            let rest := inp.drop (4 + blen + ck)
            let used1 := used + 4 + blen + ck
            if bitOf h 30 then
              let all := z.out.reverse
              if bitOf flags 4 then
                if rest.length < 4 then ⟨0, all, used1⟩
                else if fieldAt rest 0 4 ≠ crc32c 0 all ∨ (csize.getD z.n) ≠ z.n then ⟨3, all, used1⟩
                else ⟨1, all, used1 + 4⟩
              else if (csize.getD z.n) ≠ z.n then ⟨3, all, used1⟩ else ⟨1, all, used1⟩
            else lzBlocks flags w csize f rest z.out z.n z.rep used1

/-- Decode an LZ-F frame from its start. -/
def lzfDecode (d : List Byte) : LzOut :=
  if d.length < 6 then ⟨0, [], 0⟩
  else
    let flags := fieldAt d 4 1
    let x := (d.take 5).foldl (fun (n : Nat) y => n.xor y.toNat) 0
    if d.take 4 ≠ [0x4C, 0x5A, 0x46, 0x01] ∨ x ≠ fieldAt d 5 1 ∨ 32 ≤ flags ∨ flags / 4 % 4 = 3 then ⟨2, [], 0⟩
    else
      let hl := if bitOf flags 1 then 14 else 6
      if d.length < hl then ⟨0, [], 0⟩
      else lzBlocks flags (8192 * 2 ^ (flags / 4 % 4)) (if bitOf flags 1 then some (fieldAt d 6 8) else none)
        (d.length + 1) (d.drop hl) [] 0 1 hl

/-! ### The LZ-F encoder (R371) -/

/-- A compressed body of a block that is shorter than the block, with the repeat offset after it; `hist` is the output before it in the
frame and `n` its bytes. Which matches the encoder picks the spec leaves to it (log 11): the free choice counts where it decodes to the
block. -/
def lzfBody (level : Nat) (hist blk : List Byte) (n rep : Nat) : Option (List Byte × Nat) :=
  let c := Config.prim 28 [level, n, rep] (hist ++ blk)
  match lzBody 32768 n c.length ⟨c, hist.reverse, n, rep⟩ with
  | some z => if c ≠ [] ∧ c.length < blk.length ∧ z.n = n + blk.length ∧ (z.out.take blk.length).reverse = blk then some (c, z.rep) else none
  | none => none

/-- One block: header, body and the CRC of what it decodes to (R369, R371). -/
def lzfBlock (blk body : List Byte) (raw last : Bool) : List Byte :=
  toBytes 4 (putBits [(31, b2n raw), (30, b2n last), (0, body.length)]) ++ body ++ toBytes 4 (crc32c 0 blk)

/-- Blocks of a job's input: one ends at 65,536 bytes or at the end of the job, and is RAW when compressing makes it no shorter. -/
def lzfBlocks (level : Nat) (last : Bool) : Nat → List Byte → List Byte → Nat → Nat → List Byte
  | 0, _, _, _, _ => []
  | f + 1, x, hist, n, rep =>
    if x = [] then []
    else
      let blk := x.take 65536
      let fin := last && (x.drop 65536).isEmpty
      let b := lzfBody level hist blk n rep
      let out := match b with | some c => lzfBlock blk c.1 false fin | none => lzfBlock blk blk true fin
      let h2 := hist ++ blk
      out ++ lzfBlocks level last f (x.drop 65536) (h2.drop (h2.length - 32768)) (n + blk.length) (match b with | some c => c.2 | none => rep)

/-- Header of a frame: BCK and CCK, WIN 32 KiB, CSIZE for a message of one job (R369, R371). -/
def lzfHeader (one : Bool) (size : Nat) : List Byte :=
  let h : List Byte := [0x4C, 0x5A, 0x46, 0x01, if one then 0x1B else 0x19]
  h ++ [h.foldl (fun (x : Byte) y => x ^^^ y) 0] ++ (if one then toBytes 8 size else [])

/-- What a sealing job emits: the first job the header, the last one the content CRC after its last block. -/
def lzfEncode (level : Nat) (first last : Bool) (hist : List Byte) (n rep crc : Nat) (x : List Byte) : List Byte :=
  (if first then lzfHeader last x.length else []) ++ lzfBlocks level last (x.length / 65536 + 1) x hist n rep ++
    (if last then toBytes 4 (crc32c crc x) else [])

/-! ### Algorithms of outside standards (log 11) -/

/-- SHA-384 (FIPS 180-4). -/
def sha384 (d : List Byte) : List Byte := slice (Config.prim 1 [] d) 0 48

/-- ECDSA P-384 with SHA-384 (FIPS 186-5): r and s by a private scalar, big-endian; `salt` is the nonce drawn. -/
def ecdsaSign (key msg : List Byte) (salt : Nat) : List Byte := slice (Config.prim 3 [salt, key.length] (key ++ msg)) 0 96
def ecdsaOk (pub msg sig : List Byte) : Bool := Config.primB 3 [pub.length, sig.length] (pub ++ sig ++ msg)
/-- Public key of a private scalar: 97 bytes. -/
def ecPub (key : List Byte) : List Byte := slice (Config.prim 4 [] key) 0 97
/-- A valid point of P-384 (R502), and a scalar from 1 to n − 1. -/
def ecPoint (p : List Byte) : Bool := Config.primB 4 [] p
def ecScalar (k : List Byte) : Bool := Config.primB 5 [] k
/-- x-coordinate of an ECDH product, 48 bytes. -/
def ecdh (key pub : List Byte) : List Byte := slice (Config.prim 6 [key.length] (key ++ pub)) 0 48

/-- AES-GCM: the other text of the same length, and the 16-byte tag over AAD and ciphertext. -/
def gcmCrypt (key iv : List Byte) (d : List Byte) : List Byte :=
  slice (Config.prim 7 [key.length, iv.length] (key ++ iv ++ d)) 0 d.length
def gcmTag (key iv aad ct : List Byte) : List Byte :=
  slice (Config.prim 8 [key.length, iv.length, aad.length] (key ++ iv ++ aad ++ ct)) 0 16

/-- Private key of slot 0 (IMPORT) or 1 (DEVID) of a hub (R497), derived from its SEED. -/
def devKey (hub slot : Nat) : List Byte := slice (Config.prim 9 [hub, slot] []) 0 48

/-- What the OTP of a part holds: SHA-384 of a public key (item 0, 1 root keys, 2 DEBUGKEY, 3 TIMEKEY), SERIAL, SSVID, SSID. -/
def otpKey (item : Nat) : List Byte := slice (Config.prim 10 [item] []) 0 48
def otpRevoked (item : Nat) : Bool := Config.primB 10 [item] []
def otpSerial : Nat := Config.primN 10 [0] [] % 2 ^ 32
/-- Subsystem Vendor ID in bits 15:0 and Subsystem ID in bits 31:16 (R437). -/
def otpSubsystem : Nat := Config.primN 10 [1] [] % 2 ^ 32

/-- Random bytes of the Lighthouse's DRBG for the n-th draw. -/
def drbg (n len : Nat) : List Byte := slice (Config.prim 11 [Config.free n] []) 0 len

end Sys2Proof.Machine
end

