-- ==== Sys2Proof/Machine/AttachQ.lean ====
section
/-! DEFINITION. What attach ports share: configuration words (R437–R441), queue entries and interrupts (R448–R451,
R462), messages to the host (R459, R463). -/
namespace Sys2Proof.Machine

def portOf (s : State) (p : Nat) : Port := tget Port.reset s.att.ports p
def updPort (p : Nat) (f : Port → Port) (s : State) : State :=
  { s with att := { s.att with ports := tmod Port.reset s.att.ports p f } }
def fnKey (p fn : Nat) : Nat := p * 64 + fn
def fnOf (s : State) (k : Nat) : Fn := tget Fn.reset s.att.fns k
def updFn (k : Nat) (f : Fn → Fn) (s : State) : State := { s with att := { s.att with fns := tmod Fn.reset s.att.fns k f } }
def qpOf (s : State) (k : Nat) : Qp := tget Qp.reset s.att.qps k
def updQp (k : Nat) (f : Qp → Qp) (s : State) : State := { s with att := { s.att with qps := tmod Qp.reset s.att.qps k f } }

def portHalf (p : Nat) : Half := if p < 2 then .a else .b
def portPresent (s : State) (p : Nat) : Bool := p < 4 && hubPresent s (portHalf p)
/-- UNIT of a port: type ATTACH, instance the local number (R71). -/
def portUnit (p : Nat) : Nat := srcOf (portHalf p) 0xFF 7 (p % 2)

/-- Key of the admin queue of a port. -/
def adminQp (p : Nat) : Nat := (portHalf p).n * 2048 + 1024 + p % 2

/-- Resources of a function: PF0 takes its from ATT_PF0_RES (R442). -/
def fnNqp (s : State) (p fn : Nat) : Nat := if fn = 0 then (portOf s p).nqp else (fnOf s (fnKey p fn)).nqp
def fnNmsix (s : State) (p fn : Nat) : Nat := if fn = 0 then (portOf s p).nmsix else (fnOf s (fnKey p fn)).nmsix
def fnLive (s : State) (p fn : Nat) : Bool := fn == 0 || (fnOf s (fnKey p fn)).created

/-- Key of local queue pair i of a function (R443). -/
def fnQp (s : State) (p fn i : Nat) : Nat := (portHalf p).n * 2048 + (fnOf s (fnKey p fn)).firstQp + i

/-- Function a queue pair belongs to: its port and number. -/
def qpOwner (s : State) (q : Nat) : Option (Nat × Nat) :=
  let h := q / 2048
  let k := q % 2048
  if 1024 ≤ k then some (h * 2 + (k - 1024), 0)
  else
    let pf := (upTo 2).find? (fun i =>
      let f := fnOf s (fnKey (h * 2 + i) 0)
      decide (f.firstQp ≤ k ∧ k < f.firstQp + (portOf s (h * 2 + i)).nqp))
    match pf with
    | some i => some (h * 2 + i, 0)
    | none =>
      (s.att.fns.find? (fun e => e.2.created && decide (e.1 / 64 / 2 = h ∧ e.1 % 64 ≠ 0 ∧ e.2.firstQp ≤ k ∧ k < e.2.firstQp + e.2.nqp))).map
        (fun e => (e.1 / 64, e.1 % 64))

/-! ### Configuration space: words by byte offset; places and reset values of standard fields are PCIe's (log 10) -/

def isPf (k : Nat) : Bool := k % 64 == 0

/-- Word of a function's configuration space after reset (R437–R440). -/
def cfgReset (s : State) (k off : Nat) : Nat :=
  let h := portHalf (k / 64)
  let pf := isPf k
  match off with
  | 0x00 => if pf then 0xA1601F6A else 0xFFFFFFFF
  | 0x04 => 0x00100000
  | 0x08 => 0x12000000 + s.cfg.step.get h
  | 0x10 => if pf then 0x4 else 0
  | 0x18 => if pf then 0xC else 0
  | 0x2C => otpSubsystem
  | 0x34 => if pf then 0x40 else 0x70
  | 0x3C => if pf then 0x100 else 0
  | 0x40 => if pf then 0x00035001 else 0
  | 0x50 => if pf then 0x018A7005 else 0
  | 0x70 => 0x00008011
  | 0x74 => if pf then 0x00100000 else 0x00008000
  | 0x78 => if pf then 0x00180000 else 0x0000C000
  | 0x80 => 0x00020010
  | 0x84 => 0x10008002
  | 0x88 => 0x00002810
  | 0x8C => if pf then 0x00400106 else 0
  | 0xA4 => 0x00030000 + (if pf then 0x800 else 0) + (if hasNmu s then 0x380 else 0)
  | 0xAC => if pf then 0x7E else 0
  | 0x100 => 0x14820001
  | 0x118 => 0xA0
  | 0x148 => if pf then 0x1581000E else 0x0001000E
  | 0x158 => if pf then 0x1A010010 else 0
  | 0x164 => if pf then 0x003F003F else 0
  | 0x16C => if pf then 0x00010001 else 0
  | 0x170 => if pf then 0xA1610000 else 0
  | 0x174 => if pf then 1 else 0
  | 0x178 => if pf then 1 else 0
  | 0x17C => if pf then 0x4 else 0
  | 0x184 => if pf then 0xC else 0
  | 0x1A0 => if pf then 0x1A810018 else 0
  | 0x1A8 => if pf then 0x1D410019 else 0
  | 0x1D4 => if pf then 0x1E010025 else 0
  | 0x1E0 => if pf then 0x21010026 else 0
  | 0x210 => if pf then 0x2401002A else 0
  | 0x240 => if pf then 0x26010031 else 0
  | 0x260 => if pf then 0x2B010027 else 0
  | 0x2B0 => if pf then 0x00010003 else 0
  | 0x2B4 => if pf then k / 64 else 0
  | 0x2B8 => if pf then otpSerial else 0
  | _ => 0

/-- Bits of a configuration word the host may write. -/
def cfgMask (k off : Nat) : Nat :=
  let pf := isPf k
  match off with
  | 0x04 => if pf then 0x546 else 0x4
  | 0x0C => 0xFF
  | 0x10 => if pf then 0xFFC00000 else 0
  | 0x14 => if pf then 0xFFFFFFFF else 0
  | 0x1C => if pf then 0xFFFFFFC0 else 0
  | 0x3C => if pf then 0xFF else 0
  | 0x44 => if pf then 0x3 else 0
  | 0x50 => if pf then 0x00710000 else 0
  | 0x54 => if pf then 0xFFFFFFFC else 0
  | 0x58 => if pf then 0xFFFFFFFF else 0
  | 0x5C => if pf then 0xFFFF else 0
  | 0x60 => if pf then 0xFFFFFFFF else 0
  | 0x70 => 0xC0000000
  | 0x88 => if pf then 0x7FFF else 0
  | 0xA8 => if pf then 0x141F else 0
  | 0x108 => 0x07FFF030
  | 0x10C => 0x07FFF030
  | 0x114 => 0xF1C1
  | 0x118 => 0x140
  | 0x160 => if pf then 0x19 else 0
  | 0x168 => if pf then 0xFFFF else 0
  | 0x17C => if pf then 0xFFFF0000 else 0
  | 0x180 => if pf then 0xFFFFFFFF else 0
  | 0x188 => if pf then 0xFFFFFFF0 else 0
  | _ => 0

/-- A configuration word as it stands, the live AER status and MSI pending bits among them. -/
def cfgWord (s : State) (k off : Nat) : Nat :=
  let f := fnOf s k
  if off = 0x104 then f.aerU
  else if off = 0x110 then f.aerC
  else if off = 0x64 ∧ isPf k then f.msiPend.foldl (fun (n : Nat) v => n + 2 ^ v) 0
  else if off = 0x70 then
    let base := cfgReset s k off
    (tget base f.cfg off) % 2 ^ 16 + (fnNmsix s (k / 64) (k % 64) - 1) % 2048 * 2 ^ 16 + fld (tget base f.cfg off) 31 30 * 2 ^ 30
  else tget (cfgReset s k off) f.cfg off

def memSpaceEn (s : State) (k : Nat) : Bool :=
  if isPf k then bitOf (cfgWord s k 0x04) 1 else bitOf (cfgWord s (k / 64 * 64) 0x160) 3
def busMaster (s : State) (k : Nat) : Bool := bitOf (cfgWord s k 0x04) 2
def intxOff (s : State) (k : Nat) : Bool := bitOf (cfgWord s k 0x04) 10
def inD3 (s : State) (k : Nat) : Bool := isPf k && fld (cfgWord s k 0x44) 1 0 == 3
def msiOn (s : State) (k : Nat) : Bool := isPf k && bitOf (cfgWord s k 0x50) 16
def msiVecs (s : State) (k : Nat) : Nat := 2 ^ (min 5 (fld (cfgWord s k 0x50) 22 20))
def msixOn (s : State) (k : Nat) : Bool := bitOf (cfgWord s k 0x70) 31
def msixFnMask (s : State) (k : Nat) : Bool := bitOf (cfgWord s k 0x70) 30
def vfEnabled (s : State) (p : Nat) : Bool := bitOf (cfgWord s (p * 64) 0x160) 0
def numVfs (s : State) (p : Nat) : Nat := if vfEnabled s p then min 63 (cfgWord s (p * 64) 0x168 % 2 ^ 16) else 0
def ltrOn (s : State) (p : Nat) : Bool := bitOf (cfgWord s (p * 64) 0xA8) 10

/-- Bus mastering as queues and messages see it: D3hot acts as Bus Master Enable 0 (R441), and BME_LOST freezes (R466). -/
def mayMaster (s : State) (k : Nat) : Bool := busMaster s k && !inD3 s k && !(fnOf s k).bmeLost

/-! ### Messages to the host -/

def portSend (p : Nat) (t : Tlp) (s : State) : State := updPort p (fun x => { x with out := x.out ++ [t] }) s

/-- One MSI-X entry of a function: address, data, mask bit (R462). -/
def msixEntry (f : Fn) (e : Nat) : Nat := tget 0 f.msix e

/-- Interrupt entry `e` of a function, by the first available method (R462). -/
def fnIrq (k e0 : Nat) (s : State) : State :=
  let p := k / 64
  let f := fnOf s k
  let n := fnNmsix s p (k % 64)
  let e := if n ≤ e0 then n - 1 else e0
  if msixOn s k then
    let m := msixEntry f e
    if msixFnMask s k ∨ bitOf m 96 ∨ ¬ mayMaster s k then updFn k (fun f => { f with pba := setIns f.pba e }) s
    else portSend p (.write (k % 64) (m % 2 ^ 64) (toBytes 4 (fld m 95 64)) false) s
  else if msiOn s k then
    let v := e % msiVecs s k
    if bitOf (cfgWord s k 0x60) v ∨ ¬ mayMaster s k then updFn k (fun f => { f with msiPend := setIns f.msiPend v }) s
    else portSend p (.write (k % 64) (cfgWord s k 0x54 + cfgWord s k 0x58 * 2 ^ 32)
            (toBytes 4 (cfgWord s k 0x5C / msiVecs s k * msiVecs s k + v)) false) s
  else if isPf k ∧ ¬ intxOff s k then
    let s1 := updFn k (fun f => { f with isr := f.isr.lor (2 ^ (e % 32)) }) s
    if (portOf s p).inta then s1 else portSend p (.inta true) (updPort p (fun x => { x with inta := true }) s1)
  else updFn k (fun f => { f with undel := setIns f.undel e }) s

/-- ATT_FN_EVT: raised when FROZEN, QUIESCED, NORES or OLDWORK changes (R445). -/
def fnEvent (k : Nat) (s : State) : State := if (fnOf s k).evtEn then fnIrq k (fnOf s k).evtVec s else s

/-- Deliver what was held pending, once a mask or a disable ended or a method came on (R462). -/
def flushIrqs (k : Nat) (s : State) : State :=
  let f := fnOf s k
  let es := f.pba ++ f.msiPend ++ f.undel
  es.foldl (fun t e => fnIrq k e t) (updFn k (fun f => { f with pba := [], msiPend := [], undel := [] }) s)

/-! ### Completion queue entries (R448, R450) -/

def qpSlots (v : Nat) : Nat := 2 ^ ((if 12 < v then 12 else v) + 4)

/-- The PHASE bit of an entry by queue type (R64, R364, R448): CMD byte 3 bit 1, START and APPEND byte 0x0B bit 0, MSG byte
0x1F bit 0; SEAL byte 0x12 bit 0. -/
def withPhase (typ : Nat) (ph : Bool) (d : List Byte) : List Byte :=
  let put := fun (i bit : Nat) =>
    let b := (d.getD i 0).toNat
    d.set i (BitVec.ofNat 8 (setFld b bit bit (b2n ph)))
  if typ = 0 then put 3 1 else if typ = 1 ∨ typ = 3 then put 0x0B 0 else if typ = 4 then put 0x1F 0 else put 0x12 0

def cqFull (q : Qp) : Bool := (q.cqTail + 1) % qpSlots q.cqSize == q.cqHead % qpSlots q.cqSize

/-- Bytes of an SQ entry by TYPE (R448). -/
def sqEntry (typ : Nat) : Nat := if typ = 2 then 128 else if typ = 3 then 32 else 64

/-- SQ address: the bits below the alignment of the entry size are reserved (R446). -/
def Qp.sqAt (x : Qp) : Nat := x.sqBase / sqEntry x.typ * sqEntry x.typ

/-- The SQ entry the head names. -/
def Qp.sqSlot (x : Qp) : Nat := x.sqHead % qpSlots x.sqSize

/-- Write one entry into a host CQ that has room, its interrupt after it. The interrupt is that of R447: NOTIFY of a command packet
from the queue adds none where IEN is 0 (DESIGN CHOICE, log 12: R63 and R447 leave it open). -/
def cqWrite (key : Nat) (d : List Byte) (s : State) : State :=
  let q := qpOf s key
  match qpOwner s key with
  | none => s
  | some (p, fn) =>
    let t := (q.cqTail + 1) % qpSlots q.cqSize
    let s1 := portSend p (.write fn (q.cqBase + q.cqTail % qpSlots q.cqSize * 32) (withPhase q.typ q.phase d) false) s
    let s2 := updQp key (fun x => { x with cqTail := t, phase := if t = 0 then !x.phase else x.phase }) s1
    if q.ien then fnIrq (fnKey p fn) q.vec s2 else s2

/-- The queue pair can take a CQ entry now. -/
def cqReady (s : State) (key : Nat) : Bool :=
  let q := qpOf s key
  !cqFull q && q.held.isEmpty && q.en &&
    (match qpOwner s key with | some (p, fn) => mayMaster s (fnKey p fn) | none => false)

/-- Post a CQ entry: held while the queue is full or frozen; discarded once a reset has cleared the queue pair (R450, R467). -/
def qpPost (key : Nat) (d : List Byte) (s : State) : State :=
  let q := qpOf s key
  if q = Qp.reset then s
  else if cqReady s key then cqWrite key d s
  else updQp key (fun x => { x with held := x.held ++ [d] }) s

/-- Send entries that were held, oldest first, as far as room allows. -/
def cqFlushN (key : Nat) : Nat → State → State
  | 0, s => s
  | n + 1, s =>
    match (qpOf s key).held with
    | [] => s
    | d :: t =>
      let q := qpOf s key
      let ok := !cqFull q && q.en && (match qpOwner s key with | some (p, fn) => mayMaster s (fnKey p fn) | none => false)
      if ok then cqFlushN key n (cqWrite key d (updQp key (fun x => { x with held := t }) s)) else s

def cqFlush (key : Nat) (s : State) : State := cqFlushN key (qpOf s key).held.length s

/-- Entries read and not accepted, and those a read still brings, are discarded (R449, R466). -/
def dropReads (key : Nat) (s : State) : State :=
  let s1 := updQp key (fun q => { q with got := [] }) s
  match qpOwner s key with
  | some (p, _) => updPort p (fun x => { x with
      reqs := x.reqs.map (fun r => { r with why := r.why.discard key }), waiting := x.waiting.filter (fun r => !r.why.ofSq key) }) s1
  | none => s1

/-- Stop a queue pair (R451). -/
def qpStop (key cause : Nat) (s : State) : State :=
  dropReads key (updQp key (fun q => { q with en := false, stopped := true, cause := cause }) s)

/-- AER and URCNT of a request answered UR (R463). -/
def urCount (k : Nat) (s : State) : State :=
  bump (portUnit (k / 64)) 0x582 1
    (updFn k (fun f => { f with urcnt := sat (f.urcnt + 1) 65535, aerU := f.aerU.lor (2 ^ 20) }) s)

end Sys2Proof.Machine
end

