-- ==== Sys2Proof/Machine/Reply.lean ====
section
/-! DEFINITION. How a command of the Harbourmaster ends: replies to every kind of source (R53, R60, R64, R66). -/
namespace Sys2Proof.Machine

/-- SOURCE value of R52. -/
def Src.kind : Src → Nat
  | .ring _ l => l + 1
  | .admin _ => 4
  | .func _ _ _ => 5
  | .mgmt _ => 6

/-- The hub at which a packet arrived (R70). -/
def Src.half : Src → Half
  | .ring h _ => h
  | .admin p => portHalf p
  | .func p _ _ => portHalf p
  | .mgmt h => h

/-- Post a reply to the ring or queue on which its command arrived (R66, R70). -/
def postReply (r : Reply) (s : State) : State :=
  match r.src with
  | .ring h l => ringPost h l r s
  | .admin p => qpPost (adminQp p) (replyBytes r false) s
  | .func _ _ q => qpPost q (replyBytes r false) s
  | .mgmt h => mgmtPost h r s

/-- A reply to a packet. -/
def replyTo (p : Pkt) (status : Nat) (final : Bool) (rlen result : Nat) : Reply :=
  { src := p.src, tag := p.tag, status := status, final := final, logged := false, dup := false, op := p.op, rlen := rlen,
    result := result, notify := bitOf p.flags 2 }

/-- Status codes (R69). -/
def stDone : Nat := 0x00
def stAccepted : Nat := 0x01
def stDeferred : Nat := 0x02
def stBadOpcode : Nat := 0x10
def stBadParam : Nat := 0x11
def stUnitAbsent : Nat := 0x12
def stNotReady : Nat := 0x13
def stDenied : Nat := 0x14
def stBusy : Nat := 0x15
def stNotQuiesced : Nat := 0x16
def stCipherAbsent : Nat := 0x17
def stFailed : Nat := 0x20
def stPreempted : Nat := 0x21
def stTimeout : Nat := 0x22

/-- Take a command out of those in progress. -/
def unprog (g : Prog) (s : State) : State := { s with prog := dropFirst (fun x => x.pkt == g.pkt) s.prog }

/-- End a command in progress with its one final reply (R66), which a stopped ring's command does not post (R59); nothing
when it is no more in progress (R68). -/
def finish (g : Prog) (status rlen result : Nat) (s : State) : State :=
  match s.prog.find? (fun x => x.pkt == g.pkt) with
  | some x => if x.mute then unprog g s else postReply (replyTo g.pkt status true rlen result) (unprog g s)
  | none => s

def finishOpt (g : Option Prog) (status rlen result : Nat) (s : State) : State :=
  match g with
  | some g => finish g status rlen result s
  | none => s

/-- FAILED with a reason code in RESULT[0] (R69). -/
def fail (g : Prog) (reason : Nat) (s : State) : State := finish g stFailed 1 reason s
def failOpt (g : Option Prog) (reason : Nat) (s : State) : State := finishOpt g stFailed 1 reason s

/-- Start an asynchronous command: it is in progress, and ACCEPTED is posted unless QUIET is set (R63, R66). -/
def accept (p : Pkt) (status : Nat) (s : State) : State :=
  let s1 := { s with prog := s.prog ++ [⟨p, false⟩] }
  if bitOf p.flags 3 then s1 else postReply (replyTo p status false 0 0) s1

/-- Little-endian result fields (R72). -/
def res (l : List (Nat × Nat)) : Nat := ofBytes (pack l)

end Sys2Proof.Machine
end

