-- ==== Sys2Proof/Machine/UnitOps.lean ====
section
/-! DEFINITION. Readiness (R542–R546), block power states (R537), leaky buckets (R143, R148, R277) and ring interrupts
shared by the units. -/
namespace Sys2Proof.Machine

def updUnits (f : Units → Units) (s : State) : State := { s with units := f s.units }

/-- A readiness bit of SYS_READYn that is stored (R543); n × 32 + bit. -/
def readyBit (s : State) (h : Half) (k : Nat) : Bool := (s.units.ready.get h).contains k
def setReady (h : Half) (k : Nat) (v : Bool) (s : State) : State :=
  updUnits (fun u => { u with ready := u.ready.set h (if v then setIns (u.ready.get h) k else setDel (u.ready.get h) k) }) s

def rbLh : Nat := 0
def rbLog : Nat := 1
def rbHfab : Nat := 2
def rbHm : Nat := 3
def rbStock : Nat := 5
def rbHome : Nat := 6
def rbPctc : Nat := 7
def rbCss : Nat := 28
def rbLedger : Nat := 29
def rbSeal (e : Nat) : Nat := 32 + e
def rbMover (m : Nat) : Nat := 40 + m
def rbAtt (p : Nat) : Nat := 56 + p
def rbPath (p : Nat) : Nat := 64 + p
def rbCpe (c : Nat) : Nat := 96 + c

/-- The Breakwater can carry traffic: at least one module UP, every other UP or FENCED (R543). -/
def bwaterReady (s : State) : Bool :=
  let ms := (upTo 8).map (fun i => tget Ryt.reset s.fab.modules (16 * 32 + 16 + i))
  s.cfg.part != .q0800a && ms.any (fun m => m.st == .up) && ms.all (fun m => m.st == .up || m.st == .fenced || m.st == .hold)

def hmUnit (h : Half) : Nat := srcOf h 0xFF 0x13 0
def halvesOf (s : State) : List Half := if hubPresent s .b then [.a, .b] else [.a]

/-- Fields of a UNIT number (R71). -/
def unitHalf (u : Nat) : Half := halfOf (u / 2 ^ 24 % 2)
def unitDie (u : Nat) : Nat := u / 2 ^ 16 % 256
def unitType (u : Nat) : Nat := u / 2 ^ 8 % 256
def unitInst (u : Nat) : Nat := u % 256

/-- Readiness of a unit by its UNIT number (R542–R544). -/
def unitReady (s : State) (u : Nat) : Bool :=
  let h := unitHalf u
  let i := unitInst u
  match unitType u with
  | 0x01 => (dieOf s (unitDie u)).ready
  | 0x02 => (dieOf s (unitDie u)).ready
  | 0x03 =>
    let c := tget Chan.reset (s.mem.get h).chans i
    c.st == .mapped || c.st == .unmapped || c.st == .spare || c.st == .copying
  | 0x04 => readyBit s h (rbSeal i)
  | 0x05 => readyBit s h (rbMover i)
  | 0x06 => readyBit s h rbLedger
  | 0x07 => readyBit s h (rbAtt i)
  | 0x08 => readyBit s h (rbPath i)
  | 0x09 => readyBit s h (rbCpe i)
  | 0x0A => if unitDie u = 0xFF then readyBit s h rbHfab else (dieOf s (unitDie u)).ready
  | 0x0B => readyBit s h rbStock
  | 0x11 => readyBit s h rbHome
  | 0x12 => readyBit s h rbCss
  | _ => false

/-- Block power state of a unit (R537). -/
def pstateOf (s : State) (u : Nat) : Nat := tget 0 s.units.pstate u
def setPstate (u v : Nat) (s : State) : State := updUnits (fun x => { x with pstate := tset 0 x.pstate u v }) s

/-- A packet wakes a block in GATED or DROWSE (R247). -/
def wakeUnit (u : Nat) (s : State) : State := if pstateOf s u = 1 ∨ pstateOf s u = 2 then setPstate u 0 s else s

/-- The block takes no new job: it is not ACTIVE, or a power request closes it (R382, R393, R520). -/
def closing (s : State) (u : Nat) : Bool := pstateOf s u != 0 || s.units.preq.any (fun r => r.unit == u && r.target != 0)

/-! ### Leaky buckets -/

def Bucket.reset : Bucket := ⟨0, 32, 10000, 0⟩
def bucketOf (s : State) (u : Nat) : Bucket := tget Bucket.reset s.units.buckets u
def updBucket (u : Nat) (f : Bucket → Bucket) (s : State) : State :=
  updUnits (fun x => { x with buckets := tmod Bucket.reset x.buckets u f }) s

/-- A threshold or leak period of 0 acts as 1. -/
def bLim (v : Nat) : Nat := if v = 0 then 1 else v

/-- The entry of an overflow: CE_BUCKET and RETRY_BUCKET of a die by its die broker, MEM_BUCKET of a channel or a Stockpot
(R143, R148, R555, R568); the retry bucket's source is the die, since only BUCKET_SET knows instance 1 (R71). `x` is PC and CD_RETRY_CNT for the retry bucket. -/
def bucketReport (u : Nat) (b : Bucket) (x : Nat) : Report :=
  let t := unitType u
  if t = 1 ∧ unitInst u = 1 then ⟨u - 1, 1, clsCR, 0x0101, x, some (bLim b.thresh)⟩
  else if t = 3 ∨ t = 0xB then ⟨u, 2, clsCE, 0x0401, res [(2, b.ovf), (2, b.thresh), (2, b.leak)], some (bLim b.thresh)⟩
  else ⟨u, 1, clsCE, 0x0102, b.ovf, some (bLim b.thresh)⟩

/-- Add one error to a bucket; on overflow its entry is written (R143). Also tells whether it overflowed. -/
def bucketHit (u x : Nat) (s : State) : State × Bool :=
  let r := bucketAdd (bucketOf s u)
  let s1 := updBucket u (fun _ => r.1) s
  if r.2 then (logNow (unitHalf u) (bucketReport u r.1 x) s1, true) else (s1, false)

/-! ### Interrupts of a ring by its mode (R320, R354, R387, R405) -/

/-- IMODE 1: an external vector; 2: an MSI-X entry of the owning function. -/
def ringIrq (imode vector target otype owner : Nat) (s : State) : State :=
  if imode = 1 then raiseExt (target % 1024) vector s
  else if imode = 2 ∧ otype = 1 then fnIrq owner target s
  else s

/-- SIZE of a ring of 16 to 4,096 slots (R56, R354). -/
def slots8 (v : Nat) : Nat := 2 ^ ((if 8 < v then 8 else v) + 4)

end Sys2Proof.Machine
end

