-- ==== Sys2Proof/Machine/Css.lean ====
section
/-! DEFINITION. The channel subsystem as the hub runs it: subchannels, dispatch, final statuses, completion queues,
failure paths and path ports (R295–R338). -/
namespace Sys2Proof.Machine

def cssOf (s : State) (h : Half) : Css := s.css.get h
def updCss (h : Half) (f : Css → Css) (s : State) : State := { s with css := s.css.set h (f (s.css.get h)) }
def iftOf (s : State) (h : Half) (i : Nat) : Ift := tget Ift.free (cssOf s h).ift i
def updIft (h : Half) (i : Nat) (f : Ift → Ift) (s : State) : State :=
  sramPut h 13 i (updCss h (fun c => { c with ift := tmod Ift.free c.ift i f }) s)
def cpeOf (s : State) (h : Half) (c : Nat) : Cpe := tget Cpe.reset (cssOf s h).cpes c
def updCpe (h : Half) (c : Nat) (f : Cpe → Cpe) (s : State) : State :=
  updCss h (fun x => { x with cpes := tmod Cpe.reset x.cpes c f }) s

/-- Key of a subchannel, named by its 12 bits (R108), at the hub that serves it: 2048 + s when adopted (R336). -/
def subKey (h : Half) (n : Nat) : Nat := if n / 2048 = h.n then n % 2048 else 2048 + n % 2048
def subOf (s : State) (h : Half) (n : Nat) : Sub := tget Sub.reset (cssOf s h).subs (subKey h n)

/-- The hub that serves a subchannel: its own, or the one that adopted it (R336). -/
def subHub (s : State) (n : Nat) : Half :=
  if (cssOf s (halfOf (n / 2048)).other).adopted then (halfOf (n / 2048)).other else halfOf (n / 2048)

/-- A path port by its number with the hub bit: hub × 16 + port. -/
def portHub (pp : Nat) : Half := halfOf (pp / 16)
def ppOf (s : State) (pp : Nat) : PathPort := tget PathPort.reset (cssOf s (portHub pp)).pps (pp % 16)
def updPp (pp : Nat) (f : PathPort → PathPort) (s : State) : State :=
  updCss (portHub pp) (fun c => { c with pps := tmod PathPort.reset c.pps (pp % 16) f }) s

/-- UNIT numbers (R71): CSS, path port, CPE. -/
def cssUnit (h : Half) : Nat := srcOf h 0xFF 0x12 0
def pathUnit (pp : Nat) : Nat := srcOf (portHub pp) 0xFF 8 (pp % 16)
def cpeUnit (h : Half) (c : Nat) : Nat := srcOf h 0xFF 9 c

/-! ### Subchannels and their operations (R297–R305) -/

/-- The table is split between the hub's own operations and the mirror of the other's (R330, R348). -/
def splitIft (s : State) : Bool := effMode s == .mirrored || effMode s == .degraded
def iftOwn (s : State) : Nat := if splitIft s then 8192 else 16384

/-- Path i of a subchannel in use: its port with the hub bit (R299). -/
def pathOf (b : Sub) (i : Nat) : Option Nat :=
  let f := fld b.path (16 * i + 15) (16 * i)
  if bitOf f 15 then some (fld f 12 12 * 16 + fld f 11 8) else none

/-- Path i is online for subchannels of hub `h` (R299, R304). -/
def pathUp (s : State) (h : Half) (b : Sub) (i : Nat) : Bool :=
  match pathOf b i with
  | none => false
  | some pp =>
    (ppOf s pp).st == 2 &&
      (portHub pp == h || (hubPresent s (portHub pp) && effMode s != .split && s.pkg.hstate.get (portHub pp) != .fenced))

def pathsUp (s : State) (h : Half) (b : Sub) : List Nat := (upTo 4).filter (pathUp s h b)

/-- Active on a CPE: ACTIVE, HALTING, CLEARING or RECOVERING (R328). -/
def Ift.live (e : Ift) : Bool := e.st == 2 || e.st == 3 || e.st == 4 || e.st == 5

/-- Active operations of any subchannel on a port (R305). -/
def portLoad (s : State) (pp : Nat) : Nat :=
  ((cssOf s .a).ift.filter (fun e => e.2.live && e.2.pp == pp)).length +
  ((cssOf s .b).ift.filter (fun e => e.2.live && e.2.pp == pp)).length

/-- The path with the fewest active operations, the lowest index winning a tie (R305). -/
def choosePath (s : State) (b : Sub) (paths : List Nat) : Option Nat :=
  paths.foldl (fun (best : Option Nat) i =>
    match best with
    | none => some i
    | some j => if portLoad s ((pathOf b i).getD 0) < portLoad s ((pathOf b j).getD 0) then some i else some j) none

/-- Open entries of a subchannel with their keys, and the oldest of those that satisfy `p` (R314). -/
def entriesOf (s : State) (h : Half) (n : Nat) : List (Nat × Ift) :=
  (cssOf s h).ift.filter (fun e => e.2.st != 0 && e.2.sub == n)

def oldest (es : List (Nat × Ift)) : Option (Nat × Ift) :=
  es.foldl (fun (b : Option (Nat × Ift)) e =>
    match b with | none => some e | some x => if e.2.seq < x.2.seq then some e else some x) none

def activeOf (s : State) (h : Half) (n : Nat) : Option (Nat × Ift) := (entriesOf s h n).find? (fun e => e.2.live)
def queuedOf (s : State) (h : Half) (n : Nat) : List (Nat × Ift) := (entriesOf s h n).filter (fun e => e.2.st == 1)

/-- CSS_SCH_STAT.STATE (R301). -/
def subState (s : State) (h : Half) (n : Nat) : Nat :=
  match activeOf s h n with
  | some e => if e.2.st = 3 then 2 else if e.2.st = 4 then 3 else 1
  | none => if (entriesOf s h n).any (fun e => e.2.st == 9) then 4 else 0

/-! ### Memory of the image region (R339, R345) -/

def imgBase (s : State) (h : Half) : Nat := (cssOf s h).imgBase * 2 ^ 24
def slotBase (s : State) (h : Half) (slot : Nat) : Nat := imgBase s h + slot * 0x40000
def dataBase (s : State) (h : Half) (c : Nat) : Nat := imgBase s h + 0x400000 + c * 0x10000
def ctxBase (s : State) (h : Half) (i : Nat) : Nat := imgBase s h + 0x600000 + i * 256

/-- A little-endian word of the image region. -/
def imgWord (s : State) (h : Half) (pa : Nat) : Nat :=
  match dmaReadRaw s h pa 4 with
  | some (d, _) => ofBytes d
  | none => 0

/-- The image in a slot implements QUERY (R346). -/
def hasQuery (s : State) (h : Half) (slot : Nat) : Bool := bitOf (imgWord s h (slotBase s h slot + 0xC)) 0

/-! ### Entries of a CPE (R339, R346) -/

/-- A park slot that is free on a CPE. -/
def freePark (s : State) (h : Half) (c : Nat) : Option Nat :=
  let used := ((cssOf s h).ift.filter (fun e => e.2.live && e.2.cpe == c)).filterMap (fun e => e.2.park)
  (upTo 128).find? (fun k => !used.contains k)

/-- A job can be taken now: a dispatch waits while all 128 slots are in use. -/
def jobReady (s : State) (h : Half) (c : Nat) (j : Job) : Bool :=
  j.kind == 5 || (iftOf s h j.ift).park.isSome || (freePark s h c).isSome

/-- Registers at an entry: k1 to k4 as R346 says, the others undefined (log 3). -/
def entryRegs (s : State) (j : Job) (ev sub pp : Nat) : Tab W32 :=
  let own := j.kind != 5
  (upTo 32).foldl (fun (t : Tab W32) i =>
    tset 0 t i (BitVec.ofNat 32
      (if i = 0 then 0 else if i = 1 ∧ own then j.ift else if i = 2 then ev else if i = 3 ∧ own then sub
       else if i = 4 then pp else Config.free (s.nonce + i)))) []

/-- Start one entry on an idle CPE, which wakes where it was GATED or in DROWSE (R247). -/
def startJob (h : Half) (c : Nat) (j : Job) (s : State) : State :=
  let e := iftOf s h j.ift
  let slot := if j.kind = 5 then j.image else e.image
  let regs := if j.kind = 5 then entryRegs s j 0 0 j.pp else entryRegs s j e.evs e.sub e.pp
  let pc := imgWord s h (slotBase s h slot + 0x10 + 4 * j.kind)
  let s1 := updCpe h c (fun k => { k with k := regs, pc := pc, wins := [], delay := [], count := 0, cur := some j,
                                          ready := dropFirst (fun x => x == j) k.ready }) s
  let s2 := if j.kind = 5 then s1 else
    updIft h j.ift (fun x => { x with parked := false, evs := 0, mask := 0,
                                      park := match x.park with | some k => some k | none => freePark s h c }) s1
  wakeUnit (cpeUnit h c) (bump (cpeUnit h c) 0x3A2 1 { s2 with nonce := s2.nonce + 32 })

/-- An idle CPE takes the next ready operation in arrival order (R339). -/
def cpeNext (h : Half) (c : Nat) (s : State) : State :=
  let k := cpeOf s h c
  match k.cur, k.ready.find? (jobReady s h c) with
  | none, some j => startJob h c j s
  | _, _ => s

/-- Make an entry ready. -/
def pushJob (h : Half) (c : Nat) (j : Job) (s : State) : State :=
  cpeNext h c (updCpe h c (fun k => { k with ready := k.ready ++ [j] }) s)

/-- Take every job of an operation away from its CPE. -/
def dropJobs (h : Half) (i : Nat) (s : State) : State :=
  let mine := fun (j : Job) => j.kind != 5 && j.ift == i
  updCpe h (iftOf s h i).cpe (fun k =>
    { k with ready := k.ready.filter (fun j => !mine j),
             cur := match k.cur with | some j => if mine j then none else some j | none => none,
             delay := match k.cur with | some j => if mine j then [] else k.delay | none => k.delay }) s

/-- The operation's entry runs on its CPE now; its kind. -/
def curKind (s : State) (h : Half) (i : Nat) : Option Nat :=
  match (cpeOf s h (iftOf s h i).cpe).cur with
  | some j => if j.kind ≠ 5 ∧ j.ift = i then some j.kind else none
  | none => none

/-- Run an entry of an operation: replaces whatever of it is ready. -/
def runEntry (h : Half) (i kind : Nat) (s : State) : State :=
  let c := (iftOf s h i).cpe
  pushJob h c ⟨kind, i, 0, 0⟩ (cpeNext h c
    (updIft h i (fun x => { x with svc := if kind = 1 then x.svc else kind != 0 }) (dropJobs h i s)))

/-! ### Dispatch and acceptance (R305, R313, R314) -/

/-- Dispatch an operation on a path: ACTIVE, its CPE enters START. -/
def dispatchOn (h : Half) (i pi : Nat) (s : State) : State :=
  let e := iftOf s h i
  let pp := (pathOf (subOf s h e.sub) pi).getD 0
  bump (pathUnit pp) 0x3C1 1 (runEntry h i 0 (updIft h i (fun x => { x with st := 2, pp := pp, pathIdx := pi, cpe := x.sub % 32, idle := 0, link := 0 }) s))

/-- Final status decided (R314, R324): STATUS_HELD, its park slot and CPE free. REASON is 0 where R323 says so. -/
def decideOp (h : Half) (i fst dst rsn resid : Nat) (s : State) : State :=
  let e := iftOf s h i
  let f := if fst = 0 ∧ 0 < e.redrives then 1 else fst
  let r := if f = 0 ∨ f = 1 ∨ f = 5 ∨ f = 6 ∨ f = 7 then 0 else rsn
  let s1 := dropJobs h i s
  let s2 := updIft h i (fun x => { x with st := 6, fstat := f % 256, dstat := dst % 256, reason := r % 256,
                                          resid := resid % 2 ^ 32, park := none, parked := false, evs := 0, why := 0 }) s1
  cpeNext h e.cpe (if f = 8 then bump (cssUnit h) 0x385 1 s2 else s2)

/-- Dispatch the oldest queued start of a subchannel without an active operation, or end it NO_PATH (R314, R332). -/
def dispatchNext (h : Half) (n : Nat) (s : State) : State :=
  match activeOf s h n, oldest (queuedOf s h n) with
  | none, some (i, _) =>
    (match choosePath s (subOf s h n) (pathsUp s h (subOf s h n)) with
      | some pi => dispatchOn h i pi s
      | none => decideOp h i 7 0 0 0 s)
  | _, _ => s

/-- Entries of the hub's own part of the table that are FREE (R330). -/
def freeEntries (s : State) (h : Half) : List Nat := (upTo (iftOwn s)).filter (fun i => (iftOf s h i).st == 0)

/-- Hub part of a start after its ownership check (R313): result code of R109, operation number, next state. The entry
taken among the free ones is open (log 3). -/
def cssStart (h : Half) (n cpa tag : Nat) (notify : Bool) (tmo : Nat) (spool : Bool) (s : State) : Nat × Nat × State :=
  let b := subOf s h n
  let fr := freeEntries s h
  if ¬ b.v ∨ ¬ b.en ∨ pathsUp s h b = [] then (3, 0, s)
  else if (draining s h ∧ ¬ spool) ∨ 8 ≤ (queuedOf s h n).length ∨ fr = [] then (2, 0, bump (cssUnit h) 0x382 1 s)
  else
    let c := cssOf s h
    let i := fr.getD (freeVal s % fr.length) 0
    let idle := (activeOf s h n).isNone && (queuedOf s h n).isEmpty && !(entriesOf s h n).any (fun e => e.2.st == 9)
    let e : Ift := { Ift.free with
      st := 1, opno := c.opCtr, sub := n, tag := tag, cpa := cpa % 2 ^ 52, notify := notify, cq := b.cq,
      otype := b.otype, owner := b.owner, tmo := if tmo = 0 then b.tmo else tmo, accept := (s.st64.get h).toNat,
      image := b.image, cpe := n % 32, cmdp := cpa % 2 ^ 52, seq := c.seqCtr }
    let s1 := updCss h (fun c => { c with opCtr := (c.opCtr + 1) % 2 ^ 48, seqCtr := c.seqCtr + 1 }) (updIft h i (fun _ => e) (drawn s))
    let s2 := bump (cssUnit h) 0x381 1 s1
    if idle then (0, c.opCtr, dispatchNext h n s2) else (1, c.opCtr, s2)

/-! ### Status records (R321, R324–R326) -/

def whereOf (e : Ift) : Nat := putBits [(0, e.lca % 2 ^ 52), (52, e.pp % 16), (56, e.pathIdx % 4), (58, e.redrives % 64)]

/-- The 32 bytes of a record (R321). -/
def recordBytes (e : Ift) (fstat : Nat) (final phase : Bool) (reason : Nat) : List Byte :=
  pack [(8, e.opno + e.sub * 2 ^ 48), (8, e.tag), (8, whereOf e), (4, e.resid), (1, fstat), (1, e.dstat),
        (1, b2n final + 2 * b2n phase + 4 * b2n e.sense + 8 * b2n e.migrated), (1, reason)]

/-- Key of the completion queue of an entry at the hub that holds it: an adopted subchannel's entries use its adopted
queue, but an INTERRUPTED entry is reported on the holding hub's own queue of that number (R335, R336). -/
def cqKey (s : State) (h : Half) (e : Ift) : Nat :=
  let cut := e.st = 10 ∨ (e.st = 8 ∧ (e.fstat = 9 ∨ e.fstat = 10))
  if (cssOf s h).adopted ∧ e.sub / 2048 ≠ h.n ∧ ¬ cut then 512 + e.cq else e.cq
def cqOf (s : State) (h : Half) (q : Nat) : Cq := tget Cq.reset (cssOf s h).cqs q
def updCq (h : Half) (q : Nat) (f : Cq → Cq) (s : State) : State :=
  updCss h (fun c => { c with cqs := tmod Cq.reset c.cqs q f }) s
def cqSlots (q : Cq) : Nat := qpSlots q.size
def cqRoom (q : Cq) : Bool := q.en && !q.stopped && !((q.tail + 1) % cqSlots q == q.head % cqSlots q)

/-- A post error stops the queue as R59 stops a ring. -/
def cqStop (h : Half) (q : Nat) (s : State) : State :=
  logNow h (rpt (cssUnit h) 2 clsNote 0x0906 (freeVal s % 2 ^ 192)) (updCq h q (fun x => { x with en := false, stopped := true }) (drawn s))

/-- Interrupt of a queue (R320). -/
def cqIrq (q : Cq) (s : State) : State :=
  if q.imode = 1 then raiseExt q.target q.vector s
  else if q.imode = 2 ∧ q.otype = 1 then fnIrq q.owner q.target s
  else s

/-- FSTAT and REASON that a record shows (R323, R335). -/
def shownStatus (e : Ift) : Nat × Nat := if e.st = 10 then (if e.halfLoss then 10 else 9, e.reason) else (e.fstat, e.reason)

/-- Post the record of an entry whose status is decided (R324). -/
def postRecord (h : Half) (i : Nat) (s : State) : State :=
  let e := iftOf s h i
  let q := cqKey s h e
  let cq := cqOf s h q
  if ¬ cqRoom cq then s
  else
    let st := shownStatus e
    match dmaWrite s h (cq.base + cq.tail * 32) (recordBytes e st.1 true cq.phase st.2) with
    | none => cqStop h q s
    | some (s1, true) => cqStop h q s1
    | some (s1, false) =>
      let t := (cq.tail + 1) % cqSlots cq
      let s2 := updCq h q (fun x => { x with tail := t, phase := if t = 0 then !x.phase else x.phase }) s1
      let s3 := updIft h i (fun x => { x with st := 8, slot := cq.tail, fstat := st.1, reason := st.2 }) s2
      if e.notify then cqIrq cq s3 else s3

/-- An earlier operation of the subchannel has not been posted (R314, R316). -/
def waitsBehind (s : State) (h : Half) (i : Nat) : Bool :=
  let e := iftOf s h i
  (entriesOf s h e.sub).any (fun x => x.2.seq < e.seq && x.2.st != 8)

/-- CQ_POST: a decided status is posted, in acceptance order of its subchannel; a spool's status goes to the ledger
engine instead (R298, R314, R324). -/
def runCqPost (h : Half) (i : Nat) (s : State) : State :=
  let e := iftOf s h i
  if e.st = 6 ∧ e.otype ≠ 2 ∧ ¬ waitsBehind s h i then postRecord h i s else s

/-- CSS_CQ_HEAD written: records from the old head up to the new one are retired (R325). -/
def runCqHead (h : Half) (q v : Nat) (s : State) : State :=
  let c := cqOf s h q
  let n := cqSlots c
  let adv := (v + n - c.head % n) % n
  if n ≤ v ∨ (c.tail + n - c.head % n) % n < adv then s
  else
    let s1 := updCq h q (fun x => { x with head := v }) s
    (cssOf s h).ift.foldl (fun t e =>
      if e.2.st = 8 ∧ cqKey s h e.2 = q ∧ (e.2.slot + n - c.head % n) % n < adv then updIft h e.1 (fun _ => Ift.free) t
      else t) s1

/-- INTERRUPTED entries of a queue are posted in acceptance order once it is enabled (R335). -/
def reportInterrupted (h : Half) (q : Nat) : Nat → State → State
  | 0, s => s
  | n + 1, s =>
    match oldest ((cssOf s h).ift.filter (fun e => e.2.st == 10 && e.2.otype != 2 && cqKey s h e.2 == q)) with
    | none => s
    | some (i, _) => if cqRoom (cqOf s h q) then reportInterrupted h q n (postRecord h i s) else s

def runInterruptedReport (h : Half) (q : Nat) (s : State) : State :=
  reportInterrupted h q ((cssOf s h).ift.filter (fun e => e.2.st == 10)).length s

/-- Every entry not FREE becomes INTERRUPTED and keeps what was decided (R335). REASON is as R323 says. -/
def interruptEntry (loss : Bool) (e : Ift) : Ift :=
  if e.st = 0 then e
  else if e.st = 10 then { e with halfLoss := e.halfLoss || loss }
  else { e with st := 10, halfLoss := loss, park := none, parked := false, evs := 0, mask := 0, why := 0, sense := e.sense,
                reason := if e.st = 9 then 0xFE else e.fstat }

/-- PHASE of a record that stands in a slot: that of the pass it was posted in, the queue's before the tail (R110, R326). -/
def postedPhase (q : Cq) (slot : Nat) : Bool := if slot < q.tail then q.phase else !q.phase

/-- A CTEST answers with a code and 32 bytes (R110, R326). -/
def cssTest (s : State) (h : Half) (n : Nat) : Nat × List Byte :=
  match activeOf s h n with
  | some (_, e) => (1, recordBytes e 0xFF false false e.reason)
  | none =>
    match oldest ((entriesOf s h n).filter (fun e => e.2.st == 8)) with
    | some (_, e) => (2, recordBytes e e.fstat true (postedPhase (cqOf s h (cqKey s h e)) e.slot) e.reason)
    | none =>
      if (entriesOf s h n).any (fun e => e.2.st != 8) then
        match oldest (entriesOf s h n) with
        | some (_, e) => (1, recordBytes e 0xFF false false e.reason)
        | none => (0, [])
      else (0, pack [(8, n * 2 ^ 48), (24, 0)])

/-! ### Halt, clear and failure paths (R315–R317, R332, R333, R337) -/

/-- A device command is in progress: the operation is parked for a device event after a command reached the device. -/
def devBusy (e : Ift) : Bool := e.parked && e.touched && bitOf e.mask 0

/-- An operation in HALTING or CLEARING loses its path (R315, R316). -/
def endHalted (h : Half) (i : Nat) (busy : Bool) (s : State) : State :=
  let e := iftOf s h i
  if busy then decideOp h i 8 0 0x13 e.resid s else decideOp h i (if e.st = 4 then 6 else 5) 0 0 e.resid s

/-- CHALT (R111, R315). -/
def cssHalt (h : Half) (n : Nat) (s : State) : Nat × State :=
  match activeOf s h n with
  | none => (1, s)
  | some (i, e) =>
    if e.st = 3 ∨ e.st = 4 then (2, s)
    else if e.st = 5 then (0, endHalted h i e.touched (updIft h i (fun x => { x with st := 3 }) s))
    else
      let s1 := updIft h i (fun x => { x with st := 3, evs := x.evs.lor 4, why := 3 }) s
      if (curKind s h i).isSome then (0, s1)
      else if devBusy e then (0, runEntry h i 2 s1)
      else (0, endHalted h i false s1)

/-- CCLEAR (R111, R316). Its queued starts are CLEARED; their records follow the active one's. -/
def cssClear (h : Half) (n : Nat) (s : State) : Nat × State :=
  let clr := fun (t : State) => (queuedOf s h n).foldl (fun u e => decideOp h e.1 6 0 0 0 u) t
  match activeOf s h n with
  | none => (0, clr s)
  | some (i, e) =>
    if e.st = 4 then (2, s)
    else if e.st = 5 then (0, clr (endHalted h i e.touched (updIft h i (fun x => { x with st := 4 }) s)))
    else
      let s1 := clr (updIft h i (fun x => { x with st := 4, evs := x.evs.lor 8, why := 4 }) s)
      match curKind s h i with
      | some 0 => (0, s1)
      | some 1 => (0, s1)
      | _ => (0, runEntry h i 4 s1)

/-- The hub's decision of R332 for an operation whose path is lost or given up. -/
def recoverOp (h : Half) (i : Nat) (s : State) : State :=
  let e := iftOf s h i
  let b := subOf s h e.sub
  let p := choosePath s b ((pathsUp s h b).filter (fun k => k ≠ e.pathIdx))
  if ¬ e.touched then
    match p with
    | none => decideOp h i 7 0 0 e.resid s
    | some k => dispatchOn h i k (updIft h i (fun x => { x with cmdp := x.cpa, why := 0 }) s)
  else if ¬ e.nonidem then
    if 3 ≤ e.redrives then decideOp h i 8 0 0x16 e.resid s
    else match p with
    | none => decideOp h i 8 0 0x11 e.resid s
    | some k =>
      bump (cssUnit h) 0x383 1
        (dispatchOn h i k (updIft h i (fun x => { x with cmdp := x.cpa, why := 0, redrives := x.redrives + 1 }) s))
  else match p with
  | none => decideOp h i 8 0 0x11 e.resid s
  | some k =>
    if hasQuery s h e.image then
      bump (cssUnit h) 0x384 1
        (runEntry h i 3 (updIft h i (fun x => { x with st := 5, pathIdx := k, pp := (pathOf b k).getD 0, why := 6,
                                                       timedOut := e.why = 2 }) s))
    else decideOp h i 8 0 (if e.why = 2 then 0x12 else 0x10) e.resid s

/-- A recovery query ends with DONE, NOT_DONE or UNKNOWN (R333). -/
def queryEnd (h : Half) (i outcome : Nat) (s : State) : State :=
  let e := iftOf s h i
  if 2 ≤ outcome then decideOp h i 8 0 (if e.timedOut then 0x12 else 0x10) e.resid s
  else if 3 ≤ e.redrives then decideOp h i 8 0 0x16 e.resid s
  else runEntry h i 0 (updIft h i (fun x => { x with st := 2, redrives := x.redrives + 1, why := 0,
                                                     cmdp := if outcome = 1 then x.lca else x.cmdp }) s)

/-- RECOVERY_QUERY_END of an operation whose query runs; no answer in 100 ms is UNKNOWN. -/
def runQueryEnd (h : Half) (i outcome : Nat) (s : State) : State :=
  let e := iftOf s h i
  if e.st = 5 ∧ e.why = 6 then queryEnd h i outcome s else s

/-- The path of an operation is lost (why 1) or given up after a timeout (why 2). -/
def losePath (h : Half) (i why : Nat) (s : State) : State :=
  let e := iftOf s h i
  if e.st = 3 ∨ e.st = 4 then endHalted h i (devBusy e || (e.touched && (curKind s h i).isSome) || decide (e.touched ∧ e.park.isSome ∧ bitOf e.mask 0)) s
  else if e.st = 5 ∧ e.why = 6 then recoverOp h i s
  else if e.st = 5 then s
  else
    let s1 := updIft h i (fun x => { x with st := 5, why := why, evs := x.evs.lor (if why = 1 then 16 else 2) }) s
    if (curKind s h i).isSome then s1 else runEntry h i 2 s1

/-- PATHDOWN: the path of an active operation has gone (R332). -/
def runPathdown (h : Half) (i : Nat) (s : State) : State :=
  let e := iftOf s h i
  if e.live ∧ ¬ pathUp s h (subOf s h e.sub) e.pathIdx ∧ (ppOf s e.pp).st ≠ 3 then losePath h i 1 s else s

/-- A port becomes FAILED with its entry, once per transition (R304). -/
def failPort (pp cause : Nat) (s : State) : State :=
  let p := ppOf s pp
  if p.st = 4 then s
  else
    let s1 := updPp pp (fun x => { x with st := 4, fails := sat (x.fails + 1) 255, cause := cause, cycle := 0, pathups := [],
                                          linkUp := x.linkUp && cause != 0,
                                          gen := if cause = 0 then 0 else x.gen, width := if cause = 0 then 0 else x.width }) s
    bump (pathUnit pp) 0x3C2 1
      (logNow (portHub pp) (rpt (pathUnit pp) 2 clsCR 0x0601 (pp % 16 + cause * 256)) s1)

/-- OPERATION_TIMEOUT (R317): the third consecutive one fails the port. -/
def runOpTimeout (h : Half) (i : Nat) (s : State) : State :=
  let e := iftOf s h i
  if ¬ e.live ∨ e.tmo = 0 then s
  else
    let n := (ppOf s e.pp).touts + 1
    let s1 := updPp e.pp (fun x => { x with touts := n }) s
    losePath h i 2 (if 3 ≤ n ∧ (ppOf s e.pp).st = 2 then failPort e.pp 4 s1 else s1)

/-- HALT_CONFIRM_TIMEOUT: a halt or clear not confirmed within 100 ms (R315, R316). -/
def runConfirmTimeout (h : Half) (i : Nat) (s : State) : State :=
  let e := iftOf s h i
  if e.st = 3 ∨ e.st = 4 then decideOp h i 8 0 0x13 e.resid s else s

/-- An operation stops for migration: FROZEN, off its CPE (R337). -/
def freezeOp (h : Half) (i : Nat) (s : State) : State :=
  let c := (iftOf s h i).cpe
  cpeNext h c (updIft h i (fun x => { x with st := 9, park := none, parked := false, evs := 0, mask := 0, why := 0 }) (dropJobs h i s))

/-- FREEZE reaches an operation: queued ones are FROZEN at once, active ones at the next command boundary (R337). -/
def freezeEvent (h : Half) (i : Nat) (s : State) : State :=
  let e := iftOf s h i
  if e.st = 1 then freezeOp h i s
  else if ¬ e.live then s
  else if (curKind s h i).isNone ∧ ¬ devBusy e ∧ e.st = 2 then freezeOp h i s
  else
    let s1 := updIft h i (fun x => { x with evs := x.evs.lor 32 }) s
    if e.parked ∧ bitOf e.mask 5 then runEntry h i 1 s1 else s1

/-- FREEZE_TIMEOUT: a device command unfinished 4 ms after FREEZE is aborted (R337). -/
def runFreezeTimeout (h : Half) (i : Nat) (s : State) : State :=
  let e := iftOf s h i
  if e.live ∧ bitOf e.evs 5 ∧ devBusy e then
    runEntry h i 2 (updIft h i (fun x => { x with why := 5 }) s) else s

/-- A service entry of an operation ended with its outcome (R315, R316, R332, R333, R337). -/
def serviceEnd (h : Half) (i outcome : Nat) (s : State) : State :=
  let e := iftOf s h i
  if e.st = 3 ∨ e.st = 4 then endHalted h i (outcome ≠ 0) s
  else if e.why = 6 then queryEnd h i outcome s
  else if e.why = 5 then
    if bitOf e.link 4 then freezeOp h i (updIft h i (fun x => { x with cmdp := x.lca }) s)
    else decideOp h i 8 0 0x15 e.resid s
  else if e.st = 5 then recoverOp h i s
  else s

/-- An event reaches an operation: it resumes when parked for one in the mask (R342). -/
def wakeOp (h : Half) (i bit : Nat) (s : State) : State :=
  let e := iftOf s h i
  let s1 := updIft h i (fun x => { x with evs := x.evs.lor (2 ^ bit) }) s
  if e.live ∧ e.parked ∧ bitOf e.mask bit then runEntry h i 1 s1 else s1

/-- DEVICE_EVENT: a device completion for a parked operation (R346). -/
def runDeviceEvent (h : Half) (i : Nat) (s : State) : State := if (iftOf s h i).live then wakeOp h i 0 s else s

/-- A write to an event slot of a CPE wakes the operation parked in it (R303). -/
def runEventPage (h : Half) (c slot : Nat) (s : State) : State :=
  match (cssOf s h).ift.find? (fun e => e.2.live && e.2.cpe == c && e.2.park == some slot && e.2.parked) with
  | some e => wakeOp h e.1 0 s
  | none => s

/-! ### Path ports (R302–R305) -/

/-- PATH_PORT_FAILED with its cause. -/
def runPortFailed (pp cause : Nat) (s : State) : State :=
  if (ppOf s pp).st = 2 ∨ (ppOf s pp).st = 1 ∨ (cause = 0 ∧ (ppOf s pp).st = 3) then
    if (ppOf s pp).st = 3 then updPp pp (fun x => { x with linkUp := false, gen := 0, width := 0 }) s else failPort pp cause s
  else s

/-- Images to run PATHUP for: hub × 16 + slot of every subchannel that lists the port (R304). -/
def pathupImages (s : State) (pp : Nat) : List Nat :=
  ([Half.a, Half.b].flatMap (fun h => ((cssOf s h).subs.filter (fun e => e.1 < 2048 && e.2.v &&
      (upTo 4).any (fun i => pathOf e.2 i == some pp))).map (fun e => h.n * 16 + e.2.image))).eraseDups

/-- The port comes ONLINE; a PATH_SET that waited for it ends (R304). -/
def portOnline (pp : Nat) (s : State) : State :=
  let g := (ppOf s pp).cmd
  finishOpt g stDone 2 0 (updPp pp (fun x => { x with st := 2, cycle := 0, pathups := [], touts := 0, cmd := none }) s)

/-- PATH_RECOVERY_CYCLE: PERST# pulsed, the link trained at a generation and width, PATHUP entries started; a switch
below the port leaves it FAILED (R302, R304). -/
def runPathCycle (pp gen width : Nat) (switch : Bool) (s : State) : State :=
  let p := ppOf s pp
  if p.perst ∨ ¬ (p.st = 1 ∨ (p.st = 4 ∧ (p.cause ≠ 5 ∨ p.cycle ≠ 0))) then s
  else
    let s1 := updPp pp (fun x => { x with linkUp := true, gen := gen % 8, width := width % 4 }) s
    if switch then
      if p.st = 4 then updPp pp (fun x => { x with cause := 5, cycle := 0 }) s1 else failPort pp 5 s1
    else
      let is := pathupImages s pp
      if is = [] then portOnline pp s1
      else
        let s2 := updPp pp (fun x => { x with cycle := 3, pathups := is }) s1
        is.foldl (fun t k => pushJob (halfOf (k / 16)) (freeVal t % 32) ⟨5, 0, pp, k % 16⟩ (drawn t)) s2

/-- PATH_TRAINING_TIMEOUT: no training within 1 s of the release; the cycle repeats 1 s later (R304). -/
def runPathTrainTimeout (pp : Nat) (s : State) : State :=
  let p := ppOf s pp
  if p.st = 1 ∨ (p.st = 4 ∧ (p.cause ≠ 5 ∨ p.cycle ≠ 0)) then updPp pp (fun x => { x with linkUp := false, gen := 0, width := 0, cycle := 4, pathups := [] }) s else s

/-- PATHUP_END of an image: ONLINE once every one ended with 0; another outcome repeats the cycle later (R304). -/
def runPathupEnd (pp image outcome : Nat) (s : State) : State :=
  let p := ppOf s pp
  if p.cycle ≠ 3 ∨ ¬ p.pathups.contains image then s
  else if outcome ≠ 0 then updPp pp (fun x => { x with cycle := 4, pathups := [] }) s
  else
    let rest := p.pathups.erase image
    if rest = [] then portOnline pp s else updPp pp (fun x => { x with pathups := rest }) s

/-- Subchannels that have a port among their paths and now use other paths of theirs (R72, DEDUCED, log 20). -/
def subsMoved (s : State) (pp : Nat) : Nat :=
  [Half.a, Half.b].foldl (fun (n : Nat) h =>
    n + ((cssOf s h).subs.filter (fun e => e.2.v && (upTo 4).any (fun i => pathOf e.2 i == some pp) &&
      (pathsUp s h e.2).any (fun i => pathOf e.2 i != some pp))).length) 0

/-- PATH_OFFLINE_LIMIT: operations still active 1 ms after PATH_SET offline are moved under R332 (R305). -/
def runOfflineLimit (pp : Nat) (s : State) : State :=
  if (ppOf s pp).st ≠ 3 then s
  else
    let move := fun (h : Half) (t : State) =>
      ((cssOf t h).ift.filter (fun e => e.2.live && e.2.pp == pp)).foldl (fun u e => losePath h e.1 1 u) t
    let g := (ppOf s pp).cmd
    finishOpt g stDone 2 (subsMoved s pp) (updPp pp (fun x => { x with cmd := none }) (move .b (move .a s)))

/-- These bytes lie in the fence of a subchannel that lists the port as a path in use (R303). -/
def fenceMay (s : State) (pp pa n : Nat) : Bool :=
  [Half.a, Half.b].any (fun g => (cssOf s g).subs.any (fun e =>
    e.2.v && (upTo 4).any (fun i => pathOf e.2 i == some pp) &&
    decide (e.2.fence % 2 ^ 32 * 4096 ≤ pa ∧ pa + n ≤ (e.2.fence / 2 ^ 32 + 1) * 4096)))

/-- They lie in the part of the image region that its endpoint may reach: the CPE data area and its own queue area (R303, R345). -/
def areaMay (s : State) (pp pa n : Nat) : Bool :=
  let h := portHub pp
  let b := imgBase s h
  (cssOf s h).imgLock && (decide (b + 0x400000 ≤ pa ∧ pa + n ≤ b + 0x600000) ||
    decide (b + 0xE00000 + pp % 16 * 0x20000 ≤ pa ∧ pa + n ≤ b + 0xE00000 + (pp % 16 + 1) * 0x20000))

/-- An endpoint's read and write of memory: none where the port refuses it. -/
def endpointRead (s : State) (pp pa n : Nat) : Option (List Byte × Bool) :=
  if areaMay s pp pa n then dmaReadRaw s (portHub pp) pa n else if fenceMay s pp pa n then dmaRead s (portHub pp) pa n else none

def endpointWrite (s : State) (pp pa : Nat) (d : List Byte) : Option (State × Bool) :=
  if areaMay s pp pa d.length then dmaWriteRaw s (portHub pp) pa d
  else if fenceMay s pp pa d.length then dmaWrite s (portHub pp) pa d else none

/-- CPE and slot an address of the event pages of a hub names (R303). -/
def eventSlot (h : Half) (pa : Nat) : Option (Nat × Nat) :=
  match regionOf pa with
  | .regs g off =>
    if g = h ∧ 0x12000000 ≤ off ∧ off < 0x12020000 then some ((off - 0x12000000) / 0x1000, (off - 0x12000000) % 0x1000)
    else none
  | _ => none

def pathSend (pp : Nat) (t : PathTlp) (s : State) : State := updCss (portHub pp) (fun c => { c with out := c.out ++ [(pp, t)] }) s

/-- The request is refused: UR and URS (R303). -/
def pathUr (pp : Nat) (s : State) : State := bump (pathUnit pp) 0x3C3 1 <| pathSend pp .ur (updPp pp (fun x => { x with urs := sat (x.urs + 1) 255 }) s)

/-- PATH_INBOUND_REQUEST: a memory read of `n` bytes, or a write when data is given (R303, R345). Event pages read as 0, as R32 says
of every offset without a register. -/
def runPathInbound (pp pa n : Nat) (wr : Option (List Byte)) (s : State) : State :=
  let h := portHub pp
  match wr with
  | some d =>
    (match eventSlot h pa with
      | some (c, off) => if off % 0x20 = 0 then runEventPage h c (off / 0x20) s else s
      | none =>
        match endpointWrite s pp pa d with
        | some (s1, _) => s1
        | none => pathUr pp s)
  | none =>
    if (eventSlot h pa).isSome then pathSend pp (.cpl (List.replicate n 0) false) s
    else match endpointRead s pp pa n with
    | some (d, ep) => pathSend pp (.cpl d ep) s
    | none => pathUr pp s

end Sys2Proof.Machine
end

