-- ==== Sys2Proof/Machine/CpeRun.lean ====
section
/-! DEFINITION. The CPEs: their instructions, faults and channel commands (R306–R310, R339–R346). -/
namespace Sys2Proof.Machine

/-! ### Faults and the end of an entry -/

/-- A CPE fault ends the entry and its operation, and is logged (R340, R568). -/
def cpeFault (h : Half) (c : Nat) (j : Job) (addr : Nat) (s : State) : State :=
  let s1 := updCpe h c (fun k => { k with cur := none, delay := [], faults := sat (k.faults + 1) 65535 }) s
  let s2 := logNow h (rpt (cpeUnit h c) 2 clsUC 0x0602 (c + j.ift * 256 + addr % 2 ^ 32 * 2 ^ 24)) s1
  if j.kind = 5 then cpeNext h c (runPathupEnd j.pp (h.n * 16 + j.image) 1 s2)
  else
    let e := iftOf s h j.ift
    cpeNext h c (if e.touched then decideOp h j.ift 8 0 0x14 e.resid s2 else decideOp h j.ift 3 0 0x09 e.resid s2)

/-- The entry ends and the CPE is free; it takes its next job once the caller is done. -/
def leaveCpe (h : Half) (c : Nat) (s : State) : State := updCpe h c (fun k => { k with cur := none, delay := [] }) s

/-- An instruction executes on a CPE that runs an entry. It is read from the image, the only range that may be executed, at a
4-byte aligned address (R339, R340, R341). -/
def onEntry (o : CpeOp) (body : Cpe → Job → State → State) (s : State) : State :=
  let k := cpeOf s o.hub o.cpe
  match k.cur with
  | none => s
  | some j => if k.pc % 4 ≠ 0 ∨ 0x40000 ≤ k.pc then cpeFault o.hub o.cpe j k.pc s else body k j s

/-- An instruction other than WAIT, POST and END: the 65,536th of an entry without one of those faults (R340). -/
def onCpe (o : CpeOp) (body : Cpe → Job → State → State) (s : State) : State :=
  onEntry o (fun k j t => if 65535 ≤ k.count then cpeFault o.hub o.cpe j k.pc t else body k j t) s

/-! ### Registers (R341, R343) -/

def kget (k : Cpe) (r : Nat) : W32 := if r % 32 = 0 then 0 else tget 0 k.k (r % 32)
def kset (t : Tab W32) (r : Nat) (v : W32) : Tab W32 := if r % 32 = 0 then t else tset 0 t (r % 32) v

/-- Register values after an instruction: its own result, then what the load before it brings (R343). -/
def kcommit (k : Cpe) (wr : List (Nat × W32)) (loads : List (Nat × W32)) (pc : Nat) : Cpe :=
  let t1 := wr.foldl (fun (t : Tab W32) e => kset t e.1 e.2) k.k
  let t2 := k.delay.foldl (fun (t : Tab W32) e => kset t e.1 e.2) t1
  { k with k := t2, delay := loads, pc := pc % 2 ^ 32, count := k.count + 1 }

/-- Complete an instruction. -/
def cpeDone (o : CpeOp) (k : Cpe) (wr loads : List (Nat × W32)) (pc : Nat) (s : State) : State :=
  updCpe o.hub o.cpe (fun _ => kcommit k wr loads pc) s

def imm16s (o : CpeOp) : W32 := (BitVec.ofNat 16 o.imm).signExtend 32
def imm16z (o : CpeOp) : W32 := BitVec.ofNat 32 (o.imm % 65536)

/-- Format R: rd := ra op rb; bits 10:0 not 0 make the instruction undefined (R340, R341). -/
def cpeAlu (o : CpeOp) (f : W32 → W32 → W32) (s : State) : State :=
  onCpe o (fun k j t =>
    if o.imm % 2048 ≠ 0 then cpeFault o.hub o.cpe j k.pc t
    else cpeDone o k [(o.x, f (kget k o.y) (kget k (o.imm / 2048)))] [] (k.pc + 4) t) s

/-- Format I: rd := ra op imm. -/
def cpeImm (o : CpeOp) (f : W32 → W32) (s : State) : State :=
  onCpe o (fun k _ t => cpeDone o k [(o.x, f (kget k o.y))] [] (k.pc + 4) t) s

/-- Format B: branch on ra and rb (bits 25:21 and 20:16) by a signed word offset from the next instruction. -/
def cpeBranch (o : CpeOp) (p : W32 → W32 → Bool) (s : State) : State :=
  onCpe o (fun k _ t =>
    let tgt := k.pc + 4 + ((imm16s o).toNat * 4) % 2 ^ 32
    cpeDone o k [] [] (if p (kget k o.x) (kget k o.y) then tgt else k.pc + 4) t) s

def runCpeAdd (o : CpeOp) (s : State) : State := cpeAlu o (fun x y => x + y) s
def runCpeSub (o : CpeOp) (s : State) : State := cpeAlu o (fun x y => x - y) s
def runCpeAnd (o : CpeOp) (s : State) : State := cpeAlu o (fun x y => x &&& y) s
def runCpeOr (o : CpeOp) (s : State) : State := cpeAlu o (fun x y => x ||| y) s
def runCpeXor (o : CpeOp) (s : State) : State := cpeAlu o (fun x y => x ^^^ y) s
def runCpeSll (o : CpeOp) (s : State) : State := cpeAlu o (fun x y => x <<< (y.toNat % 32)) s
def runCpeSrl (o : CpeOp) (s : State) : State := cpeAlu o (fun x y => x >>> (y.toNat % 32)) s
def runCpeSra (o : CpeOp) (s : State) : State := cpeAlu o (fun x y => x.sshiftRight (y.toNat % 32)) s
def runCpeSltu (o : CpeOp) (s : State) : State := cpeAlu o (fun x y => if x.toNat < y.toNat then 1 else 0) s
def runCpeAddi (o : CpeOp) (s : State) : State := cpeImm o (fun x => x + imm16s o) s
def runCpeAndi (o : CpeOp) (s : State) : State := cpeImm o (fun x => x &&& imm16z o) s
def runCpeOri (o : CpeOp) (s : State) : State := cpeImm o (fun x => x ||| imm16z o) s
def runCpeLui (o : CpeOp) (s : State) : State := cpeImm o (fun _ => BitVec.ofNat 32 (o.imm % 65536 * 65536)) s
def runCpeBeq (o : CpeOp) (s : State) : State := cpeBranch o (fun x y => x == y) s
def runCpeBne (o : CpeOp) (s : State) : State := cpeBranch o (fun x y => x != y) s
def runCpeBltu (o : CpeOp) (s : State) : State := cpeBranch o (fun x y => x.toNat < y.toNat) s
def runCpeBgeu (o : CpeOp) (s : State) : State := cpeBranch o (fun x y => y.toNat ≤ x.toNat) s

/-- JAL: ra is 0, else the instruction is undefined. -/
def runCpeJal (o : CpeOp) (s : State) : State :=
  onCpe o (fun k j t =>
    if o.y % 32 ≠ 0 then cpeFault o.hub o.cpe j k.pc t
    else cpeDone o k [(o.x, BitVec.ofNat 32 (k.pc + 4))] [] (k.pc + 4 + ((imm16s o).toNat * 4) % 2 ^ 32) t) s

/-- JR: rd and imm are 0. -/
def runCpeJr (o : CpeOp) (s : State) : State :=
  onCpe o (fun k j t =>
    if o.x % 32 ≠ 0 ∨ o.imm % 65536 ≠ 0 then cpeFault o.hub o.cpe j k.pc t
    else cpeDone o k [] [] (kget k o.y).toNat t) s

/-! ### The CPE caches (R195, R201, R202, R207) -/

def cpeAgent (h : Half) : Nat := 16 + h.n

/-- A line enters a CPE's cache of 32 sets and 8 ways; which line leaves a full set is open (log 3), and the group gives up one
that no other cache of it holds. -/
def cpeLine (h : Half) (c line : Nat) (s : State) : State :=
  let me := h.n * 32 + c
  let here := s.coh.cpec.filter (fun k => k / 2 ^ 46 == me && k % 2 ^ 46 % 32 == line % 32)
  if s.coh.cpec.contains (ckey me line) then s
  else
    let out := here.getD (freeVal s % here.length) 0
    let s1 := if here.length < 8 then s else
      let t := updCoh (fun k => { k with cpec := k.cpec.erase out }) (drawn s)
      if t.coh.cpec.any (fun k => k / 2 ^ 46 / 32 == h.n && k % 2 ^ 46 == out % 2 ^ 46) then t
      else evictLine (cpeAgent h) (out % 2 ^ 46) t
    updCoh (fun k => { k with cpec := k.cpec ++ [ckey me line] }) s1

/-- A load goes through the cache; one of the run's last 4 KiB breaks it. -/
def cpeFill (h : Half) (c pa : Nat) (s : State) : State := fillShared (cpeAgent h) (pa / 64) (cpeLine h c (pa / 256) s)

def cpeStreamLoad (pa : Nat) (x : Nat × Nat × Nat) : Nat × Nat × Nat :=
  if x.1 ≤ pa / 64 + min x.2.2 64 ∧ (pa / 64 < x.1 ∨ (pa / 64 = x.1 ∧ x.2.1 ≠ 0)) then (0, 0, 0) else x

/-- The detector on a store of `n` bytes in one sector. -/
def cpeStreamStore (pa n : Nat) (x : Nat × Nat × Nat) : Nat × Nat × Nat :=
  let sec := pa / 64
  let m := (2 ^ n - 1) * 2 ^ (pa % 64)
  let run := if sec = x.1 then x.2.2 else 0
  let w := if sec = x.1 then x.2.1.lor m else m
  if w = 2 ^ 64 - 1 then (sec + 1, 0, run + 1) else (sec, w, run)

/-- A store goes into the cache, and no other cache of the hub keeps the line. While the detector is armed the run's next sector
is not allocated and its bytes go to the home (R201; log 36). -/
def cpeWrite (h : Half) (c pa : Nat) (d : List Byte) (x : Nat × Nat × Nat) (s : State) : State :=
  if pa / 64 = x.1 ∧ 64 ≤ x.2.2 then writeSector s h (pa / 64) (pa % 64) d
  else
    let me := h.n * 32 + c
    let other := fun (y : Nat) => y / 2 ^ 46 / 32 == h.n && y / 2 ^ 46 != me && y % 2 ^ 46 == pa / 256
    agentWrite (cpeAgent h) (pa / 64) (pa % 64) d
      (updCoh (fun k => { k with cpec := k.cpec.filter (fun y => !other y) }) (cpeLine h c (pa / 256) s))

/-! ### Loads and stores (R339, R340) -/

/-- Where a local address leads. -/
inductive CpeWhere where
  /-- image region: physical address, and whether it may be written -/
  | img (pa : Nat) (w : Bool)
  | dram (pa : Nat)
  /-- path port with its hub bit, offset in its window -/
  | path (pp off : Nat)
  | bad
deriving DecidableEq, Repr

/-- Ports of the entry: its subchannel's online paths, or the port of a PATHUP. -/
def jobPorts (s : State) (h : Half) (j : Job) : List Nat :=
  if j.kind = 5 then [j.pp]
  else
    let b := subOf s h (iftOf s h j.ift).sub
    (pathsUp s h b).map (fun i => (pathOf b i).getD 0)

def cpeWhere (s : State) (h : Half) (c : Nat) (k : Cpe) (j : Job) (a n : Nat) : CpeWhere :=
  if a % n ≠ 0 then .bad
  else if a < 0x40000 then .img (slotBase s h (if j.kind = 5 then j.image else (iftOf s h j.ift).image) + a) false
  else if a < 0x50000 then .img (dataBase s h c + (a - 0x40000)) true
  else if a < 0x50100 ∧ j.kind ≠ 5 then .img (ctxBase s h j.ift + (a - 0x50000)) true
  else if a < 0x40000000 then .bad
  else match k.wins.find? (fun w => w.1 == a / 0x40000000 - 1) with
  | none => .bad
  | some w =>
    match regionOf (w.2 + a % 0x40000000) with
    | .dram => .dram (w.2 + a % 0x40000000)
    | .path g p off => if (jobPorts s h j).contains (g.n * 16 + p) then .path (g.n * 16 + p) off else .bad
    | _ => .bad

/-- End of a load of memory by what a coherent read gives. -/
def cpeLoaded (n : Nat) (o : CpeOp) (k : Cpe) (j : Job) (a pa : Nat) (r : Option (List Byte × Bool)) (t : State) : State :=
  match r with
  | some (d, _) =>
    cpeDone o { k with stream := cpeStreamLoad pa k.stream } [] [(o.x, BitVec.ofNat 32 (ofBytes d % 256 ^ n))] (k.pc + 4) (cpeFill o.hub o.cpe pa t)
  | none => cpeFault o.hub o.cpe j a t

/-- End of a store of memory where the access is allowed. -/
def cpeStored (o : CpeOp) (k : Cpe) (pa : Nat) (d : List Byte) (t : State) : State :=
  cpeDone o { k with stream := cpeStreamStore pa d.length k.stream } [] [] (k.pc + 4) (cpeWrite o.hub o.cpe pa d k.stream t)

def cpeLoad (n : Nat) (o : CpeOp) (s : State) : State :=
  onCpe o (fun k j t =>
    let a := ((kget k o.y) + imm16s o).toNat
    let fin := fun (v : Nat) => cpeDone o k [] [(o.x, BitVec.ofNat 32 (v % 256 ^ n))] (k.pc + 4) t
    match cpeWhere t o.hub o.cpe k j a n with
    | .bad => cpeFault o.hub o.cpe j a t
    | .path _ _ => fin o.dev
    | .img pa _ => cpeLoaded n o k j a pa (dmaReadRaw t o.hub pa n) t
    | .dram pa => cpeLoaded n o k j a pa (dmaRead t o.hub pa n) t) s

def runCpeLw (o : CpeOp) (s : State) : State := cpeLoad 4 o s
def runCpeLhu (o : CpeOp) (s : State) : State := cpeLoad 2 o s
def runCpeLbu (o : CpeOp) (s : State) : State := cpeLoad 1 o s

def cpeStore (n : Nat) (o : CpeOp) (s : State) : State :=
  onCpe o (fun k j t =>
    let a := ((kget k o.y) + imm16s o).toNat
    let d := toBytes n (kget k o.x).toNat
    let fin := fun (u : State) => cpeDone o k [] [] (k.pc + 4) u
    let fault := cpeFault o.hub o.cpe j a t
    match cpeWhere t o.hub o.cpe k j a n with
    | .bad => fault
    | .path pp off => fin (pathSend pp (.write off d) t)
    | .img pa w => if w && dramRaw t o.hub pa n then cpeStored o k pa d t else fault
    | .dram pa => if dramOk t o.hub pa n then cpeStored o k pa d t else fault) s

def runCpeSw (o : CpeOp) (s : State) : State := cpeStore 4 o s
def runCpeSh (o : CpeOp) (s : State) : State := cpeStore 2 o s
def runCpeSb (o : CpeOp) (s : State) : State := cpeStore 1 o s

/-- The fence of a subchannel holds these bytes (R300). -/
def inFence (b : Sub) (pa n : Nat) : Bool :=
  decide (b.fence % 2 ^ 32 * 4096 ≤ pa ∧ pa + n ≤ (b.fence / 2 ^ 32 + 1) * 4096)

/-- WSET (R340, R342): base k[ra]:k[rd], bits 51:30. -/
def runWset (o : CpeOp) (s : State) : State :=
  onCpe o (fun k j t =>
    let base := ((kget k o.y).toNat * 2 ^ 32 + (kget k o.x).toNat) % 2 ^ 52 / 2 ^ 30 * 2 ^ 30
    let w := o.imm % 4
    let ok : Bool := match regionOf base with
      | .path g p _ => (jobPorts t o.hub j).contains (g.n * 16 + p)
      | .dram => j.kind ≠ 5 && inFence (subOf t o.hub (iftOf t o.hub j.ift).sub) base (2 ^ 30)
      | _ => false
    if w = 3 ∨ o.imm % 65536 / 4 ≠ 0 ∨ ¬ ok then cpeFault o.hub o.cpe j k.pc t
    else
      updCpe o.hub o.cpe (fun x => { x with wins := (w, base) :: x.wins.filter (fun e => e.1 ≠ w) })
        (cpeDone o k [] [] (k.pc + 4) t)) s

/-- EVADDR (R342): the address of the operation's event slot. -/
def eventAddr (h : Half) (c slot : Nat) : Nat :=
  (if h = .a then 0xFFF0000000000 else 0xFFF8000000000) + 0x12000000 + c * 0x1000 + 0x20 * slot

def runEvaddr (o : CpeOp) (s : State) : State :=
  onCpe o (fun k j t =>
    match (if j.kind = 5 then none else (iftOf t o.hub j.ift).park) with
    | none => cpeFault o.hub o.cpe j k.pc t
    | some sl =>
      let a := eventAddr o.hub o.cpe sl
      cpeDone o k [(o.x, BitVec.ofNat 32 a), (o.x + 1, BitVec.ofNat 32 (a / 2 ^ 32))] [] (k.pc + 4) t) s

/-- CKPT (R329, R342). -/
def runCkpt (o : CpeOp) (s : State) : State :=
  onCpe o (fun k j t =>
    if j.kind = 5 then cpeFault o.hub o.cpe j k.pc t
    else
      let v := (kget k o.y).toNat
      updIft o.hub j.ift (fun e => { e with touched := e.touched || bitOf v 0, nonidem := e.nonidem || bitOf v 1,
                                            sense := e.sense || bitOf v 2 })
        (cpeDone o k [] [] (k.pc + 4) t)) s

/-! ### Leaving the CPE: WAIT, POST, END (R339, R342) -/

/-- What becomes of an operation that has left the CPE at a boundary or parked (R315, R316, R332, R337). -/
def parkedNext (h : Half) (i : Nat) (s : State) : State :=
  let e := iftOf s h i
  if e.svc then (if e.evs.land e.mask ≠ 0 then runEntry h i 1 s else s)
  else if e.st = 3 then (if devBusy e then runEntry h i 2 s else endHalted h i false s)
  else if e.st = 4 then runEntry h i 4 s
  else if e.st = 5 then runEntry h i 2 s
  else if bitOf e.evs 5 ∧ ¬ devBusy e then freezeOp h i s
  else if e.evs.land e.mask ≠ 0 then runEntry h i 1 s else s

def runCpeWait (o : CpeOp) (s : State) : State :=
  onEntry o (fun _ j t =>
    let t1 := leaveCpe o.hub o.cpe t
    let t2 := if j.kind = 5 then t1 else
      parkedNext o.hub j.ift (updIft o.hub j.ift (fun e => { e with parked := true, mask := o.imm % 65536 }) t1)
    cpeNext o.hub o.cpe t2) s

/-- POST (R342): a halt in progress ends HALTED, a clear goes on with RESET (R315, R316). -/
def runCpePost (o : CpeOp) (s : State) : State :=
  onEntry o (fun k j t =>
    if j.kind = 5 then cpeFault o.hub o.cpe j k.pc t
    else
      let v := (kget k o.y).toNat
      let e := iftOf t o.hub j.ift
      let t1 := updPp e.pp (fun p => { p with touts := 0 }) (leaveCpe o.hub o.cpe t)
      let t2 := if e.st = 3 then decideOp o.hub j.ift 5 0 0 (kget k o.x).toNat t1
        else if e.st = 4 ∧ ¬ e.svc then runEntry o.hub j.ift 4 t1
        else decideOp o.hub j.ift (v % 256) (v / 256 % 256) (v / 65536 % 256) (kget k o.x).toNat t1
      cpeNext o.hub o.cpe t2) s

/-- END (R342): only a service entry ends so. -/
def runCpeEnd (o : CpeOp) (s : State) : State :=
  onEntry o (fun k j t =>
    let v := (kget k o.y).toNat
    if j.kind = 5 then cpeNext o.hub o.cpe (runPathupEnd j.pp (o.hub.n * 16 + j.image) v (leaveCpe o.hub o.cpe t))
    else if ¬ (iftOf t o.hub j.ift).svc then cpeFault o.hub o.cpe j k.pc t
    else
      cpeNext o.hub o.cpe
        (serviceEnd o.hub j.ift v (updIft o.hub j.ift (fun e => { e with svc := false }) (leaveCpe o.hub o.cpe t)))) s

/-! ### NXCMD (R306–R310, R344) -/

/-- A channel command (R306). -/
structure Ccmd where
  addr : Nat
  count : Nat
  kind : Nat
  link : Nat
  md : Nat
deriving DecidableEq, Repr

def ccmdOf (d : List Byte) : Ccmd := ⟨fieldAt d 0 8, fieldAt d 8 4, fieldAt d 12 1, fieldAt d 13 1, fieldAt d 14 2⟩

/-- Outcome of reading a command: FSTAT, REASON, LCA and RESID of the end it causes, or where it stands, its words and
the commands without a transfer before it. -/
inductive Fetched where
  | stop (fst rsn lca resid : Nat)
  | cmd (at_ : Nat) (d : List Byte) (quiet : Nat)
deriving DecidableEq, Repr

/-- One command at an address, 16-byte aligned and inside the fence (R300, R306). -/
def fetchAt (s : State) (h : Half) (b : Sub) (pc : Nat) : Fetched :=
  if pc % 16 ≠ 0 ∨ ¬ inFence b pc 16 then .stop 3 0x04 pc 0
  else match dmaRead s h pc 16 with
  | none => .stop 3 0x04 pc 0
  | some (_, true) => .stop 4 0 pc 0
  | some (d, false) => .cmd pc d 0

/-- A command with the JUMP before it followed (R310). -/
def fetchCmd (s : State) (h : Half) (b : Sub) (pc quiet : Nat) : Fetched :=
  match fetchAt s h b pc with
  | .stop f r l x => .stop f r l x
  | .cmd _ d _ =>
    let c := ccmdOf d
    if c.kind ≠ 0x1F then .cmd pc d quiet
    else if c.link ≠ 0 ∨ c.count ≠ 0 ∨ c.md ≠ 0 then .stop 3 0x02 pc (if c.link ≠ 0 then c.count else 0)
    else if c.addr % 16 ≠ 0 ∨ 2 ^ 52 ≤ c.addr ∨ ¬ inFence b c.addr 16 then .stop 3 0x04 pc c.count
    else if 256 ≤ quiet + 1 then .stop 3 0x06 pc c.count
    else match fetchAt s h b c.addr with
    | .stop f r l x => .stop f r l x
    | .cmd p e _ => if (ccmdOf e).kind = 0x1F then .stop 3 0x05 pc 0 else .cmd p e (quiet + 1)

/-- First failing check of a command in the order of the REASON numbers, as (FSTAT, REASON, RESID); `prev` is the LINK
byte of the command it continues, whose options but LIST it repeats (R307, R323, R344). -/
def checkCmd (s : State) (h : Half) (b : Sub) (c : Ccmd) (kind : Nat) (prev : Option Nat) (quiet : Nat) : Option (Nat × Nat × Nat) :=
  let known := kind = 0x10 ∨ kind = 0x11 ∨ kind = 0x12 ∨ kind = 0x13 ∨ kind = 0x1E
  let quietCmd := kind = 0x1E ∨ (kind = 0x12 ∧ c.count = 0)
  let badOpt : Bool := match prev with | some p => c.link / 4 % 8 != p / 4 % 8 | none => false
  if ¬ known then some (3, 0x01, c.count)
  else if c.link % 4 = 3 ∨ 64 ≤ c.link ∨ (bitOf c.link 3 ∧ kind ≠ 0x11) ∨ badOpt ∨
      (kind = 0x1E ∧ (c.link % 4 = 2 ∨ c.md ≠ 0)) then some (3, 0x02, c.count)
  else if (kind = 0x1E ∧ c.count ≠ 0) ∨ 16777216 < c.count ∨ (c.count = 0 ∧ ¬ quietCmd) then some (3, 0x03, 0)
  else if 2 ^ 52 ≤ c.addr ∨ (b.sense ≠ 0 ∧ ¬ inFence b b.sense 64) then some (3, 0x04, c.count)
  else if c.count ≠ 0 ∧ ¬ bitOf c.link 5 ∧ ¬ inFence b c.addr c.count then some (3, 0x04, c.count)
  else if c.count ≠ 0 ∧ bitOf c.link 5 ∧ (c.addr % 16 ≠ 0 ∨ ¬ inFence b c.addr 16) then some (3, 0x04, c.count)
  else
    let seg := if c.count ≠ 0 ∧ bitOf c.link 5 then dmaRead s h c.addr 16 else some ([], false)
    match seg with
    | none => some (3, 0x04, c.count)
    | some (d, poison) =>
      if poison then some (4, 0, c.count)
      else if d ≠ [] ∧ ¬ inFence b (fieldAt d 0 8 % 2 ^ 52) (min (fieldAt d 8 4) c.count) then some (3, 0x04, c.count)
      else if quietCmd ∧ 256 ≤ quiet + 1 then some (3, 0x06, c.count)
      else if d ≠ [] ∧ (fieldAt d 8 4 = 0 ∨ 16777216 < fieldAt d 8 4 ∨ fieldAt d 12 4 ≠ 0 ∨ 2 ^ 52 ≤ fieldAt d 0 8) then
        some (3, 0x07, c.count)
      else none

/-- The operation ends at a faulty command: no further instruction of the entry executes (R344). -/
def nxStop (o : CpeOp) (i fst rsn lca resid : Nat) (s : State) : State :=
  cpeNext o.hub o.cpe (decideOp o.hub i fst 0 rsn resid
    (updIft o.hub i (fun e => { e with lca := lca }) (leaveCpe o.hub o.cpe s)))

/-- A good command: k24 to k27 after the load delay, the command pointer past it (R342, R343). -/
def nxLoad (o : CpeOp) (k : Cpe) (i at_ : Nat) (d : List Byte) (kind link quiet : Nat) (s : State) : State :=
  updIft o.hub i (fun e => { e with lca := at_, cmdp := at_ + 16, link := link, kind := kind, idle := quiet, resid := fieldAt d 8 4 })
    (cpeDone o k [] ((upTo 4).map (fun n => (24 + n, BitVec.ofNat 32 (fieldAt d (4 * n) 4)))) (k.pc + 4) s)

/-- NXCMD: a command boundary, where a halt, clear, path loss or freeze takes effect (R315, R316, R332, R337); then the
next command is read and checked. -/
def runNxcmd (o : CpeOp) (s : State) : State :=
  onCpe o (fun k j t =>
    let h := o.hub
    let i := j.ift
    let e := iftOf t h i
    if pastLimit s then t
    else if j.kind = 5 then cpeFault h o.cpe j k.pc t
    else if ¬ e.svc ∧ (e.st ≠ 2 ∨ bitOf e.evs 5) then
      cpeNext h o.cpe (parkedNext h i (updIft h i (fun x => { x with mask := 0 }) (leaveCpe h o.cpe t)))
    else
      let b := subOf t h e.sub
      match fetchCmd t h b e.cmdp e.idle with
      | .stop f r l x => nxStop o i f r l x t
      | .cmd p d q =>
        let c := ccmdOf d
        let ext := e.link % 4 = 2 ∧ e.lca ≠ 0
        let kind := if ext then e.kind else c.kind
        let prev := if ext then some e.link else none
        match checkCmd t h b c kind prev q with
        | some (f, r, x) => nxStop o i f r p x t
        | none =>
          let quiet := if kind = 0x1E ∨ (kind = 0x12 ∧ c.count = 0) then q + 1 else 0
          nxLoad o k i p d kind c.link quiet t) s

end Sys2Proof.Machine
end

