-- ==== Sys2Proof/Machine/Seal.lean ====
section
/-! DEFINITION. The seal engines: job rings, checks, the stages of a job and its completion (R351–R385). -/
namespace Sys2Proof.Machine

def ringKeyS (h : Half) (r : Nat) : Nat := h.n * 256 + r
def sringOf (s : State) (h : Half) (r : Nat) : SRing := tget SRing.reset s.units.rings (ringKeyS h r)
def updSring (h : Half) (r : Nat) (f : SRing → SRing) (s : State) : State :=
  updUnits (fun u => { u with rings := tmod SRing.reset u.rings (ringKeyS h r) f }) s
def sengOf (s : State) (h : Half) (e : Nat) : SEng := tget SEng.reset s.units.engs (h.n * 8 + e)
def updSeng (h : Half) (e : Nat) (f : SEng → SEng) (s : State) : State :=
  updUnits (fun u => { u with engs := tmod SEng.reset u.engs (h.n * 8 + e) f }) s
def sealUnit (h : Half) (e : Nat) : Nat := srcOf h 0xFF 4 e
def lhOf (s : State) (h : Half) : Lh := s.units.lh.get h
def updLh (h : Half) (f : Lh → Lh) (s : State) : State := updUnits (fun u => { u with lh := u.lh.set h (f (u.lh.get h)) }) s
def kslotOf (s : State) (h : Half) (k : Nat) : KSlot := tget KSlot.empty (lhOf s h).slots k

/-! ### Rings (R352–R359) -/

/-- The engine can serve: ready and not OFF (R357). -/
def engineUp (s : State) (h : Half) (e : Nat) : Bool := readyBit s h (rbSeal e) && pstateOf s (sealUnit h e) != 3

def boundRings (s : State) (h : Half) (e : Nat) : List Nat :=
  (s.units.rings.filter (fun x => x.1 / 256 == h.n && x.2.en && x.2.bound == e)).map (fun x => x.1 % 256)

/-- The engine a ring binds to: the one it names, or the one with the fewest rings among those that serve (R357). -/
def bindEngine (s : State) (h : Half) (eng : Nat) : Nat :=
  if eng < 8 then eng
  else
    match ((upTo 8).filter (engineUp s h)).foldl (fun (b : Option Nat) e =>
        match b with
        | none => some e
        | some x => if (boundRings s h e).length < (boundRings s h x).length then some e else some x) none with
    | some e => e
    | none => 15

/-- A ring stops as R59 steps 1 to 3 and 5 say (R366): jobs fetched stay, and none starts while EN is 0. -/
def sealRingStop (h : Half) (r : Nat) (s : State) : State :=
  let u := srcOf h 0xFF 4 ((sringOf s h r).bound % 16)
  logNow h (rpt u 2 clsNote 0x0906 (freeVal s % 2 ^ 192))
    (updSring h r (fun g => { g with en := false, stopped := true }) (drawn s))

/-- Jobs of a ring fetched and not completed (R356). -/
def ringJobs (s : State) (h : Half) (r : Nat) : Nat :=
  (sringOf s h r).fetched.length + ((upTo 8).filter (fun e => match (sengOf s h e).cur with | some j => j.ring == r | none => false)).length

/-- Fetch descriptors of a ring in DRAM, at most four jobs being fetched and not completed; DRAIN fetches none (R41, R356, R357). -/
def sealFetch (h : Half) (r : Nat) : Nat → State → State
  | 0, s => s
  | n + 1, s =>
    let g := sringOf s h r
    let at_ := g.head % slots8 g.size
    if ¬ g.en ∨ g.otype = 3 ∨ g.otype = 1 ∨ 4 ≤ ringJobs s h r ∨ at_ = g.tail % slots8 g.size ∨ draining s h ∨ g.bound = 15 ∨
        closing s (sealUnit h g.bound) then s
    else
      match dmaRead s h (g.base / 128 * 128 + at_ * 128) 128 with
      | some (d, false) =>
        sealFetch h r n (updSring h r (fun x =>
          { x with head := (at_ + 1) % slots8 x.size, fetched := x.fetched ++ [(at_, d)] }) s)
      | _ => sealRingStop h r s

/-- SEAL_RING_TAIL written (R359). -/
def runSealTail (h : Half) (r v : Nat) (s : State) : State :=
  if ¬ hubPresent s h then s else sealFetch h r 4 (updSring h r (fun g => { g with tail := v % slots8 g.size }) s)

/-! ### Descriptors (R360–R363) -/

structure Desc where
  op : Nat
  flags : Nat
  keyslot : Nat
  taglen : Nat
  mparam : Nat
  srclen : Nat
  dstcap : Nat
  src : Nat
  dst : Nat
  iv : List Byte
  aad : Nat
  aadlen : Nat
  ctx : Nat
  tag : Nat
  hout : Nat
  utag : Nat
deriving DecidableEq, Repr

def descOf (d : List Byte) : Desc :=
  { op := fieldAt d 0 2, flags := fieldAt d 2 2, keyslot := fieldAt d 4 2, taglen := fieldAt d 6 1, mparam := fieldAt d 7 1,
    srclen := fieldAt d 8 4, dstcap := fieldAt d 0xC 4, src := fieldAt d 0x10 8, dst := fieldAt d 0x18 8,
    iv := slice d 0x20 16, aad := fieldAt d 0x30 8, aadlen := fieldAt d 0x38 4, ctx := fieldAt d 0x40 8,
    tag := fieldAt d 0x48 8, hout := fieldAt d 0x50 8, utag := fieldAt d 0x58 8 }

def Desc.comp (d : Desc) : Nat := fld d.op 3 0
def Desc.cipher (d : Desc) : Nat := fld d.op 7 4
def Desc.opens (d : Desc) : Bool := bitOf d.op 8
def Desc.hash (d : Desc) : Nat := fld d.op 10 9
def Desc.hpos (d : Desc) : Bool := bitOf d.op 11
def Desc.level (d : Desc) : Nat := if fld d.op 15 12 = 0 then 6 else fld d.op 15 12
def Desc.first (d : Desc) : Bool := bitOf d.flags 0
def Desc.last (d : Desc) : Bool := bitOf d.flags 1
def Desc.load (d : Desc) : Bool := bitOf d.flags 2
def Desc.save (d : Desc) : Bool := bitOf d.flags 3
def Desc.wrap (d : Desc) : Bool := bitOf d.flags 4
def Desc.verify (d : Desc) : Bool := bitOf d.flags 5
def Desc.tagBytes (d : Desc) : Nat := if d.taglen = 0 then 16 else d.taglen
def Desc.hashLen (d : Desc) : Nat := if d.hash = 1 then 32 else if d.hash = 2 then 48 else 0

/-- Check 1: encodings (R361, R362). -/
def encOk (raw : List Byte) (d : Desc) : Bool :=
  let zero := (slice raw 0x3C 4).all (· == 0) && (slice raw 0x60 32).all (· == 0)
  let adr := [d.src, d.dst, d.aad, d.ctx, d.tag, d.hout].all (fun x => decide (x < 2 ^ 52))
  zero && adr && decide (fld d.op 15 12 ≤ 9 ∧ d.hash ≠ 3 ∧ d.cipher ≤ 6 ∧ d.comp ≤ 4 ∧ d.flags < 128) &&
    (d.first || d.load) && (d.last || d.save) &&
    (!d.verify || (d.cipher == 5 && d.opens && d.comp == 0 && d.hash == 0)) &&
    !(d.cipher == 4 && d.mparam % 4 == 3) && !(d.comp == 2 && decide (7 < d.mparam / 16)) &&
    (!(d.load || d.save) || d.ctx % 64 == 0)

/-- A used range lies inside the fence of the ring and below the DRAM limit. -/
def sealRange (s : State) (h : Half) (g : SRing) (a n : Nat) : Bool :=
  n == 0 || decide (g.first * 4096 ≤ a ∧ a + n ≤ (g.last + 1) * 4096 ∧ a + n ≤ dramLimit s h)

/-- Check 3. -/
def fenceOk (s : State) (h : Half) (g : SRing) (d : Desc) : Bool :=
  sealRange s h g d.src d.srclen && (d.verify || sealRange s h g d.dst d.dstcap) && sealRange s h g d.aad d.aadlen &&
    (!(d.cipher == 5 && d.last) || sealRange s h g d.tag d.tagBytes) &&
    (!d.last || sealRange s h g d.hout d.hashLen) && (!(d.load || d.save) || sealRange s h g d.ctx 34896)

/-- Check 5: world, function and job ring of the slot match (R373). -/
def slotOwner (k : KSlot) (g : SRing) (r : Nat) : Bool :=
  (k.world == 1) == (g.otype == 2) && k.fn == (if g.otype = 1 then 0x100 + g.owner else 0) && k.ring == r

/-- Check 6: algorithm of the slot fits the mode (R372). -/
def keyFits (cipher alg : Nat) : Bool := if cipher = 6 then alg == 4 || alg == 5 else alg == 1 || alg == 2 || alg == 3

/-- Check 7: lengths and parameters (R360, R372). -/
def lenOk (d : Desc) : Bool :=
  let p := d.mparam % 16
  let unit := 512 * 2 ^ (p % 8)
  (d.srclen != 0 || d.comp == 0) &&
  (match d.cipher with
    | 0 => p == 0
    | 1 => p == 0 && d.srclen % 16 == 0
    | 4 => decide (p < 4)
    | 5 => p == 0 && (slice d.iv 12 4).all (· == 0) &&
           (d.taglen == 0 || d.taglen == 4 || d.taglen == 8 || decide (12 ≤ d.taglen ∧ d.taglen ≤ 16))
    | 6 => decide (p < 8) && d.srclen % unit == 0
    | _ => p == 0) &&
  (d.cipher == 5 || d.taglen == 0) && (d.aadlen == 0 || (d.first && d.cipher == 5)) && (d.comp == 2 || decide (d.mparam < 16))

/-! ### Contexts (R378–R380) -/

/-- Clear form of the context at CTX: none is an access error, the list is empty when a wrapped form does not verify. -/
inductive CtxRead where
  | err (poison : Bool)
  | bad
  | ok (c : List Byte)
deriving DecidableEq, Repr

/-- The per-boot wrapping key of a package: a free function of BOOTID (R380, log 11). -/
def wrapKey (boot : Nat) : List Byte := slice (Config.prim 12 [boot] []) 0 32

def readCtx (s : State) (h : Half) (d : Desc) : CtxRead :=
  match dmaRead s h d.ctx 64 with
  | none => .err false
  | some (_, true) => .err true
  | some (hd, false) =>
    if d.wrap then
      let len := fieldAt hd 0x10 4
      if fieldAt hd 0 2 ≠ 2 ∨ fieldAt hd 4 4 ≠ (lhOf s h).bootId ∨ ¬ (lhOf s h).wrapOn ∨ len < 2048 ∨ 34816 < len then .bad
      else match dmaRead s h (d.ctx + 64) (len + 16) with
      | none => .err false
      | some (_, true) => .err true
      | some (b, false) =>
        let key := wrapKey (fieldAt hd 4 4)
        let iv := slice hd 4 12
        if gcmTag key iv hd (b.take len) = b.drop len then .ok (gcmCrypt key iv (b.take len)) else .bad
    else match dmaRead s h d.ctx 2048 with
    | none => .err false
    | some (_, true) => .err true
    | some (c, false) =>
      let hl := fieldAt c 6 2
      match dmaRead s h (d.ctx + 2048) (min hl 32768) with
      | none => .err false
      | some (_, true) => .err true
      | some (t, false) => .ok (c ++ t)

def ctxVerified (c : List Byte) : Bool := bitOf (fieldAt c 0x59 1) 0

/-- Check 12: the loaded context belongs to the job (R363, R377, R378). -/
def ctxFits (d : Desc) (c : List Byte) : Bool :=
  if d.first ∧ ctxVerified c ∧ d.wrap then d.cipher == 5 && d.opens && fieldAt c 4 2 == d.keyslot
  else if d.first then !d.wrap && (slice c 8 (0x7F8)).all (· == 0)
  else fieldAt c 2 2 % 256 == d.op % 256 && (d.cipher == 0 || fieldAt c 4 2 == d.keyslot)

/-- The checks of R363 in their order: the first failing one as (STATUS, REASON). -/
def sealCheck (s : State) (h : Half) (r : Nat) (raw : List Byte) : Option (Nat × Nat) :=
  let d := descOf raw
  let g := sringOf s h r
  let k := kslotOf s h d.keyslot
  let single := d.first && d.last && decide (d.srclen ≤ 262144)
  let ctx := if d.load then readCtx s h d else .ok []
  let verified : Bool := match ctx with | .ok c => ctxVerified c | _ => true
  if ¬ encOk raw d then some (stBadParam, 0x10)
  else if (d.cipher ≠ 0 ∨ d.verify) ∧ s.cfg.part = .q1600c then some (stCipherAbsent, 0)
  else if ¬ fenceOk s h g d then some (stDenied, 0x18)
  else if d.cipher ≠ 0 ∧ k.st ≠ 1 then some (stDenied, 0x19)
  else if d.cipher ≠ 0 ∧ ¬ slotOwner k g r then some (stDenied, 0x1A)
  else if d.cipher ≠ 0 ∧ ¬ keyFits d.cipher k.alg then some (stDenied, 0x1B)
  else if ¬ lenOk d then some (stBadParam, 0x11)
  else if (d.cipher = 1 ∨ d.cipher = 6) ∧ d.comp ≠ 0 then some (stBadParam, 0x12)
  else if (d.load ∨ d.save) ∧ ¬ d.wrap ∧ (g.otype = 2 ∨ ¬ (d.cipher = 0 ∨ d.cipher = 1 ∨ d.cipher = 2 ∨ d.cipher = 4)) then
    some (stBadParam, 0x14)
  else if d.cipher = 5 ∧ d.opens ∧ d.first ∧ ¬ single ∧ ¬ d.verify ∧
      ¬ (d.load ∧ d.wrap ∧ verified) then some (stBadParam, 0x13)
  else match ctx with
  | .bad => some (stFailed, 0x08)
  | .err p => some (stFailed, if p then 0x05 else 0x06)
  | .ok c => if d.load ∧ ¬ ctxFits d c then some (stBadParam, 0x15) else none

/-! ### The stages (R351, R367, R368, R372, R376, R377) -/

/-- What a stage yields: output, input bytes used, a REASON of failure (0 none), ENDSEEN, MORE. -/
structure Stage where
  out : List Byte
  used : Nat
  reason : Nat
  ended : Bool
  more : Bool
deriving DecidableEq, Repr

/-- Cipher of a job: length-preserving; a function of key, mode, IV or context, and data (log 11). -/
def cipherOf (d : Desc) (key ctx x : List Byte) : List Byte :=
  if d.cipher = 0 then x
  else slice (Config.prim 20 [d.cipher, b2n d.opens, d.mparam % 16, key.length]
    (key ++ (if d.first then d.iv else slice ctx 0x18 0x41) ++ x)) 0 x.length

/-- Compress: LZ-F by R371; the RFC formats depend only on the input, LEVEL, WBITS, the dictionary and the job boundaries (R367,
log 11). The repeat offset of a continued frame stands in the context's private part. -/
def compressOf (d : Desc) (ctx x : List Byte) : List Byte :=
  if d.comp = 0 then x
  else if d.comp = 4 then
    if d.first then lzfEncode d.level true d.last [] 0 1 0 x
    else lzfEncode d.level false d.last (ctx.drop 2048) (fieldAt ctx 8 8) (Config.primN 28 [] (slice ctx 0x130 1744)) (fieldAt ctx 0x5C 4) x
  else Config.prim 21 [d.comp, d.level, d.mparam / 16, b2n d.first, b2n d.last] (ctx ++ x)

/-- Decompress: LZ-F from its start by R370; the RFC formats and a stream continued from a context by the free function,
whose result's number gives bytes used and the kind of end. -/
def decompressOf (d : Desc) (ctx x : List Byte) : Stage :=
  if d.comp = 0 then ⟨x.take d.dstcap, min x.length d.dstcap, 0, false, decide (d.dstcap < x.length)⟩
  else
    let p := [d.comp, b2n d.first, b2n d.last]
    let z : LzOut := if d.comp = 4 ∧ d.first ∧ ¬ d.load then lzfDecode x
      else ⟨Config.primN 22 p (ctx ++ x) % 5, Config.prim 22 p (ctx ++ x), Config.primN 23 p (ctx ++ x) % (x.length + 1)⟩
    if z.st = 2 then ⟨[], 0, 0x02, false, false⟩
    else if z.st = 3 then ⟨[], 0, 0x03, false, false⟩
    else if z.st = 4 then ⟨[], 0, if d.comp = 2 then 0x0A else 0x02, false, false⟩
    else if d.dstcap < z.out.length then
      ⟨z.out.take d.dstcap, Config.primN 24 p (ctx ++ x) % (x.length + 1), 0, false, true⟩
    else if z.st = 0 ∧ d.last then ⟨[], 0, 0x02, false, false⟩
    else ⟨z.out, if z.st = 1 then z.used else x.length, 0, z.st == 1, false⟩

/-- Running checksum of the uncompressed data (R364). -/
def checkOf (d : Desc) (ctx x : List Byte) : Nat :=
  let c0 := if d.first then (if d.comp = 2 then 1 else 0) else fieldAt ctx 0x5C 4
  if d.comp = 2 then adler32 c0 x else if d.comp = 3 then crc32 c0 x else if d.comp = 4 then crc32c c0 x else 0

/-- A CTR job would pass all ones of its counter, or a GCM message its limit (R372). -/
def ctrWrap (d : Desc) (ctx : List Byte) (n : Nat) : Bool :=
  let blk := if d.first then d.iv else slice ctx 0x18 16
  let big := blk.foldl (fun (a : Nat) x => a * 256 + x.toNat) 0
  let w : Nat := if d.mparam % 4 = 0 then 32 else if d.mparam % 4 = 1 then 64 else 128
  let before : Nat := if d.first then 0 else fieldAt ctx 8 8
  (d.cipher == 4 && decide (2 ^ w < big % 2 ^ w + (n + 15) / 16)) || (d.cipher == 5 && decide (2 ^ 36 - 32 < before + n))

/-- Result of a job: STATUS, REASON, CONSUMED, PRODUCED, TAGOK, ENDSEEN, MORE, CHECK, and the writes it makes in order. -/
structure JobOut where
  status : Nat
  reason : Nat
  used : Nat
  made : Nat
  tagok : Bool
  ended : Bool
  more : Bool
  check : Nat
  saved : Bool
  writes : List (Nat × List Byte)
deriving DecidableEq, Repr

def jobFail (status reason : Nat) : JobOut := ⟨status, reason, 0, 0, false, false, false, 0, false, []⟩

/-- The context a job saves: the public fields of R378, the state private to the engine as the free function gives it. -/
def ctxOut (d : Desc) (ctx plain : List Byte) (used check : Nat) (verified ended : Bool) : List Byte :=
  let hist := if d.comp = 0 then [] else
    let all := (if d.first ∧ ¬ d.load then [] else ctx.drop 2048) ++ plain
    all.drop (all.length - 32768)
  let priv := slice (Config.prim 25 [d.op, b2n d.first] (ctx ++ plain)) 0 2048
  let inlen := (if d.first then 0 else fieldAt ctx 8 8) + used
  let aad := (if d.first then 0 else fieldAt ctx 0x10 8) + d.aadlen
  let head := pack [(2, 1), (2, d.op), (2, if d.cipher = 0 then 0 else d.keyslot), (2, hist.length), (8, inlen), (8, aad)]
  let mid := slice priv 0x18 0x41 ++ pack [(1, b2n verified + 2 * b2n ended), (2, 0), (4, check)]
  head ++ mid ++ slice priv 0x60 0xC9 ++ List.replicate 7 0 ++ slice priv 0x130 1744 ++ hist

/-- The bytes written at CTX: clear, or wrapped under the per-boot key with the engine's save counter (R380). -/
def ctxBytes (s : State) (h : Half) (e : Nat) (d : Desc) (c : List Byte) : List Byte :=
  if d.wrap then
    let boot := (lhOf s h).bootId
    let hd := pack [(2, 2), (2, 0), (4, boot), (8, (sengOf s h e).seq), (4, c.length), (44, 0)]
    let ct := gcmCrypt (wrapKey boot) (slice hd 4 12) c
    hd ++ ct ++ gcmTag (wrapKey boot) (slice hd 4 12) hd ct
  else c

/-- Run the stages of a job that passed its checks, on the input, AAD and tag it read. -/
def sealStages (s : State) (h : Half) (e : Nat) (d : Desc) (key ctx x aad tag : List Byte) : JobOut :=
  if ctrWrap d ctx x.length then jobFail stFailed 0x07
  else
    let ct := if d.opens then x else cipherOf d key ctx (compressOf d ctx x)
    let wantTag := (slice (Config.prim 26 [d.keyslot, key.length] (key ++ d.iv ++ (if d.first then aad else slice ctx 0x18 0x41) ++ ct)) 0 16).take d.tagBytes
    let tagged := d.cipher == 5 && d.last
    let tagok := tagged && d.opens && wantTag == tag
    let single := d.first && d.last && !d.load && decide (d.srclen ≤ 262144)
    if d.opens ∧ tagged ∧ ¬ tagok ∧ (single ∨ d.verify) then jobFail stFailed 0x01
    else
      let mid := if d.opens then cipherOf d key ctx x else []
      let st : Stage := if d.verify then ⟨[], x.length, 0, false, false⟩
        else if d.opens then decompressOf d ctx mid
        else ⟨ct, x.length, 0, false, false⟩
      if st.reason ≠ 0 then jobFail stFailed st.reason
      else if ¬ d.opens ∧ d.dstcap < st.out.length then jobFail stFailed 0x04
      else if d.opens ∧ tagged ∧ ¬ tagok then
        { jobFail stFailed 0x01 with made := st.out.length, used := st.used, writes := [(d.dst, st.out)] }
      else
        let plain := if d.opens then st.out else x
        let check := checkOf d ctx plain
        let hin := if d.hpos then st.out else x
        let hst := if d.first then [] else slice ctx 0x60 0xC9
        let hash := if d.hash = 0 ∨ ¬ d.last then [] else slice (Config.prim 27 [d.hash, b2n d.first] (hst ++ hin)) 0 d.hashLen
        let w1 := if st.out = [] then [] else [(d.dst, st.out)]
        let w2 := if tagged ∧ ¬ d.opens then [(d.tag, wantTag)] else []
        let w3 := if hash = [] then [] else [(d.hout, hash)]
        let w4 := if d.save then [(d.ctx, ctxBytes s h e d (ctxOut d ctx plain st.used check (d.verify && tagok) st.ended))] else []
        ⟨stDone, 0, st.used, st.out.length, tagok, st.ended, st.more, check, d.save, w1 ++ w2 ++ w3 ++ w4⟩

/-- Latch the first error of an engine (R385); secure-world jobs latch none (R381). -/
def sealErr (h : Half) (e : Nat) (ring : Nat) (wr : Bool) (pa : Nat) (secure : Bool) (s : State) : State :=
  if secure then s
  else updSeng h e (fun g => if g.errV then { g with errMore := true }
    else { g with errV := true, errW := wr, errRing := ring, errPa := pa / 64 * 64 }) s

/-- Perform the writes of a job; the flag tells the first that failed: 0x06 an address error, 0x05 poison. -/
def jobWrites (h : Half) : List (Nat × List Byte) → State → State × Nat × Nat
  | [], s => (s, 0, 0)
  | (a, d) :: t, s =>
    match dmaWrite s h a d with
    | none => (s, 0x06, a)
    | some (s1, true) => (s1, 0x05, a)
    | some (s1, false) => jobWrites h t s1

/-- Read what a job reads. -/
def jobRead (s : State) (h : Half) (a n : Nat) : List Byte × Nat :=
  if n = 0 then ([], 0)
  else match dmaRead s h a n with
  | none => ([], 0x06)
  | some (d, true) => (d, 0x05)
  | some (d, false) => (d, 0)

/-- Run a job that passed its checks: its result and the state after its writes (R363–R384). -/
def sealRun (h : Half) (e : Nat) (j : SJob) (s : State) : State × JobOut :=
  let d := descOf j.desc
  let sec := (sringOf s h j.ring).otype == 2
  let x := jobRead s h d.src d.srclen
  let aad := jobRead s h d.aad d.aadlen
  let tag := if d.cipher = 5 ∧ d.last ∧ d.opens then jobRead s h d.tag d.tagBytes else ([], 0)
  let ctx := if d.load then (match readCtx s h d with | .ok c => c | _ => []) else List.replicate 2048 0
  let bad := if x.2 ≠ 0 then (x.2, d.src) else if aad.2 ≠ 0 then (aad.2, d.aad) else (tag.2, d.tag)
  if bad.1 ≠ 0 then (sealErr h e j.ring false bad.2 sec s, jobFail stFailed bad.1)
  else
    let key := if d.cipher = 0 then [] else (kslotOf s h d.keyslot).key
    let o := sealStages s h e d key ctx x.1 aad.1 tag.1
    let w := jobWrites h o.writes s
    if w.2.1 ≠ 0 then
      (sealErr h e j.ring true w.2.2 sec w.1, { o with status := stFailed, reason := w.2.1, saved := false })
    else (if o.saved ∧ d.wrap then updSeng h e (fun g => { g with seq := g.seq + 1 }) w.1 else w.1, o)

/-! ### Completion (R364, R366) -/

def sealRecord (d : Desc) (j : SJob) (e : Nat) (o : JobOut) (phase : Bool) : List Byte :=
  pack [(8, d.utag), (4, o.used), (4, o.made), (1, o.status), (1, o.reason),
        (1, b2n phase + 2 * b2n o.tagok + 4 * b2n o.saved + 8 * b2n o.ended + 16 * b2n o.more), (1, e), (4, o.check),
        (2, j.slot), (6, 0)]

/-- Queue pair bound to a ring that an attach function owns (R448). -/
def sealQp (s : State) (h : Half) (r : Nat) : Option Nat :=
  (s.att.qps.find? (fun q => q.1 / 2048 == h.n && q.2.typ == 2 && q.2.bind == r)).map (fun q => q.1)

/-- Write one record into the completion ring of a ring that has room; one that cannot be posted is kept (R366). -/
def sealPost (h : Half) (r : Nat) (d : List Byte) (notify : Bool) (s : State) : State :=
  let g := sringOf s h r
  let d1 := d.set 0x12 (BitVec.ofNat 8 (setFld (fieldAt d 0x12 1) 0 0 (b2n g.phase)))
  let at_ := g.ctail % slots8 g.size
  match dmaWrite s h (g.cbase + at_ * 32) d1 with
  | some (s1, false) =>
    let t := (at_ + 1) % slots8 g.size
    let s2 := updSring h r (fun x => { x with ctail := t, phase := if t = 0 then !x.phase else x.phase }) s1
    if notify then ringIrq g.imode g.vector g.target g.otype g.owner s2 else s2
  | _ => sealRingStop h r (updSring h r (fun x => { x with held := (d, notify) :: x.held }) s)

def cringFull (g : SRing) : Bool := (g.ctail + 1) % slots8 g.size == g.chead % slots8 g.size

/-- Post or hold a completion; a ring of an attach function completes on its queue pair. -/
def sealComplete (h : Half) (r : Nat) (d : List Byte) (notify : Bool) (s : State) : State :=
  let g := sringOf s h r
  if g.otype = 1 then
    (if 0 < g.stale then updSring h r (fun x => { x with stale := x.stale - 1 }) s
     else match sealQp s h r with | some q => qpPost q d s | none => s)
  else if cringFull g ∨ g.held ≠ [] ∨ ¬ g.en then updSring h r (fun x => { x with held := x.held ++ [(d, notify)] }) s
  else sealPost h r d notify s

/-- SEAL_RING_CHEAD written: held records go out while there is room (R366). -/
def sealDrainHeld (h : Half) (r : Nat) : Nat → State → State
  | 0, s => s
  | n + 1, s =>
    let g := sringOf s h r
    match g.held with
    | [] => s
    | (d, nt) :: t =>
      if cringFull g ∨ ¬ g.en then s
      else sealDrainHeld h r n (sealPost h r d nt (updSring h r (fun x => { x with held := t }) s))

/-- EN set: the ring is bound (R357), and records it held go out. -/
def runSealEnable (h : Half) (r : Nat) (s : State) : State :=
  let g := sringOf s h r
  if ¬ hubPresent s h then s
  else if g.en ∧ g.bound ≠ 15 then sealFetch h r 4 s
  else
    let s1 := updSring h r (fun x => { x with en := true, bound := bindEngine s h g.eng }) s
    sealFetch h r 4 (sealDrainHeld h r (sringOf s1 h r).held.length s1)

def runSealChead (h : Half) (r v : Nat) (s : State) : State :=
  let s1 := if hubPresent s h then updSring h r (fun g => { g with chead := v % slots8 g.size }) s else s
  sealDrainHeld h r (sringOf s1 h r).held.length s1

/-- A ring with ENG 0xF whose engine went away is bound again (R357). -/
def rebind (h : Half) (r : Nat) (s : State) : State :=
  let g := sringOf s h r
  if g.en ∧ 8 ≤ g.eng ∧ ¬ engineUp s h g.bound then updSring h r (fun x => { x with bound := bindEngine s h 15 }) s else s

/-- SEAL_JOB_START: the engine takes the next job of its rings in round-robin order and checks it (R358, R363). -/
def runSealStart (h : Half) (e : Nat) (s0 : State) : State :=
  let s := (s0.units.rings.filter (fun x => x.1 / 256 == h.n)).foldl (fun t x => rebind h (x.1 % 256) t) s0
  let g := sengOf s h e
  if g.cur.isSome ∨ ¬ engineUp s h e ∨ closing s (sealUnit h e) ∨ draining s h then s
  else
    let rs := (boundRings s h e).filter (fun r =>
      (sringOf s h r).fetched != [] && (sringOf s h r).held.isEmpty && !((sringOf s h r).otype != 1 && cringFull (sringOf s h r)))
    let ord := rs.filter (fun r => decide (g.lastRing < r)) ++ rs.filter (fun r => decide (r ≤ g.lastRing))
    match ord with
    | [] => s
    | r :: _ =>
      match (sringOf s h r).fetched with
      | [] => s
      | (slot, d) :: t =>
        let sec := (sringOf s h r).otype == 2
        let s1 := updSring h r (fun x => { x with fetched := t }) s
        let s2 := if sec != g.secure then bumpFor sec (sealUnit h e) 0x404 1 s1 else s1
        let s3 := updSeng h e (fun x => { x with cur := some ⟨r, slot, d, sealCheck s h r d⟩, lastRing := r, secure := sec }) s2
        sealFetch h r 4 s3

/-- SEAL_JOB_COMPLETE: the job ends; an uncorrectable array error ends it ENGINE_ERROR and is logged (R366, R384). -/
def runSealComplete (h : Half) (e : Nat) (arrayErr : Bool) (s : State) : State :=
  match (sengOf s h e).cur with
  | none => s
  | some j =>
    let d := descOf j.desc
    let sec := (sringOf s h j.ring).otype == 2
    let r : State × JobOut := match j.verdict with
      | some (st, rs) => (if st = stFailed ∧ rs ≠ 8 then sealErr h e j.ring false d.ctx sec s else s, jobFail st rs)
      | none =>
        if arrayErr then (logNow h (rpt (sealUnit h e) 2 clsUC 0x0701 e) s, jobFail stFailed 0x0B) else sealRun h e j s
    let s1 := updSeng h e (fun g => { g with cur := none }) r.1
    let s2 := bumpFor sec (sealUnit h e) 0x401 1 (bumpFor sec (sealUnit h e) 0x402 (r.2.used / 64) (bumpFor sec (sealUnit h e) 0x403 (r.2.made / 64) s1))
    sealComplete h j.ring (sealRecord d j e r.2 false) (bitOf d.flags 6) s2

/-- Bytes a job that ends early had written to its output: how many is open, none when it failed a check or only
verifies, and what they are (R382, R383, log 3). -/
def earlyBytes (s : State) (j : SJob) : List Byte :=
  let d := descOf j.desc
  let n := if j.verdict.isSome ∨ d.verify then 0 else freeVal s % (d.dstcap + 1)
  (upTo n).map (fun i => BitVec.ofNat 8 (Config.free (s.nonce + 1 + i)))

/-- Put those bytes where the output goes; the free values are used up. -/
def earlyWrite (h : Half) (j : SJob) (s : State) : State :=
  let b := earlyBytes s j
  let s1 := match dmaWrite s h (descOf j.desc).dst b with
    | some (t, _) => t
    | none => s
  { s1 with nonce := s.nonce + 1 + b.length }

/-- A job ends early: preempted by power, or at the drain limit. PRODUCED counts the bytes written by then (R382, R383). -/
def sealEndEarly (h : Half) (e status reason : Nat) (s : State) : State :=
  match (sengOf s h e).cur with
  | none => s
  | some j =>
    let d := descOf j.desc
    let o := { jobFail status reason with made := (earlyBytes s j).length }
    sealComplete h j.ring (sealRecord d j e o false) (bitOf d.flags 6) (updSeng h e (fun g => { g with cur := none }) (earlyWrite h j s))

/-- SEAL_POWER_PREEMPT: a normal-world job still running 2 ms after a power request (R382). -/
def runSealPreempt (h : Half) (e : Nat) (s : State) : State :=
  if closing s (sealUnit h e) ∧ ¬ (sengOf s h e).secure then sealEndEarly h e stPreempted 0 s else s

/-- SEAL_ENG_ERR.V written 1 (R385). -/
def runSealErrClear (h : Half) (e : Nat) (s : State) : State :=
  updSeng h e (fun g => { g with errV := false, errMore := false }) s

/-- SEAL_RING_STOP: a fetch or a post got an address error or poison (R366). -/
def runSealRingStop (h : Half) (r : Nat) (s : State) : State := if (sringOf s h r).en then sealRingStop h r s else s

/-- A job fetched and not completed uses the slot (R374). -/
def slotInJob (s : State) (h : Half) (k : Nat) : Bool :=
  let uses := fun (d : List Byte) => (descOf d).cipher != 0 && (descOf d).keyslot == k
  s.units.rings.any (fun x => x.1 / 256 == h.n && x.2.fetched.any (fun f => uses f.2)) ||
    (upTo 8).any (fun e => match (sengOf s h e).cur with | some j => uses j.desc | none => false)

end Sys2Proof.Machine
end

