-- ==== Sys2Proof/Machine/LedgerRun.lean ====
section
/-! DEFINITION. The Quimbe ledger engines: streams, frames, the chain, completions, checkpoints and spooling (R399–R433). -/
namespace Sys2Proof.Machine

def ldgOf (s : State) (h : Half) : Ldg := s.units.ldg.get h
def updLdg (h : Half) (f : Ldg → Ldg) (s : State) : State := updUnits (fun u => { u with ldg := u.ldg.set h (f (u.ldg.get h)) }) s
def ldgUnit (h : Half) : Nat := srcOf h 0xFF 6 0

/-- The hub that serves a stream: its own, or the one that adopted the lost hub's streams (R399, R431). -/
def strHub (s : State) (id : Nat) : Half :=
  let g := halfOf (id / 65536 % 2)
  if (cssOf s g.other).adopted then g.other else g

def streamOf (s : State) (id : Nat) : Option Stream := ((ldgOf s (strHub s id)).streams.find? (fun x => x.1 == id)).map (fun x => x.2)
def headOf (s : State) (id : Nat) : Head := tget Head.free (ldgOf s (strHub s id)).heads id
def updStream (id : Nat) (f : Stream → Stream) (s : State) : State :=
  updLdg (strHub s id) (fun l => { l with streams := l.streams.map (fun x => if x.1 = id then (id, f x.2) else x) }) s
def setHead (id : Nat) (h : Head) (s : State) : State :=
  updLdg (strHub s id) (fun l => { l with heads := tset Head.free l.heads id h }) s

/-- First sector of a failing read that is poisoned or answers with an address error (R433). -/
def badSector (s : State) (h : Half) (pa n : Nat) : Nat :=
  let b := pa / 64 * 64
  match (upTo ((pa - b + n + 63) / 64)).find? (fun i => match dmaRead s h (b + i * 64) 64 with | some (_, false) => false | _ => true) with
  | some i => b + i * 64
  | none => pa

/-- Latch the first error (R433). -/
def ldgErr (id cause pa : Nat) (wr : Bool) (s : State) : State :=
  updLdg (strHub s id) (fun l => if l.errV then { l with errMore := true }
    else { l with errV := true, errW := wr, errCause := cause, errPa := pa / 64 * 64, errStream := id }) s

def runLdgErrClear (h : Half) (s : State) : State := updLdg h (fun l => { l with errV := false, errMore := false }) s

/-! ### The ring (R404–R406) -/

def Stream.rsize (t : Stream) : Nat := t.size - 65536

/-- Where the consumer stands: the spool position while a spool is set, else RHEAD as it stands in memory. -/
def consumerOf (s : State) (id : Nat) (t : Stream) : Nat :=
  if t.spool.isSome then t.spoolPos
  else match dmaRead s (strHub s id) (t.base + 8) 8 with
  | some (d, _) => ofBytes d % (t.rsize + 1)
  | none => t.rtail

/-- Bytes from RTAIL to the consumer; the whole area when they meet. -/
def ringRoom (s : State) (id : Nat) (t : Stream) : Nat :=
  let c := consumerOf s id t
  if c % t.rsize = t.rtail % t.rsize then t.rsize else (c + t.rsize - t.rtail) % t.rsize

/-- PAD bytes before a frame of `n` bytes, and whether it finds room (R406). -/
def padFor (t : Stream) (n : Nat) : Nat := if t.rsize < t.rtail + n then t.rsize - t.rtail else 0
def frameFits (s : State) (id : Nat) (t : Stream) (n : Nat) : Bool := decide (padFor t n + n + 64 ≤ ringRoom s id t)

/-! ### Frames (R409–R413) -/

/-- The 48-byte header (R409). -/
def frameHdr (typ flags id openId seq ts plen blen : Nat) : List Byte :=
  [0x51, 0x4C, 0x52, 0x31] ++ pack [(1, typ), (1, flags), (2, 0), (4, id), (4, openId), (8, seq), (8, ts), (4, plen), (4, blen), (8, 0)]

/-- Header, body, trailer and zeros up to a multiple of 64. -/
def frameBytes (hdr body trailer : List Byte) : List Byte :=
  let d := hdr ++ body ++ trailer
  d ++ List.replicate ((64 - d.length % 64) % 64) 0

def padBytes (id openId n : Nat) : List Byte :=
  let d := frameHdr 6 0 id openId 0 0 0 (n - 48)
  d ++ List.replicate (n - 48) 0

/-- The chain step (R413). -/
def chainStep (old hdr body : List Byte) : List Byte :=
  sha384 ([0x51, 0x4C, 0x43, 0x31] ++ slice old 0 48 ++ hdr ++ sha384 body)

/-- Write bytes for the engine; a failure is latched. -/
def ldgWrite (id pa : Nat) (d : List Byte) (s : State) : State × Bool :=
  match dmaWrite s (strHub s id) pa d with
  | none => (ldgErr id 0 (badSector s (strHub s id) pa d.length) true s, false)
  | some (s1, true) => (ldgErr id 1 pa true s1, false)
  | some (s1, false) => (s1, true)

/-- Where the frames of a stream's ring begin (R404). -/
def ringArea (t : Stream) : Nat := t.base + 0x10000

/-- Write a frame of stream `t` behind the PAD it needs; answers its offset, none when a write fails (R406). -/
def putFrame (id : Nat) (t : Stream) (d : List Byte) (s : State) : State × Option Nat :=
  if padFor t d.length = 0 then
    match ldgWrite id (ringArea t + t.rtail) d s with
    | (s1, true) => (s1, some t.rtail)
    | (s1, false) => (s1, none)
  else match ldgWrite id (ringArea t + t.rtail) (padBytes id t.openId (padFor t d.length)) s with
    | (s1, false) => (s1, none)
    | (s1, true) => match ldgWrite id (ringArea t) d s1 with
      | (s2, true) => (s2, some 0)
      | (s2, false) => (s2, none)

/-- Advance RTAIL past a frame placed at an offset, in the stream and in its header (R408 step 7). Frames consumed by RHEAD that
lay there are forgotten. -/
def noteFrame (id seq at_ n : Nat) (t : Stream) (s : State) : State :=
  let p := padFor t n
  let nt := (at_ + n) % t.rsize
  let keep := fun (f : Nat × Nat × Nat) => decide ((f.1 + f.2.1 ≤ at_ ∨ at_ + n ≤ f.1) ∧ (p = 0 ∨ f.1 + f.2.1 ≤ t.rtail))
  let fs := (if p = 0 then [] else [(t.rtail, p, (headOf s id).seq)]) ++ [(at_, n, seq)]
  (ldgWrite id t.base (toBytes 8 nt) (updStream id (fun x => { x with rtail := nt, frames := x.frames.filter keep ++ fs }) s)).1

/-- Place a frame at RTAIL behind the PAD it needs and advance RTAIL (R406, R408 step 7). Answers its offset. -/
def placeFrame (id seq : Nat) (d : List Byte) (s : State) : State × Option Nat :=
  match streamOf s id with
  | none => (s, none)
  | some t =>
    if ¬ frameFits s id t d.length then (s, none)
    else match putFrame id t d s with
      | (s1, none) => (s1, none)
      | (s1, some at_) => (noteFrame id seq at_ d.length t s1, some at_)

/-! ### Completions (R417–R419) -/

def compBytes (id : Nat) (e : LComp) (phase : Bool) : List Byte :=
  pack [(8, e.seq), (4, id), (2, e.tag), (1, e.status), (1, b2n phase + 2 * b2n e.comp + 4 * b2n e.enc), (8, e.ts), (4, e.off), (4, e.flen)]

def queueComp (id : Nat) (e : LComp) (s : State) : State := updStream id (fun t => { t with held := t.held ++ [e] }) s

/-- LEDGER_COMPLETION_POST: the oldest entry of a stream, when its completion ring has room (R419). -/
def runLedgerPost (id : Nat) (s : State) : State :=
  match streamOf s id with
  | none => s
  | some t =>
    match t.held with
    | [] => s
    | e :: rest =>
      let chead := match dmaRead s (strHub s id) (t.base + 0x14) 4 with | some (d, _) => ofBytes d % 1024 | none => 0
      if (t.ctail + 1) % 1024 = chead then s
      else
        let r := ldgWrite id (t.base + 0x1000 + t.ctail * 32) (compBytes id e t.phase) s
        if ¬ r.2 then r.1
        else
          let n := (t.ctail + 1) % 1024
          let s1 := updStream id (fun x => { x with held := rest, ctail := n, phase := if n = 0 then !x.phase else x.phase }) r.1
          let s2 := (ldgWrite id (t.base + 0x10) (toBytes 4 n) s1).1
          if e.notify then ringIrq (fld t.intctl 29 28) (fld t.intctl 27 20) (fld t.intctl 10 0) t.otype t.owner s2 else s2

/-! ### Checkpoint requests (R420) -/

/-- A stream holds at most one request. -/
def askCkpt (id cause : Nat) (s : State) : State :=
  match streamOf s id with
  | none => s
  | some t =>
    if t.ckpt.isSome then s
    else updLdg (strHub s id) (fun l => { l with sigq := l.sigq ++ [id] }) (updStream id (fun x => { x with ckpt := some cause }) s)

/-- CHECKPOINT_TIMER: T ms since the last checkpoint with frames chained in that time (R420). -/
def runCkptTimer (id : Nat) (s : State) : State :=
  match streamOf s id with
  | none => s
  | some t => if 0 < t.since then askCkpt id 2 s else s

/-! ### Appending (R407, R408, R112, R113) -/

/-- A record submitted to a stream its requester may append to: result code of R113, sequence number, next state. -/
def ldgAppend (id addr len tag flags : Nat) (s : State) : Nat × Nat × State :=
  let h := strHub s id
  match streamOf s id with
  | none => (3, 0, s)
  | some t =>
    if t.closing ∨ ¬ readyBit s h rbLedger then (3, 0, s)
    else if len = 0 ∨ 65536 < len ∨ 4 ≤ flags ∨ 0x100000000000 < addr + len then (1, 0, s)
    else if draining s h ∨ 64 ≤ t.appends.length ∨
        16384 ≤ (ldgOf s h).streams.foldl (fun (n : Nat) x => n + x.2.appends.length) 0 then (2, 0, s)
    else
      let a : Append := ⟨t.nextSeq, addr, len, tag, bitOf flags 0, bitOf flags 1, false, [], [], 0⟩
      (0, t.nextSeq, updStream id (fun x => { x with appends := x.appends ++ [a], nextSeq := x.nextSeq + 1 }) s)

/-- A record body under the stream's policy (R412): body, FLAGS. COMP makes one LZ-F frame with CSZ, kept when it is shorter. -/
def sealBody (id : Nat) (t : Stream) (a : Append) (ts : Nat) (x : List Byte) : List Byte × Nat :=
  let lvl := if fld t.policy 27 24 = 0 then 6 else fld t.policy 27 24
  let z := lzfEncode lvl true true [] 0 1 0 x
  let comp := bitOf t.policy 29 && decide (z.length < a.len)
  let y := if comp then z else x
  let enc := bitOf t.policy 30
  let fl := b2n comp + 2 * b2n enc
  if enc then
    let key := t.encKey
    let iv := pack [(4, t.openId), (8, a.seq)]
    let hdr := frameHdr 1 fl id t.openId a.seq ts a.len (y.length + 16)
    let ct := gcmCrypt key iv y
    (ct ++ gcmTag key iv hdr ct, fl)
  else (y, fl)

/-- APPEND_FORMAT: steps 2 to 5 for the oldest append not yet framed; a failed read or seal job makes a VOID (R408). -/
def runAppendFormat (id : Nat) (sealFail : Bool) (s : State) : State :=
  match streamOf s id with
  | none => s
  | some t =>
    let h := strHub s id
    match t.appends.find? (fun a => !a.framed) with
    | none => s
    | some a =>
      let ts := max (s.st64.get h).toNat (t.prevTs + 1)
      let put := fun (hdr body : List Byte) (cause : Nat) (u : State) =>
        updStream id (fun x => { x with prevTs := ts, appends := x.appends.map (fun y =>
          if y.seq = a.seq then { y with framed := true, hdr := hdr, body := body, cause := cause } else y) }) u
      let void := fun (cause : Nat) (u : State) =>
        put (frameHdr 4 0 id t.openId a.seq ts 8 8) (pack [(1, cause), (1, 0), (2, a.tag), (4, a.len)]) cause u
      match dmaRead s h a.addr a.len with
      | none => void 1 (ldgErr id 0 (badSector s h a.addr a.len) false s)
      | some (_, true) => void 1 (ldgErr id 1 (badSector s h a.addr a.len) false s)
      | some (x, false) =>
        if sealFail ∧ (bitOf t.policy 29 ∨ bitOf t.policy 30) then void 2 (ldgErr id 2 0 false s)
        else
          let b := sealBody id t a ts x
          put (frameHdr 1 b.2 id t.openId a.seq ts a.len b.1.length) b.1 0 s

/-- Chain one frame: new head, the frame with its trailer in the ring (R408 steps 6 to 8). None when there is no room. -/
def chainFrame (id seq ts : Nat) (hdr body : List Byte) (s : State) : State × Option (Nat × Nat) :=
  let ch := chainStep (headOf s id).chain hdr body
  let d := frameBytes hdr body ch
  match placeFrame id seq d s with
  | (s1, none) => (s1, none)
  | (s1, some off) =>
    (bump (ldgUnit (strHub s id)) 0x501 1 (updStream id (fun t => { t with since := t.since + 1 }) (setHead id ⟨ch, seq, ts⟩ s1)),
     some (off, d.length))

/-- A close whose appends are all chained asks for its checkpoint (R422). -/
def closeCheck (id : Nat) (s : State) : State :=
  match streamOf s id with
  | none => s
  | some t => if t.ending ∧ t.appends = [] then askCkpt id 4 s else s

/-- What APPENDED and VOID entries ask for DURABLE (R424, R425). -/
def durableWant (id : Nat) (e : LComp) (s : State) : State :=
  match streamOf s id with
  | none => s
  | some t =>
    if t.spool.isNone ∨ t.spoolFailed then queueComp id { e with status := 0x12 } s
    else updStream id (fun x => { x with want := x.want ++ [e] }) s

/-- APPEND_CHAIN: the oldest append is chained, written and completed, once framed and with no completion held back
(R408, R419). -/
def runAppendChain (id : Nat) (s : State) : State :=
  match streamOf s id with
  | none => s
  | some t =>
    match t.appends with
    | [] => s
    | a :: rest =>
      if ¬ a.framed ∨ t.held ≠ [] then s
      else
        let ts := fieldAt a.hdr 0x18 8
        match chainFrame id a.seq ts a.hdr a.body s with
        | (s1, none) => s1
        | (s1, some (off, n)) =>
          let fl := fieldAt a.hdr 5 1
          let e : LComp := ⟨a.seq, a.tag, if a.cause = 1 then 0x10 else if a.cause = 2 then 0x11 else 0, bitOf fl 0, bitOf fl 1, ts, off, n, a.notify⟩
          let s2 := queueComp id e (updStream id (fun x => { x with appends := rest }) s1)
          let s3 := if a.durable then durableWant id { e with status := 1 } s2 else s2
          let s4 := if a.cause = 0 then s3 else bump (ldgUnit (strHub s id)) 0x502 1 s3
          let s5 := if t.n ≤ t.since + 1 then askCkpt id 1 s4 else s4
          closeCheck id s5

/-- RING_SPACE_WAIT: RHEAD or the spool has advanced, and the append that waited goes on (R406). -/
def runRingSpace (id : Nat) (s : State) : State := runAppendChain id s

/-! ### Checkpoints (R420–R422) -/

/-- The body of a checkpoint up to its signature (R421). -/
def ckptBody (s : State) (h : Half) (id : Nat) (t : Stream) (cause : Nat) : List Byte :=
  let hd := headOf s id
  [0x51, 0x4C, 0x53, 0x31] ++ pack [(4, id), (4, t.openId), (2, cause), (1, b2n (lhOf s h).att), (1, 0), (8, hd.seq), (8, hd.lts),
    (8, (s.st64.get h).toNat), (8, (lhOf s h).utc)] ++ slice hd.chain 0 48 ++ slice t.keyId 0 48

/-- The stream leaves OPEN: its control entry is dropped (R400, R422). -/
def dropStream (id : Nat) (s : State) : State :=
  updLdg (strHub s id) (fun l => { l with streams := l.streams.filter (fun x => x.1 ≠ id), sigq := l.sigq.filter (fun x => x ≠ id) }) s

/-- CHECKPOINT_SIGN: the Lighthouse signs the oldest request and the CHECKPOINT frame is written; LDG_CHECKPOINT and a
close that waited for it end (R420–R422, R504). -/
def runCkptSign (h : Half) (s : State) : State :=
  match (ldgOf s h).sigq with
  | [] => s
  | id :: q =>
    match streamOf s id with
    | none => updLdg h (fun l => { l with sigq := q }) s
    | some t =>
      let hd := headOf s id
      let body0 := ckptBody s h id t (t.ckpt.getD 0)
      let body := body0 ++ ecdsaSign t.sigKey body0 (freeVal s)
      let cts := (s.st64.get h).toNat
      let d := frameBytes (frameHdr 5 0 id t.openId hd.seq cts 240 240) body (slice hd.chain 0 48)
      match placeFrame id hd.seq d (drawn s) with
      | (s1, none) => s1
      | (s1, some off) =>
        let s2 := updStream id (fun x => { x with ckpt := none, since := 0, ckptCmd := none }) (updLdg h (fun l => { l with sigq := q }) s1)
        let s3 := queueComp id ⟨hd.seq, 0, 2, false, false, cts, off, d.length, false⟩ s2
        let s4 := bump (ldgUnit h) 0x503 1 (finishOpt t.ckptCmd stDone 8 hd.seq s3)
        if t.ending ∧ t.appends = [] then finishOpt t.closeCmd stDone 8 hd.seq (dropStream id s4) else s4

/-- CLOSE_TIMEOUT: the close ends TIMEOUT; the stream stays OPEN without accepting appends, until a later close (R422). -/
def runCloseTimeout (id : Nat) (s : State) : State :=
  match streamOf s id with
  | none => s
  | some t => finishOpt t.closeCmd stTimeout 0 0 (updStream id (fun x => { x with ending := false, closeCmd := none }) s)

/-- Start of a close (R422). -/
def closeStream (id : Nat) (g : Option Prog) (s : State) : State :=
  closeCheck id (updStream id (fun t => { t with closing := true, ending := true, closeCmd := g }) s)

/-! ### Opening (R401–R406, R411) -/

/-- Open a stream: a GENESIS or RESUME frame, then a checkpoint request with cause OPEN. Answers the first sequence
number and the stamp of the frame. -/
def openStream (id slot policy n tms base size otype owner : Nat) (s : State) : State × Nat × Nat :=
  let h := strHub s id
  let hd := headOf s id
  let fresh := bitOf policy 31 || hd == Head.free
  let key := kslotOf s h slot
  let kid := sha384 (ecPub key.key)
  let hdr0 := match dmaRead s h base 64 with | some (d, _) => d | none => List.replicate 64 0
  let seq := if fresh then 0 else hd.seq + 1
  let prev := if fresh then 0 else hd.lts
  let ts := max (s.st64.get h).toNat (hd.lts + 1)
  let oid := (ldgOf s h).openCtr
  let t : Stream :=
    { base := base, size := size, policy := policy, otype := otype, owner := owner, n := n, t := tms, sigSlot := slot,
      openId := oid, keyId := kid, sigKey := key.key, encKey := if bitOf policy 30 then (kslotOf s h (fld policy 11 0)).key else [], rtail := 0, ctail := 0, phase := true, intctl := fieldAt hdr0 0x18 4,
      spShift := fieldAt hdr0 0x1C 4 % 4, spLba := fieldAt hdr0 0x20 8, prevTs := ts,
      nextSeq := seq + 1, appends := [], held := [], since := 0, ckpt := none, closing := false, ending := false, closeCmd := none,
      ckptCmd := none, spool := none, spoolNext := none, spoolFailed := false, spoolPos := 0, spoolTo := 0, dseq := 0,
      ops := [], want := [], frames := [] }
  let s1 := updLdg h (fun l => { l with openCtr := (l.openCtr + 1) % 2 ^ 32, streams := l.streams ++ [(id, t)] }) s
  let s2 := if fresh then setHead id ⟨List.replicate 48 0, 0, hd.lts⟩ s1 else s1
  let body := slice kid 0 48 ++ pack [(4, policy), (4, n), (4, tms), (2, slot), (2, 0), (8, if fresh then 0 else hd.seq), (8, prev)]
  let r := chainFrame id seq ts (frameHdr (if fresh then 2 else 3) 0 id oid seq ts 80 80) body s2
  (askCkpt id 6 (wakeUnit (ldgUnit h) r.1), seq + 1, ts)

/-! ### Spooling (R423–R425, R430) -/

/-- Bind or unbind a spool; it takes effect after the operations in progress (R423). Frames from RHEAD on are copied
first when none was bound before; DURABLE still asked for of a spool that is unbound is answered SPOOL_FAILED (R418). -/
def applySpool (id : Nat) (s : State) : State :=
  match streamOf s id with
  | none => s
  | some t =>
    match t.spoolNext with
    | none => s
    | some b =>
      if t.ops ≠ [] then s
      else
        let from_ := if t.spool.isSome ∨ t.spoolFailed then t.spoolPos else consumerOf s id t
        let here := fun (f : Nat × Nat × Nat) => decide (if t.rtail < from_ then from_ < f.1 + f.2.1 ∨ f.1 < t.rtail else from_ < f.1 + f.2.1 ∧ f.1 < t.rtail)
        let s1 := updStream id (fun x => { x with spool := b, spoolNext := none, spoolFailed := false, spoolPos := from_, spoolTo := from_,
                                                  frames := x.frames.filter here, want := if b.isNone then [] else x.want }) s
        if b.isNone then t.want.foldl (fun u e => queueComp id { e with status := 0x12 } u) s1 else s1

/-- The channel program of a spool operation (R306, R424): LOCATE, SEND with a segment list, FLUSH, all IDEM. -/
def spoolProgram (prog lba bytes area first : Nat) : List Byte :=
  let cmd := fun (a n k l m : Nat) => pack [(8, a), (4, n), (1, k), (1, l), (2, m)]
  let segs := (upTo ((bytes + 4095) / 4096)).flatMap (fun i =>
    pack [(8, area + first + i * 4096), (4, min 4096 (bytes - i * 4096)), (4, 0)])
  cmd (prog + 0x30) 16 0x12 0x11 1 ++ cmd (prog + 0x40) bytes 0x10 0x31 0 ++ cmd 0 0 0x12 0x10 2 ++ pack [(8, 0), (8, lba)] ++ segs

/-- SPOOL_START: one operation over the LBAs from the first frame not yet spooled up to RTAIL (R424). -/
def runSpoolStart (id : Nat) (s : State) : State :=
  match streamOf s id with
  | none => s
  | some t =>
    match t.spool with
    | none => s
    | some sub =>
      if t.spoolFailed ∨ 2 ≤ t.ops.length ∨ t.spoolTo = t.rtail ∨ t.spoolNext.isSome then s
      else
        let lba := 512 * 2 ^ t.spShift
        let first := t.spoolTo / lba * lba
        let stop := if t.rtail < t.spoolTo then t.rsize else (t.rtail + lba - 1) / lba * lba
        let upto := min stop (first + 2 ^ 20)
        let to_ := if upto = t.rsize then 0 else if t.rtail < t.spoolTo ∨ upto < stop then upto else t.rtail
        let left := t.frames.drop (t.ops.foldl (fun (n : Nat) o => n + o.n) 0)
        let cov := left.filter (fun f => decide (t.spoolTo < f.1 + f.2.1 ∧ f.1 + f.2.1 ≤ upto))
        let firstSeq := match left with | f :: _ => f.2.2 | [] => t.dseq + 1
        let lastSeq := cov.foldl (fun (n : Nat) f => max n f.2.2) t.dseq
        let h := strHub s id
        let prog := t.base + 0x9000 + (if t.ops = [] then 0 else 0x3800)
        let r := ldgWrite id prog (spoolProgram prog (t.spLba + first / lba) (upto - first) (t.base + 0x10000) first) s
        if ¬ r.2 then r.1
        else
          let n := (cssOf r.1 h).opCtr
          let q := cssStart h (id / 65536 * 2048 + sub % 2048) prog (id % 65536 * 2 ^ 48 + firstSeq % 2 ^ 48) false 0 true r.1
          if q.1 ≥ 2 then q.2.2
          else
            let i := match (cssOf q.2.2 h).ift.find? (fun e => e.2.opno == n && e.2.otype == 2 && e.2.st != 0) with | some e => e.1 | none => 0
            updStream id (fun x => { x with ops := x.ops ++ [⟨i, to_, lastSeq, cov.length⟩], spoolTo := to_ }) q.2.2

/-- A spool that failed: every DURABLE asked for is answered SPOOL_FAILED (R425). -/
def failSpool (id : Nat) (s : State) : State :=
  match streamOf s id with
  | none => s
  | some t =>
    let s1 := ldgErr id 3 0 false (updStream id (fun x => { x with spoolFailed := true, want := [], ops := x.ops.drop 1, spoolTo := x.spoolPos }) s)
    t.want.foldl (fun u e => queueComp id { e with status := 0x12 } u) s1

/-- A spool operation ended well: DSEQ and the spool position advance, DURABLE is posted (R424). -/
def spoolDone (id : Nat) (o : SpoolOp) (s : State) : State :=
  match streamOf s id with
  | none => s
  | some t =>
    let done := t.want.filter (fun e => decide (e.seq ≤ o.seq))
    let s1 := updStream id (fun x => { x with dseq := max x.dseq o.seq, spoolPos := o.to_, ops := x.ops.drop 1,
                                              want := x.want.filter (fun e => decide (o.seq < e.seq)),
                                              frames := x.frames.drop o.n }) s
    let s2 := (ldgWrite id (t.base + 0x30) (toBytes 8 (max t.dseq o.seq)) s1).1
    bump (ldgUnit (strHub s id)) 0x505 1 (done.foldl (fun u e => queueComp id { e with status := 1 } u) s2)

/-- Stream of a spool entry: the hub of its subchannel and TAG bits 63:48 (R424). -/
def spoolStream (e : Ift) : Nat := e.sub / 2048 * 65536 + e.tag / 2 ^ 48

/-- The spool entries of a hub that were interrupted, of one stream (R430). -/
def lostSpool (s : State) (h : Half) (id : Nat) : List (Nat × Ift) :=
  (cssOf s h).ift.filter (fun x => x.2.otype == 2 && x.2.st == 10 && spoolStream x.2 == id)

/-- The interrupted spool entries of a stream are consumed: one CE entry names the first SEQ they held (R430). -/
def loseSpool (h : Half) (id : Nat) (s : State) : State :=
  let es := lostSpool s h id
  let low := es.foldl (fun (n : Nat) x => min n (x.2.tag % 2 ^ 48)) (2 ^ 48)
  logNow h (rpt (ldgUnit h) 2 clsCE 0x0603 (res [(4, id), (8, low)])) (es.foldl (fun u x => updIft h x.1 (fun _ => Ift.free) u) s)

/-- SPOOL_FINAL_STATUS: the engine consumes the status of a spool entry and the entry is FREE (R298, R338, R424, R425); the ranges of
entries interrupted by a half's loss are spooled again for an adopted stream, from the spool position (R431), and those interrupted by
HOLD are logged as lost (R430). -/
def runSpoolStatus (h : Half) (i : Nat) (s : State) : State :=
  let e := iftOf s h i
  let id := spoolStream e
  if e.otype ≠ 2 then s
  else if e.st = 10 then
    if e.halfLoss ∧ strHub s id ≠ halfOf (id / 65536 % 2) then updIft h i (fun _ => Ift.free) s else loseSpool h id s
  else if e.st ≠ 6 then s
  else
    match streamOf s id with
    | none => updIft h i (fun _ => Ift.free) s
    | some t =>
      match t.ops with
      | [] => updIft h i (fun _ => Ift.free) s
      | o :: _ =>
        if o.ift ≠ i then s
        else
          let s1 := updIft h i (fun _ => Ift.free) s
          applySpool id (if t.spoolFailed then updStream id (fun x => { x with ops := x.ops.drop 1 }) s1
            else if e.fstat = 0 ∨ e.fstat = 1 then spoolDone id o s1 else failSpool id s1)

/-! ### HOLD, DRAIN and half loss (R429–R431) -/

/-- OPEN streams become CLOSED: control entries do not survive HOLD (R400, R430). -/
def ldgHold (h : Half) (s : State) : State := updLdg h (fun l => { l with streams := [], sigq := [] }) s

/-- DRAIN entry: every stream asks for a DRAIN checkpoint (R429). -/
def ldgDrain (h : Half) (s : State) : State := (ldgOf s h).streams.foldl (fun t x => askCkpt x.1 5 t) s

/-- The surviving engine takes the lost one's streams: VOID_AFTER, and new appends from the head on (R431). -/
def ldgAdopt (h : Half) (s : State) : State :=
  let o := ldgOf s h.other
  let s1 := updLdg h (fun l =>
    { l with heads := o.heads.foldl (fun (t : Tab Head) e => tset Head.free t e.1 e.2) l.heads,
             streams := l.streams ++ o.streams.map (fun x => (x.1, { x.2 with appends := [], ops := [], spoolTo := x.2.spoolPos, closeCmd := none, ckptCmd := none })),
             sigq := l.sigq ++ o.sigq }) s
  let s2 := updLdg h.other (fun l => { l with heads := [], streams := [], sigq := [] }) s1
  o.streams.foldl (fun t x =>
    let hd := headOf t x.1
    queueComp x.1 ⟨hd.seq, 0, 0x13, false, false, 0, 0, 0, false⟩
      (updStream x.1 (fun y => { y with nextSeq := hd.seq + 1, prevTs := max y.prevTs hd.lts }) t)) s2

/-! ### Verifying a ledger (R434) -/

/-- Step 3 of a verifier: MAGIC, a chained type, the stream and its SEQ, reserved bytes, padding and size of a frame, and its TS above
the one before. -/
def frameOk (id seq ts : Nat) (f : List Byte) : Bool :=
  let n := 96 + fieldAt f 0x24 4
  f.take 4 == [0x51, 0x4C, 0x52, 0x31] && decide (1 ≤ fieldAt f 4 1 ∧ fieldAt f 4 1 ≤ 4) && decide (fieldAt f 5 1 < 4) && fieldAt f 6 2 == 0 &&
    fieldAt f 8 4 == id && fieldAt f 0x10 8 == seq && decide (ts < fieldAt f 0x18 8) && fieldAt f 0x28 8 == 0 &&
    f.length == (n + 63) / 64 * 64 && (f.drop n).all (fun b => b == 0)

/-- Steps 3 and 4 over the chained frames of a stream in order of SEQ: the last chain value and TS, none where a frame fails. -/
def verifyChain (id : Nat) : List Byte → Nat → Nat → List (List Byte) → Option (List Byte × Nat)
  | ch, _, ts, [] => some (ch, ts)
  | ch, seq, ts, f :: rest =>
    let body := slice f 48 (fieldAt f 0x24 4)
    let c := chainStep ch (f.take 48) body
    if frameOk id seq ts f ∧ slice f (48 + body.length) 48 = c then verifyChain id c (seq + 1) (fieldAt f 0x18 8) rest else none

/-- A verifier outside the package: frames from SEQ `a` on with the chain value before them, the body of a checkpoint and the public key
its KEYID names (R434). -/
def verifyLedger (id : Nat) (start : List Byte) (a ts : Nat) (fs : List (List Byte)) (ckpt pub : List Byte) : Bool :=
  match verifyChain id start a ts fs with
  | none => false
  | some (ch, lts) =>
    slice ckpt 0x30 48 == ch && fieldAt ckpt 0x10 8 + 1 == a + fs.length && fieldAt ckpt 0x18 8 == lts &&
      slice ckpt 0x60 48 == sha384 pub && ecdsaOk pub (slice ckpt 0 0x90) (slice ckpt 0x90 96)

/-- Open appends of a hub (R41, R468). -/
def openAppends (s : State) (h : Half) : Nat := (ldgOf s h).streams.foldl (fun (n : Nat) x => n + x.2.appends.length) 0

end Sys2Proof.Machine
end

