-- ==== Sys2Proof/Machine/Attach.lean ====
section
/-! DEFINITION. The attach ports: queue pairs, function registers, windows, configuration requests, resets (R435–R470). -/
namespace Sys2Proof.Machine

/-! ### Functions and their work -/

/-- Queue pairs of a function; PF0 has the admin queue as well (R444). -/
def fnQps (s : State) (k : Nat) : List Nat :=
  (if isPf k then [adminQp (k / 64)] else []) ++ (upTo (fnNqp s (k / 64) (k % 64))).map (fnQp s (k / 64) (k % 64))

/-- Intervals of hub queue pairs in use at a hub, the function `skip` left out (R443). -/
def qpRanges (s : State) (h : Half) (skip : Nat) : List (Nat × Nat) :=
  (((upTo 2).map (fun i => h.n * 2 + i)).filter (fun p => p * 64 ≠ skip && portPresent s p)).map
      (fun p => ((fnOf s (p * 64)).firstQp, (portOf s p).nqp)) ++
  (s.att.fns.filter (fun e => e.2.created && e.1 % 64 != 0 && e.1 / 128 == h.n && e.1 != skip)).map (fun e => (e.2.firstQp, e.2.nqp))

/-- The lowest contiguous run of n free numbers below a limit (R443). -/
def lowestRunIn (lim : Nat) (rs : List (Nat × Nat)) (n : Nat) : Option Nat :=
  (0 :: rs.map (fun r => r.1 + r.2)).foldl (fun (b : Option Nat) c =>
    if c + n ≤ lim ∧ rs.all (fun r => decide (r.2 = 0 ∨ c + n ≤ r.1 ∨ r.1 + r.2 ≤ c)) then
      (match b with | none => some c | some x => some (min x c))
    else b) none

/-- The lowest contiguous run of n free queue pairs (R443). -/
def lowestRun (rs : List (Nat × Nat)) (n : Nat) : Option Nat := lowestRunIn 1024 rs n

/-- Intervals of a port's MSI-X vectors in use, the function `skip` left out (R442). -/
def msixRanges (s : State) (p skip : Nat) : List (Nat × Nat) :=
  (if skip = p * 64 then [] else [((fnOf s (p * 64)).firstMsix, (portOf s p).nmsix)]) ++
  (s.att.fns.filter (fun e => e.2.created && e.1 % 64 != 0 && e.1 / 64 == p && e.1 != skip)).map (fun e => (e.2.firstMsix, e.2.nmsix))

def rangesTotal (rs : List (Nat × Nat)) : Nat := rs.foldl (fun (n : Nat) r => n + r.2) 0

/-- IFT entries of a function that are not FREE and not FROZEN, with their hubs (R338, R468). -/
def fnOps (s : State) (k : Nat) : List (Half × Nat × Ift) :=
  [Half.a, Half.b].flatMap (fun h =>
    ((cssOf s h).ift.filter (fun e => e.2.st != 0 && e.2.st != 9 && e.2.otype == 1 && e.2.owner == k)).map (fun e => (h, e.1, e.2)))

def fnFrozen (s : State) (k : Nat) : List (Half × Nat × Ift) :=
  [Half.a, Half.b].flatMap (fun h =>
    ((cssOf s h).ift.filter (fun e => e.2.st == 9 && e.2.otype == 1 && e.2.owner == k)).map (fun e => (h, e.1, e.2)))

/-- Seal rings of a function at its hub. -/
def fnRings (s : State) (k : Nat) : List (Nat × SRing) :=
  (s.units.rings.filter (fun x => x.1 / 256 == k / 128 && x.2.otype == 1 && x.2.owner == k)).map (fun x => (x.1 % 256, x.2))

def pktOfFn (k : Nat) (p : Pkt) : Bool :=
  match p.src with
  | .admin q => q * 64 == k
  | .func q fn _ => fnKey q fn == k
  | _ => false

/-- Commands of a function's queues in progress, those that issue its own VF_RESET and the like apart. -/
def fnCmds (s : State) (k : Nat) : Nat :=
  (s.prog.filter (fun g => pktOfFn k g.pkt)).length + (s.waitFence.filter (fun w => pktOfFn k w.pkt)).length

/-- Appends of a function accepted and not APPENDED. -/
def fnAppends (s : State) (k : Nat) : Nat :=
  [Half.a, Half.b].foldl (fun (n : Nat) h =>
    (ldgOf s h).streams.foldl (fun (m : Nat) x => if x.2.otype = 1 ∧ x.2.owner = k then m + x.2.appends.length else m) n) 0

/-- The function's requests outstanding at its port. -/
def fnReqs (s : State) (k : Nat) : List HostReq := (portOf s (k / 64)).reqs.filter (fun r => r.fn == k % 64)

/-- A function has work in flight (R468). -/
def inFlight (s : State) (k : Nat) : Bool :=
  fnOps s k != [] || (fnRings s k).any (fun r => decide (0 < ringJobs s (portHalf (k / 64)) r.1)) || decide (0 < fnCmds s k) ||
    decide (0 < fnAppends s k) || fnReqs s k != []

/-! ### Requests to the host (R435, R449) -/

/-- The next tag that is neither outstanding nor quarantined; at most 512 requests are outstanding (R435). -/
def freeTag (x : Port) : Option Nat :=
  if 512 ≤ x.reqs.length then none
  else ((upTo 1024).map (fun i => (x.nextTag + i) % 1024)).find?
    (fun t => !(x.reqs.any (fun r => r.tag == t)) && !(x.quar.any (fun q => q.1 == t)))

/-- Issue a read to a host; it waits while no tag is free. -/
def portRead (p fn addr n : Nat) (why : HostFor) (s : State) : State :=
  match freeTag (portOf s p) with
  | none => updPort p (fun x => { x with waiting := x.waiting ++ [⟨fn, addr, n, why⟩] }) s
  | some t =>
    portSend p (.read fn addr n t) (updPort p (fun x => { x with reqs := x.reqs ++ [⟨t, fn, why⟩], nextTag := (t + 1) % 1024 }) s)

/-- A tag came free: the oldest read that waits for one goes out. -/
def portPump (p : Nat) (s : State) : State :=
  match (portOf s p).waiting, freeTag (portOf s p) with
  | w :: rest, some _ => portRead p w.fn w.addr w.n w.why (updPort p (fun x => { x with waiting := rest }) s)
  | _, _ => s

/-- The port may take entries of a queue pair (R446, R466, R469, R471). -/
def sqLive (s : State) (q : Nat) : Bool :=
  match qpOwner s q with
  | none => false
  | some (p, fn) =>
    let f := fnOf s (fnKey p fn)
    (qpOf s q).en && mayMaster s (fnKey p fn) && (portOf s p).link == 2 && fnLive s p fn && !f.frozen && !f.quiesced && f.quiesceCmd.isNone && f.freezeCmd.isNone

/-- The port may read the SQ of a queue pair; a drain freezes its head (R41). -/
def sqMay (s : State) (q : Nat) : Bool := sqLive s q && !draining s (halfOf (q / 2048))

/-- A read of this SQ is outstanding or waits for a tag. -/
def sqReading (s : State) (p q : Nat) : Bool :=
  (portOf s p).reqs.any (fun r => r.why.ofSq q) || (portOf s p).waiting.any (fun r => r.why.ofSq q)

/-- Read the entries past the head not yet read, up to 16, to the end of the ring at most (R449). One read of a queue
pair is outstanding at a time (log 12). -/
def qpRead (q : Nat) (s : State) : State :=
  match qpOwner s q with
  | none => s
  | some (p, fn) =>
    let x := qpOf s q
    let n := qpSlots x.sqSize
    let todo := (x.sqTail % n + n - x.sqSlot) % n
    if ¬ sqMay s q ∨ x.got ≠ [] ∨ sqReading s p q ∨ todo = 0 then s
    else
      let k := min 16 (min todo (n - x.sqSlot))
      portRead p fn (x.sqAt + x.sqSlot * sqEntry x.typ) (k * sqEntry x.typ) (.sq q k) s

/-- An entry has been accepted: SQHEAD passes it (R449). -/
def qpAccept (q : Nat) (s : State) : State :=
  let s1 := updQp q (fun x => { x with got := x.got.drop 1, sqHead := (x.sqSlot + 1) % qpSlots x.sqSize }) s
  match qpOwner s q with
  | some (p, _) => qpRead q (bump (portUnit p) 0x583 1 s1)
  | none => s1

/-- The oldest entry read of a queue pair whose CQ takes completions (R450). A drain freezes the heads; only START and APPEND
entries already read are still answered, with the refusal their units give (R41, R313, log 12). -/
def qpFront (s : State) (q typ : Nat) : Option (List Byte) :=
  let x := qpOf s q
  if x.typ = typ ∧ x.en ∧ x.held = [] ∧ ¬ cqFull x ∧ (typ = 1 ∨ typ = 3 ∨ ¬ draining s (halfOf (q / 2048))) then x.got.head? else none

/-! ### MSG and SEAL queue pairs (R452, R453, R359) -/

/-- One MSG entry into the receive ring; a full ring holds it (R453). -/
def msgIn (q : Nat) (d : List Byte) (s : State) : State :=
  let x := qpOf s q
  let n := qpSlots x.rxSize
  if ¬ x.rxEn ∨ (x.rxTail + 1) % n = x.rxHead % n then s
  else
    match dmaWrite s (halfOf (q / 2048)) (x.rxBase + x.rxTail * 64) (slice d 0 64) with
    | some (s1, false) => qpAccept q (raiseExt x.rxLcn x.rxVec (updQp q (fun y => { y with rxTail := (y.rxTail + 1) % n }) s1))
    | _ => qpStop q 4 s

/-- One SEAL entry into the fetch-ahead of its ring (R357, R449). -/
def sealIn (q : Nat) (d : List Byte) (s : State) : State :=
  let h := halfOf (q / 2048)
  let x := qpOf s q
  let g := sringOf s h x.bind
  if ¬ g.en ∨ 4 ≤ ringJobs s h x.bind ∨ draining s h ∨ g.bound = 15 ∨ closing s (sealUnit h g.bound) then s
  else qpAccept q (updSring h x.bind (fun y => { y with fetched := y.fetched ++ [(x.sqSlot, slice d 0 128)] }) s)

/-- Hand on the entries read of MSG and SEAL queue pairs; the other types are taken by their units. -/
def qpServeN (q : Nat) : Nat → State → State
  | 0, s => s
  | n + 1, s =>
    match qpFront s q 4, qpFront s q 2 with
    | some d, _ => qpServeN q n (msgIn q d s)
    | _, some d => qpServeN q n (sealIn q d s)
    | _, _ => s

def qpServe (q : Nat) (s : State) : State := qpRead q (qpServeN q 16 s)

/-- Replies of software in the send ring go to the host CQ as it has room (R453); a reply that cannot be read stops the
queue pair (log 12). -/
def msgOutN (q : Nat) : Nat → State → State
  | 0, s => s
  | n + 1, s =>
    let x := qpOf s q
    if x.typ ≠ 4 ∨ x.txHead = x.txTail % qpSlots x.rxSize ∨ ¬ cqReady s q then s
    else
      match dmaRead s (halfOf (q / 2048)) (x.txBase + x.txHead * 32) 32 with
      | some (d, false) => msgOutN q n (cqWrite q d (updQp q (fun y => { y with txHead := (y.txHead + 1) % qpSlots y.rxSize }) s))
      | _ => qpStop q 4 s

def msgOut (q : Nat) (s : State) : State := msgOutN q (qpSlots (qpOf s q).rxSize) s

/-- ATT_QP_SQTAIL written: the doorbell (R446, R449). -/
def runQpTail (q v : Nat) (s : State) : State := qpServe q (updQp q (fun x => { x with sqTail := v % 65536 }) s)

/-- ATT_QP_CQHEAD written: held entries go out (R450). -/
def runQpCqHead (q v : Nat) (s : State) : State :=
  qpServe q (msgOut q (cqFlush q (updQp q (fun x => { x with cqHead := v % 65536 }) s)))

/-- QUEUE_PAIR_STOP with its cause (R451). -/
def runQpStop (q cause : Nat) (s : State) : State := if (qpOf s q).en then qpStop q (cause % 8) s else s

/-- ATT_MSG_TXTAIL written (R453). -/
def runMsgTx (q v : Nat) (s : State) : State := msgOut q (updQp q (fun x => { x with txTail := v % 65536 }) s)

/-- ATT_MSG_RXHEAD written (R453). -/
def runMsgRx (q v : Nat) (s : State) : State := qpServe q (updQp q (fun x => { x with rxHead := v % 65536 }) s)

/-! ### START and APPEND entries (R318, R448) -/

/-- A result entry of START and APPEND. -/
def resultEntry (num ctag code sqhead : Nat) : List Byte :=
  pack [(8, num), (2, ctag), (1, code), (1, 0), (4, sqhead), (16, 0)]

/-- Accept the front entry and post its result entry. -/
def qpResult (q num ctag code : Nat) (s : State) : State :=
  let s1 := qpAccept q s
  qpPost q (resultEntry num ctag code (qpOf s1 q).sqHead) s1

/-- A subchannel number reaches its hub from half `f` (R108). -/
def subReach (s : State) (f : Half) (n : Nat) : Bool :=
  decide (n < 4096) && hubPresent s (halfOf (n / 2048)) && (effMode s != .split || halfOf (n / 2048) == f)

/-- ATTACH_START_ENTRY: the front START entry of a queue pair starts an operation with the function as owner (R318). -/
def runStartEntry (q : Nat) (s : State) : State :=
  match qpFront s q 1, qpOwner s q with
  | some d, some (p, fn) =>
    let n := fieldAt d 0x20 2
    let b := subOf s (subHub s n) n
    let r := if subReach s (portHalf p) n ∧ b.otype = 1 ∧ b.owner = fnKey p fn then
        cssStart (subHub s n) n (fieldAt d 0 8) (fieldAt d 8 8) (bitOf (fieldAt d 0x10 2) 0) (fieldAt d 0x14 4) false s
      else (3, 0, s)
    qpResult q r.2.1 (fieldAt d 0x22 2) r.1 r.2.2
  | _, _ => s

/-- The range lies in the target range of an enabled active window of the function (R448). -/
def inTarget (f : Fn) (a n : Nat) : Bool :=
  f.active.any (fun w => w.en && decide (w.tgt ≤ a ∧ a + n ≤ w.tgt + 2 ^ w.log2))

/-- APPEND_ENTRY: the front APPEND entry submits a record to a stream of the function (R401, R448). -/
def runAppendEntry (q : Nat) (s : State) : State :=
  match qpFront s q 3, qpOwner s q with
  | some d, some (p, fn) =>
    let id := fieldAt d 0 4
    let own : Bool := match streamOf s id with | some t => decide (t.otype = 1 ∧ t.owner = fnKey p fn) | none => false
    let ok := decide (id < 131072) && hubPresent s (halfOf (id / 65536)) && (effMode s != .split || halfOf (id / 65536) == portHalf p)
    let a := fieldAt d 8 8
    let n := fieldAt d 0x10 4
    let r := if ¬ own ∨ ¬ ok then (3, 0, s)
      else if ¬ inTarget (fnOf s (fnKey p fn)) a (max n 1) then (1, 0, s)
      else ldgAppend id a n (fieldAt d 0x14 2) (fieldAt d 0x16 2) s
    qpResult q r.2.1 (fieldAt d 0x14 2) r.1 r.2.2
  | _, _ => s

/-! ### Completions of the port's reads (R449, R451, R456, R461, R463) -/

/-- The answer to a core's load, kept in the port's reply latch until its instruction completes (R141, R461). First byte:
0 data, 1 address error, 2 poison. -/
def loadReply (p lcn ctx rid code : Nat) (d : List Byte) (s : State) : State :=
  { s with latches := s.latches ++ [⟨portUnit p, lcn, ctx, rid, BitVec.ofNat 8 code :: d⟩] }

/-- A request that gets no data: how its issuer learns of it. -/
def reqFail (p : Nat) (r : HostReq) (s : State) : State :=
  match r.why with
  | .sq q n => if n = 0 then qpRead q s else if (qpOf s q).en then qpStop q 1 s else s
  | .load l c rid _ => loadReply p l c rid 1 [] s
  | .peer o fn tag => portSend o (.cpl fn tag 4 [] false) s

/-- Bits of the AER status: uncorrectable, and correctable, where an advisory error shows as bit 13 (R463). -/
def aerSet (k bit : Nat) (s : State) : State := updFn k (fun f => { f with aerU := f.aerU.lor (2 ^ bit) }) s
def aerCor (k bit : Nat) (s : State) : State := updFn k (fun f => { f with aerC := f.aerC.lor (2 ^ bit) }) s

def reqDone (p : Nat) (r : HostReq) (d : List Byte) (ep : Bool) (s : State) : State :=
  match r.why with
  | .sq q n =>
    let x := qpOf s q
    if n = 0 then qpRead q s
    else if ¬ sqLive s q then s
    else if ep then qpStop q 1 (aerCor (fnKey p r.fn) 13 (aerSet (fnKey p r.fn) 12 s))
    else qpServe q (updQp q (fun y => { y with got := (upTo n).map (fun i => slice d (i * sqEntry x.typ) (sqEntry x.typ)) }) s)
  | .load l c rid n =>
    if ¬ mayMaster s (fnKey p 0) then loadReply p l c rid 1 [] s
    else loadReply p l c rid (if ep then 2 else 0) (slice d 0 n) s
  | .peer o fn tag => portSend o (.cpl fn tag 0 d ep) s

/-- ATTACH_READ_COMPLETION: a completion with its status (0 SC), data and EP mark (R449, R461, R463, R467). -/
def runReadCompletion (p tag status : Nat) (d : List Byte) (ep : Bool) (s : State) : State :=
  match (portOf s p).reqs.find? (fun r => r.tag == tag) with
  | none => if (portOf s p).quar.any (fun q => q.1 == tag) then s else aerSet (p * 64) 16 s
  | some r =>
    let s1 := updPort p (fun x => { x with reqs := x.reqs.filter (fun y => y.tag != tag) }) s
    portPump p (if status = 0 then reqDone p r d ep s1 else reqFail p r s1)

/-- ATTACH_COMPLETION_TIMEOUT of a request, or of a quarantined tag (R451, R461, R463, R467). -/
def runReadTimeout (p tag : Nat) (s : State) : State :=
  match (portOf s p).reqs.find? (fun r => r.tag == tag) with
  | none => portPump p (updPort p (fun x => { x with quar := x.quar.filter (fun q => q.1 != tag) }) s)
  | some r =>
    portPump p (reqFail p r (aerSet (fnKey p r.fn) 14 (updPort p (fun x => { x with reqs := x.reqs.filter (fun y => y.tag != tag) }) s)))

/-! ### Attach windows (R461) -/

/-- The port serves accesses of cores: link up, PF0 Bus Master Enable 1, not D3hot. -/
def winUp (s : State) (p : Nat) : Bool := portPresent s p && (portOf s p).link == 2 && busMaster s (p * 64) && !inD3 s (p * 64)

/-- Sizes and alignment an attach window takes (R461). -/
def winShape (off n : Nat) : Bool := (n == 1 || n == 2 || n == 4 || n == 8) && off % n == 0

/-- A store: its TLP is queued, with the routing ID of PF0; nothing is sent while PF0 may not master (log 12). -/
def attStore (p off : Nat) (d : List Byte) (s : State) : State :=
  if winUp s p then portSend p (.write 0 off d false) s else s

/-- A load has a read outstanding for this context. -/
def loadOut (s : State) (lcn ctx : Nat) : Bool :=
  let mine := fun (w : HostFor) => match w with | .load l c _ _ => l == lcn && c == ctx | _ => false
  (upTo 4).any (fun p => (portOf s p).reqs.any (fun r => mine r.why) || (portOf s p).waiting.any (fun r => mine r.why))

/-- Reply latches of the attach ports for a context, in the order of their loads. -/
def winLatches (s : State) (lcn ctx : Nat) : List Latch :=
  s.latches.filter (fun l => l.unit / 256 % 256 == 7 && l.lcn == lcn && l.ctx == ctx && !l.reply.isEmpty)

/-- Issue a load under a request ID. -/
def attLoad (lcn ctx rid p off n : Nat) (s : State) : State :=
  if winUp s p ∧ winShape off n then portRead p 0 off n (.load lcn ctx rid n) s else loadReply p lcn ctx rid 1 [] s

/-- ATTACH_WINDOW_ACCESS: a load or a store of a core arrives at the port (R461). -/
def runWindowAccess (lcn ctx p off n : Nat) (wr : Option (List Byte)) (s : State) : State :=
  match wr with
  | some d => if winShape off d.length then attStore p off d s else s
  | none => attLoad lcn ctx (tget Ctx.reset s.ctxs (lcn * 2 + ctx)).reqId p off n s

/-! ### INTx (R462) -/

/-- Assert_INTA or Deassert_INTA when the level of the port changes. -/
def intaUpdate (p : Nat) (s : State) : State :=
  let want := (fnOf s (p * 64)).isr != 0 && !intxOff s (p * 64)
  if want == (portOf s p).inta then s else portSend p (.inta want) (updPort p (fun x => { x with inta := want }) s)

/-- ATT_FN_ISR written: 1 bits are cleared (R445, R462). -/
def runIsrClear (k v : Nat) (s : State) : State :=
  intaUpdate (k / 64) (updFn k (fun f => { f with isr := f.isr - f.isr.land v }) s)

/-! ### Resets (R436, R466, R467) -/

/-- Dispatch the frozen operations of a function again (R337). -/
def unfreeze (k : Nat) (s : State) : State :=
  (fnFrozen s k).foldl (fun t x => dispatchNext x.1 x.2.2.sub t)
    ((fnFrozen s k).foldl (fun t x => updIft x.1 x.2.1 (fun e => { e with st := 1 }) t) s)

/-- Commands of a function in progress: their replies will be discarded (R467). -/
def orphan (k : Nat) (s : State) : State :=
  let mv := fun (p : Pkt) => if pktOfFn k p then { p with src := Src.func (k / 64) (k % 64) 0xFFFFF } else p
  { s with prog := s.prog.map (fun g => { g with pkt := mv g.pkt }), waitFence := s.waitFence.map (fun w => { w with pkt := mv w.pkt }) }

/-- A queue pair at its reset values; the MSG rings of its package side stay (R452, R467). -/
def qpClear (q : Nat) (s : State) : State :=
  updQp q (fun x => { Qp.reset with rxBase := x.rxBase, rxEn := x.rxEn, rxSize := x.rxSize, rxVec := x.rxVec, rxLcn := x.rxLcn,
                                    rxHead := x.rxHead, rxTail := x.rxTail, txBase := x.txBase, txTail := x.txTail, txHead := x.txHead }) s

/-- Reads outstanding: their tags are quarantined, and core loads and peer reads end with an error. -/
def quarantine (k : Nat) (s : State) : State :=
  let p := k / 64
  let rs := fnReqs s k
  let ws := (portOf s p).waiting.filter (fun r => r.fn == k % 64)
  let s1 := updPort p (fun x => { x with
    reqs := x.reqs.filter (fun r => r.fn != k % 64), quar := x.quar ++ rs.map (fun r => (r.tag, r.fn))
    waiting := x.waiting.filter (fun r => r.fn != k % 64) }) s
  (rs ++ ws.map (fun w => (⟨0, w.fn, w.why⟩ : HostReq))).foldl (fun t r => match r.why with | .sq _ _ => t | _ => reqFail p r t) s1

/-- Function Level Reset of one function (R467). Configuration words that keep their values are the AER masks and
severities, which PCIe makes sticky (log 10). -/
def flrOne (k : Nat) (s : State) : State :=
  let s0 := quarantine k s
  let busy := inFlight s0 k
  let s1 := orphan k s0
  let s2 := (fnRings s1 k).foldl (fun t r => updSring (portHalf (k / 64)) r.1 (fun x => { x with stale := ringJobs s1 (portHalf (k / 64)) r.1 }) t) s1
  let s3 := (fnQps s2 k).foldl (fun t q => qpClear q t) s2
  let fz := (fnOf s3 k).freezeCmd
  let s4 := updFn k (fun f => { f with
    cfg := f.cfg.filter (fun e => e.1 == 0x108 || e.1 == 0x10C || e.1 == 0x114)
    msix := [], pba := [], msiPend := [], undel := [], bmeLost := false, isr := 0, oldWork := busy, freezeCmd := none }) s3
  let s5 := if fz.isSome then unfreeze k (failOpt fz 0 s4) else s4
  let s6 := intaUpdate (k / 64) s5
  if busy ∧ ¬ (fnOf s k).oldWork then fnEvent k s6 else s6

/-- FUNCTION_LEVEL_RESET; that of PF0 ends VF Enable and with it resets the VFs, as SR-IOV has it (log 10). -/
def runFlr (k : Nat) (s : State) : State :=
  if isPf k then flrOne k (((upTo 63).map (fun i => k + 1 + i)).foldl (fun t j => if vfEnabled s (k / 64) ∨ (fnOf s j).created then flrOne j t else t) s)
  else flrOne k s

/-- HOT_RESET, or a link-down event: every function of the port is reset and VF Enable cleared (R436, R617). -/
def runHotReset (p : Nat) (down : Bool) (s : State) : State :=
  let s1 := runFlr (p * 64) s
  if down then updPort p (fun x => { x with link := 0, gen := 0, width := 0 }) s1 else s1

/-- ATTACH_PERST_N: asserted it holds the port in fundamental reset; released, the link trains (R436). -/
def runPerst (p : Nat) (low : Bool) (s : State) : State :=
  if ¬ portPresent s p then s
  else if low then
    let s1 := runHotReset p true s
    let s2 := s1.att.fns.foldl (fun t e => if e.1 / 64 = p then updFn e.1 (fun f => { f with cfg := [], aerU := 0, aerC := 0 }) t else t) s1
    updPort p (fun x => { x with perst := true, ltr := none }) s2
  else updPort p (fun x => if x.perst then { x with perst := false, link := 1 } else x) s

/-- ATTACH_LINK_TRAINED: UP at a generation and width (R478). -/
def runLinkTrained (p gen width : Nat) (s : State) : State :=
  if (portOf s p).link = 1 ∧ ¬ (portOf s p).perst then
    updPort p (fun x => { x with link := 2, gen := gen % 8, width := width % 32 }) s
  else s

/-! ### Bus Master Enable (R466) -/

/-- Something of the function was outstanding. -/
def bmeBusy (s : State) (k : Nat) : Bool :=
  let f := fnOf s k
  fnReqs s k != [] || f.pba != [] || f.msiPend != [] || f.undel != [] ||
    (fnQps s k).any (fun q => (qpOf s q).got != [] || (qpOf s q).held != [])

/-- What mastering stops: entries read and not accepted are discarded, BME_LOST tells of anything outstanding. -/
def bmeStop (k : Nat) (s : State) : State :=
  let lost := bmeBusy s k
  (fnQps s k).foldl (fun t q => dropReads q t)
    (if lost then updFn k (fun f => { f with bmeLost := true }) s else s)

/-- The queues of a function go on: held entries, messages, replies and SQ reads. -/
def resumeFn (k : Nat) (s : State) : State :=
  (fnQps s k).foldl (fun t q => qpServe q (msgOut q (cqFlush q t))) (flushIrqs k s)

def setCfg (k off v : Nat) (s : State) : State :=
  updFn k (fun f => { f with cfg := tset (cfgReset s k off) f.cfg off v }) s

/-- BUS_MASTER_DISABLE. -/
def runBmeOff (k : Nat) (s : State) : State :=
  let w := cfgWord s k 4
  if busMaster s k then bmeStop k (setCfg k 4 (w - 4) s) else s

/-- BME_LOST written 1 while Bus Master Enable is 1: the port resumes. -/
def runBmeClear (k : Nat) (s : State) : State :=
  if busMaster s k ∧ (fnOf s k).bmeLost then resumeFn k (updFn k (fun f => { f with bmeLost := false }) s) else s

/-! ### Configuration requests (R436–R441) -/

/-- A byte-enabled write of the writable bits of a word. -/
def cfgMerge (old v be mask : Nat) : Nat :=
  let m := (upTo 4).foldl (fun (n : Nat) i => if bitOf be i then n + 255 * 256 ^ i else n) 0
  let w := m.land mask
  old - old.land w + v.land w

/-- The function answers configuration requests: PF0, and the VFs the host has enabled (R440). -/
def cfgFn (s : State) (p fn : Nat) : Bool := fn == 0 || decide (fn ≤ numVfs s p)

/-- A configuration write with what follows from it. -/
def cfgWrite (k off be v : Nat) (s : State) : State :=
  let p := k / 64
  let old := cfgWord s k off
  let byteMask := (upTo 4).foldl (fun (n : Nat) i => if bitOf be i then n + 255 * 256 ^ i else n) 0
  if off = 0x104 then updFn k (fun f => { f with aerU := f.aerU - f.aerU.land (v.land byteMask) }) s
  else if off = 0x110 then updFn k (fun f => { f with aerC := f.aerC - f.aerC.land (v.land byteMask) }) s
  else if off = 0x88 ∧ bitOf (v.land byteMask) 15 then runFlr k s
  else
    let new := cfgMerge old v be (cfgMask k off)
    let s1 := setCfg k off new s
    let s2 :=
      if (off = 4 ∧ busMaster s k ∧ ¬ busMaster s1 k) ∨ (off = 0x44 ∧ ¬ inD3 s k ∧ inD3 s1 k) then bmeStop k s1
      else if off = 0x160 ∧ isPf k ∧ bitOf old 0 ∧ ¬ bitOf new 0 then
        ((upTo 63).map (fun i => k + 1 + i)).foldl (fun t j => flrOne j t) s1
      else if off = 4 ∨ off = 0x44 then resumeFn k s1
      else flushIrqs k s1
    if isPf k then intaUpdate p s2 else s2

/-- PCIE_CONFIG_REQUEST: CRS before readiness, UR for a function that is not there, else the word (R436, R440). -/
def runConfig (p fn off tag : Nat) (wr : Option (Nat × Nat)) (s : State) : State :=
  let k := fnKey p fn
  let w := off / 4 * 4
  if ¬ portPresent s p ∨ (portOf s p).perst then s
  else if ¬ readyBit s (portHalf p) (rbAtt (p % 2)) then portSend p (.cpl fn tag 2 [] false) s
  else if ¬ cfgFn s p fn then portSend p (.cpl fn tag 1 [] false) s
  else
    match wr with
    | none => portSend p (.cpl fn tag 0 (toBytes 4 (cfgWord s k w)) false) s
    | some (be, v) => portSend p (.cpl fn tag 0 [] false) (cfgWrite k w be v s)

/-! ### Function registers in BAR0 (R444–R447) -/

def winCtl (w : Win) : Nat := putBits [(0, w.log2), (6, b2n w.wr), (7, b2n w.rd), (8, b2n w.en)]

/-- ATT_FN_STAT (R445). -/
def fnStat (s : State) (k : Nat) : Nat :=
  let f := fnOf s k
  putBits [(31, b2n f.bmeLost), (30, b2n f.frozen), (29, b2n f.quiesced), (28, b2n (!fnLive s (k / 64) (k % 64))),
           (27, b2n (f.oldWork && inFlight s k)), (0, f.urcnt)]

/-- ATT_FN_RES (R445); PF0 has its eight windows. -/
def fnRes (s : State) (k : Nat) : Nat :=
  let f := fnOf s k
  let nwin := if isPf k then 8 else f.nwin
  putBits [(48, f.firstQp), (32, fnNqp s (k / 64) (k % 64)), (16, fnNmsix s (k / 64) (k % 64)), (0, nwin)]

def qpCtl (x : Qp) : Nat :=
  putBits [(31, b2n x.en), (30, b2n x.stopped), (27, x.typ), (24, x.cause), (20, x.sqSize), (16, x.cqSize), (11, b2n x.ien), (0, x.vec)]

/-- A word of the registers of a queue pair (R446). -/
def qpRegRead (x : Qp) (off : Nat) : Nat :=
  match off with
  | 0x00 => x.sqAt % 2 ^ 32
  | 0x04 => x.sqBase / 2 ^ 32
  | 0x08 => x.cqBase % 2 ^ 32
  | 0x0C => x.cqBase / 2 ^ 32
  | 0x10 => qpCtl x
  | 0x14 => x.bind
  | 0x18 => x.sqTail
  | 0x1C => x.sqHead
  | 0x20 => x.cqTail
  | 0x24 => x.cqHead
  | _ => 0

/-- ATT_QP_CTL written (R447, R451). -/
def qpCtlWrite (q v : Nat) (s : State) : State :=
  let x := qpOf s q
  let adm := decide (1024 ≤ q % 2048)
  let stopped := x.stopped && !bitOf v 30
  let typ := if adm then 0 else if x.en then x.typ else fld v 29 27
  let y := { x with
    stopped := stopped, typ := typ, ien := bitOf v 11, vec := fld v 10 0
    cause := if stopped then x.cause else 0
    sqSize := if x.en then x.sqSize else fld v 23 20
    cqSize := if x.en then x.cqSize else fld v 19 16
    en := x.en && bitOf v 31 }
  let s0 := updQp q (fun _ => y) s
  let s1 := if bitOf v 31 then s0 else dropReads q s0
  if x.en ∨ ¬ bitOf v 31 ∨ stopped then s1
  else
    let h := halfOf (q / 2048)
    let g := sringOf s h x.bind
    let key := match qpOwner s q with | some (p, fn) => fnKey p fn | none => 4096
    if 5 ≤ typ ∨ (typ = 4 ∧ ¬ x.rxEn) then qpStop q 3 s1
    else if typ = 2 ∧ ¬ (g.otype = 1 ∧ g.owner = key) then qpStop q 2 s1
    else if typ = 2 ∧ ¬ g.en then qpStop q 3 s1
    else qpServe q (msgOut q (cqFlush q (updQp q (fun z => { z with en := true }) s1)))

/-- A write to a word of a queue pair's registers (R446). -/
def qpRegWrite (q off v : Nat) (s : State) : State :=
  let x := qpOf s q
  let upd := fun (f : Qp → Qp) => if x.en then s else updQp q f s
  match off with
  | 0x00 => upd (fun y => { y with sqBase := setFld y.sqBase 31 0 (v / 32 * 32) })
  | 0x04 => upd (fun y => { y with sqBase := setFld y.sqBase 63 32 v })
  | 0x08 => upd (fun y => { y with cqBase := setFld y.cqBase 31 0 (v / 32 * 32) })
  | 0x0C => upd (fun y => { y with cqBase := setFld y.cqBase 63 32 v })
  | 0x10 => qpCtlWrite q v s
  | 0x14 => upd (fun y => { y with bind := v % 256 })
  | 0x18 => runQpTail q v s
  | 0x24 => runQpCqHead q v s
  | _ => s

/-- MSI-X table and PBA bases of a function (R444). -/
def msixBase (k : Nat) : Nat := if isPf k then 0x100000 else 0x8000
def pbaBase (k : Nat) : Nat := if isPf k then 0x180000 else 0xC000

/-- Queue pair whose registers lie at a BAR0 offset, with the offset in them. -/
def bar0Qp (s : State) (k off : Nat) : Option (Nat × Nat) :=
  if isPf k ∧ 0x800 ≤ off ∧ off < 0x840 then some (adminQp (k / 64), off - 0x800)
  else if 0x1000 ≤ off ∧ off < 0x1000 + fnNqp s (k / 64) (k % 64) * 0x40 then
    some (fnQp s (k / 64) (k % 64) ((off - 0x1000) / 0x40), (off - 0x1000) % 0x40)
  else none

/-- A 32-bit word of BAR0 (R444). -/
def fnRegRead (s : State) (k off : Nat) : Nat :=
  let f := fnOf s k
  let n := fnNmsix s (k / 64) (k % 64)
  match bar0Qp s k off with
  | some (q, o) => qpRegRead (qpOf s q) o
  | none =>
    if off = 0 then fnStat s k
    else if off = 4 then f.isr
    else if off = 8 then fnRes s k % 2 ^ 32
    else if off = 0xC then fnRes s k / 2 ^ 32
    else if off = 0x10 then f.evtVec + b2n f.evtEn * 2 ^ 31
    else if 0x20 ≤ off ∧ off < 0xA0 then
      let w := f.active.getD ((off - 0x20) / 16) Win.zero
      (match off % 16 with | 0 => w.off % 2 ^ 32 | 4 => w.off / 2 ^ 32 | 8 => winCtl w | _ => 0)
    else if msixBase k ≤ off ∧ off < msixBase k + 16 * n then
      tget 0 f.msix ((off - msixBase k) / 16) / 2 ^ (off % 16 * 8) % 2 ^ 32
    else if pbaBase k ≤ off ∧ off < pbaBase k + 256 then
      f.pba.foldl (fun (x : Nat) e => if e / 32 = (off - pbaBase k) / 4 then x + 2 ^ (e % 32) else x) 0
    else 0

/-- A 32-bit write to BAR0. -/
def fnRegWrite (k off v : Nat) (s : State) : State :=
  let n := fnNmsix s (k / 64) (k % 64)
  match bar0Qp s k off with
  | some (q, o) => qpRegWrite q o v s
  | none =>
    if off = 0 then (if bitOf v 31 then runBmeClear k s else s)
    else if off = 4 then runIsrClear k v s
    else if off = 0x10 then updFn k (fun f => { f with evtEn := bitOf v 31, evtVec := fld v 10 0 }) s
    else if msixBase k ≤ off ∧ off < msixBase k + 16 * n then
      let e := (off - msixBase k) / 16
      let lo := off % 16 * 8
      let w := if lo = 96 then v % 2 else if lo = 0 then v / 4 * 4 else v
      flushIrqs k (updFn k (fun f => { f with msix := tset 0 f.msix e (setFld (tget 0 f.msix e) (lo + 31) lo w) }) s)
    else s

/-- Words of BAR0 that a request of n bytes covers. -/
def regBytes (s : State) (k off n : Nat) : List Byte :=
  slice ((upTo ((off % 4 + n + 3) / 4)).flatMap (fun i => toBytes 4 (fnRegRead s k (off / 4 * 4 + i * 4)))) (off % 4) n

/-- Writes take effect word by word where they cover a whole word; other bytes are ignored (log 12). -/
def regPut (k off : Nat) (d : List Byte) (s : State) : State :=
  if off % 4 ≠ 0 then s
  else (upTo (d.length / 4)).foldl (fun t i => fnRegWrite k (off + i * 4) (fieldAt d (i * 4) 4) t) s

/-! ### BAR2: inbound windows and peers (R455–R460) -/

/-- The inbound window of a function that holds a range. -/
def winHit (f : Fn) (off n : Nat) : Option Win :=
  f.active.find? (fun w => w.en && decide (w.off ≤ off ∧ off + n ≤ w.off + 2 ^ w.log2))

/-- Bytes a request covers. -/
def inLen : InKind → Nat
  | .wr d _ => d.length
  | .rd n => n
  | .atom _ size _ _ => size

def inPosted : InKind → Bool
  | .wr _ _ => true
  | _ => false

/-- UR: counted, and answered when the request is not posted (R463). -/
def inUr (r : InReq) (s : State) : State :=
  let s1 := urCount (fnKey r.port r.fn) s
  if inPosted r.kind then s1 else portSend r.port (.cpl r.fn r.tag 1 [] false) s1

/-- A write with EP set: every sector it touches is written whole and poisoned (R463). -/
def poisonRun (h : Half) (pa : Nat) (d : List Byte) (s : State) : State :=
  (upTo ((pa % 64 + d.length + 63) / 64)).foldl (fun t i => writePoison t h (pa / 64 + i) (secPart pa d i).1 (secPart pa d i).2) s

/-- Result of an AtomicOp on the old value. -/
def atomResult (op size old x y : Nat) : Nat :=
  if op = 0 then (old + x) % 256 ^ size else if op = 1 then x % 256 ^ size else if old = x % 256 ^ size then y % 256 ^ size else old

/-- Perform a request at a package address (R459, R460, R463). -/
def inPerform (r : InReq) (pa : Nat) (s : State) : State :=
  let h := portHalf r.port
  let k := fnKey r.port r.fn
  match r.kind with
  | .wr d true => poisonRun h pa d (aerSet k 12 s)
  | .wr d false => writeRun h pa d s
  | .rd n =>
    let x := readRun s h pa n
    portSend r.port (.cpl r.fn r.tag 0 x.1 x.2) s
  | .atom op size x y =>
    let old := readRun s h pa size
    portSend r.port (.cpl r.fn r.tag 0 old.1 old.2)
      (if old.2 then s else writeRun h pa (toBytes size (atomResult op size (ofBytes old.1) x y)) s)

/-- AtomicOp forms the completer supports, naturally aligned (R435). -/
def atomOk (s : State) (op size off : Nat) : Bool :=
  hasNmu s && (size == 4 || size == 8 || (size == 16 && op == 2)) && decide (op < 3) && off % size == 0

/-- The window permits the request (R455). -/
def winAllows (w : Win) : InKind → Bool
  | .wr _ _ => w.wr
  | .rd _ => w.rd
  | .atom _ _ _ _ => w.wr && w.rd

/-- The peer window of a port that holds a range (R456). -/
def peerHit (x : Port) (off n : Nat) : Option Peer :=
  x.peers.find? (fun w => w.en && decide (w.off ≤ off ∧ off + n ≤ w.off + 2 ^ w.log2))

/-- The target port takes forwarded requests (R456). -/
def peerUp (s : State) (p t : Nat) : Bool :=
  portPresent s t && (portOf s t).link == 2 && busMaster s (t * 64) && !inD3 s (t * 64) &&
    !(portHalf t != portHalf p && (effMode s == .split || s.pkg.hstate.a == .fenced || s.pkg.hstate.b == .fenced))

/-- Re-issue a request of PF0 on the target port of a peer window (R456). -/
def peerForward (r : InReq) (w : Peer) (s : State) : State :=
  if ¬ peerUp s r.port w.tport then inUr r s
  else
    let a := w.haddr + (r.off - w.off)
    match r.kind with
    | .wr d ep => if w.wr then portSend w.tport (.write 0 a d ep) s else inUr r s
    | .rd n =>
      if ¬ w.rd then inUr r s
      else portRead w.tport 0 a n (.peer r.port r.fn r.tag) s
    | .atom _ _ _ _ => inUr r s

/-- A request to BAR2 (R455). -/
def bar2 (r : InReq) (s : State) : State :=
  let k := fnKey r.port r.fn
  let n := inLen r.kind
  match winHit (fnOf s k) r.off n with
  | some w =>
    let pa := w.tgt + (r.off - w.off)
    let ok : Bool := match r.kind with | .atom op size _ _ => atomOk s op size r.off | _ => true
    if ok ∧ winAllows w r.kind ∧ dramOk s (portHalf r.port) pa n then inPerform r pa s else inUr r s
  | none =>
    match (if isPf k then peerHit (portOf s r.port) r.off n else none) with
    | some w => peerForward r w s
    | none => inUr r s

/-- INBOUND_MEMORY_REQUEST (R440, R441, R455, R459, R460). -/
def runInbound (r : InReq) (s0 : State) : State :=
  let k := fnKey r.port r.fn
  if ¬ portPresent s0 r.port ∨ (portOf s0 r.port).perst then s0
  else
    let s := bump (portUnit r.port) 0x581 1 s0
    if ¬ cfgFn s r.port r.fn ∨ ¬ memSpaceEn s k ∨ inD3 s k ∨ ¬ fnLive s r.port r.fn then inUr r s
    else if r.bar = 0 then
      match r.kind with
      | .wr d _ => regPut k r.off d s
      | .rd n => portSend r.port (.cpl r.fn r.tag 0 (regBytes s k r.off n) false) s
      | .atom _ _ _ _ => inUr r s
    else bar2 r s

/-- PEER_FORWARD: a PF0 request that matches a peer window and no inbound window (R456). -/
def runPeer (r : InReq) (s : State) : State :=
  match winHit (fnOf s (fnKey r.port 0)) r.off (inLen r.kind), peerHit (portOf s r.port) r.off (inLen r.kind) with
  | none, some w => if r.fn = 0 ∧ memSpaceEn s (fnKey r.port 0) ∧ ¬ inD3 s (fnKey r.port 0) then peerForward r w s else s
  | _, _ => s

/-! ### Commit (R457, R458) -/

def overlap (a n b m : Nat) : Bool := decide (a < b + m ∧ b < a + n)

/-- Elements of a list pairwise satisfy a test. -/
def pairwise {α : Type} (t : α → α → Bool) : List α → Bool
  | [] => true
  | x :: xs => xs.all (t x) && pairwise t xs

/-- The shadow windows of a function pass R458. -/
def winsOk (s : State) (k : Nat) : Bool :=
  let h := portHalf (k / 64)
  let f := fnOf s k
  let ws := f.shadow.filter (fun w => w.en)
  let big := if isPf k then 38 else 36
  let peers := if isPf k then (portOf s (k / 64)).peers.filter (fun w => w.en) else []
  ws.all (fun w => w.off % 2 ^ w.log2 == 0 && w.tgt % 2 ^ w.log2 == 0 && decide (12 ≤ w.log2 ∧ w.log2 ≤ big) &&
      decide (w.off + 2 ^ w.log2 ≤ 2 ^ big) && dramOk s h w.tgt (2 ^ w.log2) &&
      peers.all (fun x => !overlap w.off (2 ^ w.log2) x.off (2 ^ x.log2))) &&
    pairwise (fun x y => !overlap x.off (2 ^ x.log2) y.off (2 ^ y.log2)) ws &&
    decide (ws.length ≤ (if isPf k then 8 else f.nwin))

/-- The shadow peer windows of a port pass R458. -/
def peersOk (s : State) (p : Nat) : Bool :=
  let ws := (portOf s p).peersS.filter (fun w => w.en)
  let ins := (fnOf s (p * 64)).active.filter (fun w => w.en)
  ws.all (fun w => w.off % 2 ^ w.log2 == 0 && decide (12 ≤ w.log2 ∧ w.log2 ≤ 38) && decide (w.off + 2 ^ w.log2 ≤ 2 ^ 38) &&
      w.tport != p && portPresent s w.tport && ins.all (fun x => !overlap w.off (2 ^ w.log2) x.off (2 ^ x.log2))) &&
    pairwise (fun x y => !overlap x.off (2 ^ x.log2) y.off (2 ^ y.log2)) ws

/-- ATT_WIN_COMMIT written: ERR cleared by 1, SET, and with GO the check and the swap. Every access being one step, none
matched against the old set is under way at the swap, so GO clears in the same step (R457). -/
def runWinCommit (p v : Nat) (s : State) : State :=
  let set := v % 128
  let s1 := updPort p (fun x => { x with err := x.err && !bitOf v 30, set := set }) s
  if ¬ portPresent s p then s
  else if ¬ bitOf v 31 then s1
  else if set < 64 ∧ winsOk s (p * 64 + set) then updFn (p * 64 + set) (fun f => { f with active := f.shadow }) s1
  else if set = 64 ∧ peersOk s p then updPort p (fun x => { x with peers := x.peersS }) s1
  else updPort p (fun x => { x with err := true }) s1

/-! ### LTR (R465) -/

/-- Row of the table of R465 that applies: 0 to 4. -/
def ltrRow (s : State) (p : Nat) : Nat :=
  let ks := (upTo 64).map (fnKey p)
  let qs := ks.flatMap (fun k => if fnLive s p (k % 64) then fnQps s k else [])
  if ks.all (fun k => !busMaster s k) then 0
  else if (portOf s p).reqs ≠ [] ∨ qs.any (fun q => decide ((qpOf s q).sqTail % qpSlots (qpOf s q).sqSize ≠
      ((qpOf s q).sqHead + (qpOf s q).got.length) % qpSlots (qpOf s q).sqSize)) ∨ (portOf s p).waiting ≠ [] then 1
  else if 16 ≤ qs.foldl (fun (n : Nat) q => n + (qpOf s q).got.length) 0 then 2
  else if qs.any (fun q => (qpOf s q).held != []) ∨ ks.any (fun k => (fnOf s k).pba != []) then 3
  else 4

def ltrValue : Nat → Option (Nat × Nat)
  | 0 => none
  | 1 => some (2, 2)
  | 2 => some (16, 2)
  | 3 => some (2, 3)
  | _ => some (1, 4)

/-- LTR_UPDATE: the state of the port calls for a new value. -/
def runLtr (p : Nat) (s : State) : State :=
  let r := ltrRow s p
  if ¬ ltrOn s p ∨ (portOf s p).ltr = some r then s
  else portSend p (.ltr (ltrValue r)) (updPort p (fun x => { x with ltr := some r }) s)

/-- OLDWORK falls when the work accepted before the last reset has ended (R445, R467). -/
def attTick (s : State) : State :=
  s.att.fns.foldl (fun t e =>
    if e.2.oldWork ∧ ¬ inFlight t e.1 then fnEvent e.1 (updFn e.1 (fun f => { f with oldWork := false }) t) else t) s

end Sys2Proof.Machine
end

