-- ==== Sys2Proof/Machine/Flit.lean ====
section
/-! DEFINITION. Flits: stops and nodes (R232, R233), the message codes (R237), header, payload and check of a packet (R235–R239), and
the lanes that carry them (R250). -/
namespace Sys2Proof.Machine

/-! ### Stops and nodes (R232, R233) -/

/-- A node and the port within its stop: node × 16 + port. -/
def nodePort (die stop port : Nat) : Nat := (die * 64 + stop) * 16 + port

/-- Stop of tile Tt of a compute die. -/
def tileStop (t : Nat) : Nat := if t < 15 then t else if t = 15 then 15 else 19

/-- Die code of a hub. -/
def hubCode (h : Half) : Nat := 16 + h.n

/-- Stop and port that serve an offset of a hub's register region (R32, R33, R232). -/
def regPlace (h : Half) (off : Nat) : Nat :=
  let blk := off / 0x1000000
  if 0x100000000 ≤ off then
    let die := h.n * 8 + (off / 0x100000000 - 1) % 8
    let o := off % 0x100000000
    if 0x10000000 ≤ o then nodePort die (tileStop ((o - 0x10000000) / 0x100000 / 4)) ((o - 0x10000000) / 0x100000 % 4)
    else if o / 0x1000000 = 1 then nodePort die (tileStop (o % 0x1000000 / 0x10000)) 0
    else nodePort die 17 0
  else if blk = 5 then nodePort (hubCode h) 34 0
  else if blk = 8 then nodePort (hubCode h) (12 + off % 0x1000000 / 0x100000 % 12) 0
  else if 0x10 ≤ blk ∧ blk < 0x20 then nodePort (hubCode h) 24 0
  else if blk = 0x20 then nodePort (hubCode h) (26 + off % 0x1000000 / 0x100000 % 8 / 4) (off % 0x1000000 / 0x100000 % 4)
  else if blk = 0x21 then nodePort (hubCode h) (28 + off % 0x1000000 / 0x100000 % 16 / 8) (off % 0x1000000 / 0x100000 % 8)
  else if blk = 0x22 then nodePort (hubCode h) 30 0
  else if blk = 0x23 then nodePort (hubCode h) 31 0
  else if blk = 0x24 then nodePort (hubCode h) 32 0
  else nodePort (hubCode h) 33 0

/-- Stop of an agent for messages about a sector: a die's agent is its L3 slice of the sector, a CPE cache group its stop 24. -/
def agentPlace (a sector : Nat) : Nat :=
  if a < 16 then nodePort a (tileStop (l3Slice sector)) 0
  else if a < 18 then nodePort a 24 0
  else if 64 ≤ a then a - 64
  else nodePort 16 33 0

/-- Home slice of a sector: that of its channel (R232). -/
def homePlace (s : State) (h f : Half) (sector : Nat) : Nat :=
  nodePort (hubCode h) (12 + chanOf (s.mem.get h) (placeOf s f (sector * 64)).l % 12) 0

/-- The stop a message's ADDR names: a home slice, an attach port, the channel subsystem or a register's block. -/
def farPlace (s : State) (m : Msg) : Nat :=
  match regionOf (m.sector * 64) with
  | .attach p _ => nodePort (16 + p / 2) (31 + p % 2) 0
  | .path h pp _ => nodePort (hubCode h) (24 + pp / 8) 0
  | .regs h off => regPlace h off
  | _ => homePlace s m.home m.from_ m.sector

/-! ### Message codes (R236, R237) -/

/-- CLASS and OP of a message. -/
def MsgOp.code (op : MsgOp) (data : Bool) : Nat × Nat :=
  match op, data with
  | .rds, _ => (0, 0) | .rdx, _ => (0, 1) | .upg, _ => (0, 2) | .rdc, _ => (0, 3)
  | .wrf, _ => (0, 4) | .wrp, _ => (0, 5) | .atm, _ => (0, 6) | .mnt, _ => (0, 7)
  | .rrd, _ => (0, 8) | .rwr, _ => (0, 9) | .ops, _ => (0, 0xA) | .int, _ => (0, 0xB)
  | .snps, _ => (1, 0) | .snpx, _ => (1, 1) | .snpc, _ => (1, 2) | .snpk, _ => (1, 3) | .snpi, _ => (1, 4) | .purge, _ => (1, 5)
  | .rspI, false => (2, 0) | .rspS, false => (2, 1) | .rspE, false => (2, 2) | .rspO, false => (2, 3) | .rspM, false => (2, 4)
  | .rspMiss, _ => (2, 5) | .rspEvicting, _ => (2, 6)
  | .gntS, false => (2, 8) | .gntE, false => (2, 9) | .gntM, false => (2, 0xA)
  | .cmp, false => (2, 0xB) | .cack, _ => (2, 0xC) | .wback, _ => (2, 0xD) | .retry, _ => (2, 0xE)
  | .domainAsleep, _ => (2, 0x10) | .domainOff, _ => (2, 0x11) | .aerr, _ => (2, 0x12) | .mirack, _ => (2, 0x13)
  | .rspI, true => (3, 0) | .rspS, true => (3, 1) | .rspE, true => (3, 2) | .rspO, true => (3, 3) | .rspM, true => (3, 4)
  | .gntS, true => (3, 8) | .gntE, true => (3, 9) | .gntM, true => (3, 0xA) | .cmp, true => (3, 0xB)
  | .wbn, _ => (3, 0xC) | .mirw, _ => (3, 0xD) | .mirh, _ => (3, 0xE)

def allOps : List MsgOp :=
  [.rds, .rdx, .upg, .rdc, .wrf, .wrp, .atm, .mnt, .rrd, .rwr, .ops, .int, .snps, .snpx, .snpc, .snpk, .snpi, .purge,
   .rspI, .rspS, .rspE, .rspO, .rspM, .rspMiss, .rspEvicting, .gntS, .gntE, .gntM, .cmp, .cack, .wback, .retry,
   .domainAsleep, .domainOff, .aerr, .mirack, .wbn, .mirw, .mirh]

/-- The message a CLASS and OP stand for; every other value is reserved, and a router discards the flit (R237). -/
def msgOfCode (cls op : Nat) : Option MsgOp := allOps.find? (fun x => x.code (cls == 3) == (cls, op))

/-! ### Source and destination -/

/-- A message that an agent sends towards a home or a unit. -/
def toFar (op : MsgOp) : Bool :=
  match op with
  | .wbn => true | .cack => true
  | .rspI => true | .rspS => true | .rspE => true | .rspO => true | .rspM => true | .rspMiss => true | .rspEvicting => true
  | _ => startTide op == 0

/-- Source and destination node and port of a message. -/
def ends (s : State) (op : MsgOp) (m : Msg) : Nat × Nat :=
  match op with
  | .mirw => (homePlace s m.home m.from_ m.sector, homePlace s m.home.other m.from_ m.sector)
  | .mirack => (homePlace s m.home.other m.from_ m.sector, homePlace s m.home m.from_ m.sector)
  | .mirh => (nodePort (hubCode m.home) 33 0, nodePort (hubCode m.home.other) 33 0)
  | _ => if toFar op then (agentPlace m.agent m.sector, farPlace s m) else (farPlace s m, agentPlace m.agent m.sector)

/-! ### Header, payload, check (R235–R239) -/

/-- AUX of the header (R236). -/
def auxOf (op : MsgOp) (m : Msg) : Nat :=
  match op with
  | .retry => m.aux % 16
  | .domainAsleep => m.aux % 16
  | .mnt => m.aux % 4
  | .atm => m.aux % 16
  | _ => 0

/-- First byte of a WRP's payload window: the lowest byte written, at most 32 (R236, R239). -/
def woff (m : Msg) : Nat := min 32 (((upTo 64).find? (fun i => bitOf m.mask i)).getD 0)

/-- The header (R236) of a message between two places with an EPOCH value. -/
def headerOf (src dst : Nat) (epoch : Bool) (op : MsgOp) (m : Msg) : Nat :=
  let c := op.code m.hasData
  putBits [(126, c.1), (123, m.tide % 8), (122, b2n epoch), (116, c.2), (104, dst / 16 % 4096), (92, src / 16 % 4096), (80, m.txid % 4096),
    (34, m.sector % 2 ^ 46), (30, b2n m.poison), (26, auxOf op m), (20, if op = .wrp then woff m else 0), (16, dst % 16), (12, src % 16)]

/-- One-shot tag: request ID, LCN and context (R239). -/
def tagOf (m : Msg) : Nat := m.rid % 65536 * 65536 + m.lcn % 1024 * 64 + m.ctx % 2 * 32

def pad (n : Nat) (d : List Byte) : List Byte := (d ++ List.replicate n 0).take n

/-- The payload (R239): bytes that are not listed are 0. -/
def payloadOf (op : MsgOp) (m : Msg) : List Byte :=
  match op with
  | .wrp => pad 64 (slice m.data (woff m) 32 ++ toBytes 4 (m.mask / 2 ^ woff m))
  | .atm => toBytes 16 m.opd1 ++ toBytes 16 m.opd2 ++ List.replicate 28 0 ++ toBytes 4 (tagOf m)
  | .rrd => toBytes 8 0 ++ toBytes 2 m.aux ++ List.replicate 50 0 ++ toBytes 4 (tagOf m)
  | .rwr => toBytes 8 m.opd1 ++ toBytes 2 m.aux ++ List.replicate 50 0 ++ toBytes 4 (tagOf m)
  | .ops => pad 60 m.data ++ toBytes 4 (tagOf m)
  | _ => pad 64 m.data

/-- CHECK (R238): LACK, LSEQ and the CRC-32C of the flit's first 0x54 bytes. -/
def flitBytes (header : Nat) (payload : List Byte) (lseq lack : Nat) : List Byte :=
  let body := toBytes 16 header ++ pad 64 payload ++ toBytes 2 lack ++ toBytes 2 lseq
  body ++ toBytes 4 (crc32c 0 body)

/-- A receiver finds the CRC of a flit right (R238, R251). -/
def flitGood (f : List Byte) : Bool := f.length == 88 && fieldAt f 0x54 4 == crc32c 0 (f.take 0x54)

/-- What a receiver reads back from a flit: CLASS and OP, reserved ones being discarded (R237). -/
def flitMsg (f : List Byte) : Option MsgOp :=
  let hd := fieldAt f 0 16
  msgOfCode (fld hd 127 126) (fld hd 121 116)

/-! ### Lanes (R249, R250) -/

/-- Bytes a unit interval carries: 8 at 64 lanes, 4 at 32. -/
def perUnit (wide : Bool) : Nat := if wide then 8 else 4

/-- What lane `l` of the lanes in use carries in unit interval `u`. -/
def laneBit (wide : Bool) (f : List Byte) (u l : Nat) : Bool := (f.getD (perUnit wide * u + l / 8) 0).getLsbD (l % 8)

/-- Unit intervals a flit takes. -/
def unitCount (wide : Bool) : Nat := if wide then 11 else 22

/-- The flit a receiver puts together from its lanes. -/
def fromLanes (wide : Bool) (lane : Nat → Nat → Bool) : List Byte :=
  (upTo 88).map (fun b => BitVec.ofNat 8 (putBits ((upTo 8).map (fun i => (i, b2n (lane (b / perUnit wide) (b % perUnit wide * 8 + i)))))))

end Sys2Proof.Machine
end

