-- ==== Sys2Proof/Machine/MemRun.lean ====
section
/-! DEFINITION. The memory controllers: errors, merge entries, scrubbing, row disturbance, retraining, sparing, training
and the interleave set (R263–R294). -/
namespace Sys2Proof.Machine

def chOf (s : State) (h : Half) (c : Nat) : Chan := tget Chan.reset (s.mem.get h).chans c
def updCh (h : Half) (c : Nat) (f : Chan → Chan) (s : State) : State :=
  updMem h (fun m => { m with chans := tmod Chan.reset m.chans c f }) s
def chUnit (h : Half) (c : Nat) : Nat := srcOf h 0xFF 3 c

/-- The channel serves traffic. -/
def chLive (c : Chan) : Bool := c.st == .mapped || c.st == .copying

/-- Half-local address of line `j` of slot `sl` (R269). -/
def slotLine (m : Mem) (sl j : Nat) : Nat := (j * m.map.length + sl) * 256

/-- Channel-local address of a half-local one: (Q div N) × 256 + L[7:0] (R269). -/
def localAddr (m : Mem) (l : Nat) : Nat := l / 256 / m.map.length * 256 + l % 256

/-- The DRAM location of a channel-local address (R269). -/
structure DramLoc where
  sub : Nat
  rank : Nat
  group : Nat
  bank : Nat
  row : Nat
  col : Nat
deriving DecidableEq, Repr

/-- Bits of A with `r` logical-rank bits and `w` row bits: bank group and bank are XORed with low row bits, columns C3:C0 are 0. -/
def dramLoc (r w a : Nat) : DramLoc :=
  let row := fld a (18 + r + w) (19 + r)
  { sub := fld a 6 6, rank := if r = 0 then 0 else fld a (18 + r) 19, group := (fld a 10 8).xor (row % 8),
    bank := (fld a 18 17).xor (fld row 4 3), row := row, col := fld a 16 11 * 32 + fld a 7 7 * 16 }

/-- Bank of a channel in which a half-local address lies, as row disturbance counts it (R280). -/
def bankNo (c : Chan) (m : Mem) (l : Nat) : Nat :=
  let d := dramLoc c.rankb (if c.row17 then 17 else 16) (localAddr m l)
  ((d.rank * 2 + d.sub) * 8 + d.group) * 4 + d.bank

/-- Slot of a channel in the interleave set. -/
def slotOf (m : Mem) (c : Nat) : Option Nat := m.map.idxOf? c

/-- Physical address of a half-local address as its requester issues it (R266). -/
def paOf (s : State) (h : Half) (l : Nat) : Nat :=
  match effMode s with
  | .unified =>
    let m := min (capacity s .a) (capacity s .b)
    if l < m then l / 4096 * 8192 + h.n * 4096 + l % 4096 else l + m
  | _ => l

/-! ### Errors (R273, R277, R292) -/

/-- Latch an uncorrectable error of a channel and log it. -/
def memUe (h : Half) (c pa : Nat) (cmd : Bool) (s : State) : State :=
  let s1 := updCh h c (fun x => if x.ueV then { x with ueMore := true }
    else { x with ueV := true, ueCmd := cmd, uePa := if cmd then 0 else pa / 64 }) s
  logNow h (rpt (chUnit h c) 2 clsUC 0x0402 (res [(8, if cmd then 0 else pa / 64), (1, b2n cmd)])) s1

/-- The spare of a half, while it is free (R293). -/
def freeSpare (m : Mem) : Option Nat :=
  if m.spareCh < 12 ∧ (tget Chan.reset m.chans m.spareCh).st = .spare then some m.spareCh else none

/-- Start a sparing copy (R286 step 1). -/
def startCopy (h : Half) (c : Nat) (cmd : Option Prog) (s : State) : State :=
  match freeSpare (s.mem.get h) with
  | none => s
  | some d =>
    updMem h (fun m => { m with copy := true, copySrc := c, copyDst := d, copyPtr := 0, copyCmd := cmd })
      (updCh h c (fun x => { x with st := .copying }) (updCh h d (fun x => { x with st := .copying }) s))

/-- A corrected error of a channel: its bucket, and sparing on overflow when AUTO is 1 (R277, R286). -/
def memCe (h : Half) (c : Nat) (s : State) : State :=
  let r := bucketHit (chUnit h c) 0 (bump (chUnit h c) 0x283 1 s)
  let m := r.1.mem.get h
  if r.2 ∧ m.auto ∧ ¬ m.copy ∧ (chOf r.1 h c).st = .mapped then startCopy h c none r.1 else r.1

/-- Poison a sector of a half, and its other copy when it is the ordering home (R273, R274). -/
def poisonSector (h : Half) (l : Nat) (both : Bool) (s : State) : State :=
  let put := fun (g : Half) (u : State) => updMem g (fun m => memPut m (l / 64) (memBytes m (l / 64)) true) u
  let s1 := markPsn h (paOf s h l / 64) true (put h s)
  let home := placeOf s (if effMode s = .split then h else .a) (paOf s h l)
  if both ∧ home.half = h then (match home.mirror with | some o => put o s1 | none => s1) else s1

/-- The outcome of a DRAM read: 0 good, 1 corrected, 2 uncorrectable (R273). A sector already poisoned and a channel
that has FAILED record nothing. -/
def memErr (h : Half) (l err : Nat) (s : State) : State :=
  let m := s.mem.get h
  let c := chanOf m l
  if err = 0 ∨ m.map = [] ∨ memPoisoned m (l / 64) then s
  else if err = 1 then memCe h c s
  else memUe h c (paOf s h l) false (poisonSector h l true s)

/-- The same for a sector as a requester of half `f` names it. -/
def memErrAt (f : Half) (sector err : Nat) (s : State) : State :=
  let p := placeOf s f (sector * 64)
  memErr p.half (p.l / 64 * 64) err s

/-- MEM_UE.V written 1 (R292). -/
def runMemUeClear (h : Half) (c : Nat) (s : State) : State := updCh h c (fun x => { x with ueV := false, ueMore := false }) s

/-! ### Failure (R288) -/

/-- Class of a channel's failure: UF in MIRRORED mode, whose half the region broker then reports lost. -/
def failCls (s : State) : Nat := if effMode s = .mirrored then clsUF else clsUC

/-- A channel becomes FAILED. -/
def failChan (h : Half) (c : Nat) (s : State) : State :=
  let m := s.mem.get h
  let s1 := updMem h (fun k => { k with failedHold := setIns k.failedHold c }) (updCh h c (fun x => { x with st := .failed, hold := false }) s)
  let s2 := if m.copy ∧ m.copySrc = c then
      failOpt m.copyCmd 0 (updMem h (fun k => { k with copy := false, copyCmd := none }) (updCh h m.copyDst (fun x => { x with st := .spare }) s1))
    else if m.copy ∧ m.copyDst = c then
      failOpt m.copyCmd 0 (updMem h (fun k => { k with copy := false, copyCmd := none, spareCh := 15 })
        (updCh h m.copySrc (fun x => { x with st := .mapped }) s1))
    else if m.spareCh = c then updMem h (fun k => { k with spareCh := 15 }) s1
    else s1
  logNow h (rpt (chUnit h c) 2 (failCls s) 0x0405 0) s2

/-- A full retrain ended: RETRAINS counts it, or the channel FAILED (R284). -/
def fullRetrain (h : Half) (c : Nat) (ok : Bool) (s : State) : State :=
  if ok then
    let s1 := updCh h c (fun x => { x with retrains := sat (x.retrains + 1) 255 }) s
    logNow h (rpt (chUnit h c) 2 clsCE 0x0404 (chOf s1 h c).retrains) s1
  else failChan h c s

/-- CA_PARITY_ALERT: 0 cured by replay; 1 a full retrain cures it; 2 it persists. `lost` are the half-local sectors of
writes whose outcome is unknown (R273). -/
def runCaParity (h : Half) (c outcome : Nat) (lost : List Nat) (s : State) : State :=
  let st := (chOf s h c).st
  if st = .down ∨ st = .failed then s
  else if outcome = 0 then logNow h (rpt (chUnit h c) 2 clsCE 0x0403 0) (memCe h c s)
  else
    let s1 := memUe h c 0 true (logNow h (rpt (chUnit h c) 2 clsUC 0x0403 0) s)
    let s2 := fullRetrain h c (outcome = 1) s1
    (lost.filter (fun l => chanOf (s.mem.get h) (l * 64) == c && decide (l * 64 < capacity s h))).foldl (fun t l => poisonSector h (l * 64) true t) s2

/-- PERIODIC_RETRAIN: 0 margin good; 1 margin low and a full retrain succeeds; 2 it fails (R283, R284). -/
def runRetrain (h : Half) (c outcome : Nat) (s : State) : State :=
  let st := (chOf s h c).st
  if st = .down ∨ st = .failed ∨ st = .training then s
  else if outcome = 0 then s
  else fullRetrain h c (outcome = 1) s

/-! ### Merge entries (R275) -/

/-- UNIT of a hub's Stockpot (R71). -/
def stockUnit (h : Half) : Nat := srcOf h 0xFF 0xB 0

/-- A merge entry of an SRAM array group drains. An uncorrectable error on its merge read loses a Stockpot line, which is read again
from DRAM (R205), and marks a log entry DAMAGED (R568); the chapters of the other arrays give no rule (log 39). -/
def sramDrain (h : Half) (grp i err : Nat) (s : State) : State :=
  match (tget [] s.units.sram (h.n * 16 + grp))[i]? with
  | none => s
  | some w =>
    let s1 := updSram (h.n * 16 + grp) (fun l => l.eraseIdx i) s
    if err = 0 then s1
    else if grp < 12 then
      let s2 := (bucketHit (stockUnit h) 0 s1).1
      if err = 1 then s2 else updHome h (fun x => { x with stock := x.stock.erase w }) s2
    else if grp = 14 ∧ err ≠ 1 then
      updLog h (fun l => { l with entries := l.entries.map (fun e => if e.index = w then { e with damaged := true } else e) }) s1
    else s1

/-- MERGE_DRAIN of the i-th entry of channel `c`, or from 16 on of SRAM array group c − 16 (R275, R276): written alone when full, else
read, merged and written. -/
def runMergeDrain (h : Half) (c i err : Nat) (s : State) : State :=
  if 16 ≤ c then sramDrain h (c - 16) i err s else
  match (chOf s h c).merges[i]? with
  | none => s
  | some e =>
    let s1 := if e.mask = 2 ^ 64 - 1 then s else memErr h (e.sector * 64) err (bump (chUnit h c) 0x287 1 s)
    updMem h (fun m => memPut m e.sector (memBytes m e.sector) (m.poison.contains e.sector)) s1

/-! ### Scrubbing (R279) -/

/-- Sectors of a channel in the interleave set. -/
def chSectors (m : Mem) : Nat := 2 ^ m.kshift / 64

/-- The scrubber reads the next sector of the channel. -/
def scrubOne (h : Half) (c err : Nat) (s : State) : State :=
  let m := s.mem.get h
  match slotOf m c with
  | none => s
  | some sl =>
    let a := (chOf s h c).scrub
    let s1 := updCh h c (fun x => { x with scrub := (x.scrub + 1) % chSectors m }) s
    memErr h (slotLine m sl (a / 4) + a % 4 * 64) err s1

/-- PATROL_SCRUB: SCRUB_H 0 stops it. -/
def runPatrol (h : Half) (c err : Nat) (s : State) : State :=
  if (s.mem.get h).scrubH = 0 ∨ ¬ chLive (chOf s h c) then s else scrubOne h c err s

/-! ### Row disturbance (R280–R282) -/

/-- RFM_ISSUE: a bank's activation count reached the threshold. -/
def runRfm (h : Half) (c bank : Nat) (s : State) : State :=
  if (chOf s h c).st = .down then s else updCh h c (fun x => { x with rfm := x.rfm + 1, act := tset 0 x.act bank 0 }) s

def rhLog (h : Half) (c start : Nat) (t : Throttle) (s : State) : State :=
  logNow h (rpt (chUnit h c) 2 clsCE 0x0407 (res [(1, start), (2, t.src), (1, t.port), (1, t.level)])) s

/-- The entry with the lowest level, the first of equals. -/
def lowestThr : List Throttle → Option Throttle
  | [] => none
  | x :: t => match lowestThr t with | none => some x | some y => if y.level < x.level then some y else some x

/-- AGGRESSOR_DETECTED with its dominant requester: neighbours refreshed, DETECT counted, the requester throttled. -/
def runAggressor (h : Half) (c src port : Nat) (s : State) : State :=
  let k := chOf s h c
  if k.st = .down then s
  else
    let s1 := bump (chUnit h c) 0x284 1 (updCh h c (fun x => { x with rhDetect := sat (x.rhDetect + 1) 4095, rfm := x.rfm + 1 }) s)
    if ¬ k.rhEn then s1
    else if k.throttled.any (fun t => t.src == src && t.port == port) then
      updCh h c (fun x => { x with throttled := x.throttled.map (fun t =>
        if t.src = src ∧ t.port = port then { t with level := min 8 (t.level + 1), fresh := true } else t) }) s1
    else
      let new : Throttle := ⟨src, port, 1, true⟩
      let add := fun (u : State) => rhLog h c 1 new (updCh h c (fun x => { x with throttled := x.throttled ++ [new], rhSrc := src, rhPort := port }) u)
      if k.throttled.length < 4 then add s1
      else match lowestThr k.throttled with
        | none => add s1
        | some o => add (rhLog h c 0 { o with level := 0 } (updCh h c (fun x => { x with throttled := x.throttled.erase o }) s1))

/-- REFRESH_WINDOW_END: levels without a new aggressor fall by 1. -/
def runWindowEnd (h : Half) (c : Nat) (s : State) : State :=
  let ts := (chOf s h c).throttled.map (fun t => if t.fresh then { t with fresh := false } else { t with level := t.level - 1 })
  (ts.filter (fun t => t.level == 0)).foldl (fun u t => rhLog h c 0 t u)
    (updCh h c (fun x => { x with throttled := ts.filter (fun t => t.level != 0), act := [] }) s)

/-- MEM_RH written: THRESH within its limits; EN 0 ends all throttling (R282). -/
def rhWrite (h : Half) (c : Nat) (en : Bool) (th : Nat) (s : State) : State :=
  let ts := (chOf s h c).throttled
  let s1 := updCh h c (fun x => { x with rhEn := en, rhThresh := th % 65536 }) s
  if en then s1 else ts.foldl (fun u t => rhLog h c 0 { t with level := 0 } u) (updCh h c (fun x => { x with throttled := [] }) s1)

/-- Level of the most recently throttled requester. -/
def rhLevel (c : Chan) : Nat :=
  match c.throttled.find? (fun t => t.src == c.rhSrc && t.port == c.rhPort) with | some t => t.level | none => 0

/-! ### Sparing (R286, R287) -/

/-- SPARING_COPY_LINE: the line at PTR goes to the spare; `errs` gives the outcome of its four sector reads. -/
def runCopyLine (h : Half) (errs : List Nat) (s : State) : State :=
  let m := s.mem.get h
  match slotOf m m.copySrc with
  | none => s
  | some sl =>
    if ¬ m.copy ∨ 2 ^ m.kshift / 256 ≤ m.copyPtr then s
    else
      let s1 := (upTo 4).foldl (fun t i => memErr h (slotLine m sl m.copyPtr + i * 64) (errs.getD i 0) t) s
      if (s1.mem.get h).copy then updMem h (fun k => { k with copyPtr := k.copyPtr + 1 }) s1 else s1

/-- SPARING_COPY_COMPLETE: the spare takes the slot (R286 steps 3 and 4). -/
def runCopyComplete (h : Half) (s : State) : State :=
  let m := s.mem.get h
  if ¬ m.copy ∨ m.copyPtr < 2 ^ m.kshift / 256 then s
  else
    let s1 := updCh h m.copyDst (fun x => { x with st := .mapped }) (updCh h m.copySrc (fun x => { x with st := .failed }) s)
    let s2 := updMem h (fun k => { k with map := k.map.map (fun c => if c = m.copySrc then m.copyDst else c), copy := false,
                                          copyCmd := none, spareCh := 15, failedHold := setIns k.failedHold m.copySrc }) s1
    let s3 := logNow h (rpt (chUnit h m.copySrc) 2 clsCR 0x0406 (res [(1, m.copySrc), (1, m.copyDst)])) s2
    finishOpt m.copyCmd stDone 1 m.copyDst s3

/-! ### Training and the interleave set (R263, R264, R267, R291) -/

def dimmOf (s : State) (h : Half) (c : Nat) : Dimm := tget s.cfg.dimm s.cfg.dimms (h.n * 16 + c)

/-- R263 supports the modules of the channel. -/
def dimmOk (d : Dimm) : Bool :=
  (d.kind == 1 && (d.dpc == 1 || d.dpc == 2) && decide (d.rankb ≤ 3)) || (d.kind == 2 && d.dpc == 1 && decide (d.rankb ≤ 2))

/-- Kind of module the package uses (R264); 0 when it holds none. -/
def pkgKind (s : State) : Nat :=
  let cs := (upTo 12).map (fun c => (Half.a, c)) ++ (if hubPresent s .b then (upTo 12).map (fun c => (Half.b, c)) else [])
  match cs.find? (fun x => dimmOk (dimmOf s x.1 x.2)) with
  | some x => (dimmOf s x.1 x.2).kind
  | none => 0

def memConfigLog (h : Half) (c : Nat) (s : State) : State := logNow h (rpt (chUnit h c) 2 clsCE 0x0408 0) s

/-- A half's channels start training when it enters BRINGUP; its DRAM will read as zero (R40, R288, R291). -/
def trainAll (h : Half) (s : State) : State :=
  let m := s.mem.get h
  let st := fun (c : Nat) =>
    if m.failedHold.contains c then ChState.failed
    else if dimmOk (dimmOf s h c) then .training else .down
  updMem h (fun k => { k with
    chans := (upTo 12).foldl (fun (t : Tab Chan) c => tset Chan.reset t c { Chan.reset with st := st c }) []
    fixed := false, map := [], kshift := 0, spareCh := 15, copy := false, copyCmd := none, copyPtr := 0, dram := [], poison := [] }) s

/-- MEM_TRAINING_END: a channel that trained starts zeroing; one that holds the other kind stays DOWN and is logged
(R264). A channel whose training fails stays DOWN (log 13). -/
def runTrainingEnd (h : Half) (c : Nat) (ok : Bool) (s : State) : State :=
  let d := dimmOf s h c
  if (chOf s h c).st ≠ .training then s
  else if d.kind ≠ pkgKind s then memConfigLog h c (updCh h c (fun x => { x with st := .down }) s)
  else if ¬ ok then updCh h c (fun x => { x with st := .down }) s
  else updCh h c (fun x => { x with
    st := .zeroing, speed := if d.kind = 2 then 2 else 1, kind := d.kind, dpc := d.dpc, rankb := d.rankb, row17 := d.d32 }) s

/-- Lowest-numbered trained channel of a half. -/
def firstTrained (s : State) (h : Half) : Option Nat := (upTo 12).find? (fun c => (chOf s h c).kind != 0)

/-- A channel matches the organisation of its half (R264). -/
def orgOk (s : State) (h : Half) (c : Nat) : Bool :=
  match firstTrained s h with
  | none => false
  | some f =>
    let x := chOf s h f
    let y := chOf s h c
    x.dpc == y.dpc && x.rankb == y.rankb && x.row17 == y.row17

/-- CHANNEL_ZEROING_COMPLETE: the readiness bit sets; the channel waits UNMAPPED for the next fixing (R267, R291). -/
def runZeroed (h : Half) (c : Nat) (s : State) : State :=
  if (chOf s h c).st ≠ .zeroing then s
  else
    let s1 := updCh h c (fun x => { x with st := .unmapped }) s
    if orgOk s h c then s1 else memConfigLog h c s1

/-- Channels that qualify for the interleave set now (R267). -/
def qualify (s : State) (h : Half) : List Nat :=
  (upTo 12).filter (fun c => let x := (chOf s h c).st
    (x == .unmapped || x == .mapped || x == .spare || x == .copying) && orgOk s h c)

/-- The channels of the set and the spare as they would be fixed now. -/
def wouldFix (s : State) (h : Half) : List Nat × Option Nat :=
  let q := qualify s h
  if (s.mem.get h).spareEn ∧ 2 ≤ q.length then (q.dropLast, q.getLast?) else (q, none)

/-- log2 of K (R267). -/
def kshiftOf (s : State) (h : Half) : Nat :=
  match (wouldFix s h).1 with
  | [] => 0
  | c :: _ => let x := chOf s h c
    19 + x.rankb + (if x.row17 then 17 else 16)

/-- Capacity the half's set would have if fixed now (R39). -/
def wouldCap (s : State) (h : Half) : Nat := (wouldFix s h).1.length * 2 ^ kshiftOf s h

/-- INTERLEAVE_SET_FIX (R267). A copy under way ends, since the set is formed anew (log 13). -/
def fixSet (h : Half) (s : State) : State :=
  let w := wouldFix s h
  let k := kshiftOf s h
  failOpt (s.mem.get h).copyCmd 0 <| updMem h (fun m => { m with
    fixed := true, map := w.1, kshift := k, spareCh := w.2.getD 15, copy := false, copyCmd := none
    chans := (upTo 12).foldl (fun (t : Tab Chan) c => tmod Chan.reset t c (fun x =>
      if w.1.contains c then { x with st := .mapped } else if w.2 = some c then { x with st := .spare }
      else if x.st = .mapped ∨ x.st = .spare ∨ x.st = .copying then { x with st := .unmapped } else x)) m.chans }) s

/-- Every ready channel of a half writes zeros: its DRAM reads as zero (R40). -/
def rezero (h : Half) (s : State) : State :=
  updMem h (fun m => { m with dram := [], poison := [], chans := m.chans.map (fun e => (e.1, { e.2 with merges := [] })) }) s

end Sys2Proof.Machine
end

