-- ==== Sys2Proof/Machine/FabricRun.lean ====
section
/-! DEFINITION. The fabric and the Rytum links: routes, tide levels, retraining, heartbeats, clocks, Breakwater traffic and
maintenance slots (R226–R262, R540). -/
namespace Sys2Proof.Machine

/-! ### Modules and their peers (R232, R256) -/

def rytKey (node m : Nat) : Nat := node * 32 + m
def rytOf (s : State) (k : Nat) : Ryt := tget Ryt.reset s.fab.modules k
def updRyt (k : Nat) (f : Ryt → Ryt) (s : State) : State := updFab (fun x => { x with modules := tmod Ryt.reset x.modules k f }) s

/-- The other side of a module: a hub's modules 2k and 2k + 1 meet modules 0 and 1 of site k; 16 to 23 are the
Breakwater's. -/
def rytPeer (k : Nat) : Nat :=
  let node := k / 32
  let m := k % 32
  if node < 16 then rytKey (16 + node / 8) (node % 8 * 2 + m % 2)
  else if 16 ≤ m then rytKey (33 - node) m
  else rytKey ((node - 16) * 8 + m / 2) (m % 2)

/-- The link exists: its modules' numbers do, and both its dies are populated (R9, R257). -/
def rytPresent (s : State) (k : Nat) : Bool :=
  let node := k / 32
  let m := k % 32
  if node < 16 then m < 2 && diePresent s node
  else if 16 ≤ m then decide (m < 24) && node < 18 && hubPresent s .b
  else node < 18 && hubPresent s (halfOf (node - 16)) && diePresent s ((node - 16) * 8 + m / 2)

/-- Hub side of a link, and its UNIT (R71). -/
def hubSide (k : Nat) : Nat := if k / 32 < 16 then rytPeer k else k
def rytUnit (k : Nat) : Nat :=
  if k / 32 < 16 then srcOf (dieHalf (k / 32)) (k / 32) 0xA (k % 32) else srcOf (halfOf (k / 32 - 16)) 0xFF 0xA (k % 32)
def unitRyt (u : Nat) : Nat := if unitDie u = 0xFF then rytKey (16 + (unitHalf u).n) (unitInst u) else rytKey (unitDie u) (unitInst u)

def both (k : Nat) (f : Ryt → Ryt) (s : State) : State := updRyt (rytPeer k) f (updRyt k f s)

/-! ### Buckets (R241) -/

/-- Share of a module by its width: 2 for 64 lanes, 1 for 32. -/
def rytShare (r : Ryt) : Nat := if r.st = .fenced ∨ r.st = .down then 0 else if r.width = 3 then 2 else if r.width = 0 then 0 else 1

/-- The module that names a pair of dies: a hub's; Hub A's of the Breakwater. -/
def pairSide (k : Nat) : Nat :=
  let h := hubSide k
  if 16 ≤ h % 32 then 16 * 32 + h % 32 else h

/-- Hub modules of the pair that a link joins. -/
def pairMods (k : Nat) : List Nat :=
  let h := pairSide k
  if 16 ≤ h % 32 then (upTo 8).map (fun i => h / 32 * 32 + 16 + i) else [h / 2 * 2, h / 2 * 2 + 1]

/-- 64 buckets in proportion to the shares, each boundary rounded to the nearest. -/
def bucketsFor (s : State) (mods : List Nat) : List Nat :=
  let total := mods.foldl (fun (n : Nat) k => n + rytShare (rytOf s k)) 0
  if total = 0 then []
  else (mods.foldl (fun (a : Nat × List Nat) k =>
    let c := a.1 + rytShare (rytOf s k)
    (c, a.2 ++ List.replicate ((128 * c + total) / (2 * total) - (128 * a.1 + total) / (2 * total)) (k % 32))) (0, [])).2

def pairKey (k : Nat) : Nat :=
  let h := pairSide k
  (h / 32 - 16) * 32 + (if 16 ≤ h % 32 then 16 else (h / 32 - 16) * 8 + h % 32 / 2)

/-- Bucket of a packet: PA[13:8], PA[19:14] and PA[25:20] XORed, or the TXID of one without a sector address (R241). -/
def hashOf (op : MsgOp) (m : Msg) : Nat :=
  let pa := m.sector * 64
  match op with
  | .int => m.txid % 64 | .ops => m.txid % 64 | .cack => m.txid % 64 | .wback => m.txid % 64 | .retry => m.txid % 64
  | .domainAsleep => m.txid % 64 | .domainOff => m.txid % 64 | .aerr => m.txid % 64
  | _ => ((fld pa 13 8).xor (fld pa 19 14)).xor (fld pa 25 20)

/-! ### The path of a packet (R240) -/

/-- Steps from one coordinate to another. -/
def span (a b : Nat) : List Nat := if a < b then (upTo (b - a)).map (fun i => a + 1 + i) else (upTo (a - b)).map (fun i => a - 1 - i)

/-- Stops a packet meets on a mesh of `cols` columns: along the row to the destination column, then along the column (R240). -/
def meshPath (cols a b : Nat) : List Nat :=
  a :: ((span (a % cols) (b % cols)).map (fun x => a / cols * cols + x) ++ (span (a / cols) (b / cols)).map (fun y => y * cols + b % cols))

/-- Columns of a die's mesh (R232). -/
def meshCols (die : Nat) : Nat := if die < 16 then 5 else 6

/-- The die a packet enters next on its way between two dies. -/
def nextDie (cur dst : Nat) : Nat := if cur < 16 then 16 + cur / 8 else if dst < 16 ∧ dst / 8 = cur - 16 then dst else 33 - cur

/-- The crossings of a packet between two dies. -/
def crossings : Nat → Nat → Nat → List (Nat × Nat)
  | 0, _, _ => []
  | n + 1, cur, dst => if cur = dst then [] else (cur, nextDie cur dst) :: crossings n (nextDie cur dst) dst

/-- Pair of dies of a crossing, as `buckets` numbers it. -/
def crossPair (x : Nat × Nat) : Nat :=
  if x.1 < 16 then (x.2 - 16) * 32 + x.1 else if x.2 < 16 then (x.1 - 16) * 32 + x.2 else 16

/-- Route change whose scope a pair of dies is (R246): the die of the link, or 18 for the Breakwater. -/
def pairScope (pk : Nat) : Nat := if pk % 32 = 16 then 18 else pk % 32

/-- The bucket table a packet follows: the old one where it was injected before a change that is running (R245). A fenced module's
packets go to the surviving ones (R253). -/
def tableFor (s : State) (x : NetMsg) (pk : Nat) : List Nat :=
  let r := tget Route.reset s.fab.routes (pairScope pk)
  if r.changing && r.old.contains x && r.table != [] then r.table else tget [] s.fab.buckets pk

/-- The hub's module that carries a packet over a crossing, with its hub: the Breakwater's as Hub A numbers it. -/
def crossLink (s : State) (x : NetMsg) (c : Nat × Nat) : Nat :=
  let pk := crossPair c
  let hub := 16 + pk / 32
  let b := hashOf x.op x.m
  let k := rytKey hub ((tableFor s x pk).getD b 0)
  if (rytOf s k).st = .fenced then rytKey hub ((tget [] s.fab.buckets pk).getD b 0) else k

/-- Stop of a module on a die: 16 and 18 on a compute die; on a hub stop k for site k, 8 + j for the Breakwater (R232). -/
def rytStop (die hubModule : Nat) : Nat :=
  if die < 16 then (if hubModule % 2 = 0 then 16 else 18) else if hubModule < 16 then hubModule / 2 else 8 + (hubModule - 16) / 2

/-- The stops of a packet's path, die by die: in at its source, out through a Rytum stop, in at the peer's (R240). -/
def pathFrom (s : State) (x : NetMsg) (at_ dst : Nat) : List (Nat × Nat) → Nat → List (Nat × Nat)
  | [], die => (meshPath (meshCols die) at_ dst).map (fun p => (die, p))
  | c :: t, die =>
    let m := crossLink s x c % 32
    (meshPath (meshCols die) at_ (rytStop die m)).map (fun p => (die, p)) ++ pathFrom s x (rytStop c.2 m) dst t c.2

def crossingsOf (s : State) (x : NetMsg) : List (Nat × Nat) :=
  crossings 4 ((ends s x.op x.m).1 / 1024) ((ends s x.op x.m).2 / 1024)

def packetPath (s : State) (x : NetMsg) : List (Nat × Nat) :=
  let e := ends s x.op x.m
  pathFrom s x (e.1 / 16 % 64) (e.2 / 16 % 64) (crossingsOf s x) (e.1 / 1024)

/-! ### Route changes (R245, R246) -/

def updRoute (sc : Nat) (f : Route → Route) (s : State) : State := updFab (fun x => { x with routes := tmod Route.reset x.routes sc f }) s

/-- A packet lies in the scope of a change: the package, or a die it crosses. -/
def inScope (s : State) (sc : Nat) (x : NetMsg) : Bool :=
  sc == 18 || (ends s x.op x.m).1 / 1024 == sc || (crossingsOf s x).any (fun c => c.2 == sc)

/-- A change begins: packets injected from now carry the other EPOCH value, those under way are the old population (R245). -/
def beginRoute (s : State) (sc : Nat) (table : List Nat) (r : Route) : Route :=
  { r with changing := true, epoch := !r.epoch, old := s.coh.net.filter (inScope s sc), table := table }

/-- Start a change in a scope, from the bucket table a pair had; a change running makes it wait. -/
def routeFrom (sc : Nat) (table : List Nat) (s : State) : State :=
  updRoute sc (fun r => if r.changing then { r with queued := r.queued + 1 } else beginRoute s sc table r) s

def routeStart (sc : Nat) (s : State) : State := routeFrom sc [] s

/-- Old-epoch packets of a scope not delivered yet: its population (R245). -/
def population (s : State) (r : Route) : Nat := (r.old.filter (fun x => s.coh.net.contains x)).length

/-- ROUTE_EPOCH_CHANGE: with the old-epoch population at 0 the change is complete and the new tables are the only ones; a change that
waited starts. -/
def runRouteEnd (sc : Nat) (s : State) : State :=
  updRoute sc (fun r =>
    if ¬ r.changing ∨ 0 < population s r then r
    else if 0 < r.queued then { beginRoute s sc [] r with queued := r.queued - 1 }
    else { r with changing := false, old := [], table := [] }) s

/-- EPOCH of a packet's header: that of its source's scope when it was injected (R236, R245). -/
def epochOf (s : State) (x : NetMsg) : Bool :=
  let sc := (ends s x.op x.m).1 / 1024
  let r := tget Route.reset s.fab.routes sc
  if r.changing && r.old.contains x then !r.epoch else r.epoch

/-- The flit of a packet on a link with its sequence numbers (R235). -/
def flitOf (s : State) (x : NetMsg) (lseq lack : Nat) : List Byte :=
  let e := ends s x.op x.m
  flitBytes (headerOf e.1 e.2 (epochOf s x) x.op x.m) (payloadOf x.op x.m) lseq lack

/-- The Harbourmaster gives the pair its buckets by a route change of the two dies' scope. -/
def rebucket (k : Nat) (s : State) : State :=
  let t := bucketsFor s (pairMods k)
  let was := tget [] s.fab.buckets (pairKey k)
  routeFrom (pairScope (pairKey k)) was (updFab (fun x => { x with buckets := tset [] x.buckets (pairKey k) t }) s)

/-! ### Arbiters (R244) -/

/-- A packet at an arbiter: its input, tide level, and whether its virtual channel holds a credit on the output. -/
structure Waiter where
  input : Nat
  tide : Nat
  credit : Bool
deriving DecidableEq, Repr

/-- Inputs an arbiter still has to pass before it reaches one, going round from the input after the last granted. -/
def turnsTo (n last i : Nat) : Nat := (i + n - 1 - last % n) % n

/-- The packet an arbiter of `n` inputs grants: of those with a credit the highest tide level, and in turn after the last input
granted among equal ones (R244). -/
def arbiter (n last : Nat) (ws : List Waiter) : Option Waiter :=
  (ws.filter (fun w => w.credit)).foldl (fun b w =>
    match b with
    | none => some w
    | some x => if x.tide < w.tide ∨ (x.tide = w.tide ∧ turnsTo n last w.input < turnsTo n last x.input) then some w else some x) none

/-! ### Replay (R251) -/

/-- FLIT_CHECK_FAIL: the first of `n` flits the peer has sent unacknowledged is bad; it and every later one are discarded,
and NAK carries the last good LSEQ. -/
def runFlitFail (k n : Nat) (s : State) : State :=
  let r := rytOf s k
  if r.st ≠ .up ∨ n = 0 then s
  else
    updRyt (rytPeer k) (fun p => { p with
      replay := (upTo (min n 256)).map (fun i => (r.rxNext + i) % 65536)
      nextSeq := (r.rxNext + min n 256) % 65536
      nak := some ((r.rxNext + 65535) % 65536) }) s

/-- NAK: the sender resends from the next LSEQ; `ok` tells that the flits then arrive whole. -/
def runNak (k : Nat) (ok : Bool) (s : State) : State :=
  let r := rytOf s k
  match r.nak with
  | none => s
  | some g =>
    let now := (s.st64.get (halfOf (if k / 32 < 16 then k / 32 / 8 else k / 32 - 16))).toNat
    let s1 := bump (rytUnit k) 0x303 1 (updRyt k (fun x => { x with
      nak := none
      replays := x.replays.filter (fun t => decide (now < t + 1000000)) ++ [now]
      fails := if ok then 0 else x.fails + 1
      replay := if ok then [] else x.replay }) s)
    if ok then updRyt (rytPeer k) (fun p => { p with rxNext := (g + 1 + r.replay.length) % 65536 }) s1 else s1

/-- The module has reason to retrain (R251, R255, R259). -/
def wantsRetrain (r : Ryt) : Bool := r.st == .hold || decide (8 ≤ r.fails) || decide (16 ≤ r.replays.length)

/-- Both sides hold and train. -/
def startRetrain (k : Nat) (s : State) : State :=
  both k (fun r => { r with st := .training, attempt := 0, fails := 0, replays := [], nak := none, hb := none, solo := false }) s

/-- RYTUM_RETRAIN (R251, R252). -/
def runRetrainLink (k : Nat) (s : State) : State :=
  let r := rytOf s k
  if ¬ rytPresent s k ∨ ¬ (r.st = .up ∨ r.st = .hold) ∨ ¬ wantsRetrain r then s else startRetrain k s

/-! ### Training (R252, R253) -/

def popBits (x lo n : Nat) : Nat := (upTo n).foldl (fun (c : Nat) i => if bitOf x (lo + i) then c + 1 else c) 0

/-- Width, spares in use and lanes marked for a set of failed data lanes with `good` working spares; `half` restricts the
attempt to 32 lanes. -/
def trainWidth (failed good : Nat) (half : Bool) : Option (Nat × Nat × Nat) :=
  let lo := popBits failed 0 32
  let hi := popBits failed 32 32
  let f := failed % 2 ^ 64
  if ¬ half ∧ lo + hi ≤ good then some (3, lo + hi, f)
  else if lo ≤ good then some (1, lo, f % 2 ^ 32 + (2 ^ 64 - 2 ^ 32))
  else if hi ≤ good then some (2, hi, f / 2 ^ 32 * 2 ^ 32 + (2 ^ 32 - 1))
  else none

/-- A DIAG_LINK_RETRAIN of this link ends with the trained lanes (R72, R255). -/
def diagLinkDone (k lanes : Nat) (s : State) : State :=
  match s.prog.find? (fun g => g.pkt.op == 0x0A02 && (unitRyt (g.pkt.f 0 4) == k || unitRyt (g.pkt.f 0 4) == rytPeer k)) with
  | some g => finish g stDone 1 lanes s
  | none => s

def rytLog (k : Nat) (s : State) : State :=
  let u := hubSide k
  let r := rytOf s u
  logNow (halfOf (u / 32 - 16)) (rpt (rytUnit u) 2 clsCE 0x0501 (res [(1, u % 32), (1, r.width), (1, r.pwidth), (1, r.spares)])) s

/-- RYTUM_FENCE: the module is out of service, its flits go to the surviving modules (R253). -/
def fenceLink (k : Nat) (s : State) : State :=
  let u := hubSide k
  let s1 := both k (fun r => { r with st := .fenced, width := 0, replay := [], solo := false }) s
  diagLinkDone k 0 (logNow (halfOf (u / 32 - 16)) (rpt (rytUnit u) 2 clsCR 0x0502 (u % 32)) (rebucket k s1))

/-- RYTUM_TRAINING_END with the data lanes and spare lanes that failed the pattern test (R252, R253). A side that trains
alone after its reset leaves the other as it is (R255). -/
def runTrainEnd (k failed spareFailed : Nat) (s : State) : State :=
  let r := rytOf s k
  if r.st ≠ .training then s
  else
    let good := 4 - popBits spareFailed 0 4
    let retrain := decide (r.width ≠ 0)
    match trainWidth failed good (decide (3 ≤ r.attempt)) with
    | some (w, sp, ln) =>
      let upd := fun (x : Ryt) => { x with
        st := .up, width := w, pwidth := if r.solo then x.pwidth else w, spares := sp, lanes := ln, attempt := 0, missed := 0,
        replay := [], nak := none, solo := false, retrains := if retrain then sat (x.retrains + 1) 255 else x.retrains }
      if r.solo then updRyt k upd s
      else
        let s1 := both k upd s
        let s2 := if w = r.width then s1 else rebucket k s1
        let s3 := if retrain then bump (rytUnit (rytPeer k)) 0x304 1 (bump (rytUnit k) 0x304 1 (rytLog k s2)) else s2
        diagLinkDone k (if w = 3 then 64 else 32) s3
    | none =>
      if 3 ≤ r.attempt then fenceLink k s
      else if r.solo then updRyt k (fun x => { x with attempt := x.attempt + 1 }) s
      else both k (fun x => { x with attempt := r.attempt + 1 }) s

/-- Links of a hub to its dies start training; the Breakwater too when `bw` is set (R545). -/
def trainLinks (h : Half) (bw : Bool) (s : State) : State :=
  let ks := (upTo 16).map (fun m => rytKey (16 + h.n) m) ++ (if bw then (upTo 8).map (fun m => rytKey 16 (16 + m)) else [])
  ks.foldl (fun t k =>
    if rytPresent t k then both k (fun _ => { Ryt.reset with st := .training }) t else t) s

/-! ### Heartbeats, clocks, resets (R255, R259, R540) -/

/-- HEARTBEAT_SEND: WIDTH goes to the peer; the period counts as missed until the peer's own heartbeat arrives. -/
def runHbSend (k : Nat) (s : State) : State :=
  let r := rytOf s k
  if ¬ (r.st = .up ∨ r.st = .hold) then s
  else updRyt (rytPeer k) (fun p => { p with hb := some r.width }) (updRyt k (fun x => { x with missed := x.missed + 1 }) s)

/-- HEARTBEAT: a differing width freezes credits; the retrain follows. -/
def runHb (k : Nat) (s : State) : State :=
  match (rytOf s k).hb with
  | none => s
  | some w => updRyt k (fun x => { x with hb := none, pwidth := w, missed := 0, st := if x.st = .up ∧ w ≠ x.width then .hold else x.st }) s

/-- Modules of a die, or a hub's Breakwater modules. -/
def nodeMods (d : Nat) : List Nat := if d < 16 then [rytKey d 0, rytKey d 1] else (upTo 8).map (fun i => rytKey d (16 + i))

/-- FORWARDED_CLOCK_LOSS of a die, or of Hub B (17): the standby PLL takes over and its modules retrain in mesochronous
mode (R259). -/
def runClockFwdLoss (d : Nat) (s : State) : State :=
  if ¬ (if d < 16 then diePresent s d else d == 17 && hubPresent s .b) ∨ s.fab.standby.contains d then s
  else
    let s1 := updFab (fun x => { x with standby := setIns x.standby d }) s
    let meso := fun (r : Ryt) => { r with st := if r.st = .up then .hold else r.st, clkmode := true }
    (nodeMods d).foldl (fun t k => if (rytOf t k).st = .down ∨ (rytOf t k).st = .fenced then t else both k meso t) s1

/-- MODULE_RESET: one side of a module restarts and trains alone (R540). -/
def runModuleReset (k : Nat) (s : State) : State :=
  if ¬ rytPresent s k ∨ (rytOf s k).st = .fenced ∨ (rytOf s k).st = .down then s
  else updRyt k (fun r => { r with st := .training, width := 0, pwidth := 0, spares := 0, lanes := 0, attempt := 0, replay := [],
                                   nextSeq := 0, rxNext := 0, fails := 0, replays := [], missed := 0, hb := none, nak := none, solo := true }) s

/-! ### Tide levels and closed stops (R243, R247, R539) -/

/-- TIDE_RAISE of the i-th packet: those on their way first, then the requests that wait to be sent again. -/
def runTideRaise (i : Nat) (s : State) : State :=
  let up := fun (m : Msg) => { m with tide := min 7 (m.tide + 1) }
  let n := s.coh.net.length
  if i < n then updCoh (fun c => { c with net := modAt c.net i (fun x => { x with m := up x.m }) }) s
  else updCoh (fun c => { c with retries := modAt c.retries (i - n) (fun x => { x with m := up x.m }) }) s

/-- An address error given to an agent (R29). -/
def giveAerr (m : Msg) (s : State) : State := updFab (fun x => { x with aerrs := x.aerrs ++ [(m.agent, m.sector)] }) s

/-- HINT of the answer of a seal engine or mover whose stop is closed: 1 in GATED or closing towards it, 6 in DROWSE or closing towards
DROWSE or OFF; none while it is ACTIVE, or OFF (R247, R539). -/
def asleepHint (s : State) (unit : Nat) : Option Nat :=
  let byTarget := fun (v : Nat) => if v = 1 then 1 else 6
  if ¬ (unitType unit = 4 ∨ unitType unit = 5) ∨ pstateOf s unit = 3 then none
  else if pstateOf s unit ≠ 0 then some (byTarget (pstateOf s unit))
  else (s.units.preq.find? (fun r => r.unit == unit && r.target != 0)).map (fun r => byTarget r.target)

/-- A packet wakes the block, or marks it wake-pending while it is closing (R247). -/
def startWake (unit : Nat) (s : State) : State :=
  if s.units.preq.any (fun r => r.unit == unit && r.target != 0) then
    updUnits (fun x => { x with preq := x.preq.map (fun r => if r.unit = unit then { r with wake := true } else r) }) s
  else setPstate unit 0 s

/-- DOMAIN_ASLEEP with its HINT: the request is sent again after the HINT wait; after 16 answers its agent gets an address error. The
block starts its wake (R247, R539). -/
def runAsleep (op : MsgOp) (m : Msg) (unit : Nat) (s : State) : State :=
  match asleepHint s unit with
  | none => s
  | some hint =>
    let same := fun (a : Asleep) => a.op == op && a.m == m
    let n := match s.fab.asleep.find? same with | some a => a.n + 1 | none => 1
    let s2 := updFab (fun x => { x with asleep := dropFirst same x.asleep }) (startWake unit s)
    if 16 ≤ n then giveAerr m (updCoh (fun c => { c with net := dropFirst (fun x => x.op == op && x.m == m) c.net }) s2)
    else updFab (fun x => { x with asleep := x.asleep ++ [⟨op, m, n, hint⟩] }) s2

/-- DOMAIN_OFF: the request is gone and its agent gets an address error. -/
def runDomainOff (op : MsgOp) (m : Msg) (s : State) : State :=
  giveAerr m (updCoh (fun c => { c with net := dropFirst (fun x => x.op == op && x.m == m) c.net }) s)

/-! ### Arrival (R242, R253, R261, R262) -/

/-- Traffic between the halves that R261 lets the Breakwater carry. -/
def bwCarries (s : State) (mirror : Bool) : Bool :=
  hubPresent s .b && (match effMode s with | .unified => !mirror | .mirrored => true | _ => false) &&
    s.pkg.hstate.a != .fenced && s.pkg.hstate.b != .fenced

/-- A packet crosses the Breakwater. -/
def crosses (s : State) (x : NetMsg) : Bool := (crossingsOf s x).any (fun c => decide (16 ≤ c.1 ∧ 16 ≤ c.2))

/-- Traffic that the Breakwater discards in the current mode (R262). -/
def bwStops (s : State) (x : NetMsg) : Bool := crosses s x && !bwCarries s (x.op == .mirw || x.op == .mirack)

/-- Two packets share class, source and destination node and port, and ADDR (R242). -/
def sameFlow (s : State) (x y : NetMsg) : Bool :=
  (x.op.code x.m.hasData).1 == (y.op.code y.m.hasData).1 && ends s x.op x.m == ends s y.op y.m && x.m.sector == y.m.sector

/-- A packet sent earlier that must be delivered before this one (R242). -/
def behind (s : State) (x : NetMsg) : Bool := (s.coh.net.takeWhile (fun y => y != x)).any (sameFlow s x)

/-- Every module on its path carries traffic: while one trains, holds or is down the packet waits at its stop (R253, R257). -/
def linksUp (s : State) (x : NetMsg) : Bool :=
  (crossingsOf s x).all (fun c => (rytOf s (crossLink s x c)).st == .up && (rytOf s (rytPeer (crossLink s x c))).st == .up)

/-- A packet may reach its destination now. -/
def mayArrive (s : State) (op : MsgOp) (m : Msg) : Bool := linksUp s ⟨op, m⟩ && !behind s ⟨op, m⟩ && !bwStops s ⟨op, m⟩

/-- A packet reaches its destination with effect `f`. One outside the Breakwater's current row is discarded, its source answered
with AERR (R262); one that waits behind a link or an earlier packet of its flow stays where it is. -/
def reach (op : MsgOp) (m : Msg) (f : State → State) (s : State) : State :=
  if bwStops s ⟨op, m⟩ then (if toFar op then giveAerr m (take op m s) else take op m s)
  else if mayArrive s op m then f s else s

/-! ### Mirroring (R261, R262, R274, R571) -/

/-- MIRW at the mirror home: the sector is written and MIRACK goes back. -/
def runMirw (m : Msg) (s0 : State) : State :=
  let s := take .mirw m s0
  let l := (placeOf s m.from_ (m.sector * 64)).l / 64
  send .mirack (bare m m.agent) (updMem m.home.other (fun k => memPut k l m.data m.poison) s)

/-- MIRACK at the ordering side: the request that waited for it completes (R262, R329). -/
def runMirack (m : Msg) (s0 : State) : State :=
  let s := take .mirack m s0
  let h := m.home
  match tget none (s.home.get h).trans m.txid with
  | some t => if t.phase = 2 ∧ t.m.sector = m.sector then settle h (endTx h m.txid t (complete .cmp t t.dirty t.poison s)) else s
  | none => s

/-- MIRH: the hub stores the oldest item sent to it: a peer's log entry, or a change of one. -/
def runMirh (h : Half) (s : State) : State :=
  match s.mirq.get h with
  | [] => s
  | i :: t =>
    let s1 := { s with mirq := s.mirq.set h t }
    let l := s1.log.get h
    match i with
    | .logNew e =>
      let e1 := { e with index := l.nextIdx, peer := true, rsv := false, lost := l.lostSince, notice := false }
      (match logPlace l.entries e1 with
        | none => updLog h (fun k => logDrop k e.source) s1
        | some es => updLog h (fun k => { k with entries := es, nextIdx := (k.nextIdx + 1) % 2 ^ 32, lostSince := 0 }) s1)
    | .logChange src code _ rep tl =>
      (match l.entries.reverse.find? (fun e => e.peer && e.source == src && e.code == code) with
        | none => s1
        | some e => updLog h (fun k => { k with entries := k.entries.map (fun x =>
            if x.index = e.index then { x with rep := rep, tlast := tl } else x) }) (sramPut h 14 e.index s1))

/-! ### Maintenance slots (R226–R228) -/

/-- Agent number of a maintenance slot: stop 34 of its hub. -/
def mntAgent (h : Half) (slot : Nat) : Nat := 64 + ((16 + h.n) * 64 + 34) * 16 + slot

def maintOf (s : State) (h : Half) (k : Nat) : Maint := tget Maint.reset (s.home.get h).maint k
def updMaint (h : Half) (k : Nat) (f : Maint → Maint) (s : State) : State :=
  updHome h (fun x => { x with maint := tmod Maint.reset x.maint k f }) s

/-- Send the MNT of the current sector, or end: every sector from the DRAM limit on is skipped with ERR. -/
def mntSend (h : Half) (k : Nat) (s : State) : State :=
  let t := maintOf s h k
  if t.left = 0 then updMaint h k (fun x => { x with busy := false }) s
  else if dramLimit s h ≤ t.cur * 64 then updMaint h k (fun x => { x with busy := false, err := true, left := 0 }) s
  else
    send .mnt { agent := mntAgent h k, home := homeFor s h t.cur, from_ := h, sector := t.cur, txid := 0, tide := 0, poison := false,
                hasData := false, data := [], mask := 0, aux := t.op, opd1 := 0, opd2 := 0, rid := 0, lcn := 0, ctx := 0 } s

/-- MAINTENANCE_SLOT_START, and any other write of FAB_MNT_CTL: ignored while BUSY (R227, R228). -/
def runMntStart (h : Half) (k v : Nat) (s : State) : State :=
  let t := maintOf s h k
  if t.busy ∨ 16 ≤ k then s
  else
    let s1 := updMaint h k (fun x => { x with err := x.err && !bitOf v 30, op := fld v 29 28, count := fld v 19 0 }) s
    if bitOf v 31 then
      mntSend h k (updMaint h k (fun x => { x with busy := true, cur := x.addr / 64, left := fld v 19 0 + 1 }) s1)
    else s1

/-- CMP_COMPLETION: the requester has its completion; a maintenance slot goes on (R209, R213, R228). A sector poisoned
before a CLEAN or CLINV sets ERR. -/
def runCmp (m : Msg) (s0 : State) : State :=
  let s := take .cmp m s0
  match [Half.a, Half.b].flatMap (fun h => (upTo 16).map (fun k => (h, k))) |>.find? (fun x => mntAgent x.1 x.2 == m.agent) with
  | none => s
  | some (h, k) =>
    let t := maintOf s h k
    if ¬ t.busy ∨ t.cur ≠ m.sector then s
    else mntSend h k (updMaint h k (fun x => { x with cur := x.cur + 1, left := x.left - 1,
                                                      err := x.err || (m.poison && (x.op == 0 || x.op == 2)) }) s)

end Sys2Proof.Machine
end

