-- ==== Sys2Proof/Machine/MoverRun.lean ====
section
/-! DEFINITION. The movers: descriptors, bursts, halts and recovery (R386–R398). -/
namespace Sys2Proof.Machine

def chKey (h : Half) (m ch : Nat) : Nat := (h.n * 16 + m) * 8 + ch
def mchOf (s : State) (h : Half) (m ch : Nat) : MCh := tget MCh.reset s.units.chs (chKey h m ch)
def updMch (h : Half) (m ch : Nat) (f : MCh → MCh) (s : State) : State :=
  updUnits (fun u => { u with chs := tmod MCh.reset u.chs (chKey h m ch) f }) s
def moverOf (s : State) (h : Half) (m : Nat) : Mover := tget Mover.reset s.units.movers (h.n * 16 + m)
def updMover (h : Half) (m : Nat) (f : Mover → Mover) (s : State) : State :=
  updUnits (fun u => { u with movers := tmod Mover.reset u.movers (h.n * 16 + m) f }) s
def moverUnit (h : Half) (m : Nat) : Nat := srcOf h 0xFF 5 m

/-- Ring slot a channel's head names (R57). -/
def MCh.slot (c : MCh) : Nat := c.head % slots8 c.size

/-! ### Descriptors (R389–R391) -/

structure MDesc where
  src : Nat
  dst : Nat
  len : Nat
  mode : Nat
  esize : Nat
  n : Nat
  notify : Bool
  stride : Nat
  pattern : List Byte
deriving DecidableEq, Repr

def mdescOf (d : List Byte) : MDesc :=
  ⟨fieldAt d 0 8, fieldAt d 8 8, fieldAt d 0x10 4, fieldAt d 0x14 1, fieldAt d 0x15 1, fieldAt d 0x16 1,
   bitOf (fieldAt d 0x17 1) 0, fieldAt d 0x18 8, slice d 0x20 8⟩

/-- Elements of PLANES and UNPLANES. -/
def MDesc.m (d : MDesc) : Nat := d.len * 8 / d.esize

/-- The ranges a descriptor reads and writes (R390). -/
def MDesc.srcs (d : MDesc) : List (Nat × Nat) :=
  match d.mode with
  | 1 => []
  | 2 => (upTo d.n).map (fun k => (d.src + k * d.stride, d.len / d.n))
  | 5 => (upTo d.esize).map (fun b => (d.src + b * d.stride, d.m / 8))
  | _ => [(d.src, d.len)]
def MDesc.dsts (d : MDesc) : List (Nat × Nat) :=
  match d.mode with
  | 3 => (upTo d.n).map (fun k => (d.dst + k * d.stride, d.len / d.n))
  | 4 => (upTo d.esize).map (fun b => (d.dst + b * d.stride, d.m / 8))
  | _ => [(d.dst, d.len)]

def overlaps (x y : Nat × Nat) : Bool := decide (x.1 < y.1 + y.2 ∧ y.1 < x.1 + x.2)

/-- The checks of R391 in their order. -/
def moverCheck (s : State) (h : Half) (c : MCh) (raw : List Byte) : Option (Nat × Nat) :=
  let d := mdescOf raw
  let fits : Bool := match d.mode with
    | 0 => true
    | 1 => true
    | 2 => decide (1 ≤ d.esize ∧ d.esize ≤ 16 ∧ 2 ≤ d.n ∧ d.n ≤ 64)
    | 3 => decide (1 ≤ d.esize ∧ d.esize ≤ 16 ∧ 2 ≤ d.n ∧ d.n ≤ 64)
    | 4 => d.esize == 8 || d.esize == 16 || d.esize == 32 || d.esize == 64
    | 5 => d.esize == 8 || d.esize == 16 || d.esize == 32 || d.esize == 64
    | _ => false
  let lens : Bool := d.len != 0 && (match d.mode with
    | 2 => decide (d.len % (d.n * d.esize) = 0 ∧ d.len / d.n ≤ d.stride)
    | 3 => decide (d.len % (d.n * d.esize) = 0 ∧ d.len / d.n ≤ d.stride)
    | 4 => decide (d.len * 8 % d.esize = 0 ∧ d.m % 64 = 0 ∧ d.m / 8 ≤ d.stride)
    | 5 => decide (d.len * 8 % d.esize = 0 ∧ d.m % 64 = 0 ∧ d.m / 8 ≤ d.stride)
    | _ => true)
  let lapped := decide (2 ≤ d.mode) && d.srcs.any (fun x => d.dsts.any (fun y => overlaps x y))
  let inside := (d.srcs ++ d.dsts).all (fun r =>
    decide (c.first * 4096 ≤ r.1 ∧ r.1 + r.2 ≤ (c.last + 1) * 4096 ∧ r.1 + r.2 ≤ dramLimit s h))
  if ¬ fits ∨ fieldAt raw 0x30 8 ≠ 0 ∨ 2 ≤ fieldAt raw 0x17 1 then some (stBadParam, 0x10)
  else if ¬ lens then some (stBadParam, 0x11)
  else if lapped then some (stBadParam, 0x16)
  else if ¬ inside then some (stDenied, 0x18)
  else none

/-! ### Completion, stop and halt (R392, R394, R398) -/

/-- A descriptor fetch or RESULT write that fails stops the channel (R398). -/
def moverStop (h : Half) (m ch : Nat) (s : State) : State :=
  updMover h m (fun x => { x with cur := if x.cur = some ch then none else x.cur })
    (logNow h (rpt (moverUnit h m) 2 clsNote 0x0906 (freeVal s % 2 ^ 192))
      (updMch h m ch (fun c => { c with en := false, stopped := true, st := 0, desc := [], done := 0, buf := [] }) (drawn s)))

/-- The descriptor completes: RESULT, head, interrupt (R392). -/
def moverFinish (h : Half) (m ch status reason : Nat) (s : State) : State :=
  let c := mchOf s h m ch
  let d := mdescOf c.desc
  match dmaWrite s h (c.base / 64 * 64 + c.slot * 64 + 0x38) (toBytes 8 (2 ^ 63 + reason * 256 + status)) with
  | some (s1, false) =>
    let s2 := updMch h m ch (fun x => { x with head := (x.slot + 1) % slots8 x.size, st := 0, desc := [], done := 0, buf := [] }) s1
    let s3 := updMover h m (fun x => { x with cur := if x.cur = some ch then none else x.cur }) s2
    let s4 := bumpFor (c.otype == 2) (moverUnit h m) 0x481 1 s3
    if d.notify then ringIrq c.imode c.vector c.target c.otype c.owner s4 else s4
  | _ => moverStop h m ch s

/-- The channel halts on a failed access (R394, R396): `wr` a write, `poison` the cause. -/
def moverHalt (h : Half) (m ch pa : Nat) (wr poison : Bool) (s : State) : State :=
  let c := mchOf s h m ch
  let s1 := updMch h m ch (fun x => { x with st := 3, errAddr := pa / 64 * 64, errV := true, errDir := wr,
                                             errCause := b2n poison, errIdx := x.slot, errDone := x.done }) s
  let s2 := updMover h m (fun x => { x with cur := none }) s1
  bumpFor (c.otype == 2) (moverUnit h m) 0x485 1 (ringIrq c.imode c.vector c.target c.otype c.owner s2)

/-- MOV_CH_TAIL written. -/
def runMovTail (h : Half) (m ch v : Nat) (s : State) : State := updMch h m ch (fun c => { c with tail := v % slots8 c.size }) s

/-- A channel has a descriptor waiting. -/
def chWaits (c : MCh) : Bool := c.en && c.otype != 3 && c.st != 3 && (c.desc != [] || c.slot != c.tail % slots8 c.size)

/-- MOVER_DESCRIPTOR_START: the next channel in round-robin order; a failing check completes the descriptor (R386, R391). -/
def runMoverStart (h : Half) (m : Nat) (s : State) : State :=
  let v := moverOf s h m
  if v.cur.isSome ∨ ¬ readyBit s h (rbMover m) ∨ closing s (moverUnit h m) ∨ draining s h then s
  else
    let ord := (upTo 8).map (fun i => (v.lastCh + 1 + i) % 8)
    match ord.find? (fun ch => chWaits (mchOf s h m ch)) with
    | none => s
    | some ch =>
      let c := mchOf s h m ch
      let s1 := updMover h m (fun _ => ⟨ch, some ch⟩) s
      if c.desc ≠ [] then updMch h m ch (fun x => { x with st := 2 }) s1
      else match dmaRead s h (c.base / 64 * 64 + c.slot * 64) 64 with
      | some (d, false) =>
        let s2 := updMch h m ch (fun x => { x with st := 2, desc := d, done := 0, buf := [] }) s1
        (match moverCheck s h c d with
          | some (st, rs) => moverFinish h m ch st rs s2
          | none => s2)
      | _ => moverStop h m ch s1

/-! ### Bursts (R388, R390, R395) -/

/-- Bytes of one indivisible part of the work, in source order: a sector's rest, a record, or 64 elements. -/
def partLen (d : MDesc) (done : Nat) : Nat :=
  match d.mode with
  | 0 => min (64 - (d.src + done) % 64) (d.len - done)
  | 1 => min (64 - (d.dst + done) % 64) (d.len - done)
  | 2 => d.n * d.esize
  | 3 => d.n * d.esize
  | _ => 8 * d.esize

/-- What a part reads: addresses and lengths. -/
def partReads (d : MDesc) (done n : Nat) : List (Nat × Nat) :=
  match d.mode with
  | 0 => [(d.src + done, n)]
  | 1 => []
  | 2 => (upTo d.n).map (fun k => (d.src + k * d.stride + done / d.n, d.esize))
  | 5 => (upTo d.esize).map (fun b => (d.src + b * d.stride + done / d.esize, 8))
  | _ => [(d.src + done, n)]

/-- Bit b of each of 64 elements of `w` bytes, as 8 bytes (PLANES). -/
def planeOf (w : Nat) (x : List Byte) (b : Nat) : List Byte :=
  (upTo 8).map (fun i => BitVec.ofNat 8 ((upTo 8).foldl (fun (a : Nat) j =>
    a + b2n (bitOf (fieldAt x ((8 * i + j) * w + b / 8) 1) (b % 8)) * 2 ^ j) 0))

/-- 64 elements of `w` bytes from their planes, 8 bytes each (UNPLANES). -/
def unplane (w : Nat) (ps : List (List Byte)) : List Byte :=
  (upTo 64).flatMap (fun k => (upTo w).map (fun i => BitVec.ofNat 8 ((upTo 8).foldl (fun (a : Nat) j =>
    a + b2n (bitOf (fieldAt (ps.getD (8 * i + j) []) (k / 8) 1) (k % 8)) * 2 ^ j) 0)))

/-- What a part writes, from the bytes it read. -/
def partWrites (d : MDesc) (done n : Nat) (xs : List (List Byte)) : List (Nat × List Byte) :=
  let all := xs.flatMap id
  match d.mode with
  | 0 => [(d.dst + done, all)]
  | 1 => [(d.dst + done, (upTo n).map (fun i => d.pattern.getD ((done + i) % 8) 0))]
  | 2 => [(d.dst + done, all)]
  | 3 => (upTo d.n).map (fun k => (d.dst + k * d.stride + done / d.n, slice all (k * d.esize) d.esize))
  | 4 => (upTo d.esize).map (fun b => (d.dst + b * d.stride + done / d.esize, planeOf (d.esize / 8) all b))
  | _ => [(d.dst + done, unplane (d.esize / 8) xs)]

/-- Reads of a part: the bytes, or the sector that failed and whether it was poison. -/
def doReads (s : State) (h : Half) : List (Nat × Nat) → List (List Byte) → Except (Nat × Bool) (List (List Byte))
  | [], acc => .ok acc
  | (a, n) :: t, acc =>
    match dmaRead s h a n with
    | none => .error (a, false)
    | some (_, true) => .error (a, true)
    | some (d, false) => doReads s h t (acc ++ [d])

def doWrites (h : Half) : List (Nat × List Byte) → State → Except (State × Nat × Bool) State
  | [], s => .ok s
  | (a, d) :: t, s =>
    match dmaWrite s h a d with
    | none => .error (s, a, false)
    | some (s1, true) => .error (s1, a, true)
    | some (s1, false) => doWrites h t s1

/-- Parts of the running descriptor until a burst's bytes are moved, the work ends or an access fails. -/
def burstRun (h : Half) (m ch : Nat) : Nat → Nat → State → State
  | 0, _, s => s
  | f + 1, left, s =>
    let c := mchOf s h m ch
    let d := mdescOf c.desc
    if left = 0 ∨ d.len ≤ c.done then s
    else
      let n := partLen d c.done
      let rd := if c.buf ≠ [] then Except.ok [slice c.buf c.done n] else doReads s h (partReads d c.done n) []
      match rd with
      | .error (a, p) => moverHalt h m ch a false p s
      | .ok xs =>
        match doWrites h (partWrites d c.done n xs) s with
        | .error (s1, a, p) => moverHalt h m ch a true p s1
        | .ok s1 => burstRun h m ch f (left - n) (updMch h m ch (fun x => { x with done := x.done + n }) s1)

/-- A COPY whose ranges overlap reads its whole source first (R390). -/
def copyAhead (h : Half) (m ch : Nat) (s : State) : Except (Nat × Bool) State :=
  let c := mchOf s h m ch
  let d := mdescOf c.desc
  if d.mode = 0 ∧ c.done = 0 ∧ c.buf = [] ∧ overlaps (d.src, d.len) (d.dst, d.len) then
    match doReads s h [(d.src, d.len)] [] with
    | .ok xs => .ok (updMch h m ch (fun x => { x with buf := xs.flatMap id }) s)
    | .error e => .error e
  else .ok s

/-- MOVER_BURST: one burst of the running channel (R388). -/
def runMoverBurst (h : Half) (m : Nat) (s : State) : State :=
  match (moverOf s h m).cur with
  | none => s
  | some ch =>
    let c := mchOf s h m ch
    let n := 256 * 2 ^ (if 4 < c.burst then 4 else c.burst)
    match copyAhead h m ch s with
    | .error (a, p) => moverHalt h m ch a false p s
    | .ok s1 =>
      let s2 := burstRun h m ch n n s1
      bumpFor (c.otype == 2) (moverUnit h m) 0x483 1 (bumpFor (c.otype == 2) (moverUnit h m) 0x482 (((mchOf s2 h m ch).done - c.done) / 64) s2)

/-- MOVER_DESCRIPTOR_COMPLETE: every write of the running descriptor has its CMP (R392). -/
def runMoverComplete (h : Half) (m : Nat) (s : State) : State :=
  match (moverOf s h m).cur with
  | none => s
  | some ch =>
    let c := mchOf s h m ch
    if (mdescOf c.desc).len ≤ c.done then moverFinish h m ch stDone 0 s else s

/-- MOVER_HALT: an access of the running channel failed (R394). -/
def runMoverHalt (h : Half) (m pa : Nat) (wr poison : Bool) (s : State) : State :=
  match (moverOf s h m).cur with
  | none => s
  | some ch => moverHalt h m ch pa wr poison s

/-- RESUME: a halted channel waits to continue from DONE (R397). -/
def runMovResume (h : Half) (m ch : Nat) (s : State) : State :=
  if (mchOf s h m ch).st = 3 then updMch h m ch (fun c => { c with st := 1, errV := false }) s else s

/-- SKIP: the halted descriptor completes FAILED (R397). -/
def runMovSkip (h : Half) (m ch : Nat) (s : State) : State :=
  let c := mchOf s h m ch
  if c.st = 3 then
    moverFinish h m ch stFailed (if c.errCause = 1 then 0x05 else 0x06) (updMch h m ch (fun x => { x with errV := false }) s)
  else s

/-- ABORT: as SKIP, then EN is cleared (R397). -/
def runMovAbort (h : Half) (m ch : Nat) (s : State) : State :=
  if (mchOf s h m ch).st = 3 then updMch h m ch (fun c => { c with en := false }) (runMovSkip h m ch s) else s

/-- MOVER_POWER_STOP: the running descriptor stops at a burst boundary and continues when ACTIVE again (R393). -/
def runMoverPowerStop (h : Half) (m : Nat) (s : State) : State :=
  match (moverOf s h m).cur with
  | none => s
  | some ch =>
    if closing s (moverUnit h m) then
      updMch h m ch (fun c => { c with st := 1 }) (updMover h m (fun v => { v with cur := none }) s)
    else s

/-- MOV_CH_STAT.STATE (R398). -/
def chState (c : MCh) : Nat := if c.stopped then 4 else if ¬ c.en then 0 else if c.st = 2 then 2 else if c.st = 3 then 3 else 1

end Sys2Proof.Machine
end

