-- ==== Sys2Proof/Machine/LightRun.lean ====
section
/-! DEFINITION. The Lighthouse: debug enables and tokens, mailbox, lifecycle, signed images, ST64 steering (R481–R514). -/
namespace Sys2Proof.Machine

def lhUnit (h : Half) : Nat := srcOf h 0xFF 0x14 0

/-- Apply an operation in every present hub. -/
def bothHubs (f : Half → State → State) (s : State) : State :=
  let s1 := f .a s
  if hubPresent s .b then f .b s1 else s1

/-- The lifecycle whose rules both hubs apply: the higher value (R490). -/
def lcOf (s : State) : Nat :=
  if hubPresent s .b then max (lhOf s .a).lc (lhOf s .b).lc else (lhOf s .a).lc

/-- The RETIRED rules are in force: no key is loaded, made or erased, no stream opened, no time attested (R488, R489). -/
def retired (s : State) : Bool := lcOf s == 4

/-! ### Debug enables (R483, R511–R514) -/

/-- Defaults of a lifecycle: bits 3 DBGEN_N, 2 NIDEN_N, 1 DBGEN_S, 0 NIDEN_S (R511). -/
def dbgDefault (lc : Nat) : Nat :=
  match lc with
  | 1 => 15
  | 2 => 12
  | 4 => 15
  | _ => 0

/-- Grants a token may make (R511). -/
def dbgGrantable (lc : Nat) : Nat :=
  match lc with
  | 2 => 3
  | 3 => 15
  | _ => 0

def dbgenN (s : State) : Bool := bitOf (dbgEff s.units.dbg) 3
def nidenN (s : State) : Bool := bitOf (dbgEff s.units.dbg) 2
def dbgenS (s : State) : Bool := bitOf (dbgEff s.units.dbg) 1

/-- LH_DBG (R483): LEFT counts whole and begun seconds. -/
def lhDbgReg (s : State) (h : Half) : Nat :=
  let d := s.units.dbg
  putBits [(28, dbgEff d), (24, d.grant), (0, (d.left - (s.st64.get h).toNat + 999999999) / 1000000000 % 2 ^ 24)]

/-- A halted context goes on (R513, R604). -/
def unhalt (c : Ctx) : Ctx := { c with halt := 0, stepping := false }

/-- DBGEN_N fell: halted contexts resume, breakpoints and NOGATE are cleared (R513, R603). -/
def dropInvasive (s : State) : State :=
  { s with
    ctxs := s.ctxs.foldl (fun (t : Tab Ctx) e => tset Ctx.reset t e.1 (unhalt e.2)) []
    lcns := s.lcns.foldl (fun (t : Tab Lcn) e => tset Lcn.reset t e.1 { e.2 with bp := [] }) []
    units := { s.units with dbg := { s.units.dbg with nogate := ⟨false, false⟩ } } }

/-- NIDEN_N fell: trace stops (R513, R607). -/
def dropTrace (s : State) : State :=
  { s with lcns := s.lcns.foldl (fun (t : Tab Lcn) e => tset Lcn.reset t e.1 { e.2 with trcEn := false }) [] }

/-- Put new enables in force. -/
def setDbg (f : Dbg → Dbg) (s : State) : State :=
  let s1 := updUnits (fun u => { u with dbg := f u.dbg }) s
  let s2 := if dbgenN s ∧ ¬ dbgenN s1 then dropInvasive s1 else s1
  if nidenN s ∧ ¬ nidenN s1 then dropTrace s2 else s2

/-- A grant ends: the enables return to their defaults (R513). -/
def endGrant (s : State) : State := setDbg (fun d => { d with grant := 0, left := 0 }) s

/-- DBG_RELOCK, the end of a grant's duration, or HOLD entry. -/
def runGrantExpiry (s : State) : State := if s.units.dbg.left = 0 then s else endGrant s

/-- A secure-world job or channel runs in a hub (R514, R519). -/
def secureWork (s : State) (h : Half) : Bool :=
  s.units.engs.any (fun e => e.1 / 8 == h.n && (match e.2.cur with
    | some j => (sringOf s h j.ring).otype == 2
    | none => false)) ||
  s.units.chs.any (fun e => e.1 / 128 == h.n && e.2.otype == 2 && e.2.st == 2)

def anyStream (s : State) : Bool := !(ldgOf s .a).streams.isEmpty || !(ldgOf s .b).streams.isEmpty

/-- Every key slot of a hub is erased (R489, R514). -/
def eraseSlots (h : Half) (s : State) : State := updLh h (fun l => { l with slots := [] }) s

/-- A new wrapping key with a new BOOTID (R380, R493, R514). -/
def newWrap (h : Half) (s : State) : State :=
  updLh h (fun l => { l with wrapOn := true, bootId := freeVal s % 2 ^ 32 }) (drawn s)

/-- What precedes a grant of DBGEN_S (R514). -/
def openSecure (h : Half) (s : State) : State := newWrap h (updLh h (fun l => { l with noDev := true }) (eraseSlots h s))

/-! ### Mailbox (R484–R486) -/

def runMbDoorbell (h : Half) (mask : Nat) (s : State) : State :=
  updLh h (fun l => { l with inpend := (upTo 16).foldl (fun p i => if bitOf mask i then setIns p i else p) l.inpend }) s

def runMbClear (h : Half) (mask : Nat) (s : State) : State :=
  updLh h (fun l => { l with outpend := l.outpend.filter (fun i => !bitOf mask i) }) s

/-- The reply to the request taken: slot, OUTPEND, interrupt. -/
def mbAnswer (h : Half) (status : Nat) (payload : List Byte) (s : State) : State :=
  let l := lhOf s h
  match l.taken with
  | none => s
  | some (k, m) =>
    let r := pack [(2, fieldAt m 0 2), (2, fieldAt m 2 2), (2, payload.length), (1, status), (1, 0),
      (8, (s.st64.get h).toNat)] ++ slice payload 0 240
    let s1 := updLh h (fun x => { x with taken := none, mbOut := tset [] x.mbOut k r, outpend := setIns x.outpend k }) s
    if l.mbIen then raiseExt l.mbLcn l.mbVec s1 else s1

/-- Payload length of each request type; a type outside the table has none. -/
def mbLen : Nat → Option Nat
  | 1 => some 0
  | 2 => some 225
  | 3 => some 0
  | 4 => some 225
  | 5 => some 13
  | _ => none

/-- The Lighthouse takes the next request (R484): round-robin after the last slot taken, never one whose reply waits. A
type outside the table and a malformed length are answered at once. -/
def runMailboxTake (h : Half) (s : State) : State :=
  let l := lhOf s h
  if l.taken.isSome then s
  else match ((upTo 16).map (fun i => (l.lastSlot + 1 + i) % 16)).find? (fun k => l.inpend.contains k && !l.outpend.contains k) with
    | none => s
    | some k =>
      let m := slice (tget [] l.mbIn k) 0 256
      let s1 := updLh h (fun x => { x with inpend := setDel x.inpend k, lastSlot := k, taken := some (k, m) }) s
      match mbLen (fieldAt m 0 2) with
      | none => mbAnswer h stBadOpcode [] s1
      | some n => if fieldAt m 4 2 = n then s1 else mbAnswer h stBadParam [] s1

/-- The request taken, when it has a given type. -/
def mbTaken (s : State) (h : Half) (typ : Nat) : Option (List Byte) :=
  match (lhOf s h).taken with
  | some (_, m) => if fieldAt m 0 2 = typ then some (m.drop 16) else none
  | none => none

def runDbgChallenge (h : Half) (s : State) : State :=
  match mbTaken s h 1 with
  | none => s
  | some _ =>
    let nonce := drbg s.nonce 16
    mbAnswer h stDone (nonce ++ pack [(4, otpSerial), (1, (lhOf s h).lc)]) (updLh h (fun l => { l with nonce := some nonce }) (drawn s))

/-- The checks of a token (R512): 0 in order, else the status; `magic` tells an unlock from a lifecycle token. -/
def tokenCheck (s : State) (h : Half) (magic : List Byte) (t : List Byte) : Nat :=
  if t.take 4 ≠ magic ∨ ¬ (slice t 0x19 3).all (· == 0) then stBadParam
  else if sha384 (slice t 0x80 97) ≠ otpKey 2 ∨ ¬ ecdsaOk (slice t 0x80 97) (t.take 0x20) (slice t 0x20 96) ∨
      fieldAt t 4 4 ≠ otpSerial ∨ (lhOf s h).nonce ≠ some (slice t 8 16) then stDenied
  else 0

/-- DBG_UNLOCK (R512–R514); the nonce answers one message (R486). -/
def runDbgUnlock (h : Half) (s : State) : State :=
  match mbTaken s h 2 with
  | none => s
  | some t =>
    let st := tokenCheck s h [0x4C, 0x44, 0x54, 0x31] t
    let g := fieldAt t 0x18 1
    let dur := fieldAt t 0x1C 4
    let s0 := updLh h (fun l => { l with nonce := none }) s
    if st = stBadParam ∨ 15 < g ∨ dur = 0 ∨ 2 ^ 24 ≤ dur then mbAnswer h stBadParam [] s0
    else if st ≠ 0 ∨ g.land (15 - dbgGrantable (lcOf s)) ≠ 0 then mbAnswer h stDenied [] s0
    else if bitOf g 1 ∧ (anyStream s ∨ secureWork s .a ∨ secureWork s .b) then mbAnswer h stNotQuiesced [] s0
    else
      let s1 := if bitOf g 1 then bothHubs openSecure s0 else s0
      let s2 := setDbg (fun d => { d with grant := g, left := (s.st64.get h).toNat + dur * 1000000000 }) s1
      mbAnswer h stDone (pack [(4, lhDbgReg s2 h)]) s2

def runDbgRelock (h : Half) (s : State) : State :=
  match mbTaken s h 3 with
  | none => s
  | some _ =>
    let s1 := runGrantExpiry s
    mbAnswer h stDone (pack [(4, lhDbgReg s1 h)]) s1

/-- Steps of the lifecycle a token may make (R489). -/
def lcStep (old new : Nat) : Bool := new == 4 || (old == 1 && (new == 2 || new == 3)) || (old == 2 && new == 3)

/-- LC_ADVANCE (R489). -/
def runLcAdvance (h : Half) (s : State) : State :=
  match mbTaken s h 4 with
  | none => s
  | some t =>
    let st := tokenCheck s h [0x4C, 0x4C, 0x43, 0x31] t
    let new := fieldAt t 0x18 1
    let s0 := updLh h (fun l => { l with nonce := none }) s
    if st ≠ 0 then mbAnswer h st [] s0
    else if ¬ lcStep (lcOf s) new then mbAnswer h stBadParam [] s0
    else if new = 4 ∧ anyStream s then mbAnswer h stNotQuiesced [] s0
    else
      let s1 := bothHubs (fun g x => updLh g (fun l => { l with lc := new }) x) s0
      let s2 := if new = 4 then bothHubs (fun g x => updLh g (fun l => { l with noDev := true }) (eraseSlots g x)) s1 else s1
      mbAnswer h stDone (pack [(1, new)]) s2

/-! ### Signed images (R491–R496) -/

def imageLimit : Nat → Nat
  | 1 => 786432
  | 2 => 65536
  | 3 => 65536
  | 4 => 262144
  | _ => 0

/-- The Lighthouse accepts an envelope (R492): its image and COMMIT, or none. -/
def envelope (s : State) (h : Half) (typ : Option Nat) (d : List Byte) : Option (Nat × Image × Bool) :=
  let t := fieldAt d 4 1
  let len := fieldAt d 0x10 4
  let body := slice d 320 len
  let pub := slice d 0xB0 97
  let hash := sha384 pub
  let sv := fieldAt d 0xC 4
  if d.take 4 = [0x4C, 0x46, 0x57, 0x31] ∧ 1 ≤ t ∧ t ≤ 4 ∧ (typ = none ∨ typ = some t) ∧ fieldAt d 5 1 < 2 ∧
      fieldAt d 6 2 = 0 ∧ (slice d 0x14 12).all (· == 0) ∧ (slice d 0x111 47).all (· == 0) ∧ sv < 64 ∧
      len ≤ imageLimit t ∧ 320 + len ≤ d.length ∧
      ((hash = otpKey 0 ∧ ¬ otpRevoked 0) ∨ (hash = otpKey 1 ∧ ¬ otpRevoked 1)) ∧
      ecdsaOk pub (d.take 0x50) (slice d 0x50 96) ∧ sha384 body = slice d 0x20 48 ∧ tget 0 (lhOf s h).svn t ≤ sv then
    some (t, ⟨fieldAt d 8 4, sv, body⟩, bitOf (fieldAt d 5 1) 0)
  else none

/-- A rejected envelope is logged (R492, R568). -/
def envelopeBad (h : Half) (typ : Nat) (s : State) : State := logNow h (rpt (lhUnit h) 2 clsUC 0x0905 (typ * 256)) s

/-- Cache an accepted image and raise the floor it commits (R492, R495). -/
def cacheImage (h : Half) (t : Nat) (i : Image) (commit : Bool) (s : State) : State :=
  updLh h (fun l => { l with cache := tset ⟨0, 0, []⟩ l.cache t i, svn := if commit then tset 0 l.svn t i.svn else l.svn }) s

/-- An open IFT entry names an image slot (R346, R495). -/
def slotOpen (s : State) (h : Half) (slot : Nat) : Bool :=
  (cssOf s h).ift.any (fun e => e.2.st != 0 && e.2.slot == slot)

/-- Put a CPE image into its slot of the placed region (R345, R496). -/
def loadSlot (h : Half) (slot version : Nat) (body : List Byte) (s : State) : State :=
  match dmaWriteRaw s h (slotBase s h slot) body with
  | some (s1, _) => updCss h (fun c => { c with loaded := setIns c.loaded slot, vers := tset 0 c.vers slot version }) s1
  | none => s

/-- FW_STAGE (R495). -/
def runFwStage (h : Half) (s : State) : State :=
  match mbTaken s h 5 with
  | none => s
  | some p =>
    let slot := fieldAt p 12 1
    let n := fieldAt p 8 4
    match (if 15 < slot ∨ n < 320 then none else dmaRead s h (fieldAt p 0 8) n) with
    | none => mbAnswer h stBadParam [] s
    | some (_, true) => mbAnswer h stFailed [] s
    | some (d, false) =>
      match envelope s h none d with
      | none => mbAnswer h stDenied [] (envelopeBad h (fieldAt d 4 1) s)
      | some (t, i, commit) =>
        if t = 4 then
          if slotOpen s h slot then mbAnswer h stNotQuiesced [] s
          else
            let s1 := loadSlot h slot i.version i.body s
            let s2 := if slot = 0 then cacheImage h 4 i commit s1
              else updLh h (fun l => { l with svn := if commit then tset 0 l.svn 4 i.svn else l.svn }) s1
            mbAnswer h stDone (pack [(4, i.version)]) s2
        else mbAnswer h stDone (pack [(4, i.version)]) (cacheImage h t i commit s)

/-- The image cache holds all four images (R494). -/
def cacheFull (s : State) (h : Half) : Bool := (upTo 4).all (fun i => tget ⟨0, 0, []⟩ (lhOf s h).cache (i + 1) != ⟨0, 0, []⟩)

/-- The envelopes of a bundle in order (R494): the images, or the TYPE of the first one rejected, 0 while it is not whole. -/
def bundleScan (s : State) (h : Half) : List Nat → List Byte → Except Nat (List (Nat × Image × Bool))
  | [], _ => .ok []
  | t :: ts, d =>
    if d.length < 320 ∨ (fieldAt d 0x10 4 ≤ imageLimit t ∧ d.length < 320 + fieldAt d 0x10 4) then .error 0
    else match envelope s h (some t) d with
      | none => .error t
      | some x =>
        match bundleScan s h ts (d.drop (320 + x.2.1.body.length)) with
        | .error e => .error e
        | .ok xs => .ok (x :: xs)

/-- Bundle bytes arrive (R494): nothing is kept of a bundle that is rejected; an incomplete one waits for more. -/
def runBundleWrite (h : Half) (d : List Byte) (s : State) : State :=
  if cacheFull s h then s
  else
    let all := (lhOf s h).bundle ++ d
    match bundleScan s h [1, 2, 3, 4] all with
    | .ok xs =>
      updLh h (fun l => { l with bundle := [], bundleAns := 1 }) (xs.foldl (fun t x => cacheImage h x.1 x.2.1 x.2.2 t) s)
    | .error 0 => updLh h (fun l => { l with bundle := all, bundleAns := 0 }) s
    | .error t => envelopeBad h t (updLh h (fun l => { l with bundle := [], bundleAns := t * 16 + 2 }) s)

/-! ### ST64 (R505, R506) -/

/-- A step forward of one hub's ST64 to another's, when it is behind by more than 1 µs (R506). -/
def stepSt64 (h : Half) (s : State) : State :=
  if (s.st64.get h).toNat + 1000 < (s.st64.get h.other).toNat then { s with st64 := s.st64.set h (s.st64.get h.other) } else s

/-- Hub B's Lighthouse steers its ST64 to Hub A's: a step forward when it is behind by more than 1 µs; else a slew over `d` ns of
its own running time, at most 0.1 % of them: added when it is behind, left out of its counting as it goes on when it is ahead (R506). -/
def runSt64Steer (d : Nat) (s : State) : State :=
  let a := s.st64.a.toNat
  let b := s.st64.b.toNat
  let slow := fun (n : Nat) (u : State) => updPkg (fun p => { p with slow := n }) u
  if ¬ hubPresent s .b ∨ s.pkg.stopped ∨ ¬ (bwaterReady s) ∨ s.pkg.mode = .hold ∨ s.pkg.mode = .degraded then s
  else if b + 1000 < a then slow 0 { s with st64 := { s.st64 with b := BitVec.ofNat 64 a } }
  else if b ≤ a then slow 0 { s with st64 := { s.st64 with b := BitVec.ofNat 64 (b + min (a - b) (d / 1000)) } }
  else slow (min (b - a) (d / 1000)) s

end Sys2Proof.Machine
end

