-- ==== Sys2Proof/Machine/CoreOps.lean ====
section
/-! DEFINITION. Physical cores and logical cores: core reset, self-test, retry, sparing, parking, CORE_OFFLINE and
CORE_ONLINE (R142–R165, R547, R632, R633), and buckets of errors (R143, R148). -/
namespace Sys2Proof.Machine

def dieUnit (d : Nat) : Nat := srcOf (dieHalf d) d 1 0
/-- The physical core as a log source: type CORE, instance its PC (R567). -/
def pcUnit (c : Nat) : Nat := srcOf (dieHalf (c / 128)) (c / 128) 0x10 (c % 128)
def retryUnit (d : Nat) : Nat := srcOf (dieHalf d) d 1 1

/-- Address of the core firmware of a die (R33, R547). -/
def firmwarePc (d : Nat) : Nat :=
  (if d < 8 then 0xFFF0000000000 else 0xFFF8000000000) + 0x100000000 * (1 + d % 8) + 0x800000

/-- A context as its core reset leaves it (R547): at H, native, at the firmware's start; `held` in WAIT. -/
def startCtx (d : Nat) (held : Bool) : Ctx :=
  { Ctx.reset with pc := BitVec.ofNat 64 (firmwarePc d), wait := if held then some 0 else none }

def resetCtxs (l : Nat) (c : Ctx) (s : State) : State := setCtx l 1 c (setCtx l 0 c s)

/-- Core reset of what belongs to an LCN's core (R540): contexts, translations, counters, sampling; pending external
interrupts, run control and trace stay with the LCN (R24, R602). -/
def coreReset (l : Nat) (c : Ctx) (s : State) : State :=
  let s1 := updLcn l (fun k =>
    { k.noTlb with locks := [], samp := Lcn.reset.samp, attempt := 0, rolled := [], errs := [], rewritten := [], l2deleted := [] })
    (resetCtxs l c s)
  { s1 with cks := s1.cks.filter (fun e => e.1 / 2 ≠ l)
            ctrs := s1.ctrs.filter (fun e => e.1 / 8 ≠ coreUnit l)
            latches := s1.latches.filter (fun x => x.lcn ≠ l)
            tlbq := (s1.tlbq.map (fun m => { m with left := m.left.filter (fun y => y ≠ l) })).filter (fun m => m.left ≠ []) }

/-- Both contexts are halted (R38, R158): the LCN has no core, or each context is in WAIT or halted by debug. -/
def lcnHalted (s : State) (l : Nat) : Bool :=
  (coreOf s l).isNone || [0, 1].all (fun c => (ctxOf s l c).wait.isSome || (ctxOf s l c).halt != 0)

def lcnsOf (s : State) (h : Half) : List Nat := (upTo (lcnCount s)).filter (fun l => lcnHalf s l == h)

def addFailed (core : Nat) (s : State) : State :=
  updDie (core / 128) (fun d => { d with failed := setIns d.failed (core % 128) }) s

/-- Assign a physical core to an LCN. -/
def assignCore (l core : Nat) (s : State) : State :=
  let hm := homeCore s l
  { updLcn l (fun k => { k with moved := if core = hm then none else some core, off := false, parked := false, bare := false,
                                lost := false, last := some core }) s with parks := s.parks.filter (fun x => x ≠ l) }

/-- An LCN is parked: its images wait for a spare (R157). -/
def parkLcn (l : Nat) (s : State) : State :=
  { updLcn l (fun k => { k with parked := true, moved := none }) s with parks := s.parks.filter (fun x => x ≠ l) ++ [l] }

/-- An LCN is left without a physical core and without images; the next bring-up gives it a spare (R161, R632). -/
def bareLcn (l : Nat) (s : State) : State :=
  { updLcn l (fun k => { k with bare := true, parked := false, moved := none }) s with
    parks := s.parks.filter (fun x => x ≠ l), images := tset none s.images l none }

/-! ### Retry (R145–R148) -/

/-- Marks of an LCN that needs sparing in `attempt`: 3 both attempts failed, 4 persistent fault, 5 context lost; 6 the
self-test of its core failed. -/
def needsSpare (k : Lcn) : Bool := decide (3 ≤ k.attempt)

/-- Cause of an automatic move in its CORE_MOVED entry (R568). -/
def moveCause (k : Lcn) : Nat := if k.attempt = 3 then 0 else if k.attempt = 4 then 1 else if k.attempt = 5 then 4 else 3

/-- An entry of a structure as one number. -/
def errKey (e : CoreErr) : Nat := e.arr.n * 2 ^ 40 + e.entry % 2 ^ 40

/-- Contexts whose in-flight groups used the failing structure (R146). -/
def rolledBy (e : CoreErr) : List Nat :=
  match e.arr with
  | .arith => [e.ctx % 2]
  | .frame => [e.ctx % 2]
  | _ => [0, 1]

/-- A dirty L2 line with a tag error is dropped and its sector lost at the L3, where it stays poisoned (R142). -/
def lostL2 (core sec : Nat) (s : State) : State :=
  if l2Of s core sec = .m then poisonL2 core sec s else dropL2 (ckey core sec) s

/-- What R142 invalidates or drops before the repeated execution. -/
def dropErring (core : Nat) (e : CoreErr) (s : State) : State :=
  let key := ckey core e.sector
  match e.arr with
  | .l1i => updCoh (fun k => { k with l1i := k.l1i.filter (fun x => x ≠ key) }) s
  | .l1d => dropFrameSec e.lcn e.sector (updCoh (fun k => { k with l1d := k.l1d.filter (fun x => x ≠ key) }) s)
  | .l1tag => dropFrameSec e.lcn e.sector
      (updCoh (fun k => { k with l1d := k.l1d.filter (fun x => x ≠ key), l1i := k.l1i.filter (fun x => x ≠ key) }) s)
  | .frame => updCtx e.lcn (e.ctx % 2) (fun x => { x with frame := x.frame.filter (fun y => y.2 ≠ e.sector) }) s
  | .l2tag => lostL2 core e.sector s
  | .l2data => dropL2 key s
  | _ => s

/-- Persistent (R147): the error recurs at an entry of this sequence, or at one the core has rewritten since it erred. An
arithmetic result is no entry of an array. -/
def persistent (k : Lcn) (e : CoreErr) : Bool :=
  e.arr != .arith && (k.errs.contains (errKey e) || k.rewritten.contains (errKey e))

def isL2 (a : CoreArr) : Bool := a == .l2tag || a == .l2data

/-- An error eligible for retry (R144–R147): the contexts roll back and an attempt begins, or its persistent fault deletes an
L2 line or starts sparing. -/
def runCoreError (e : CoreErr) (s : State) : State :=
  let l := e.lcn
  let k := lcnOf s l
  match coreOf s l with
  | none => s
  | some core =>
    if ¬ lcnRuns s l ∨ needsSpare k then s
    else
      let who := (k.rolled ++ rolledBy e).eraseDups
      let s1 := dropErring core e (who.foldl (fun t c => rollBack l c t) s)
      if persistent k e then
        if isL2 e.arr ∧ k.l2deleted.length < 8 then
          updLcn l (fun x => { x with attempt := 1, rolled := who, errs := x.errs.erase (errKey e),
                                      rewritten := x.rewritten.erase (errKey e), l2deleted := x.l2deleted ++ [e.entry] }) s1
        else updLcn l (fun x => { x with attempt := 4, rolled := who }) s1
      else updLcn l (fun x => { x with attempt := max 1 x.attempt, rolled := who, errs := x.errs ++ [errKey e] }) s1

/-- RETRY_ATTEMPT_END: success counts for the core and the die's retry bucket (R148), and what erred has been rewritten; a
failed attempt is followed by a second, a failed second one by sparing (R145). -/
def runRetryEnd (l : Nat) (ok : Bool) (s : State) : State :=
  let k := lcnOf s l
  match coreOf s l with
  | none => s
  | some c =>
    if k.attempt = 0 ∨ needsSpare k then s
    else if ok then
      let d := c / 128
      let s1 := updLcn l (fun x => { x with attempt := 0, rolled := [], rewritten := (x.rewritten ++ x.errs).eraseDups, errs := [] }) s
      let s2 := updDie d (fun x => { x with retry := tmod 0 x.retry (c % 128) (fun n => sat (n + 1) 0xFFFFFFFF) }) s1
      let n := tget 0 (dieOf s2 d).retry (c % 128)
      (bucketHit (retryUnit d) (c % 128 + n * 256) (bump (dieUnit d) 0x181 1 (bump (coreUnit l) 0xD 1 s2))).1
    else updLcn l (fun x => { x with attempt := x.attempt + 1 }) s

/-- CORRECTED_ERROR of a unit (R143). -/
def runCorrected (u : Nat) (s : State) : State :=
  if ¬ unitReady s u then s
  else if unitType u = 3 then memCe (unitHalf u) (unitInst u) s
  else
    let s1 := if unitType u = 1 then bump u 0x183 1 s else s
    (bucketHit u 0 s1).1

/-- BUCKET_LEAK (R143). -/
def runBucketLeak (u : Nat) (s : State) : State := updBucket u bucketLeak s

/-! ### Moves (R149–R158) -/

/-- The scope of a move's route change: the die, or the half for another die (R152 step 6). -/
def moveScope (m : Move) : Nat := if m.old / 128 = m.new / 128 then m.old / 128 else 16 + (dieHalf (m.old / 128)).n

/-- The spare for a move, taking spares out whose wake check fails (R150, R151). -/
def wakeSpare (d : Nat) (across : Bool) : List Nat → State → State × Option Nat
  | [], s => (s, chooseSpare s d across)
  | bad :: t, s =>
    match chooseSpare s d across with
    | some c =>
      if c = bad then
        wakeSpare d across t (logNow (dieHalf (c / 128)) (rpt (pcUnit c) 1 clsCE 0x0107 (res [(1, c / 128), (1, c % 128)]))
          (addFailed c s))
      else (s, some c)
    | none => (s, none)

/-- The SPARE_CORE in progress for an LCN. -/
def spareCmd (s : State) (l : Nat) : Option Prog := s.prog.find? (fun g => g.pkt.op == 0x0300 && g.pkt.f 0 2 == l)

/-- Requests of an LCN still open at attach ports (R153): unit and request ID. -/
def openShots (s : State) (l : Nat) : List (Nat × Nat) :=
  (upTo 4).flatMap (fun p => (portOf s p).reqs.filterMap (fun r => match r.why with
    | .load k _ rid _ => if k = l then some (portUnit p, rid) else none
    | _ => none))

/-- The state images of an LCN, in the reserved region of the slice of a core's tile (R152 step 4, R153). -/
def imageOfLcn (l core : Nat) (s : State) : LcnImage :=
  { slice := core / 128 * 17 + core % 128 / 4, ctxA := ctxOf s l 0, ctxB := ctxOf s l 1, restA := (ckOf s l 0).rest,
    restB := (ckOf s l 1).rest, ext := (lcnOf s l).ext, oneShots := openShots s l,
    ctrs := s.ctrs.filter (fun e => e.1 / 8 = coreUnit l), samp := (lcnOf s l).samp, locks := (lcnOf s l).locks }

/-- Steps 3 and 4 of R152: the contexts stop at a group boundary, the failing core's L2 is flushed, the images are written. A
dirty sector of `ue` has an uncorrectable error and goes to the L3 poisoned (R155). -/
def vacate (l old tile : Nat) (ue : List Nat) (s : State) : State :=
  let s1 := retireGroup l 1 (retireGroup l 0 s)
  let s2 := flushL2 old (ue.foldl (fun t sec => poisonL2 old sec t) s1)
  { s2 with images := tset none s2.images l (some (imageOfLcn l tile s2)) }

/-- An imaged context with what was captured for it meanwhile (R154); an event due ends its WAIT. -/
def withCaptured (cur im : Ctx) (ext : Bool) : Ctx :=
  let c := { im with modeChange := im.modeChange || cur.modeChange, clockLoss := im.clockLoss || cur.clockLoss, halt := cur.halt }
  if ext || c.modeChange || c.clockLoss then endWait Cc.zero c else c

/-- Step 5 of R152 at the new core: the images are loaded as they were written, interrupts captured meanwhile stay pending. -/
def loadImage (l : Nat) (s : State) : State :=
  match tget none s.images l with
  | none => s
  | some im =>
    let due := !(lcnOf s l).ext.isEmpty
    let s1 := setCtx l 1 (withCaptured (ctxOf s l 1) im.ctxB due) (setCtx l 0 (withCaptured (ctxOf s l 0) im.ctxA due) s)
    let s2 := setCk l 1 { ckOf s1 l 1 with rest := im.restB } (setCk l 0 { ckOf s1 l 0 with rest := im.restA } s1)
    { updLcn l (fun k => { k with locks := im.locks, samp := im.samp, ext := im.ext.foldl setIns k.ext }) s2 with
      ctrs := im.ctrs.foldl (fun (t : Tab Ctr) e => tset Ctr.zero t e.1 e.2) (s2.ctrs.filter (fun e => e.1 / 8 ≠ coreUnit l))
      images := tset none s2.images l none }

/-- CORE_MOVE: steps 2 to 6 begin; with no spare in the half an automatic move parks the LCN (R152, R157). `bad` lists
spares, in the order of choice, whose wake check fails; `ue` dirty L2 sectors that cannot be corrected. -/
def runCoreMove (l : Nat) (bad ue : List Nat) (s : State) : State :=
  let k := lcnOf s l
  match coreOf s l with
  | none => s
  | some c =>
    let cmd := spareCmd s l
    if s.moves.any (fun m => m.lcn == l) ∨ ¬ (needsSpare k ∨ cmd.isSome) then s
    else
      let auto := needsSpare k
      let across := auto || (match cmd with | some g => g.pkt.f 2 1 == 1 | none => false)
      let r := wakeSpare (c / 128) across bad s
      match r.2 with
      | some n =>
        let m : Move := ⟨l, c, n, if ¬ auto then 2 else moveCause k, cmd⟩
        let s1 := vacate l c n ue r.1
        routeStart (moveScope m) { s1 with moves := s1.moves ++ [m] }
      | none =>
        if ¬ auto then failOpt cmd 1 r.1
        else
          let s1 := addFailed c (parkLcn l (updLcn l (fun x => { x with last := some c }) (vacate l c c ue r.1)))
          logNow (dieHalf (c / 128)) (rpt (pcUnit c) 2 clsUC 0x0104 (res [(2, l), (1, c / 128), (1, c % 128)]))
            (failOpt cmd 0 s1)

/-- What does not move with an LCN: unlocked TLB entries, frame store, predictor and detector state (R153). -/
def dropLocal (l : Nat) (s : State) : State :=
  let f := fun (c : Ctx) => { c with frame := [], sdNext := 0, sdBytes := 0, sdRun := 0 }
  updCtx l 1 f (updCtx l 0 f (updLcn l (fun k =>
    { k.noTlb with attempt := 0, rolled := [], errs := [], rewritten := [], l2deleted := [] }) s))

/-- A context lost before the move resumes at the H vector of MACHINE_CHECK (R156). -/
def resumeLost (c : Ctx) : Ctx :=
  match c.mcheck with
  | some (3, _) =>
    { Ctx.reset with
      psw := Psw.reset, pc := c.xh.evb + BitVec.ofNat 64 0x40, mcheck := none, wait := none, halt := c.halt, ckSeq := c.ckSeq
      xh := { c.xh with xpc := 0, xpsw := 0, xaddr := 0, xcode := 0x301, xinfo := 0 }
      xs := c.xs, cbase := c.cbase, clim := c.clim, ttbrS := c.ttbrS, ttbrH := c.ttbrH, vttbr := c.vttbr, sua := c.sua,
      adhOffS := c.adhOffS, adhOffH := c.adhOffH, uread := c.uread }
  | _ => c

/-- Broker of a move: the die's within the die, the region's across dies (R26, R555). -/
def moveLevel (m : Move) : Nat := if m.old / 128 = m.new / 128 then 1 else 2

/-- CORE_MOVED entry (R568); the stall is a time the model does not count (log 3). -/
def moveLog (m : Move) (s : State) : State :=
  let d := m.old / 128
  logNow (dieHalf d) (rpt (pcUnit m.old) (moveLevel m) clsCR 0x0103 (res [(2, m.lcn), (1, d), (1, m.old % 128), (1, m.new / 128), (1, m.new % 128),
    (2, freeVal s % 2 ^ 16), (1, m.cause)])) (drawn s)

/-- One more move out of a die's cores: CD_SPARE.MOVES and its event (R163). -/
def countMove (old : Nat) (s : State) : State :=
  bump (dieUnit (old / 128)) 0x182 1 (updDie (old / 128) (fun x => { x with moves := sat (x.moves + 1) 255 }) s)

/-- CORE_MOVE_COMPLETE: the epoch change ended, the spare resumes both contexts, the vacated core is FAILED (R149, R152). -/
def runMoveComplete (l : Nat) (s : State) : State :=
  match s.moves.find? (fun m => m.lcn == l) with
  | none => s
  | some m =>
    let d := m.old / 128
    let stall := freeVal s % 2 ^ 16
    let s1 := { drawn s with moves := dropFirst (fun x => x.lcn == l) s.moves }
    let s2 := dropLocal l (addFailed m.old (assignCore l m.new (loadImage l s1)))
    let s3 := updCtx l 1 resumeLost (updCtx l 0 resumeLost s2)
    let s4 := countMove m.old (updDie (m.new / 128) (fun x => { x with coreReady := setIns x.coreReady (m.new % 128) }) s3)
    let s5 := runRouteEnd (moveScope m) s4
    let s6 := logNow (dieHalf d) (rpt (pcUnit m.old) (moveLevel m) clsCR 0x0103 (res [(2, l), (1, d), (1, m.old % 128), (1, m.new / 128),
      (1, m.new % 128), (2, stall), (1, m.cause)])) s5
    finishOpt m.cmd stDone 7 (res [(1, d), (1, m.old % 128), (1, m.new / 128), (1, m.new % 128), (2, stall),
      (1, (freeSpares s6 (m.new / 128)).length)]) s6

/-- A freed core lets the LCN of its half parked longest complete its move (R158). -/
def unpark (h : Half) (s : State) : State :=
  match s.parks.find? (fun l => lcnHalf s l == h) with
  | none => s
  | some l =>
    match chooseSpare s (lastDie s l) true with
    | none => s
    | some c =>
      let s1 := dropLocal l (assignCore l c (loadImage l s))
      let s2 := updDie (c / 128) (fun x => { x with coreReady := setIns x.coreReady (c % 128) }) s1
      let old := (lcnOf s l).last.getD (homeCore s l)
      moveLog ⟨l, old, c, moveCause (lcnOf s l), none⟩ (countMove old (updCtx l 1 resumeLost (updCtx l 0 resumeLost s2)))

/-- LCNs parked with images in a die's L3 (R157). -/
def parkedIn (s : State) (d : Nat) : List Nat :=
  s.parks.filter (fun l => match tget none s.images l with | some im => im.slice / 17 == d | none => false)

/-- CORE_OFFLINE of an LCN that has a core or is parked (R158). -/
def coreOffline (l : Nat) (s : State) : State :=
  let k := lcnOf s l
  if k.parked then
    coreReset l Ctx.reset { updLcn l (fun x => { x with parked := false, off := true }) s with
      parks := s.parks.filter (fun x => x ≠ l), images := tset none s.images l none }
  else
    match coreOf s l with
    | none => s
    | some c => unpark (lcnHalf s l) (flushL2 c <| coreReset l Ctx.reset (updLcn l (fun x => { x with off := true, moved := none, last := some c }) s))

/-- CORE_ONLINE of an LCN without a core: the spare of R150, core reset (R158, R540); none when no spare is free. -/
def coreOnline (l : Nat) (s : State) : Option State :=
  match chooseSpare s (lastDie s l) true with
  | none => none
  | some c =>
    some (coreReset l (startCtx (c / 128) true)
      (updDie (c / 128) (fun x => { x with coreReady := setIns x.coreReady (c % 128) }) (assignCore l c s)))

/-- Moves of a half are abandoned at HOLD entry or its loss, and no LCN of it stays parked (R158, R632). An LCN moved by
SPARE_CORE stays on its old core, and its command ends FAILED with reason 0 where `reply` says that replies are posted (R68);
one moved automatically, or parked, is left without a core. -/
def abandonMoves (reply : Bool) (h : Half) (s : State) : State :=
  let mine := s.moves.filter (fun m => lcnHalf s m.lcn == h)
  let s1 := { s with moves := s.moves.filter (fun m => lcnHalf s m.lcn ≠ h) }
  let s2 := mine.foldl (fun t m =>
    let t1 := if reply then failOpt m.cmd 0 t else t
    if m.cause = 2 then { t1 with images := tset none t1.images m.lcn none }
    else addFailed m.old (bareLcn m.lcn (updLcn m.lcn (fun k => { k with last := some m.old }) t1))) s1
  (s2.parks.filter (fun l => lcnHalf s2 l == h)).foldl (fun t l => bareLcn l t) s2

/-! ### Self-test at bring-up (R161, R547) -/

/-- Every populated die of the half in service has completed its self-tests (R161). -/
def testsDone (s : State) (h : Half) : Bool :=
  (upTo 16).all (fun d => !(diePresent s d) || dieHalf d != h || (dieOf s d).lost || (dieOf s d).heldOut || (dieOf s d).tested)

/-- The lowest LCN whose core is ready. -/
def lowestReady (s : State) : Option Nat :=
  (upTo (lcnCount s)).find? (fun l => match coreOf s l with
    | some c => (dieOf s (c / 128)).coreReady.contains (c % 128)
    | none => false)

/-- Contexts of an LCN start as its core becomes ready: those of the lowest ready LCN run, others wait (R547). -/
def startLcn (l : Nat) (s : State) : State :=
  match coreOf s l with
  | none => s
  | some c => coreReset l (startCtx (c / 128) (lowestReady s != some l)) s

/-- LCNs left without a core get spares, in ascending order; those that find none stay offline (R161, R632). -/
def giveSpares (h : Half) (s : State) : State :=
  (lcnsOf s h).foldl (fun t l =>
    if ¬ (lcnOf t l).bare then t
    else match chooseSpare t (lastDie t l) true with
    | some c =>
      let old := (lcnOf t l).last.getD (homeCore t l)
      startLcn l (moveLog ⟨l, old, c, moveCause (lcnOf t l), none⟩ (countMove old (assignCore l c t)))
    | none => updLcn l (fun x => { x with bare := false, off := true }) t) s

/-- CORE_SELF_TEST of a die: the cores that failed (R161). -/
def runSelfTest (d : Nat) (bad : List Nat) (s : State) : State :=
  let x := dieOf s d
  if ¬ diePresent s d ∨ ¬ x.ready ∨ x.lost ∨ x.heldOut ∨ x.tested then s
  else
    let good := (upTo 68).filter (fun p => !bad.contains p && !x.failed.contains p)
    let hit := (upTo (lcnCount s)).filter (fun l => match coreOf s l with
      | some c => c / 128 == d && !good.contains (c % 128)
      | none => false)
    let s1 := updDie d (fun y => { y with tested := true, coreReady := good, failed := (bad.filter (fun p => p < 68)).foldl setIns y.failed }) s
    let s2 := hit.foldl (fun t l => bareLcn l (updLcn l (fun k => { k with last := coreOf s l, attempt := 6 }) t)) s1
    let s3 := ((upTo (lcnCount s2)).filter (fun l => match coreOf s2 l with | some c => c / 128 == d | none => false)).foldl
      (fun t l => startLcn l t) s2
    if testsDone s3 (dieHalf d) then giveSpares (dieHalf d) s3 else s3

/-- DIAG_CORE_TEST: the core to test (R633). -/
def testCore (s : State) (l : Nat) : Nat := (lcnOf s l).last.getD (homeCore s l)

end Sys2Proof.Machine
end

