-- ==== Sys2Proof/Machine/ModeRun.lean ====
section
/-! DEFINITION. Package modes and their transitions, resets, loss of a half, a die or the Breakwater
(R34–R49, R335, R336, R540, R556–R560). -/
namespace Sys2Proof.Machine

/-- SYS_MODE (R34, R47, R48). -/
def sysMode (s : State) : Nat :=
  let t := match s.pkg.mode, s.pkg.trans with
    | .drain, some t => t.follow.n
    | _, _ => 0
  putBits [(31, b2n s.pkg.trans.isSome), (24, t), (20, s.pkg.hstate.b.n), (16, s.pkg.hstate.a.n), (12, s.pkg.prev.n), (0, s.pkg.mode.n)]

/-- MODE entry (R568): old and new mode, status. -/
def modeLog (old new : Mode) (status : Nat) (s : State) : State :=
  logNow (leader s) (rpt (hmUnit (leader s)) 3 clsNote 0x0901 (res [(1, old.n), (1, new.n), (1, status)])) s

/-- MODE changes to `m` with its log entry. -/
def toMode (m : Mode) (status : Nat) (s : State) : State :=
  modeLog s.pkg.mode m status (updPkg (fun p => { p with prev := p.mode, mode := m }) s)

/-! ### Resets (R540) -/

/-- The fields a die reset changes in the record of the die; the core map and CD_SPARE stay (R161, R163). -/
def dieFresh (d : Die) : Die :=
  { d with retry := [], ready := false, tested := false, coreReady := [], clamp := false, hot := false, silent := [] }

/-- Modules of a die at both ends. -/
def dieLinks (d : Nat) (st : RytState) (s : State) : State :=
  [rytKey d 0, rytKey d 1].foldl (fun t k => both k (fun _ => { Ryt.reset with st := st }) t) s

/-- Die reset: die controller, L3, mesh, cores, its modules at both ends (R540). -/
def dieReset (d : Nat) (s : State) : State :=
  let s1 := updDie d dieFresh s
  let s2 := ((upTo (lcnCount s)).filter (fun l => match coreOf s l with | some c => c / 128 == d | none => homeCore s l / 128 == d && !(lcnOf s l).parked)).foldl
    (fun t l => coreReset l Ctx.reset t) s1
  let s3 := updCoh (fun k => { k with
    cache := k.cache.filter (fun e => e.1 / 2 ^ 46 ≠ d), victim := k.victim.filter (fun v => v.agent ≠ d)
    l2 := k.l2.filter (fun e => e.1 / 2 ^ 53 ≠ d), l1d := k.l1d.filter (fun e => e / 2 ^ 53 ≠ d)
    l1i := k.l1i.filter (fun e => e / 2 ^ 53 ≠ d)
    holder := k.holder.filter (fun e => e.1 / 2 ^ 46 ≠ d)
    deleted := k.deleted.filter (fun e => e.1 / 17 ≠ d), erred := k.erred.filter (fun e => e.1 / 17 ≠ d)
    retries := k.retries.filter (fun q => q.m.agent ≠ d), net := k.net.filter (fun x => x.m.agent ≠ d) }) s2
  let s4 := updFab (fun f => { f with routes := tset Route.reset f.routes d Route.reset, standby := setDel f.standby d }) s3
  let s5 := { s4 with ctrs := s4.ctrs.filter (fun e => unitDie (e.1 / 8) ≠ d ∨ 0xFF000000 ≤ e.1 / 8) }
  dieLinks d .down (updUnits (fun u => { u with
    pstate := u.pstate.filter (fun e => unitDie e.1 ≠ d), buckets := u.buckets.filter (fun e => unitDie e.1 ≠ d)
    preq := u.preq.filter (fun r => unitDie r.unit ≠ d)
    tap := { u.tap with ir := u.tap.ir.filter (fun e => e.1 ≠ d), dr := u.tap.dr.filter (fun e => e.1 ≠ d) } }) s5)

/-- The units of a hub after its reset; heads, the operation of the Lighthouse and hold-domain items stay (R523, R540). -/
def hubUnits (h : Half) (u : Units) : Units :=
  { u with
    rings := u.rings.filter (fun e => e.1 / 256 ≠ h.n), engs := u.engs.filter (fun e => e.1 / 8 ≠ h.n)
    chs := u.chs.filter (fun e => e.1 / 128 ≠ h.n), movers := u.movers.filter (fun e => e.1 / 16 ≠ h.n)
    ldg := u.ldg.set h { Ldg.reset with heads := (u.ldg.get h).heads, openCtr := (u.ldg.get h).openCtr }
    lh := u.lh.set h { u.lh.get h with wrapOn := false }
    coll := u.coll.set h Coll.reset
    ready := u.ready.set h ((u.ready.get h).filter (fun k => k = rbLh ∨ k = rbLog))
    pstate := u.pstate.filter (fun e => unitHalf e.1 ≠ h ∨ unitDie e.1 ≠ 0xFF)
    preq := u.preq.filter (fun r => unitHalf r.unit ≠ h)
    tap := { u.tap with apHeld := u.tap.apHeld.set h none }
    buckets := u.buckets.filter (fun e => unitHalf e.1 ≠ h) }

/-- Home agents and units of a hub in the fabric: hub modules, routes, held requests, standby. -/
def hubFabric (h : Half) (f : Fabric) : Fabric :=
  { f with
    modules := f.modules.filter (fun e => e.1 / 32 ≠ 16 + h.n)
    buckets := f.buckets.filter (fun e => e.1 / 32 ≠ h.n ∨ e.1 % 32 = 16)
    routes := f.routes.filter (fun e => e.1 ≠ 16 + h.n), asleep := f.asleep.filter (fun a => a.m.home ≠ h)
    standby := setDel f.standby (16 + h.n) }

/-- What run control and trace of an LCN keep only within one operation of its half (R602); interrupts held for one that had no
running core (`ran`) stay (R24). -/
def lcnFresh (ran : Bool) (l : Nat) (s : State) : State :=
  updLcn l (fun x => { x with bp := [], trcBase := 0, trcEn := false, trcWrap := false, trcFull := false, trcCtx := 0,
                              trcPages := 0, trcPtr := 0, trcLost := 0, trcBuf := [], trcCount := 0, div := 3,
                              ext := if ran then [] else x.ext }) (coreReset l Ctx.reset s)

/-- A lost LCN is given its core again as its half starts anew, as the map has it (R24, R161); it waits for a spare when that
core has failed or now serves another. In DEGRADED mode it stays lost until the half has rejoined (R45, R49). -/
def lcnReturn (l : Nat) (s : State) : State :=
  let k := lcnOf s l
  if ¬ k.lost ∨ s.pkg.mode = .degraded then s
  else
    let c := k.moved.getD (homeCore s l)
    if (servedBy s c).isSome ∨ (dieOf s (c / 128)).failed.contains (c % 128) then bareLcn l (updLcn l (fun x => { x with lost := false }) s)
    else updLcn l (fun x => { x with lost := false }) s

/-- Half reset: the hub and its compute dies apart from the hold domain (R540). -/
def halfReset (h : Half) (s : State) : State :=
  let dies := (upTo 16).filter (fun d => dieHalf d == h && diePresent s d)
  let s1 := dies.foldl (fun t d => updDie d (fun x => { x with lost := false, heldOut := false }) (dieReset d t)) s
  let s2 := (lcnsOf s h).foldl (fun t l => lcnReturn l (lcnFresh (lcnReady s l) l t)) s1
  let a := 16 + h.n
  let s3 := updCoh (fun k => { k with
    cache := k.cache.filter (fun e => e.1 / 2 ^ 46 ≠ a), victim := k.victim.filter (fun v => v.agent ≠ a)
    cpec := k.cpec.filter (fun e => e / 2 ^ 51 ≠ h.n)
    retries := k.retries.filter (fun q => q.m.from_ ≠ h ∧ q.m.home ≠ h), net := k.net.filter (fun x => x.m.from_ ≠ h ∧ x.m.home ≠ h) }) s2
  let keep := (s3.mem.get h).failedHold
  let ports := if h = .a then 0 else 2
  { s3 with
    pkg := { s3.pkg with alive := s3.pkg.alive.set h true }
    rings := s3.rings.filter (fun e => e.1 / 4 ≠ h.n)
    mem := s3.mem.set h { Mem.reset with failedHold := keep }
    home := s3.home.set h Home.reset
    mirq := s3.mirq.set h []
    fab := hubFabric h s3.fab
    latches := s3.latches.filter (fun x => unitHalf x.unit ≠ h)
    ctrs := s3.ctrs.filter (fun e => unitHalf (e.1 / 8) ≠ h ∨ unitDie (e.1 / 8) ≠ 0xFF ∨ 0xFF000000 ≤ e.1 / 8)
    att := { ports := s3.att.ports.filter (fun e => e.1 / 2 * 2 ≠ ports)
             fns := (s3.att.fns.filter (fun e => e.1 / 128 * 2 ≠ ports)) |> fun t => tset Fn.reset t (ports * 64 + 64) { Fn.reset with firstQp := 16 }
             qps := s3.att.qps.filter (fun e => e.1 / 2048 ≠ h.n) }
    css := s3.css.set h { Css.reset with ift := (s3.css.get h).ift, opCtr := (s3.css.get h).opCtr, seqCtr := (s3.css.get h).seqCtr }
    units := hubUnits h s3.units }

/-- The clocks of a package reset (R534, R540): nothing runs on a standby PLL. -/
def packageReset (s : State) : State := (halvesOf s).foldl (fun t h => halfReset h t) s

/-! ### HOLD (R39, R68, R335, R503, R507, R513) -/

/-- Commands in progress and waiting that `mine` picks end as their half or package is held: those of the management port end
FAILED, the one whose own transition ends in HOLD DONE there; the others get no reply (R68). -/
def endHeld (mine : Src → Bool) (own : Option Prog) (s : State) : State :=
  let mgmt := fun (p : Pkt) => match p.src with | .mgmt h => mine (.mgmt h) | _ => false
  let gs := s.prog.filter (fun g => mgmt g.pkt)
  let ws := s.waitFence.filter (fun w => mgmt w.pkt)
  let s1 := { s with prog := s.prog.filter (fun g => !mine g.pkt.src), waitFence := s.waitFence.filter (fun w => !mine w.pkt.src) }
  let s2 := gs.foldl (fun t g =>
    if some g.pkt = own.map (fun x => x.pkt) then postReply (replyTo g.pkt stDone true 4 (sysMode t)) t
    else postReply (replyTo g.pkt stFailed true 1 0) t) s1
  ws.foldl (fun t w => postReply (replyTo w.pkt stFailed true 1 0) t) s2

/-- At HOLD entry every command ends so. -/
def endCommands (own : Option Prog) (s : State) : State := endHeld (fun _ => true) own s

/-- What leaves a half's hold domain at its entry to HOLD or to HELD; `loss` marks its entries HALFLOSS. -/
def holdHalf (loss : Bool) (h : Half) (s : State) : State :=
  let s1 := ldgHold h (abandonMoves false h s)
  let s2 := updCss h (fun c => { c with ift := c.ift.map (fun e => (e.1, interruptEntry loss e.2)) }) s1
  updLh h (fun l => { l with wrapOn := false, att := false, taken := none }) (halfReset h s2)

/-- A half alone goes to HELD (R48): what came on its rings ends with them. -/
def heldHalf (loss : Bool) (h : Half) (own : Option Prog) (s : State) : State :=
  endHeld (fun src => src.half == h) own (setHState h .held (holdHalf loss h s))

def heldAll (s : State) : Pair HState := ⟨.held, if hubPresent s .b then .held else .absent⟩

/-- The package enters HOLD. `status` is for the log; `own` the MODE_SET that leads there. -/
def goHold (loss : Bool) (status : Nat) (own : Option Prog) (s : State) : State :=
  let s1 := (halvesOf s).foldl (fun t h => holdHalf loss h t) s
  let s2 := updPkg (fun p => { p with hstate := heldAll s, trans := none, htrans := ⟨none, none⟩, resilver := 0 }) s1
  let s3 := endGrant (updUnits (fun u => { u with pwr := { u.pwr with lock := false }, pairing := { u.pairing with valid := false } }) s2)
  endCommands own (toMode .hold status s3)

/-- A main feed serves (R522). -/
def feedIn (s : State) : Bool :=
  let p := s.units.pwr
  (p.feedA.ok && !p.feedA.lost) || (p.feedB.ok && !p.feedB.lost)

/-- Streams adopted by the other hub are their own hub's again when the package passes through BRINGUP (R431). -/
def headsHome (s : State) : State :=
  let all := (ldgOf s .a).heads ++ (ldgOf s .b).heads
  let mine := fun (h : Half) => (all.filter (fun e => e.1 / 65536 = h.n)).foldl (fun (t : Tab Head) e => tset Head.free t e.1 e.2) []
  updLdg .b (fun l => { l with heads := mine .b }) (updLdg .a (fun l => { l with heads := mine .a }) s)

/-- Entry to BRINGUP from HOLD (R39, R528): both halves BRINGUP, the root PLL locks to the crystal or to IRO. -/
def goBringup (status : Nat) (s : State) : State :=
  let ref := !s.units.pwr.xok
  let s1 := packageReset (updPkg (fun p => { p with hstate := ⟨.bringup, if hubPresent s .b then .bringup else .absent⟩ }) (headsHome s))
  let s2 := updUnits (fun u => { u with pwr := { u.pwr with lock := true, ref := ref, resetPend := false },
                                        pairing := ⟨false, 0, false, false⟩, autoDone := false }) s1
  let s3 := toMode .bringup status s2
  if ref then logNow (leader s3) (rpt (srcOf (leader s3) 0xFF 0x15 0) 3 clsCE 0x0802 0) s3 else s3

/-- HOLD is entered; a RESET_N release that waited for it takes the package on (R625). -/
def enterHold (loss : Bool) (status : Nat) (own : Option Prog) (s : State) : State :=
  let s1 := goHold loss status own s
  if s.units.pwr.resetPend ∧ feedIn s1 then goBringup 0xFF s1 else s1

/-! ### Memory and caches at a change of mode -/

/-- Dirty copies go to memory and stay clean (R209): M becomes E, O becomes S, which no owner holds (R211). -/
def cleanAll (h : Half) (s : State) : State :=
  let s1 := s.coh.cache.foldl (fun t e =>
    if e.2.st.dirty ∧ inDomain s h (e.1 / 2 ^ 46) then putSector t h (e.1 % 2 ^ 46) e.2.data e.2.poison else t) s
  let wasO := s.coh.cache.filter (fun e => e.2.st = .o ∧ inDomain s h (e.1 / 2 ^ 46))
  let s2 := wasO.foldl (fun t e =>
    let sec := e.1 % 2 ^ 46
    let g := homeFor t h sec
    if (dirOf t g (sec / 4)).v then setDir g (sec / 4) (setOwner sec 31) t else t) s1
  s2.coh.cache.foldl (fun t e =>
    let st : Moesi := match e.2.st with | .m => .e | .o => .s | x => x
    if st = e.2.st ∨ ¬ inDomain s h (e.1 / 2 ^ 46) then t
    else updCoh (fun k => { k with cache := tset CSector.none k.cache e.1 { e.2 with st := st },
                                   l2 := k.l2.map (fun x => if inDie (e.1 / 2 ^ 46) (e.1 % 2 ^ 46) x.1 ∧ x.2 = .m then (x.1, .e) else x) }) t) s2

/-- Nothing is cached or under way any more. -/
def dropCaches (s : State) : State :=
  let s1 := updCoh (fun k => { Coh.reset with deleted := k.deleted, erred := k.erred }) s
  let fresh := fun (x : Home) => { Home.reset with timer := x.timer }
  { s1 with home := ⟨fresh s1.home.a, fresh s1.home.b⟩ }

/-- Place a hub's image region and load slot 0 of it (R493 step 5, R496). -/
def placeImage (h : Half) (s : State) : State :=
  let lim := dramLimit s h / 2 ^ 24
  let base := if effMode s = .split ∨ h = .a then lim - 1 else lim - 2
  let s1 := updCss h (fun c => { c with imgBase := base, imgLock := true, loaded := [] }) s
  let i := tget ⟨0, 0, []⟩ (lhOf s h).cache 4
  if i = ⟨0, 0, []⟩ then s1 else updLh h (fun l => { l with nvmok := true }) (loadSlot h 0 i.version i.body s1)

/-- A transition that re-initialises DRAM, now in its new mode (R40, R267, R496, log 14): sets fixed anew, DRAM zero, no
caches, streams without their control entries, cores started again. -/
def reinit (s : State) : State :=
  let s1 := dropCaches s
  let s2 := (halvesOf s).foldl (fun t h => rezero h (fixSet h (ldgHold h t))) s1
  let s3 := (halvesOf s).foldl (fun t h => if (cssOf t h).imgLock then placeImage h t else t) s2
  (upTo (lcnCount s3)).foldl (fun t l => startLcn l t) s3

/-! ### DRAIN (R41, R43, R47) -/

/-- MODE_CHANGE becomes pending at every core of the halves that run (R41). -/
def modeChangeAll (hs : List Half) (s : State) : State :=
  ((upTo (lcnCount s)).filter (fun l => hs.contains (lcnHalf s l) && (coreOf s l).isSome)).foldl (fun t l =>
    let f := fun (c : Ctx) => { endWait Cc.zero c with modeChange := true }
    modCtx l 1 f (modCtx l 0 f t)) s

/-- Enter DRAIN from a running mode. -/
def enterDrain (follow : Mode) (cmd : Option Prog) (pfw : Bool) (s : State) : State :=
  let src := s.pkg.mode
  let hs := (halvesOf s).filter (fun h => halfUp s h)
  let t : Trans := { source := src, target := .drain, follow := follow, half := none, cmd := cmd, abortCmd := none, phase := 1, pfw := pfw }
  let s1 := updPkg (fun p => { p with trans := some t, hstate :=
    ⟨if p.hstate.a = .running then .draining else p.hstate.a, if p.hstate.b = .running then .draining else p.hstate.b⟩ }) s
  let s2 := toMode .drain (if cmd.isSome then stAccepted else 0xFF) s1
  let s3 := hs.foldl (fun u h => ldgDrain h u) s2
  modeChangeAll hs s3

/-- IFT entries that run or wait to (R41). -/
def opsOpen (s : State) (h : Half) : Bool := (cssOf s h).ift.any (fun e => decide (1 ≤ e.2.st ∧ e.2.st ≤ 5))
def iftFree (s : State) (h : Half) : Bool := (cssOf s h).ift.all (fun e => e.2.st == 0)

/-- The in-flight column of R41 has ended in a half. -/
def halfDrained (s : State) (h : Half) : Bool :=
  !opsOpen s h && openAppends s h == 0 && (ldgOf s h).sigq == [] && !s.prog.any (fun g => g.pkt.src.half == h && g.pkt.op != 0x0101) &&
  s.units.engs.all (fun e => e.1 / 8 != h.n || e.2.cur.isNone) &&
  s.units.chs.all (fun e => e.1 / 128 != h.n || e.2.st != 2) &&
  s.att.ports.all (fun e => e.1 / 2 != h.n || e.2.reqs == [])

/-- No work that keeps a re-initialising transition from starting (R39). -/
def reinitClear (s : State) : Bool := (halvesOf s).all (fun h => iftFree s h && openAppends s h == 0)

/-- A MODE_SET other than a drain's own is in progress as `g`. -/
def modeDone (g : Option Prog) (status : Nat) (s : State) : State :=
  if status = stFailed then failOpt g 0 s else finishOpt g status 4 (sysMode s) s

/-- DRAIN_COMPLETE: the package goes on to its follow-on mode: HOLD at once, a re-initialising transition by its own steps
(R39, R47, R68); and half-named drains of SPLIT (R48). -/
def runDrainComplete (half : Option Half) (s : State) : State :=
  match half with
  | some h =>
    (match s.pkg.htrans.get h with
      | some t =>
        if t.phase ≠ 1 ∨ ¬ halfDrained s h then s
        else
          let s2 := heldHalf false h t.cmd (updPkg (fun p => { p with htrans := p.htrans.set h none }) s)
          if s2.pkg.hstate.get h.other = .held then enterHold false stDone t.cmd s2
          else finishOpt t.cmd stDone 4 (sysMode s2) s2
      | none => s)
  | none =>
    match s.pkg.mode, s.pkg.trans with
    | .drain, some t =>
      if t.phase ≠ 1 ∨ ¬ (halvesOf s).all (halfDrained s) then s
      else if t.follow = .hold then enterHold false (if t.cmd.isSome then stDone else 0xFF) t.cmd s
      else if reinitClear s then updPkg (fun p => { p with trans := some { t with phase := 2 } }) s
      else s
    | _, _ => s

/-- What the drain limit stops in a half: the current job of each engine ends FAILED, checkpoints not signed are dropped
(R41, R429). -/
def limitStop (h : Half) (s : State) : State :=
  let s1 := (upTo 8).foldl (fun t e => sealEndEarly h e stFailed 0 t) s
  updLdg h (fun l => { l with sigq := [], streams := l.streams.map (fun x => (x.1, { x.2 with ckpt := none })) }) s1

/-- DRAIN_LIMIT_EXPIRY: HOLD follows, or the package returns to its source mode with work open (R38, R39, R41). -/
def runDrainLimit (half : Option Half) (s : State) : State :=
  match half with
  | some h =>
    (match s.pkg.htrans.get h with
      | some t =>
        if t.phase ≠ 1 then s
        else
          let s2 := heldHalf false h t.cmd (updPkg (fun p => { p with htrans := p.htrans.set h none }) (limitStop h s))
          if s2.pkg.hstate.get h.other = .held then enterHold false stDone t.cmd s2
          else finishOpt t.cmd stDone 4 (sysMode s2) s2
      | none => s)
  | none =>
    match s.pkg.mode, s.pkg.trans with
    | .drain, some t =>
      if t.phase ≠ 1 then s
      else
        let s1 := (halvesOf s).foldl (fun u h => limitStop h u) s
        if t.follow = .hold then enterHold false (if t.cmd.isSome then stDone else 0xFF) t.cmd s1
        else if (halvesOf s).all (halfDrained s1) ∧ reinitClear s1 then updPkg (fun p => { p with trans := some { t with phase := 2 } }) s1
        else updPkg (fun p => { p with trans := some { t with phase := 3 } }) s1
    | _, _ => s

/-- Halves that drained run again. -/
def undrain (s : State) : State :=
  updPkg (fun p => { p with hstate := ⟨if p.hstate.a = .draining then .running else p.hstate.a,
                                       if p.hstate.b = .draining then .running else p.hstate.b⟩ }) s

/-- Queue heads that a drain froze move again (R41). -/
def thawQueues (s : State) : State := s.att.qps.foldl (fun t e => qpServe e.1 t) s

/-! ### Loss of a half in MIRRORED mode (R45, R223, R336, R431, R560) -/

/-- LCN_LOST entries (R45, R556). -/
def loseLcns (by_ : Half) (ls : List Nat) (s : State) : State :=
  ls.foldl (fun t l =>
    logNow by_ (rpt (hmUnit by_) 3 clsUC 0x0904 l)
      (updLcn l (fun k => { k with lost := true, last := some ((coreOf t l).getD ((k.last).getD (homeCore t l))), parked := false, bare := false })
        { t with parks := t.parks.filter (fun x => x ≠ l), images := tset none t.images l none })) s

/-- The place an item of the lost hub has at the surviving one: its own items after the survivor's own, and what it had itself
adopted back in their places. -/
def swapKey (n k : Nat) : Nat := if k < n then n + k else k - n

/-- Adopt the lost hub's subchannels, completion queues and IFT entries (R336). -/
def cssAdopt (h : Half) (s : State) : State :=
  let o := cssOf s h.other
  let s1 := updCss h (fun c => { c with
    adopted := true
    subs := o.subs.foldl (fun (t : Tab Sub) e => tset Sub.reset t (swapKey 2048 e.1) e.2) c.subs
    cqs := o.cqs.foldl (fun (t : Tab Cq) e => tset Cq.reset t (swapKey 512 e.1) e.2) c.cqs
    ift := o.ift.foldl (fun (t : Tab Ift) e =>
      tset Ift.free t (swapKey 8192 e.1) (if e.2.st = 8 then e.2 else interruptEntry true e.2)) c.ift }) s
  let s2 := updCss h.other (fun c => { c with ift := [], subs := [], cqs := [] }) s1
  let mine := (cssOf s2 h).ift.filter (fun e => e.2.live && e.2.pp / 16 == h.other.n)
  mine.foldl (fun t e => losePath h e.1 1 t) s2

/-- Requests open at the lost home that agents of the surviving half made are sent again (R223). -/
def resendLost (lost : Half) (s : State) : State :=
  let o := s.home.get lost
  let ts := o.trans.filterMap (fun e => match e.2 with | some t => if t.backInv then none else some (HReq.mk t.req t.m) | none => none)
  let qs := (ts ++ o.waiting ++ o.park).filter (fun q => q.m.from_ != lost && !(upAgent q.m.agent && agentHalf q.m.agent == lost))
  updCoh (fun k => { k with net := k.net ++ qs.map (fun q => ⟨q.req, { q.m with home := lost.other }⟩) }) s

/-- The surviving home's transactions no longer wait for agents of the lost half, or for its mirror. -/
def dropSilent (lost : Half) (s : State) : State :=
  let h := lost.other
  ((s.home.get h).trans.map (fun e => e.1)).foldl (fun t tx =>
    match tget none (t.home.get h).trans tx with
    | none => t
    | some x =>
      let gone := fun (a : Nat) => upAgent a && agentHalf a == lost
      let y := { x with await := x.await.filter (fun a => !gone a), evicting := x.evicting.filter (fun a => !gone a) }
      if gone x.m.agent then endTx h tx x t
      else if x.phase = 2 then endTx h tx x (complete .cmp x x.dirty x.poison t)
      else if x.phase = 0 then advance h tx y t
      else t) s

/-- Copies of lines homed in the lost half are invalidated; dies of the lost half leave the directory (R223). -/
def dropLost (lost : Half) (s : State) : State :=
  let gone := fun (a : Nat) => upAgent a && agentHalf a == lost
  let s1 := updCoh (fun k => { k with
    cache := k.cache.filter (fun e => !gone (e.1 / 2 ^ 46) && !(halfOf (e.1 % 2 ^ 46 / 64 % 2) == lost))
    victim := k.victim.filter (fun v => !gone v.agent && !(halfOf (v.sector / 64 % 2) == lost))
    net := k.net.filter (fun x => x.m.home != lost && !gone x.m.agent && x.op != .mirw && x.op != .mirack) }) s
  updHome lost.other (fun k => { k with dir := k.dir.foldl (fun (t : Tab DirEnt) e =>
    tset DirEnt.none t e.1 ((upTo 18).foldl (fun d a => if gone a then delHolder a { d with own := d.own.map (fun o => if o = a then 31 else o) } else d) e.2)) [] }) s1

/-- Fence every Breakwater module. -/
def closeBreakwater (s : State) : State :=
  (upTo 8).foldl (fun t i => both (rytKey 16 (16 + i)) (fun r => { r with st := .fenced, width := 0, replay := [], solo := false }) t) s

/-- The hub that executes a command in progress (R68, R70): that of its unit, LCN, port or stream, else the one it came to. -/
def cmdHalf (s : State) (p : Pkt) : Half :=
  match p.op with
  | 0x0201 => unitHalf (p.f 0 4)
  | 0x0300 => lcnHalf s (p.f 0 2)
  | 0x0305 => unitHalf (p.f 0 4)
  | 0x0306 => unitHalf (p.f 0 4)
  | 0x0403 => portHalf (p.f 0 1)
  | 0x0404 => portHalf (p.f 0 1)
  | 0x0501 => halfOf (p.f 0 4 / 65536)
  | 0x0503 => halfOf (p.f 0 4 / 65536)
  | 0x0A01 => unitHalf (p.f 0 4)
  | 0x0A02 => unitHalf (p.f 0 4)
  | 0x0A03 => lcnHalf s (p.f 0 2)
  | _ => p.src.half

/-- A hub is fenced (R68): commands that came on its rings and queues get no reply, those of its management port end FAILED on
that port, and those forwarded to it end FAILED, MODE_SET apart (R43). -/
def orphanCmds (lost : Half) (s : State) : State :=
  let s1 := endHeld (fun src => src.half == lost) none s
  (s1.prog.filter (fun g => g.pkt.op ≠ 0x0101 && cmdHalf s1 g.pkt == lost)).foldl (fun t g => fail g 0 t) s1

/-- MIRRORED to DEGRADED: the lost or named half is fenced and the other adopts what it held (R560). -/
def enterDegraded (lost : Half) (status : Nat) (s : State) : State :=
  let h := lost.other
  let ls := (lcnsOf s lost).filter (fun l => !(lcnOf s l).off)
  let s1 := orphanCmds lost (abandonMoves true lost s)
  let s2 := dropLost lost (dropSilent lost (resendLost lost s1))
  let s3 := ldgAdopt h (cssAdopt h s2)
  let img := cssOf s3 lost
  let s4 := closeBreakwater (halfReset lost s3)
  let s5 := updLh lost (fun l => { l with wrapOn := false }) (updUnits (fun u => { u with spTest := u.spTest.set lost true }) s4)
  let s6 := updCss lost (fun c => { c with imgBase := img.imgBase, imgLock := img.imgLock }) s5
  let s7 := updPkg (fun p => { p with hstate := (p.hstate.set lost .fenced).set h .running, trans := none }) s6
  loseLcns h ls (toMode .degraded status s7)

/-- The rejoining half of DEGRADED to MIRRORED returns to FENCED (R43, R268). -/
def dropRejoin (s : State) : State :=
  let f := (runHalf s).other
  let s1 := closeBreakwater (halfReset f s)
  let s2 := (lcnsOf s f).foldl (fun t l => updLcn l (fun k => { k with lost := true }) t) s1
  updUnits (fun u => { u with spTest := u.spTest.set f true }) (updPkg (fun p => { p with hstate := p.hstate.set f .fenced, trans := none, resilver := 0 }) s2)

/-! ### Transitions that run to their end -/

/-- As MIRRORED mode begins, the hubs' hold contents agree (R39): the ST64 of the hub that did not lead is steered to that of hub `h`,
never back (R505, R506). The IFT, the log and the heads are one record of each hub, which the other takes over from where its mirror
would stand (R336, R431, R571). -/
def agree (h : Half) (s : State) : State := stepSt64 h.other s

/-- The target of a transition out of BRINGUP is reached (R39, R45, R267). -/
def enterRunning (m : Mode) (status : Nat) (s0 : State) : State :=
  let s := if m = .mirrored then agree (leader s0) s0 else s0
  let s1 := (halvesOf s).foldl (fun t h => if t.pkg.hstate.get h = .bringup then fixSet h (setHState h .running t) else t) s
  toMode m status s1

/-- MODE_TRANSITION_COMPLETE (R39, R43). -/
def runTransitionComplete (s : State) : State :=
  match s.pkg.trans with
  | none => s
  | some t =>
    let clear := fun (u : State) => updPkg (fun p => { p with trans := none }) u
    match s.pkg.mode, t.phase with
    | .hold, _ => modeDone t.cmd stDone (goBringup stDone (clear s))
    | .bringup, _ =>
      if t.target = .hold then enterHold false stDone t.cmd (clear s)
      else
        let s1 := enterRunning t.target stDone (clear s)
        modeDone t.cmd stDone s1
    | .mirrored, _ =>
      let s1 := enterDegraded (t.half.getD .b) stDone (clear s)
      let s2 := modeDone t.cmd stDone s1
      if t.pfw then enterDrain .hold none true s2 else s2
    | .drain, 2 =>
      let s1 := toMode t.follow stDone (undrain (clear s))
      modeDone t.cmd stDone (thawQueues (reinit (if t.follow = .mirrored then agree (leader s1) s1 else s1)))
    | .drain, 3 =>
      let s1 := toMode t.source (if t.abortCmd.isSome then stDone else stNotQuiesced) (undrain (clear s))
      let s2 := match t.abortCmd with
        | some g => modeDone (some g) stDone (failOpt t.cmd 0 s1)
        | none => modeDone t.cmd stNotQuiesced s1
      if t.pfw then enterDrain .hold none true s2 else thawQueues s2
    | _, _ => s

/-- A half starts BRINGUP alone (R46, R39, R540). -/
def startHalf (h : Half) (s : State) : State := setHState h .bringup (halfReset h s)

/-- The units a half needs to run: Harbourmaster, hub fabric, one memory channel (R39). -/
def runReady (s : State) (h : Half) : Bool :=
  readyBit s h rbHm && readyBit s h rbHfab && (upTo 12).any (fun c => (chOf s h c).st == .unmapped || (chOf s h c).st == .mapped || (chOf s h c).st == .spare)

/-- The record of the units a half's bring-up found not ready (R48): a COMMAND entry with its opcode, the half, and the ready bits
of the Harbourmaster, the hub fabric and each memory channel (log 20). -/
def lateUnits (h : Half) (s : State) : State :=
  logNow (leader s) (rpt (hmUnit h) 3 clsNote 0x0906 (res [(2, 0x0101), (1, h.n), (1, b2n (readyBit s h rbHm) + 2 * b2n (readyBit s h rbHfab)),
    (2, ((upTo 12).filter (fun c => (chOf s h c).st == .unmapped || (chOf s h c).st == .mapped || (chOf s h c).st == .spare)).foldl
      (fun (n : Nat) c => n + 2 ^ c) 0)])) s

/-- HALF_BRINGUP_COMPLETE: in SPLIT the half reaches RUNNING or returns to HELD (R48); in DEGRADED the rejoining half
starts to receive its copy, if its set matches (R49, R268). -/
def runHalfBringup (h : Half) (s : State) : State :=
  if s.pkg.hstate.get h ≠ .bringup then s
  else match s.pkg.mode, s.pkg.htrans.get h, s.pkg.trans with
  | .split, some t, _ =>
    let s1 := updPkg (fun p => { p with htrans := p.htrans.set h none }) s
    if runReady s h then
      let s2 := fixSet h (setHState h .running s1)
      finishOpt t.cmd stDone 4 (sysMode s2) s2
    else
      let s2 := heldHalf false h none (lateUnits h s1)
      if s2.pkg.hstate.get h.other = .held then enterHold false 0xFF t.cmd s2 else failOpt t.cmd 0 s2
  | .degraded, _, some t =>
    let s1 := fixSet h s
    let r := runHalf s
    if runReady s h ∧ (s1.mem.get h).map.length = (s1.mem.get r).map.length ∧ (s1.mem.get h).kshift = (s1.mem.get r).kshift then
      updPkg (fun p => { p with resilver := 0 }) (setHState h .resilvering s1)
    else failOpt t.cmd 0 (dropRejoin s)
  | _, _, _ => s

/-- Directory entries go to the home that orders their lines (R266). -/
def splitDir (r : Half) (s : State) : State :=
  let mine := (s.home.get r).dir
  let away := mine.filter (fun e => halfOf (e.1 / 16 % 2) != r)
  updHome r.other (fun k => { k with dir := away })
    (updHome r (fun k => { k with dir := mine.filter (fun e => halfOf (e.1 / 16 % 2) == r) }) s)

/-- Lines the copy has reached: `n` bytes from the resilver pointer (R49). -/
def resilverCopy (r : Half) (lo hi : Nat) (s : State) : State :=
  let m := s.mem.get r
  let inR := fun (a : Nat) => decide (lo ≤ a ∧ a < hi)
  updMem r.other (fun k => { k with
    dram := (m.chans.flatMap (fun c => c.2.merges.filter (fun e => inR (e.sector * 64)))).foldl
      (fun (t : Tab Byte) e => storeBytes t (e.sector * 64) (memBytes m e.sector))
      ((m.dram.filter (fun e => inR e.1)).foldl (fun (t : Tab Byte) e => tset 0 t e.1 e.2) (k.dram.filter (fun e => !inR e.1)))
    poison := (m.poison.filter (fun x => inR (x * 64))).foldl setIns (k.poison.filter (fun x => !inR (x * 64))) }) s

/-- RESILVER_COMPLETE: the copy has ended; the rejoined half runs and the package is MIRRORED (R39, R49). -/
def runResilverComplete (s : State) : State :=
  let r := runHalf s
  match s.pkg.mode, s.pkg.trans with
  | .degraded, some t =>
    if s.pkg.hstate.get r.other ≠ .resilvering then s
    else
      let s1 := resilverCopy r s.pkg.resilver (capacity s r) (cleanAll r s)
      let s2 := updPkg (fun p => { p with hstate := p.hstate.set r.other .running, trans := none, resilver := 0 }) s1
      let s3 := splitDir r (toMode .mirrored stDone (agree r s2))
      let back := (lcnsOf s3 r.other).filter (fun l => (lcnOf s3 l).lost)
      let s4 := back.foldl (fun u l => startLcn l (lcnReturn l u)) s3
      modeDone t.cmd stDone (giveSpares r.other s4)
  | _, _ => s

/-- One more line of the copy per tick (R49). -/
def resilverTick (s : State) : State :=
  let r := runHalf s
  if s.pkg.mode = .degraded ∧ s.pkg.hstate.get r.other = .resilvering ∧ s.pkg.resilver < capacity s r then
    let s1 := resilverCopy r s.pkg.resilver (s.pkg.resilver + 256) s
    updPkg (fun p => { p with resilver := p.resilver + 256 }) s1
  else s

/-! ### Losses (R556–R560) -/

def halfLostLog (h : Half) (cause cls : Nat) (s : State) : State :=
  let by_ := if s.pkg.mode = .mirrored ∨ s.pkg.mode = .split then h.other else leader s
  logNow by_ (rpt (hmUnit by_) 3 cls 0x0902 (res [(1, h.n), (1, cause)])) s

/-- A half of SPLIT goes to HELD by a UF (R557). -/
def splitLoss (h : Half) (s : State) : State :=
  let t := s.pkg.htrans.get h
  let s1 := heldHalf true h none (updPkg (fun p => { p with htrans := p.htrans.set h none }) s)
  let s2 := match t with | some x => failOpt x.cmd 0 s1 | none => s1
  if s2.pkg.hstate.get h.other = .held then enterHold false 0xFF none s2 else s2

/-- A half is lost while SPLIT drains as a whole: it goes to HELD as in SPLIT (R557). A drain to HOLD goes on with the other half. One
to a mode that needs both halves is overtaken: the package returns to SPLIT (DESIGN CHOICE, log 24). -/
def drainLoss (h : Half) (s : State) : State :=
  let s1 := heldHalf true h none s
  match s.pkg.trans with
  | some t =>
    if s1.pkg.hstate.get h.other = .held then enterHold false 0xFF none (failOpt t.cmd 0 s1)
    else if t.follow = .hold ∨ t.phase = 3 then s1
    else thawQueues (failOpt t.abortCmd 0 (failOpt t.cmd 0 (toMode .split 0xFF (undrain (updPkg (fun p => { p with trans := none }) s1)))))
  | none => s1

/-- A half is lost in BRINGUP: it returns to HELD, and a MODE_SET under way that needs it ends NOT_READY; with no half left the
package enters HOLD (R557). -/
def bringupLoss (h : Half) (s : State) : State :=
  let s1 := heldHalf false h none s
  let s2 := match s.pkg.trans with
    | some t => if t.target = .hold then s1 else finishOpt t.cmd stNotReady 0 0 (updPkg (fun p => { p with trans := none }) s1)
    | none => s1
  if s2.pkg.hstate.get h.other = .held ∨ s2.pkg.hstate.get h.other = .absent then enterHold false 0xFF none s2 else s2

/-- HALF_LOSS with its cause (R43, R44, R557). -/
def runHalfLoss (h : Half) (cause : Nat) (s : State) : State :=
  let hs := s.pkg.hstate.get h
  if hs = .absent then s
  else if hs = .held ∨ hs = .fenced then halfLostLog h cause clsUC s
  else
    let s0 := halfLostLog h cause clsUF s
    let cmd := match s.pkg.trans with | some t => t.cmd | none => none
    let abort := match s.pkg.trans with | some t => t.abortCmd | none => none
    let pfw : Bool := match s.pkg.trans with | some t => t.pfw || (t.follow == .hold && t.cmd.isNone && s.pkg.mode == .drain && t.phase != 3) | none => false
    match effMode s with
    | .mirrored =>
      let s1 := failOpt abort 0 (failOpt cmd 0 (enterDegraded h 0xFF s0))
      if pfw then enterDrain .hold none true s1 else s1
    | .unified => enterHold true 0xFF none (failOpt cmd 0 s0)
    | .split => if s.pkg.mode = .drain then drainLoss h s0 else splitLoss h s0
    | .degraded =>
      if hs = .running ∨ hs = .draining then enterHold false 0xFF none (failOpt cmd 0 s0)
      else failOpt cmd 0 (dropRejoin s0)
    | .bringup => bringupLoss h s0
    | _ => s0

/-- Every Breakwater module is fenced or has missed 16 heartbeats, at either side, while both alive lines toggle (R559). -/
def bwaterGone (s : State) : Bool :=
  s.pkg.alive.a && s.pkg.alive.b && (nodeMods 16).all (fun k =>
    (rytOf s k).st == .fenced || decide (16 ≤ (rytOf s k).missed) || decide (16 ≤ (rytOf s (rytPeer k)).missed))

/-- BREAKWATER_LOSS (R559). -/
def runBreakwaterLoss (s : State) : State :=
  if s.cfg.part = .q0800a ∨ ¬ bwaterGone s then s
  else
    let note := fun (by_ : Half) (cls : Nat) (u : State) => logNow by_ (rpt (hmUnit by_) 3 cls 0x0903 0) u
    match effMode s with
    | .unified => enterHold true 0xFF none (note (leader s) clsUF s)
    | .mirrored =>
      let cmd := match s.pkg.trans with | some t => t.cmd | none => none
      failOpt cmd 0 (enterDegraded .b 0xFF (note .a clsUC s))
    | .split => note .b clsUC (note .a clsUC s)
    | .degraded => note (runHalf s) clsUC s
    | _ => note (leader s) clsUC s

/-- HARBOURMASTER_WATCHDOG: the hub's alive line stops (R558). -/
def runWatchdog (h : Half) (s : State) : State := updPkg (fun p => { p with alive := p.alive.set h false }) s

/-- ALIVE_LINE_TIMEOUT: the hub whose line shows no toggle is lost (R558). -/
def runAliveTimeout (h : Half) (s : State) : State := runHalfLoss h 1 s

/-- The directory records of a lost die, resolved as if it had answered RSP_MISS (R229 step 6, R556). -/
def dieDirectory (d : Nat) (h : Half) (s : State) : State :=
  let txs := (s.home.get h).trans.map (fun e => e.1)
  let s1 := txs.foldl (fun t tx =>
    match tget none (t.home.get h).trans tx with
    | some x =>
      if x.await.contains d then response .rspMiss { bare x.m d with home := h, txid := tx } t
      else if x.evicting.contains d then advance h tx { x with evicting := x.evicting.erase d } t
      else t
    | none => t) s
  (s1.home.get h).dir.foldl (fun t e =>
    let owned := (upTo 4).filter (fun i => e.2.v && e.2.own.getD i 31 == d)
    let f : Half := if effMode s = .split then h else lcnHalf s 0
    let t1 := if effMode s = .mirrored then t
      else owned.foldl (fun u i =>
        let sec := e.1 * 4 + i
        logNow h (rpt (homeSource u h f sec) 2 clsUC 0x0302 (logPa sec + d * 2 ^ 64)) (homePut f sec (homeMem u f sec).1 true u)) t
    setDir h e.1 (fun x => delHolder d (owned.foldl (fun y i => { y with own := y.own.set i 31 }) x)) t1) s1

/-- The state bears out the cause for which the region broker declares a die lost: 0 both Rytum modules fenced, 1 three home timeouts
within 10 ms; 2 is the die broker's own report (R556). -/
def dieCause (s : State) (d : Nat) : Nat → Bool
  | 0 => (nodeMods d).all (fun k => (rytOf s k).st == .fenced)
  | 1 => (match (dieOf s d).silent with
    | [new, _, old] => decide (new ≤ old + 10000000)
    | _ => false)
  | _ => true

/-- What the package loses with a die (R556): the broker logs it and takes its route away; moves from or to its cores are abandoned,
its LCNs and parked LCNs are lost; its caches are gone, and every home resolves what the die held. -/
def dieOut (d cause : Nat) (s : State) : State :=
  let h := dieHalf d
  let ls := (upTo (lcnCount s)).filter (fun l => match coreOf s l with | some c => c / 128 == d | none => false)
  let s0 := routeStart (16 + h.n) (logNow h (rpt (hmUnit h) 2 clsUC 0x0503 (res [(1, d), (1, cause)])) s)
  let hit := s0.moves.filter (fun m => m.old / 128 == d || m.new / 128 == d)
  let s1 := hit.foldl (fun t m =>
    let t1 := failOpt m.cmd 0 t
    if m.cause = 2 ∨ m.old / 128 = d then loadImage m.lcn t1 else addFailed m.old (bareLcn m.lcn t1))
    { s0 with moves := s0.moves.filter (fun m => m.old / 128 ≠ d ∧ m.new / 128 ≠ d) }
  let s2 := (parkedIn s1 d).foldl (fun t l => bareLcn l t) (loseLcns h ls s1)
  let s3 := updCoh (fun k => { k with
    cache := k.cache.filter (fun e => e.1 / 2 ^ 46 ≠ d), victim := k.victim.filter (fun v => v.agent ≠ d)
    l2 := k.l2.filter (fun e => e.1 / 2 ^ 46 / 128 ≠ d), l1d := k.l1d.filter (fun e => e / 2 ^ 46 / 128 ≠ d)
    l1i := k.l1i.filter (fun e => e / 2 ^ 46 / 128 ≠ d) }) s2
  (halvesOf s).foldl (fun t g => dieDirectory d g t) s3

/-- DIE_LOST with its cause: 0 both modules fenced, 1 home timeouts, 2 an error the die cannot contain (R556). The die is reset and
its modules train, for it to rejoin at the next BRINGUP. -/
def runDieLost (d cause : Nat) (s : State) : State :=
  if ¬ diePresent s d ∨ (dieOf s d).lost ∨ s.pkg.mode = .hold ∨ s.pkg.mode = .off ∨ ¬ dieCause s d cause then s
  else dieLinks d .training (updDie d (fun x => { x with lost := true }) (dieReset d (dieOut d cause s)))

end Sys2Proof.Machine
end

