-- ==== Sys2Proof/Machine/PowerRun.lean ====
section
/-! DEFINITION. Supplies, clocks, sideband inputs, block power and bring-up (R493, R522–R553, R618–R631). -/
namespace Sys2Proof.Machine

def updPwr (f : Pwr → Pwr) (s : State) : State := updUnits (fun u => { u with pwr := f u.pwr }) s

/-- Feed 0 is VMAIN_A, 1 VMAIN_B. -/
def feedOf (p : Pwr) (k : Nat) : Feed := if k = 0 then p.feedA else p.feedB
def updFeed (k : Nat) (f : Feed → Feed) (s : State) : State :=
  updPwr (fun p => if k = 0 then { p with feedA := f p.feedA } else { p with feedB := f p.feedB }) s

/-- HUB_CAP0.VALID (R6, R627). -/
def capValid (s : State) (h : Half) : Bool := hubPresent s h && (lhOf s h).otp && !s.cfg.testEn

/-! ### Supplies (R522–R526) -/

/-- OFF: hold-domain contents are lost; what fuses, supplies and lands hold stays. -/
def goOff (s : State) : State :=
  let old := s.units
  let lh := fun (l : Lh) => { Lh.off l.lc with svn := l.svn }
  let feed := fun (f : Feed) => { Feed.reset with ok := f.ok, lost := f.lost }
  { State.reset with
    cfg := s.cfg, nonce := s.nonce, pending := s.pending
    pkg := { Pkg.reset with mode := .off, hstate := heldAll s }
    units := { Units.reset with
      lh := ⟨lh old.lh.a, lh old.lh.b⟩
      pwr := { Pwr.reset with feedA := feed old.pwr.feedA, feedB := feed old.pwr.feedB, hOk := old.pwr.hOk, active := old.pwr.active } } }

/-- SYS_AUTO from the straps (R548). -/
def strapAuto (m : Nat) : Auto := ⟨decide (m = 1 ∨ m = 2 ∨ m = 3), if m = 1 then 3 else if m = 2 then 4 else if m = 3 then 5 else 0, 4000⟩

/-- HOLD_POWER_UP by a supply that comes into range (0 VMAIN_A, 1 VMAIN_B, 2 VHOLD): the Lighthouses read OTP, latch
HUB_CAP0 and draw the starting values of the counters (R39, R493 step 1). -/
def runHoldPowerUp (k : Nat) (s : State) : State :=
  if ¬ (s.pkg.mode = .off ∨ (s.pkg.mode = .hold ∧ ¬ (lhOf s .a).otp ∧ ¬ s.pkg.stopped)) then s
  else
    let z := if s.pkg.mode = .off then goOff s else s
    let p := z.units.pwr
    let inA := p.feedA.ok || k == 0
    let inB := p.feedB.ok || k == 1
    let p1 := { p with feedA := ⟨inA, !inA, false, 0⟩, feedB := ⟨inB, !inB, false, 0⟩, hOk := p.hOk || k == 2, onHold := !inA && !inB }
    let draw := fun (h : Half) (t : State) =>
      let a := freeVal t % 2 ^ 48
      let t1 := drawn t
      let b := freeVal t1
      updLdg h (fun l => { l with openCtr := b % 2 ^ 32 }) (updCss h (fun c => { c with opCtr := a })
        (updLh h (fun l => { l with otp := true }) (drawn t1)))
    let auto := strapAuto z.cfg.bootMode
    bothHubs draw { z with pkg := { z.pkg with mode := .hold }, units := { z.units with pwr := p1, auto := ⟨auto, auto⟩ } }

/-- FEED_LOSS (R522); with every clock lost the supply monitors still act, the log does not (R531). -/
def runFeedLoss (k : Nat) (s : State) : State :=
  if (feedOf s.units.pwr k).lost ∨ s.pkg.mode = .off then s
  else
    let s1 := updFeed k (fun f => { f with ok := false, lost := true, sticky := true, losses := sat (f.losses + 1) 255 }) s
    if s.pkg.stopped then s1 else logNow (leader s) (rpt (srcOf (leader s) 0xFF 0x16 k) 3 clsCE 0x0804 k) s1

/-- FEED_RETURN after 10 ms in range (R522, R523). -/
def runFeedReturn (k : Nat) (s : State) : State :=
  if ¬ (feedOf s.units.pwr k).lost then s
  else updPwr (fun p => { p with onHold := false }) (updFeed k (fun f => { f with ok := true, lost := false }) s)

def feedGone (f : Feed) : Feed := if f.lost then { f with ok := false } else { f with ok := false, lost := true, sticky := true, losses := sat (f.losses + 1) 255 }

/-- HOLD at once, whatever runs (R43): the MODE_SET overtaken ends FAILED. -/
def forceHold (s : State) : State :=
  match s.pkg.mode with
  | .off => s
  | .hold =>
    (match s.pkg.trans with
      | some t => failOpt t.cmd 0 (updPkg (fun p => { p with trans := none }) s)
      | none => s)
  | _ => enterHold false 0xFF none (updPwr (fun p => { p with resetPend := false }) s)

/-- BOTH_FEEDS_LOST (R39, R523): with VHOLD out of range the hold domain is lost too. -/
def runBothLost (s : State) : State :=
  if s.pkg.mode = .off then s
  else
    let s1 := updPwr (fun p => { p with feedA := feedGone p.feedA, feedB := feedGone p.feedB, onHold := p.hOk }) s
    if s1.units.pwr.hOk then (if s.pkg.stopped then s1 else forceHold s1) else goOff s1

/-- VHOLD_LOSS: VHOLD leaves its range (R523). -/
def runVholdLoss (s : State) : State :=
  let s1 := updPwr (fun p => { p with hOk := false }) s
  if s.units.pwr.onHold ∧ s.pkg.mode ≠ .off then goOff (updPwr (fun p => { p with onHold := false }) s1) else s1

/-- SUPPLY_RANGE_CHANGE of 0 VMAIN_A, 1 VMAIN_B, 2 VHOLD; a feed declared lost returns only by FEED_RETURN (R522). -/
def runSupplyRange (k : Nat) (ok : Bool) (s : State) : State :=
  if k = 2 then updPwr (fun p => { p with hOk := ok }) s
  else updFeed k (fun f => if s.pkg.mode = .off then { f with ok := ok, lost := !ok } else if f.lost then f else { f with ok := ok }) s

/-! ### Sideband inputs (R525, R526, R535, R541, R618–R625) -/

/-- The input is masked as stuck or chattering. -/
def masked (s : State) (i : Nat) : Bool := s.units.pwr.stuck.contains i || s.units.pwr.chat.contains i

/-- The level an input counts as (R620). -/
def counts (s : State) (i : Nat) : Bool := if masked s i then i == 0 else s.units.pwr.active.contains i

def setLevel (i : Nat) (on : Bool) (s : State) : State :=
  updPwr (fun p => { p with active := if on then setIns p.active i else setDel p.active i }) s

/-- A half being brought up alone in SPLIT is overtaken (R43). -/
def dropBringups (s : State) : State :=
  (halvesOf s).foldl (fun t h =>
    match t.pkg.htrans.get h with
    | some x =>
      if t.pkg.hstate.get h = .bringup then
        failOpt x.cmd 0 (setHState h .held (holdHalf false h (updPkg (fun p => { p with htrans := p.htrans.set h none }) t)))
      else t
    | none => t) s

/-- The sequence PWRFAIL_WARN_N drives (R43, R525). -/
def powerFail (s : State) : State :=
  match s.pkg.mode, s.pkg.trans with
  | .drain, some t =>
    if t.phase = 3 then updPkg (fun p => { p with trans := some { t with pfw := true } }) s
    else if t.follow = .hold then updPkg (fun p => { p with trans := some { t with pfw := true } }) s
    else failOpt t.cmd 0 (updPkg (fun p => { p with trans := some { t with follow := .hold, cmd := none, phase := 1, pfw := true } }) s)
  | .mirrored, some t => updPkg (fun p => { p with trans := some { t with pfw := true } }) s
  | .degraded, some t => enterDrain .hold none true (failOpt t.cmd 0 (dropRejoin s))
  | .bringup, _ => enterHold false 0xFF none s
  | .hold, _ => s
  | .off, _ => s
  | .drain, none => s
  | _, _ => enterDrain .hold none true (dropBringups s)

/-- THERMAL entry (R535, R568). -/
def thermal (cause : Nat) (s : State) : State := logNow (leader s) (rpt (hmUnit (leader s)) 3 clsCE 0x0805 cause) s

/-- An input becomes asserted as it counts. -/
def sideAssert (i : Nat) (s : State) : State :=
  match i with
  | 0 => forceHold s
  | 1 => powerFail s
  | 2 => thermal 0 s
  | 3 => raiseIbi (leader s) 3 (updPwr (fun p => { p with svc := true }) s)
  | _ => s

/-- RESET_N is released: with a main feed in range the package enters BRINGUP (R541, R625, R627). -/
def resetRelease (s : State) : State :=
  if ¬ capValid s .a then s
  else if s.pkg.mode = .hold then (if feedIn s then goBringup 0xFF s else s)
  else updPwr (fun p => { p with resetPend := match s.pkg.trans with | some t => t.target == .hold || t.follow == .hold | none => false }) s

def runPfw (s : State) : State :=
  let s1 := setLevel 1 true s
  if masked s 1 ∨ s.units.pwr.active.contains 1 then s1 else powerFail s1

def runPfwRelease (s : State) : State :=
  if s.units.pwr.active.contains 1 then updPwr (fun p => { p with pfwEnd := (s.st64.get (leader s)).toNat }) (setLevel 1 false s) else s

def runResetAssert (s : State) : State := if masked s 0 then setLevel 0 true s else forceHold (setLevel 0 true s)

def runResetRelease (s : State) : State := if masked s 0 then setLevel 0 false s else resetRelease (setLevel 0 false s)

/-- THROTTLE_N changes to a level. -/
def runThrottle (on : Bool) (s : State) : State :=
  let s1 := setLevel 2 on s
  if masked s 2 ∨ s.units.pwr.active.contains 2 = on then s1 else thermal (if on then 0 else 2) s1

/-- SERVICE_N changes to a level. -/
def runService (on : Bool) (s : State) : State :=
  let s1 := setLevel 3 on s
  if masked s 3 ∨ s.units.pwr.active.contains 3 ∨ ¬ on then s1 else sideAssert 3 s1

/-- A mask begins, with its SIDEBAND entry (R620, R624): cause 0 stuck, 1 chattering. -/
def maskInput (i cause : Nat) (s : State) : State :=
  let s1 := updPwr (fun p => { p with
    stuck := if cause = 0 then setIns p.stuck i else p.stuck, chat := if cause = 1 then setIns p.chat i else p.chat
    masks := sat (p.masks + 1) 255 }) s
  logNow (leader s1) (rpt (srcOf (leader s1) 0xFF 0x17 i) 3 clsCE 0x0806 (res [(1, i), (1, cause)])) s1

/-- SIDEBAND_STUCK: RESET_N has no limit; PWRFAIL_WARN_N's counts only while both feeds read in range (R620). -/
def runStuck (i : Nat) (s : State) : State :=
  if i = 0 ∨ 3 < i ∨ masked s i ∨ ¬ s.units.pwr.active.contains i ∨ (i = 1 ∧ ¬ (s.units.pwr.feedA.ok ∧ s.units.pwr.feedB.ok)) then s
  else
    let s1 := maskInput i 0 s
    if i = 2 then thermal 2 s1 else s1

/-- SIDEBAND_CHATTER: RESET_N then counts as asserted (R620). -/
def runChatter (i : Nat) (s : State) : State :=
  if 3 < i ∨ masked s i then s
  else
    let s1 := maskInput i 1 s
    if i = 0 ∧ ¬ s.units.pwr.active.contains 0 then forceHold s1
    else if i = 2 ∧ s.units.pwr.active.contains 2 then thermal 2 s1 else s1

/-- SIDEBAND_MASK_END: a stuck mask needs the input inactive; after chattering the level is taken anew (R621). -/
def runMaskEnd (i : Nat) (s : State) : State :=
  let p := s.units.pwr
  if p.stuck.contains i then (if p.active.contains i then s else updPwr (fun x => { x with stuck := setDel x.stuck i }) s)
  else if p.chat.contains i then
    let s1 := updPwr (fun x => { x with chat := setDel x.chat i }) s
    if p.active.contains i then sideAssert i s1 else if i = 0 then resetRelease s1 else s1
  else s

def runSvcClear (s : State) : State := updPwr (fun p => { p with svc := false }) s

/-- PMU_SUPPLY written: 1 in A_LOST or B_LOST clears it (R524). -/
def runLostClear (v : Nat) (s : State) : State :=
  updPwr (fun p => { p with feedA := { p.feedA with sticky := p.feedA.sticky && !bitOf v 17 },
                            feedB := { p.feedB with sticky := p.feedB.sticky && !bitOf v 16 } }) s

/-! ### Clocks (R528–R535) -/

/-- The monitor's verdict on a window (R529). -/
def windowOk (x i : Nat) : Bool := decide (248 ≤ x ∧ x ≤ 252 ∧ 248 ≤ i ∧ i ≤ 252)

/-- CLOCK_LOSS to every core in service (R530). -/
def clockLossAll (s : State) : State :=
  ((upTo (lcnCount s)).filter (fun l => (coreOf s l).isSome)).foldl (fun t l =>
    let f := fun (c : Ctx) => { endWait Cc.zero c with clockLoss := true }
    modCtx l 1 f (modCtx l 0 f t)) s

/-- CLOCK_MONITOR_WINDOW with its counts; a deviation while the root PLL runs on XTAL is a clock loss (R528–R530). -/
def runClockWindow (x i : Nat) (s : State) : State :=
  if s.pkg.mode = .off ∨ ¬ s.units.pwr.irok then s
  else
    let ok := windowOk x i
    let p := s.units.pwr
    let s1 := updPwr (fun q => { q with xcnt := x % 2 ^ 32, icnt := i % 2 ^ 32, good := if ok then sat (q.good + 1) 16 else 0,
                                        xok := ok && decide (16 ≤ q.good + 1) }) s
    if ok ∨ ¬ p.lock ∨ p.ref then s1
    else
      let s2 := clockLossAll (updPwr (fun q => { q with ref := true, losses := sat (q.losses + 1) 255 }) s1)
      let s3 := bothHubs (fun h t => updLh h (fun l => { l with att := false }) t) s2
      logNow (leader s3) (rpt (srcOf (leader s3) 0xFF 0x15 0) 3 clsCR 0x0801 (res [(4, x), (4, i)])) s3

/-- IRO_FAILURE while XTAL runs (R531). -/
def runIroFailure (s : State) : State :=
  if s.pkg.mode = .off ∨ ¬ s.units.pwr.irok then s
  else
    let s1 := updPwr (fun p => { p with irok := false, ref := if p.lock then false else p.ref }) s
    logNow (leader s1) (rpt (srcOf (leader s1) 0xFF 0x15 0) 3 clsUC 0x0803 0) s1

/-- ALL_CLOCKS_LOST (R531). -/
def runAllClocksLost (s : State) : State :=
  if s.pkg.mode = .off then s else { updPkg (fun p => { p with stopped := true }) s with faultN := true }

/-- The divider in force (R535). -/
def divInForce (s : State) (l : Nat) : Nat :=
  let d := (lcnOf s l).div
  let d1 := if counts s 2 then max d 6 else d
  if (dieOf s (lcnDie s l)).hot then 12 else d1

/-- DIE_TEMPERATURE_THRESHOLD: the die's temperature in 1/8 °C (R535). -/
def runDieTemp (d : Nat) (t : Int) (s : State) : State :=
  let x := dieOf s d
  if ¬ diePresent s d ∨ x.lost then s
  else
    let s1 := updDie d (fun y => { y with temp := t }) s
    if 840 ≤ t ∧ ¬ x.hot then thermal 1 (updDie d (fun y => { y with hot := true }) s1)
    else if t < 800 ∧ x.hot then thermal 2 (updDie d (fun y => { y with hot := false }) s1)
    else s1

/-! ### Block power (R247, R382, R393, R519, R520, R537, R538) -/

/-- Instances of a unit type in a hub that hold their own pieces of state lost in OFF. -/
def unitOff (u : Nat) (s : State) : State :=
  let h := unitHalf u
  let i := unitInst u
  match unitType u with
  | 0x01 => dieLinks (unitDie u) .down (dieReset (unitDie u) s)
  | 0x03 => updCh h i (fun _ => { Chan.reset with st := .down }) s
  | 0x04 => setReady h (rbSeal i) false (updSeng h i (fun _ => SEng.reset) s)
  | 0x05 => setReady h (rbMover i) false (updUnits (fun x => { x with
      movers := x.movers.filter (fun e => e.1 ≠ h.n * 16 + i), chs := x.chs.filter (fun e => e.1 / 8 ≠ h.n * 16 + i) }) s)
  | 0x06 => setReady h rbLedger false (updLdg h (fun l => { Ldg.reset with heads := l.heads, openCtr := l.openCtr }) s)
  | 0x07 => setReady h (rbAtt i) false (updPort (h.n * 2 + i) (fun _ => Port.reset) (runFlr ((h.n * 2 + i) * 64) s))
  | 0x08 => setReady h (rbPath i) false (updPp (h.n * 16 + i) (fun _ => PathPort.reset) s)
  | 0x0B => s
  | _ => s

/-- Nothing runs in the block any more. -/
def unitIdle (s : State) (u : Nat) : Bool :=
  let h := unitHalf u
  let i := unitInst u
  match unitType u with
  | 0x04 => (sengOf s h i).cur.isNone
  | 0x05 => (moverOf s h i).cur.isNone
  | 0x09 => (cpeOf s h i).cur.isNone
  | 0x02 =>
    s.coh.cache.all (fun e => e.1 / 2 ^ 46 != unitDie u || l3Slice (e.1 % 2 ^ 46) != i) &&
      s.coh.victim.all (fun v => v.agent != unitDie u || l3Slice v.sector != i)
  | _ => true

/-- A block in secure use (R519). -/
def unitSecure (s : State) (u : Nat) : Bool :=
  let h := unitHalf u
  match unitType u with
  | 0x04 => (match (sengOf s h (unitInst u)).cur with | some j => (sringOf s h j.ring).otype == 2 | none => false)
  | 0x05 => (match (moverOf s h (unitInst u)).cur with | some ch => (mchOf s h (unitInst u) ch).otype == 2 | none => false)
  | 0x0B => (lhOf s h).smask != 0
  | _ => false

/-- The readiness bit of a unit that wakes from OFF. -/
def wakeReady (u : Nat) (s : State) : State :=
  let h := unitHalf u
  let i := unitInst u
  match unitType u with
  | 0x04 => setReady h (rbSeal i) true s
  | 0x05 => setReady h (rbMover i) true s
  | 0x06 => setReady h rbLedger true (updLdg h (fun l => { l with lanes := 8, fmt := true }) s)
  | 0x07 => setReady h (rbAtt i) true s
  | 0x08 => setReady h (rbPath i) true s
  | 0x01 => dieLinks (unitDie u) .training s
  | 0x03 => updCh h i (fun c => { c with st := .training }) s
  | _ => s

/-- A slice cleans and invalidates itself before it drowses (R538). -/
def cleanSlice (u : Nat) (s : State) : State :=
  let d := unitDie u
  let ls := (s.coh.cache.filter (fun e => e.1 / 2 ^ 46 = d ∧ l3Slice (e.1 % 2 ^ 46) = unitInst u)).map (fun e => e.1 % 2 ^ 46 / 4)
  ls.eraseDups.foldl (fun t l => evictLine d l t) s

/-- What a block does first as it goes down: an L3 slice cleans and invalidates itself, a Stockpot invalidates its data ways (R538). -/
def unitEmpty (u v : Nat) (s : State) : State :=
  if v = 0 then s
  else if unitType u = 2 then cleanSlice u s
  else if unitType u = 0xB then updHome (unitHalf u) (fun m => { m with stock := [] }) s
  else s

/-- POWER_STATE_REACHED: the block has gone down or finished waking; its PWR_STATE_SET ends, and a block marked wake-pending wakes at
once unless it is OFF (R247, R538). -/
def runPowerReached (u : Nat) (s0 : State) : State :=
  match s0.units.preq.find? (fun r => r.unit == u) with
  | none => s0
  | some r =>
    let s := unitEmpty u r.target s0
    if (r.deferred ∧ unitSecure s u) ∨ (r.target ≠ 0 ∧ ¬ unitIdle s u) then s
    else
      let was := pstateOf s u
      let s1 := setPstate u r.target (updUnits (fun x => { x with preq := x.preq.filter (fun q => q.unit != u) }) s)
      let s2 := if r.target = 3 ∧ was ≠ 3 then unitOff u s1 else if r.target = 0 ∧ was = 3 then wakeReady u s1 else s1
      let s3 := finishOpt r.cmd stDone 1 r.target s2
      if r.wake then wakeUnit u s3 else s3

/-- DEFERRED_POWER_LIMIT: the secure job still running 2 ms after DEFERRED ends PREEMPTED_BY_POWER (R520). -/
def runDeferredLimit (u : Nat) (s : State) : State :=
  if ¬ s.units.preq.any (fun r => r.unit == u && r.deferred) then s
  else
    let h := unitHalf u
    let s1 := match unitType u with
      | 0x04 => if (sengOf s h (unitInst u)).secure then sealEndEarly h (unitInst u) stPreempted 0 s else s
      | 0x05 =>
        (match (moverOf s h (unitInst u)).cur with
          | some ch => if (mchOf s h (unitInst u) ch).otype = 2 then moverFinish h (unitInst u) ch stPreempted 0 s else s
          | none => s)
      | _ => s
    updUnits (fun x => { x with preq := x.preq.map (fun r => if r.unit = u then { r with deferred := false } else r) }) s1

/-- DEBUG_WAKE_EXPIRY: the block a debug access woke returns to DROWSE unless it has other work (R518). -/
def runDebugWakeExpiry (u : Nat) (s : State) : State :=
  if ¬ s.units.dbg.woken.contains u then s
  else
    let s1 := updUnits (fun x => { x with dbg := { x.dbg with woken := setDel x.dbg.woken u } }) s
    if unitIdle s u then setPstate u 2 s1 else s1

/-! ### Bring-up (R493, R540–R553) -/

/-- PACKAGE_RESET: at entry to BRINGUP, before any unit of it is ready. -/
def runPackageReset (s : State) : State :=
  if s.pkg.mode = .bringup ∧ (halvesOf s).all (fun h => (s.units.ready.get h).all (fun k => k == rbLh || k == rbLog)) then packageReset s else s

/-- Stepping letters and numbers of the pairing table (R550). -/
def stepKnown (x : Nat) : Bool := x == 0xB0 || x == 0xB1 || x == 0xC0
def dieStepOf (s : State) (d : Nat) : Nat := tget (s.cfg.step.get (dieHalf d)) s.cfg.dieStep d

/-- A die the table holds out under its hub (R550). -/
def dieHeld (s : State) (d : Nat) : Bool :=
  !(stepKnown (dieStepOf s d)) || (s.cfg.step.get (dieHalf d) == 0xB0 && dieStepOf s d == 0xC0)

/-- Verdict of the two hubs' steppings (R550). -/
def pairVerdict (a b : Nat) : Nat :=
  if ¬ (stepKnown a ∧ stepKnown b) then 2
  else if a = b then 0
  else if (a = 0xB0 ∧ b = 0xC0) ∨ (a = 0xC0 ∧ b = 0xB0) then 2
  else if a = 0xC0 ∨ b = 0xC0 then 1
  else 0

/-- DRFM and EVX in the silicon of a stepping; of one outside the table nothing is known to be supported (log 15). -/
def stepFeat (x : Nat) : Bool := x == 0xB1 || x == 0xC0

/-- PAIRING (R490, R549–R551): once BWATER is set, or HFAB on a part of one half. -/
def runPairing (s : State) : State :=
  let ready := if s.cfg.part = .q0800a then readyBit s .a rbHfab else bwaterReady s
  if ¬ ready ∨ s.pkg.mode = .hold ∨ s.pkg.mode = .off then s
  else
    let hubs := (halvesOf s).map (fun h => s.cfg.step.get h)
    let dies := (upTo 16).filter (fun d => diePresent s d && !dieHeld s d)
    let feat := hubs.all stepFeat && dies.all (fun d => stepFeat (dieStepOf s d))
    let v := if s.cfg.part = .q0800a then pairVerdict s.cfg.step.a s.cfg.step.a else pairVerdict s.cfg.step.a s.cfg.step.b
    let s1 := (upTo 16).foldl (fun t d => if diePresent s d then updDie d (fun x => { x with heldOut := dieHeld s d && !x.ready }) t else t) s
    let s2 := updUnits (fun u => { u with pairing := ⟨true, v, feat, feat⟩ }) s1
    if hubPresent s .b ∧ (lhOf s .a).lc ≠ (lhOf s .b).lc then
      logNow (leader s2) (rpt (lhUnit (leader s2)) 3 clsUC 0x0905 1) s2
    else s2

/-- The half is coming up or runs. -/
def halfOn (s : State) (h : Half) : Bool :=
  match s.pkg.hstate.get h with
  | .bringup => true
  | .running => true
  | .draining => true
  | .resilvering => true
  | _ => false

/-- What a readiness bit depends on (R543, R545). -/
def readyDeps (s : State) (h : Half) (k : Nat) : Bool :=
  let on := halfOn s h
  let hfab := readyBit s h rbHfab
  if k = rbLh then capValid s h && s.pkg.mode != .off
  else if k = rbLog then capValid s h && s.pkg.mode != .off
  else if ¬ on then false
  else if k = rbHfab then true
  else if k = rbHm then readyBit s h rbLh && (lhOf s h).hmok
  else if k = rbStock then hfab
  else if k = rbHome then readyBit s h rbStock
  else if k = rbCss then (upTo 32).any (fun c => readyBit s h (rbCpe c)) && (s.mem.get h).fixed && (cssOf s h).imgLock && (cssOf s h).loaded.contains 0
  else if k = rbLedger then readyBit s h rbLh && (ldgOf s h).fmt && (s.mem.get h).fixed
  else if k = rbPctc ∨ (32 ≤ k ∧ k < 40) ∨ (40 ≤ k ∧ k < 56) ∨ (64 ≤ k ∧ k < 80) ∨ (96 ≤ k ∧ k < 128) then hfab
  else if k = rbAtt 0 ∨ k = rbAtt 1 then readyBit s h rbHm
  else if 20 ≤ k ∧ k < 28 then
    let d := h.n * 8 + (k - 20)
    diePresent s d && hfab && s.units.pairing.valid && !dieHeld s d && (lhOf s h).cfwok &&
      [rytKey d 0, rytKey d 1].all (fun m => (rytOf s m).st == .up)
  else false

/-- UNIT of a readiness bit that has a block power state of its own (R71, R543). -/
def bitUnit (h : Half) (k : Nat) : Option Nat :=
  if k = rbLedger then some (srcOf h 0xFF 6 0)
  else if 20 ≤ k ∧ k < 28 then some (dieUnit (h.n * 8 + (k - 20)))
  else if 32 ≤ k ∧ k < 40 then some (sealUnit h (k - 32))
  else if 40 ≤ k ∧ k < 56 then some (moverUnit h (k - 40))
  else if 56 ≤ k ∧ k < 58 then some (srcOf h 0xFF 7 (k - 56))
  else if 64 ≤ k ∧ k < 80 then some (srcOf h 0xFF 8 (k - 64))
  else none

/-- The block of a readiness bit is OFF, which keeps the bit clear (R542). -/
def bitOff (s : State) (h : Half) (k : Nat) : Bool := match bitUnit h k with | some u => pstateOf s u == 3 | none => false

/-- UNIT_READY of bit k % 32 of SYS_READY(k / 32): the unit passed its self-test, or with `pass` false failed it. The hub
fabric starts its links and channels, after the Stockpot's array test where one is owed (R545). -/
def runUnitReady (h : Half) (k : Nat) (pass : Bool) (s : State) : State :=
  if ¬ hubPresent s h ∨ ¬ readyDeps s h k ∨ bitOff s h k then s
  else if 20 ≤ k ∧ k < 28 then
    let d := h.n * 8 + (k - 20)
    if (dieOf s d).ready then s
    else
      let s1 := updDie d (fun x => { x with ready := pass, lost := !pass }) s
      if ¬ pass ∧ testsDone s1 h then giveSpares h s1 else s1
  else if ¬ pass ∨ readyBit s h k then s
  else
    let s1 := setReady h k true s
    if k = rbHfab then
      let s2 := trainLinks h (readyBit s h.other rbHfab && s.cfg.part != .q0800a) s1
      if s.units.spTest.get h then s2 else trainAll h s2
    else if k = rbStock ∧ s.units.spTest.get h then trainAll h (updUnits (fun u => { u with spTest := u.spTest.set h false }) s1)
    else if k = rbLedger then updLdg h (fun l => { l with lanes := 8 }) s1
    else s1

/-- LIGHTHOUSE_BOOT: a step of R493. 2: keys, partition, debug enables; 3: Harbourmaster image; 4: core firmware; 5: image
region and CPE slot 0; 6: formatter image. -/
def runLighthouseBoot (h : Half) (step : Nat) (s : State) : State :=
  let l := lhOf s h
  if ¬ hubPresent s h ∨ ¬ l.otp ∨ ¬ halfOn s h then s
  else match step with
  | 2 =>
    if l.wrapOn then s
    else
      let lc := lcOf s
      let s1 := newWrap h (updLh h (fun x => { x with
        noDev := !(lc == 2 || lc == 3), smask := if lc = 4 then 0 else 0x1800, nmask := if lc = 4 then 0x1FFF else 0x07FF }) s)
      setDbg (fun d => { d with dflt := dbgDefault lc }) s1
  | 3 => if cacheFull s h then updLh h (fun x => { x with hmok := true }) s else s
  | 4 => if cacheFull s h ∧ readyBit s h rbHfab then updLh h (fun x => { x with cfwok := true }) s else s
  | 5 => if (s.mem.get h).fixed ∧ halfUp s h ∧ ¬ (cssOf s h).imgLock then placeImage h s else s
  | 6 =>
    if cacheFull s h ∧ (s.mem.get h).fixed then updLdg h (fun x => { x with fmt := true }) (updLh h (fun x => { x with fmtok := true }) s)
    else s
  | _ => s

/-- PATH_PERST_RELEASE: 100 ms after the readiness bit set; link training starts (R610). -/
def runPerstRelease (pp : Nat) (s : State) : State :=
  let p := ppOf s pp
  if p.perst ∧ p.st = 0 ∧ readyBit s (portHub pp) (rbPath (pp % 16)) then updPp pp (fun x => { x with perst := false, st := 1 }) s else s

/-- DIE_OVERTEMPERATURE: dies 0–15, hubs 16 and 17 (R631). -/
def runOvertemp (d : Nat) (s : State) : State :=
  if d < 16 then
    if ¬ diePresent s d ∨ (dieOf s d).lost then s
    else dieLinks d .down (setPstate (dieUnit d) 3 (runDieLost d 2 s))
  else if d = 16 ∨ d = 17 then runHalfLoss (halfOf (d - 16)) 0 s
  else s

end Sys2Proof.Machine
end

