-- ==== Sys2Proof/Machine/HarbourBase.lean ====
section
/-! DEFINITION. The form and the checks of a command packet (R62–R67, R70–R72) that every opcode shares. -/
namespace Sys2Proof.Machine

/-- What an opcode asks of its packet, how its own checks answer (the status of the first that fails among checks 4 to 9
of R65), and what it does. -/
structure Cmd where
  /-- sources of R52 by value -/
  srcs : List Nat
  /-- parameter bytes needed, and the fields (offset, size) that are not reserved -/
  need : Nat
  flds : List (Nat × Nat)
  /-- indirect buffer: 0 none, 1 needed, 2 as the poster wants; its least ILEN -/
  ind : Nat
  blocks : Nat
  /-- check 2 beyond the source itself -/
  deny : State → Pkt → Bool
  checks : State → Pkt → List (Bool × Nat)
  act : Pkt → State → State

/-! ### Sources (R52, R53, R70) -/

/-- The function behind a source F, as its key. -/
def Src.fnOf? : Src → Option Nat
  | .func p fn _ => some (fnKey p fn)
  | _ => none

/-- The SOURCE halfword of the copy (R53). -/
def Src.code : Src → Nat
  | .ring h l => (l + 1) * 256 + h.n
  | .admin p => 4 * 256 + p
  | .func p fn _ => 5 * 256 + fnKey p fn
  | .mgmt h => 6 * 256 + h.n

/-- Its 64 bytes (R62). -/
def pktBytes (p : Pkt) : List Byte :=
  pack [(2, p.op), (2, p.tag), (1, p.flags), (1, p.plen), (2, p.src.code), (8, p.iptr), (48, p.prm)]

/-- A packet of 64 bytes from a source. -/
def pktOf (src : Src) (d : List Byte) : Pkt :=
  { src := src, op := fieldAt d 0 2, tag := fieldAt d 2 2, flags := fieldAt d 4 1, plen := fieldAt d 5 1,
    iptr := fieldAt d 8 8, prm := fieldAt d 16 48 }

def srcAll : List Nat := [1, 2, 3, 4, 5, 6]

/-- Address and bytes of the indirect buffer (R62). -/
def Pkt.buf (p : Pkt) : Nat := fld p.iptr 51 6 * 64
def Pkt.ilen (p : Pkt) : Nat := fld p.iptr 63 52
def Pkt.bufLen (p : Pkt) : Nat := p.ilen * 64

/-! ### Check 3: the form (R62, R63, R65) -/

/-- Byte k of the parameters is covered by a field. -/
def covered (fs : List (Nat × Nat)) (k : Nat) : Bool := fs.any (fun f => decide (f.1 ≤ k ∧ k < f.1 + f.2))

def badForm (c : Cmd) (p : Pkt) : Bool :=
  decide (48 < p.plen) || decide (p.plen < c.need) || decide (16 ≤ p.flags) || decide (256 ^ p.plen ≤ p.prm) ||
  (upTo 48).any (fun k => !covered c.flds k && p.f k 1 != 0) ||
  (c.ind != 2 && bitOf p.flags 0 != (c.ind == 1)) || (c.ind == 1 && (decide (p.ilen < c.blocks) || p.iptr % 64 != 0))

/-- The tag is that of a command in progress of the same ring or queue, as the packet is fetched (R67). -/
def dupTag (s : State) (p : Pkt) : Bool :=
  s.prog.any (fun g => !g.mute && g.pkt.src == p.src && g.pkt.tag == p.tag) ||
  s.waitFence.any (fun w => w.pkt.src == p.src && w.pkt.tag == p.tag)

/-! ### Named units (R65, R70, R71) -/

/-- The type and instance of a UNIT match its die (R71). -/
def unitWell (u : Nat) : Bool :=
  let d := unitDie u
  let t := unitType u
  let i := unitInst u
  decide (u / 2 ^ 24 < 2) &&
  (if d = 0xFF then
    (t == 3 && decide (i < 12)) || (t == 4 && decide (i < 8)) || (t == 5 && decide (i < 16)) || (t == 6 && i == 0) ||
    (t == 7 && decide (i < 2)) || (t == 8 && decide (i < 16)) || (t == 9 && decide (i < 32)) || (t == 0xA && decide (i < 24)) ||
    (t == 0xB && i == 0)
   else
    decide (d < 16) && (dieHalf d == unitHalf u) && ((t == 1 && i == 0) || (t == 2 && decide (i < 17)) || (t == 0xA && decide (i < 2))))

/-- The unit is there in the variant (R2, R65). -/
def unitThere (s : State) (u : Nat) : Bool :=
  hubPresent s (unitHalf u) && (unitDie u == 0xFF || diePresent s (unitDie u)) &&
  (if unitDie u = 0xFF ∧ unitType u = 0xA then
     (if unitInst u < 16 then diePresent s ((unitHalf u).n * 8 + unitInst u / 2) else hubPresent s .b)
   else true)

/-- Both checks on a UNIT parameter whose type must be among `ts`, in their order (R65). -/
def unitChecks (s : State) (ts : List Nat) (u : Nat) : List (Bool × Nat) :=
  [(unitWell u && ts.contains (unitType u) && !unitThere s u, stUnitAbsent),
   (!(unitWell u && ts.contains (unitType u)), stBadParam)]

/-- A half parameter. -/
def halfChecks (s : State) (x : Nat) : List (Bool × Nat) :=
  [(x == 1 && !hubPresent s .b, stUnitAbsent), (decide (2 ≤ x), stBadParam)]

/-- A half works: neither fenced, held nor absent. -/
def halfServes (s : State) (h : Half) : Bool := halfOn s h

/-- An LCN parameter (R24). -/
def lcnChecks (s : State) (l : Nat) : List (Bool × Nat) :=
  [(decide (lcnCount s ≤ l), stBadParam), (!halfServes s (lcnHalf s l), stNotReady)]

/-- In SPLIT mode a source of one half names a unit of the other (R65). -/
def otherHalf (s : State) (p : Pkt) (h : Half) : Bool := effMode s == .split && h != p.src.half

def denyUnit (s : State) (p : Pkt) : Bool := otherHalf s p (unitHalf (p.f 0 4))
def denyLcn (s : State) (p : Pkt) : Bool := decide (p.f 0 2 < lcnCount s) && otherHalf s p (lcnHalf s (p.f 0 2))
def denyHalf (s : State) (p : Pkt) : Bool := otherHalf s p (halfOf (p.f 0 1))
def denyNone (_ : State) (_ : Pkt) : Bool := false

/-- A port of the other half in SPLIT. -/
def denyPort (s : State) (p : Pkt) : Bool := otherHalf s p (portHalf (p.f 0 1))

/-- A stream: of the other half in SPLIT, or not of the function behind a source F. -/
def denyStream (s : State) (p : Pkt) : Bool :=
  otherHalf s p (halfOf (p.f 0 4 / 65536)) ||
  (match p.src.fnOf? with
    | some k => (match streamOf s (p.f 0 4) with | some t => !(t.otype == 1 && t.owner == k) | none => true)
    | none => false)

/-! ### Objects and conflicts (R67) -/

/-- The spares a command may take: of the die, and of the die that would give one (R150). -/
def spareObjs (s : State) (d : Nat) (across : Bool) : List (Nat × Nat) :=
  (1, d) :: (match chooseSpare s d across with | some c => if c / 128 = d then [] else [(1, c / 128)] | none => [])

/-- The objects a command changes: kind and number. 0 LCN, 1 spares of a die, 2 function, 3 stream, 4 key slot, 5 memory
channel, 6 path port, 7 Rytum module, 9 power of a block. -/
def objsOf (s : State) (p : Pkt) : List (Nat × Nat) :=
  let u := p.f 0 4
  match p.op with
  | 0x0200 => (upTo (p.f 2 2)).map (fun i => (0, p.f 0 2 + i))
  | 0x0201 => (9, u) :: (if unitType u = 3 then [(5, u)] else if unitType u = 8 then [(6, u)] else if unitType u = 0xA then [(7, u)]
      else if unitType u = 1 then [(1, unitDie u)] else [])
  | 0x0300 => (0, p.f 0 2) :: spareObjs s (lcnDie s (p.f 0 2)) (p.f 2 1 == 1)
  | 0x0302 => [(0, p.f 0 2), (1, lcnDie s (p.f 0 2))]
  | 0x0303 => (0, p.f 0 2) :: spareObjs s (lastDie s (p.f 0 2)) true
  | 0x0305 => [(5, u)]
  | 0x0306 => [(6, u)]
  | 0x0401 => [(2, fnKey (p.f 0 1) (p.f 1 1))]
  | 0x0402 => [(2, fnKey (p.f 0 1) (p.f 1 1))]
  | 0x0403 => [(2, fnKey (p.f 0 1) (p.f 1 1))]
  | 0x0404 => [(2, fnKey (p.f 0 1) (p.f 1 1))]
  | 0x0405 => [(2, fnKey (p.f 0 1) (p.f 1 1))]
  | 0x0406 => [(2, fnKey (p.f 0 1) (p.f 1 1))]
  | 0x0407 => [(2, fnKey (p.f 0 1) (p.f 1 1))]
  | 0x0500 => [(3, u), (4, p.src.half.n * 4096 + p.f 4 2)]
  | 0x0501 => [(3, u)]
  | 0x0503 => [(3, u)]
  | 0x0504 => [(3, u)]
  | 0x0600 => [(4, p.src.half.n * 4096 + p.f 0 2)]
  | 0x0601 => [(4, p.src.half.n * 4096 + p.f 0 2)]
  | 0x0602 => [(4, p.src.half.n * 4096 + p.f 0 2)]
  | 0x0900 => if u / 2 ^ 16 = 0xFF00 then [(0, u % 2 ^ 16)] else []
  | 0x0903 => [(0, p.f 0 2)]
  | 0x0904 => [(0, p.f 0 2)]
  | 0x0A01 => [(5, u)]
  | 0x0A02 => [(7, u)]
  | 0x0A03 => [(0, p.f 0 2)]
  | _ => []

/-- A changing command in progress shares an object, or a move of a named LCN runs (R67, R149). -/
def conflicts (s : State) (p : Pkt) : Bool :=
  let os := objsOf s p
  s.prog.any (fun g => (objsOf s g.pkt).any (fun o => os.contains o)) ||
  s.moves.any (fun m => os.contains (0, m.lcn))

/-- Classes served in DRAIN (R41): MODE_SET, the event log, counters, time and capabilities. -/
def drainServed (op : Nat) : Bool :=
  op == 0x0101 || (0x0700 ≤ op && op ≤ 0x0702) || (0x0900 ≤ op && op ≤ 0x0904) || (0x0800 ≤ op && op ≤ 0x0802) ||
  (0x0B00 ≤ op && op ≤ 0x0B02)

/-- The package drains, or the half of SPLIT at which the packet arrived. -/
def drainBusy (s : State) (p : Pkt) : Bool :=
  draining s p.src.half && !drainServed p.op

/-! ### All checks in order (R65) -/

def firstFail : List (Bool × Nat) → Option Nat
  | [] => none
  | (true, x) :: _ => some x
  | (false, _) :: t => firstFail t

def checksOf (c : Cmd) (s : State) (dup : Bool) (p : Pkt) : List (Bool × Nat) :=
  [(!c.srcs.contains p.src.kind || c.deny s p, stDenied), (badForm c p || dup, stBadParam)] ++ c.checks s p ++
  [(drainBusy s p || conflicts s p, stBusy)]

/-! ### How commands end -/

/-- Final reply DONE of a synchronous command. -/
def done (p : Pkt) (rlen result : Nat) (s : State) : State := postReply (replyTo p stDone true rlen result) s

/-- Another final status of a command that is not in progress. -/
def ended (p : Pkt) (status rlen result : Nat) (s : State) : State := postReply (replyTo p status true rlen result) s

/-- The intermediate reply, unless QUIET (R63, R66). -/
def ack (p : Pkt) (s : State) : State := if bitOf p.flags 3 then s else postReply (replyTo p stAccepted false 0 0) s

/-- Read the indirect buffer: none is an address error or poison. -/
def readBuf (s : State) (p : Pkt) (n : Nat) : Option (List Byte) :=
  match dmaRead s p.src.half p.buf n with
  | some (d, false) => some d
  | _ => none

/-- The indirect buffer lies in DRAM (check 6). -/
def bufBad (s : State) (p : Pkt) : Bool := !dramOk s p.src.half p.buf p.bufLen

def writeBuf (p : Pkt) (d : List Byte) (s : State) : State :=
  match dmaWrite s p.src.half p.buf d with
  | some (s1, _) => s1
  | none => s

/-- The hub a command of a half parameter concerns. -/
def Pkt.half (p : Pkt) : Half := halfOf (p.f 0 1)

/-- A Harbourmaster's units answer: its half's readiness bit is set (R61). -/
def hmReady (s : State) (h : Half) : Bool := readyBit s h rbHm

end Sys2Proof.Machine
end

