-- ==== Sys2Proof/Machine/HarbourFn.lean ====
section
/-! DEFINITION. Function commands (class 0x04xx): pools, creation, quiesce, freeze, restore (R337, R442, R443, R468–R476). -/
namespace Sys2Proof.Machine

/-! ### IFT entries as bytes (R327) -/

def iftBytes (e : Ift) : List Byte :=
  pack [(8, e.opno + e.sub % 4096 * 2 ^ 48 + e.st * 2 ^ 60), (8, e.tag), (8, e.cpa + b2n e.notify * 2 ^ 52), (8, whereOf e),
        (4, e.resid), (2, e.cq), (1, e.fstat), (1, e.dstat), (1, e.reason),
        (1, b2n e.touched + 2 * b2n e.nonidem + 4 * b2n e.sense + 8 * b2n e.migrated + 16 * b2n e.halfLoss),
        (2, e.otype * 2 ^ 12 + e.owner), (4, e.tmo), (8, e.accept), (4, if e.st = 7 ∨ e.st = 8 then e.slot else 0), (1, e.image), (1, e.cpe),
        (2, (e.park.getD 0) + b2n e.parked * 2 ^ 15)]

/-- The entry a carried record describes, before VF_RESTORE places it (R337). -/
def iftParse (d : List Byte) : Ift :=
  let id := fieldAt d 0 8
  let w := fieldAt d 0x18 8
  let fl := fieldAt d 0x29 1
  { Ift.free with
    st := fld id 63 60, opno := fld id 47 0, sub := fld id 59 48, tag := fieldAt d 8 8, cpa := fieldAt d 0x10 8 % 2 ^ 52,
    notify := bitOf (fieldAt d 0x10 8) 52, lca := w % 2 ^ 52, pp := fld w 55 52, pathIdx := fld w 57 56, redrives := fld w 63 58,
    resid := fieldAt d 0x20 4, cq := fieldAt d 0x24 2 % 512, fstat := fieldAt d 0x26 1, dstat := fieldAt d 0x27 1,
    reason := fieldAt d 0x28 1, touched := bitOf fl 0, nonidem := bitOf fl 1, sense := bitOf fl 2, migrated := bitOf fl 3,
    tmo := fieldAt d 0x2C 4, accept := fieldAt d 0x30 8, image := fieldAt d 0x3C 1 % 16, cpe := fieldAt d 0x3D 1 % 32 }

/-! ### Checks -/

/-- A port parameter. -/
def portChecks (s : State) (p : Pkt) : List (Bool × Nat) :=
  [(decide (p.f 0 1 < 4) && !portPresent s (p.f 0 1), stUnitAbsent), (decide (4 ≤ p.f 0 1), stBadParam)]

def portReadyCheck (s : State) (p : Pkt) : Bool × Nat :=
  (!readyBit s (portHalf (p.f 0 1)) (rbAtt (p.f 0 1 % 2)), stNotReady)

def Pkt.vf (p : Pkt) : Nat := fnKey (p.f 0 1) (p.f 1 1)

/-- A VF parameter that must name an existing VF, with an opcode's own checks 6 and 7 before check 8 (R65). -/
def vfChecksWith (own : List (Bool × Nat)) (s : State) (p : Pkt) : List (Bool × Nat) :=
  portChecks s p ++ [(p.f 1 1 == 0 || decide (63 < p.f 1 1) || !(fnOf s p.vf).created, stBadParam)] ++ own ++ [portReadyCheck s p]

def vfChecks (s : State) (p : Pkt) : List (Bool × Nat) := vfChecksWith [] s p

/-! ### Pools (R442, R443) -/

/-- Functions of a hub that VF_CREATE gave resources. -/
def hubVfs (s : State) (h : Half) : List (Nat × Fn) := s.att.fns.filter (fun e => e.2.created && e.1 % 64 != 0 && e.1 / 128 == h.n)

def quotaKeys (s : State) (h : Half) : Nat := (hubVfs s h).foldl (fun (n : Nat) e => n + e.2.nkey) 0

/-- Slots a hub can still give as quota: neither reserved, nor in a quota, nor held by cores or PF0 (log 20). -/
def freeKeys (s : State) (h : Half) : Nat :=
  let used := ((lhOf s h).slots.filter (fun e => decide (2 ≤ e.1) && decide (e.2.st ≠ 0) &&
    !(hubVfs s h).any (fun f => e.2.fn == 0x100 + f.1))).length
  4094 - quotaKeys s h - used

def freeStreams (s : State) (h : Half) : Nat := 65536 - (hubVfs s h).foldl (fun (n : Nat) e => n + e.2.nstream) 0

/-- Subchannels of a hub that are neither defined nor reserved. -/
def freeSubs (s : State) (h : Half) : List Nat :=
  let taken := (hubVfs s h).flatMap (fun e => e.2.subs)
  (upTo 2048).filter (fun n => !taken.contains n && !(tget Sub.reset (cssOf s h).subs n).v)

def actPool (p : Pkt) (s : State) : State :=
  let port := p.f 0 1
  let h := portHalf port
  done p 13 (res [(2, 1024 - rangesTotal (qpRanges s h 4096)), (2, 2048 - rangesTotal (msixRanges s port 4096)), (2, freeKeys s h),
    (4, freeStreams s h), (2, (freeSubs s h).length),
    (1, (s.att.fns.filter (fun e => e.2.created && e.1 % 64 != 0 && e.1 / 64 == port)).length)]) s

def createChecks (s : State) (p : Pkt) : List (Bool × Nat) :=
  portChecks s p ++
  [(p.f 1 1 == 0 || decide (63 < p.f 1 1) || (fnOf s p.vf).created || decide (64 < p.f 2 2) || decide (256 < p.f 4 2) ||
    decide (256 < p.f 6 2) || decide (65536 < p.f 8 4) || decide (512 < p.f 12 2) || decide (8 < p.f 14 1), stBadParam), portReadyCheck s p]

/-- VF_CREATE: each resource in the order of the table, or the reason of the first that is short. -/
def actCreate (p : Pkt) (s : State) : State :=
  let h := portHalf (p.f 0 1)
  let subs := freeSubs s h
  let failed := fun (r : Nat) => ended p stFailed 1 r (ack p s)
  match lowestRun (qpRanges s h 4096) (p.f 2 2), lowestRunIn 2048 (msixRanges s (p.f 0 1) 4096) (p.f 4 2) with
  | none, _ => failed 0x10
  | _, none => failed 0x11
  | some q, some m =>
    if freeKeys s h < p.f 6 2 then failed 0x12
    else if freeStreams s h < p.f 8 4 then failed 0x13
    else if subs.length < p.f 12 2 then failed 0x14
    else
      let s1 := updFn p.vf (fun f => { f with
        created := true, firstQp := q, nqp := p.f 2 2, firstMsix := m, nmsix := p.f 4 2, nkey := p.f 6 2, nstream := p.f 8 4
        subs := subs.take (p.f 12 2), nwin := p.f 14 1 }) s
      done p 4 (res [(2, q), (2, m)]) (fnEvent p.vf (ack p s1))

/-! ### Destruction (R337, R443, R468) -/

/-- Streams of a function. -/
def fnStreams (s : State) (k : Nat) : List Nat :=
  [Half.a, Half.b].flatMap (fun h => ((ldgOf s h).streams.filter (fun x => x.2.otype == 1 && x.2.owner == k)).map (fun x => x.1))

/-- FROZEN entries are retired without a record, in one log entry. -/
def discardFrozen (k : Nat) (s : State) : State :=
  let es := fnFrozen s k
  if es = [] then s
  else
    let s1 := es.foldl (fun t x => updIft x.1 x.2.1 (fun _ => Ift.free) t) s
    let h := portHalf (k / 64)
    logNow h (rpt (portUnit (k / 64)) 2 clsNote 0x0604
      (res ([(1, k / 64), (1, k % 64)] ++ (es.take 3).map (fun x => (6, x.2.2.opno))))) s1

def actDestroy (p : Pkt) (s : State) : State :=
  let k := p.vf
  let h := portHalf (k / 64)
  if inFlight s k then ended p stNotQuiesced 0 0 (ack p s)
  else
    let s1 := discardFrozen k (ack p s)
    let s2 := (fnStreams s k).foldl (fun t id => closeStream id none t) s1
    let s3 := updLh h (fun l => { l with slots := l.slots.filter (fun e => e.2.fn ≠ 0x100 + k) }) s2
    let s4 := (fnQps s3 k).foldl (fun t q => updQp q (fun _ => Qp.reset) t) s3
    let s5 := updFn k (fun f => { Fn.reset with cfg := f.cfg, isr := f.isr, evtEn := f.evtEn, evtVec := f.evtVec, bmeLost := f.bmeLost,
                                                urcnt := f.urcnt, oldWork := f.oldWork, aerU := f.aerU, aerC := f.aerC }) s4
    done p 0 0 (fnEvent k s5)

/-! ### Quiesce (R469) -/

/-- The port stops reading a function's queues: entries read and not accepted are read again later. -/
def stopReading (k : Nat) (s : State) : State := (fnQps s k).foldl (fun t q => dropReads q t) s

def actQuiesce (p : Pkt) (s : State) : State :=
  stopReading p.vf (updFn p.vf (fun f => { f with quiesceCmd := some ⟨p, false⟩ }) (accept p stAccepted s))

/-- The function's open work, counted. -/
def openWork (s : State) (k : Nat) : Nat :=
  (fnOps s k).length + fnAppends s k + fnCmds s k + (fnRings s k).foldl (fun (n : Nat) r => n + ringJobs s (portHalf (k / 64)) r.1) 0

def quiesceEnd (k : Nat) (s : State) : State :=
  let g := (fnOf s k).quiesceCmd
  if g.isNone ∨ inFlight s k then s
  else finishOpt g stDone 4 0 (fnEvent k (updFn k (fun f => { f with quiesced := true, quiesceCmd := none }) s))

/-- VF_QUIESCE_LIMIT: FAILED with reason 0x20 and, at +4, the number of operations still open (log 20). -/
def runQuiesceLimit (k : Nat) (s : State) : State :=
  let g := (fnOf s k).quiesceCmd
  if g.isNone then s
  else
    let s1 := fnEvent k (updFn k (fun f => { f with quiesced := true, quiesceCmd := none }) s)
    if inFlight s k then finishOpt g stFailed 8 (res [(4, 0x20), (4, openWork s k)]) s1 else finishOpt g stDone 4 0 s1

/-! ### Freeze (R471–R474) -/

/-- Every operation of the function that a freeze carries or waits for. -/
def liveOps (s : State) (k : Nat) : List (Half × Nat × Ift) := (fnOps s k).filter (fun x => decide (x.2.2.st ≤ 5))

def imageLen (n : Nat) : Nat := 0x2C00 + n * 128

/-- XSLOT of an image: bound to the function and holding an AES-256 key. -/
def xslotOk (s : State) (k slot : Nat) : Bool :=
  let x := kslotOf s (portHalf (k / 64)) slot
  x.st == 1 && x.alg == 3 && x.fn == 0x100 + k

/-- The context list of an image buffer passes R474. -/
def ctxListOk (s : State) (k : Nat) (hdr list : List Byte) : Bool :=
  let n := fieldAt hdr 2 2
  decide (n ≤ 64) && (n == 0 || xslotOk s k (fieldAt hdr 0 2)) &&
  (upTo n).all (fun i => let a := fieldAt list (i * 8) 8; a % 64 == 0 && inTarget (fnOf s k) a 64)

/-- Operations a freeze would carry. -/
def freezeCount (s : State) (k : Nat) : Nat := (liveOps s k).length + (fnFrozen s k).length

/-- Bytes the image of a freeze needs (R72, R473). -/
def freezeNeed (s : State) (p : Pkt) : Nat := imageLen (freezeCount s p.vf)

/-- The context list in the buffer of a freeze passes R474. -/
def freezeListOk (s : State) (p : Pkt) : Bool :=
  match dmaRead s p.src.half (p.buf + 0x500) 576 with
  | some (d, false) => ctxListOk s p.vf (d.take 64) (d.drop 64)
  | _ => false

def freezeChecks (s : State) (p : Pkt) : List (Bool × Nat) :=
  vfChecksWith [((fnOf s p.vf).frozen || bufBad s p || decide (p.bufLen < freezeNeed s p) || !freezeListOk s p, stBadParam)] s p

def actFreeze (p : Pkt) (s : State) : State :=
  let k := p.vf
  if (fnOf s k).bmeLost ∨ 384 < freezeCount s k then ended p stFailed 1 0 (ack p s)
  else
    let s1 := stopReading k (updFn k (fun f => { f with freezeCmd := some ⟨p, false⟩ }) (accept p stAccepted s))
    (liveOps s1 k).foldl (fun t x => freezeEvent x.1 x.2.1 t) s1

/-- A listed context: none fails to verify; otherwise its transfer form, or nothing to write for a clear one. -/
def toTransfer (s : State) (h : Half) (key : List Byte) (nonce i a : Nat) : Option (Option (List Byte)) :=
  match dmaRead s h a 64 with
  | some (hd, false) =>
    if fieldAt hd 0 2 = 1 then some none
    else
      let len := fieldAt hd 0x10 4
      if fieldAt hd 0 2 ≠ 2 ∨ fieldAt hd 4 4 ≠ (lhOf s h).bootId ∨ ¬ (lhOf s h).wrapOn ∨ len < 2048 ∨ 34816 < len then none
      else match dmaRead s h (a + 64) (len + 16) with
      | some (b, false) =>
        let old := wrapKey (fieldAt hd 4 4)
        let iv := slice hd 4 12
        if gcmTag old iv hd (b.take len) ≠ b.drop len then none
        else
          let hd2 := pack [(2, 3), (2, 0), (4, nonce), (8, i), (4, len), (44, 0)]
          let ct := gcmCrypt key (slice hd2 4 12) (gcmCrypt old iv (b.take len))
          some (some (hd2 ++ ct ++ gcmTag key (slice hd2 4 12) hd2 ct))
      | _ => none
  | _ => none

/-- All listed contexts converted, with their addresses; none when one fails. -/
def allCtx (f : Nat → Nat → Option (Option (List Byte))) (list : List Byte) : List Nat → Option (List (Nat × List Byte))
  | [] => some []
  | i :: t =>
    let a := fieldAt list (i * 8) 8
    match f i a, allCtx f list t with
    | some none, some l => some l
    | some (some d), some l => some ((a, d) :: l)
    | _, _ => none

/-- Shadow window registers as they stand in an image (R454, R472). -/
def winBytes (w : Win) : List Byte :=
  pack [(8, w.off), (8, w.tgt + 4 * b2n w.rd + 2 * b2n w.wr + b2n w.en), (4, w.log2), (12, 0)]

def winParse (d : List Byte) : Win :=
  let t := fieldAt d 8 8
  ⟨bitOf t 0, bitOf t 1, bitOf t 2, fld (fieldAt d 0 8) 37 12 * 4096, fld t 51 12 * 4096, fieldAt d 16 1 % 64⟩

/-- The 64 bytes of a queue pair's registers (R446). -/
def qpBytes (x : Qp) : List Byte := (upTo 16).flatMap (fun i => toBytes 4 (qpRegRead x (i * 4)))

/-- Queue pair registers from an image; the PHASE of the pass is in none of them and is left open (log 3). -/
def qpParse (x : Qp) (d : List Byte) (phase : Bool) : Qp :=
  let c := fieldAt d 0x10 4
  { x with
    sqBase := fieldAt d 0 8, cqBase := fieldAt d 8 8, en := bitOf c 31, stopped := bitOf c 30, typ := fld c 29 27, cause := fld c 26 24
    sqSize := fld c 23 20, cqSize := fld c 19 16, ien := bitOf c 11, vec := fld c 10 0, bind := fieldAt d 0x14 4 % 256
    sqTail := fieldAt d 0x18 4 % 65536, sqHead := fieldAt d 0x1C 4 % 65536, cqTail := fieldAt d 0x20 4 % 65536
    cqHead := fieldAt d 0x24 4 % 65536, phase := phase, held := [], got := [] }

/-- Key slots bound to a function, ascending. -/
def fnSlots (s : State) (k : Nat) : List Nat :=
  ((lhOf s (portHalf (k / 64))).slots.filter (fun e => e.2.fn == 0x100 + k && e.2.st != 0)).map (fun e => e.1)

/-- The image of a function, its CRC field zero (R472, R473). -/
def fnImage (s : State) (k : Nat) (ctxhdr ctxlist : List Byte) (ops : List (Half × Nat × Ift)) : List Byte :=
  let h := portHalf (k / 64)
  let f := fnOf s k
  let keys := fnSlots s k
  let nctx := fieldAt ctxhdr 2 2
  let hdr := [0x41, 0x54, 0x49, 0x31] ++ pack [(2, 1), (2, 0), (4, imageLen ops.length), (4, 0), (1, k / 64), (1, k % 64), (2, f.nqp), (2, f.nmsix),
    (2, f.subs.length), (2, keys.length), (1, f.nwin), (1, 0), (2, ops.length), (2, 0), (4, f.nstream), (1, s.cfg.step.get h), (3, 0),
    (8, (s.st64.get h).toNat), (16, 0)]
  let cfg := (upTo 64).flatMap (fun i => toBytes 4 (cfgWord s k (i * 4)))
  let freg := (upTo 48).flatMap (fun i => toBytes 4 (fnRegRead s k (i * 4)))
  let win := f.shadow.flatMap winBytes
  let keyb := slice (keys.flatMap (fun x => toBytes 2 x)) 0 (2 * min 256 keys.length) ++
    (upTo (256 - keys.length)).flatMap (fun _ => toBytes 2 0xFFFF)
  let vers := (upTo 16).flatMap (fun i => toBytes 4 (tget 0 (cssOf s h).vers i))
  let subch := slice (f.subs.flatMap (fun x => toBytes 2 x)) 0 1024
  let qps := slice ((upTo f.nqp).flatMap (fun i => qpBytes (qpOf s (fnQp s (k / 64) (k % 64) i)))) 0 4096
  let msix := slice ((upTo f.nmsix).flatMap (fun i => toBytes 16 (tget 0 f.msix i))) 0 4096
  let opb := ops.flatMap (fun x => iftBytes x.2.2 ++
    (match dmaReadRaw s x.1 (ctxBase s x.1 x.2.1) 64 with | some (d, _) => d | none => List.replicate 64 0))
  hdr ++ cfg ++ freg ++ win ++ keyb ++ ctxhdr ++ (slice ctxlist 0 (8 * nctx) ++ List.replicate (512 - 8 * nctx) 0) ++ vers ++
    List.replicate 128 0 ++ subch ++ qps ++ msix ++ opb

/-- The freeze ends FAILED with reason 0, the function's work going on. -/
def freezeFail (k : Nat) (s : State) : State :=
  let g := (fnOf s k).freezeCmd
  failOpt g 0 (resumeFn k (unfreeze k (updFn k (fun f => { f with freezeCmd := none }) s)))

/-- Steps 4 and 5 of R471, once nothing of the function runs and every CQ entry is written. -/
def freezeEnd (k : Nat) (s : State) : State :=
  match (fnOf s k).freezeCmd with
  | none => s
  | some g =>
    let p := g.pkt
    let h := p.src.half
    let hh := portHalf (k / 64)
    let busy := liveOps s k != [] || (fnOps s k).any (fun x => x.2.2.st == 6 || x.2.2.st == 7) ||
      (fnRings s k).any (fun r => decide (0 < ringJobs s hh r.1)) || decide (0 < fnCmds s k + fnAppends s k) ||
      (fnQps s k).any (fun q => (qpOf s q).held != [])
    if busy then s
    else if (fnOf s k).bmeLost then freezeFail k s
    else match dmaRead s h (p.buf + 0x500) 576 with
    | some (d, false) =>
      let list := d.drop 64
      let n := fieldAt d 2 2
      let nonce := freeVal s % 2 ^ 32
      let key := (kslotOf s hh (fieldAt d 0 2)).key
      (match allCtx (toTransfer s hh key nonce) list (upTo (min 64 n)) with
        | none => freezeFail k s
        | some cs =>
          let s1 := cs.foldl (fun t c => (match dmaWrite t hh c.1 c.2 with | some (t1, _) => t1 | none => t)) (drawn s)
          let ops := fnFrozen s1 k
          let img := fnImage (updFn k (fun f => { f with frozen := true }) s1) k
            (pack [(2, fieldAt d 0 2), (2, n), (4, nonce), (56, 0)]) list ops
          let img2 := splice img 0xC (toBytes 4 (crc32c 0 img))
          (match dmaWrite s1 h p.buf img2 with
            | some (s2, _) =>
              finish g stDone 8 (res [(4, img.length), (4, ops.length)])
                (fnEvent k (updFn k (fun f => { f with frozen := true, freezeCmd := none }) s2))
            | none => freezeFail k s))
    | _ => freezeFail k s

/-- Quiesces and freezes whose condition has come about end (R469, R471). -/
def vfTick (s : State) : State :=
  s.att.fns.foldl (fun t e =>
    if e.2.quiesceCmd.isSome then quiesceEnd e.1 t else if e.2.freezeCmd.isSome then freezeEnd e.1 t else t) s

/-! ### Restore and resume (R337, R475, R476) -/

/-- The image in the buffer, when its own checks pass. -/
def imageOf (s : State) (p : Pkt) : Option (List Byte) :=
  match readBuf s p 64 with
  | none => none
  | some hd =>
    let len := fieldAt hd 8 4
    if hd.take 4 ≠ [0x41, 0x54, 0x49, 0x31] ∨ fieldAt hd 4 2 ≠ 1 ∨ 384 < fieldAt hd 0x1C 2 ∨ len ≠ imageLen (fieldAt hd 0x1C 2) ∨
        p.bufLen < len then none
    else match readBuf s p len with
    | none => none
    | some d => if crc32c 0 (splice d 0xC (toBytes 4 0)) = fieldAt d 0xC 4 then some d else none

/-- A transfer-form context in its per-boot form (R475); other forms are left. -/
def fromTransfer (s : State) (h : Half) (key : List Byte) (nonce i a : Nat) : Option (Option (List Byte)) :=
  match dmaRead s h a 64 with
  | some (hd, false) =>
    let len := fieldAt hd 0x10 4
    if fieldAt hd 0 2 ≠ 3 then some none
    else if fieldAt hd 4 4 ≠ nonce ∨ fieldAt hd 8 8 ≠ i ∨ len < 2048 ∨ 34816 < len then none
    else match dmaRead s h (a + 64) (len + 16) with
    | some (b, false) =>
      let iv := slice hd 4 12
      if gcmTag key iv hd (b.take len) ≠ b.drop len then none
      else
        let boot := (lhOf s h).bootId
        let hd2 := pack [(2, 2), (2, 0), (4, boot), (8, freeVal s % 2 ^ 64 + i), (4, len), (44, 0)]
        let ct := gcmCrypt (wrapKey boot) (slice hd2 4 12) (gcmCrypt key iv (b.take len))
        some (some (hd2 ++ ct ++ gcmTag (wrapKey boot) (slice hd2 4 12) hd2 ct))
    | _ => none
  | _ => none

def restoreCtx (s : State) (k : Nat) (d : List Byte) : Option (List (Nat × List Byte)) :=
  let h := portHalf (k / 64)
  let hdr := slice d 0x500 64
  allCtx (fromTransfer s h (kslotOf s h (fieldAt hdr 0 2)).key (fieldAt hdr 4 4)) (slice d 0x540 512) (upTo (min 64 (fieldAt hdr 2 2)))

/-- Carried operations of an image. -/
def imageOps (d : List Byte) : List (Ift × List Byte) :=
  (upTo (fieldAt d 0x1C 2)).map (fun i => (iftParse (slice d (imageLen i) 64), slice d (imageLen i + 64) 64))

/-- The checks of R475 that end BAD_PARAM. -/
def restoreOk (s : State) (k : Nat) (d : List Byte) : Bool :=
  let h := portHalf (k / 64)
  let f := fnOf s k
  let ops := imageOps d
  !f.frozen && f.freezeCmd.isNone && (fnQps s k).all (fun q => !(qpOf s q).en) &&
  decide (fieldAt d 0x12 2 ≤ f.nqp ∧ fieldAt d 0x14 2 ≤ f.nmsix ∧ fieldAt d 0x16 2 ≤ f.subs.length ∧ fieldAt d 0x1A 1 ≤ f.nwin) &&
  (upTo (min 256 (fieldAt d 0x18 2))).all (fun i =>
    let x := kslotOf s h (fieldAt d (0x300 + i * 2) 2)
    x.st == 1 && x.fn == 0x100 + k) &&
  (fieldAt d 0x502 2 == 0 || xslotOk s k (fieldAt d 0x500 2)) && (restoreCtx s k d).isSome &&
  ops.all (fun o => tget 0 (cssOf s h).vers o.1.image == fieldAt d (0x740 + o.1.image * 4) 4) &&
  decide (ops.length ≤ (freeEntries s h).length)

def restoreChecks (s : State) (p : Pkt) : List (Bool × Nat) :=
  let d := imageOf s p
  vfChecksWith
    [((match d with | some x => !restoreOk s p.vf x | none => true), stBadParam),
     ((match d with | some x => pairVerdict (fieldAt x 0x24 1) (s.cfg.step.get (portHalf (p.f 0 1))) == 2 | none => false), stDenied)] s p

/-- One carried operation becomes a QUEUED entry on the function's subchannel of the same place (R337, R475). -/
def placeOp (k i : Nat) (subch : List Byte) (o : Ift × List Byte) (s : State) : State :=
  let h := portHalf (k / 64)
  let f := fnOf s k
  let j := ((upTo 512).find? (fun j => fieldAt subch (j * 2) 2 == o.1.sub % 2048)).getD 0
  let n := h.n * 2048 + f.subs.getD j 0
  let e := { o.1 with
    st := 1, sub := n, migrated := true, otype := 1, owner := k, cq := (subOf s h n).cq, cpe := n % 32, fstat := 0xFF
    cmdp := if o.1.lca = 0 then o.1.cpa else o.1.lca, seq := (cssOf s h).seqCtr }
  let s1 := updCss h (fun c => { c with seqCtr := c.seqCtr + 1 }) (updIft h i (fun _ => e) s)
  match dmaWriteRaw s1 h (ctxBase s1 h i) o.2 with
  | some (s2, _) => s2
  | none => s1

def placeOps (k : Nat) (subch : List Byte) : List Nat → List (Ift × List Byte) → State → State
  | i :: is, o :: os, s => placeOps k subch is os (placeOp k i subch o s)
  | _, _, s => s

/-- Configuration, queue pairs, MSI-X and windows of an image (R475 step 1). -/
def restoreFn (k : Nat) (d : List Byte) (s : State) : State :=
  let s1 := (upTo 64).foldl (fun t i =>
    setCfg k (i * 4) (cfgMerge (cfgWord t k (i * 4)) (fieldAt d (0x40 + i * 4) 4) 15 (cfgMask k (i * 4))) t) s
  let s2 := (upTo (min 64 (fieldAt d 0x12 2))).foldl (fun t i =>
    updQp (fnQp t (k / 64) (k % 64) i) (fun x => qpParse x (slice d (0xC00 + i * 64) 64) (bitOf (freeVal t) 0)) (drawn t)) s1
  let s3 := updFn k (fun f => { f with
    msix := (upTo (min 256 (fieldAt d 0x14 2))).foldl (fun (t : Tab Nat) i => tset 0 t i (fieldAt d (0x1C00 + i * 16) 16)) f.msix
    shadow := (upTo 8).map (fun w => winParse (slice d (0x200 + w * 32) 32)) }) s2
  if winsOk s3 k then updFn k (fun f => { f with active := f.shadow }) s3 else s3

def actRestore (p : Pkt) (s : State) : State :=
  let k := p.vf
  let h := portHalf (k / 64)
  match imageOf s p with
  | none => s
  | some d =>
    let ops := imageOps d
    let fr := freeEntries s h
    let cs := (restoreCtx s k d).getD []
    let s1 := restoreFn k d (drawn (ack p s))
    let s2 := cs.foldl (fun t c => (match dmaWrite t h c.1 c.2 with | some (t1, _) => t1 | none => t)) s1
    let s3 := placeOps k (slice d 0x800 1024) (fr.drop (freeVal s2 % (fr.length - ops.length + 1))) ops (drawn s2)
    done p 4 ops.length (fnEvent k (updFn k (fun f => { f with frozen := true }) s3))

def resumeChecks (s : State) (p : Pkt) : List (Bool × Nat) :=
  vfChecksWith [(!((fnOf s p.vf).frozen || (fnOf s p.vf).quiesced), stBadParam)] s p

/-- VF_RESUME: frozen and restored operations are dispatched, the queues read again. -/
def actResume (p : Pkt) (s : State) : State :=
  let k := p.vf
  let h := portHalf (k / 64)
  let s1 := unfreeze k (updFn k (fun f => { f with frozen := false, quiesced := false }) (ack p s))
  let s2 := (fnOf s k).subs.foldl (fun t n => dispatchNext h (h.n * 2048 + n) t) s1
  done p 0 0 (fnEvent k (resumeFn k s2))

def actVfReset (p : Pkt) (s : State) : State :=
  if inFlight s p.vf then ended p stNotQuiesced 0 0 (ack p s) else done p 0 0 (runFlr p.vf (ack p s))

/-- The commands of this class. -/
def cmdFn : Nat → Option Cmd
  | 0x0400 => some ⟨[3, 4, 6], 1, [(0, 1)], 0, 0, denyPort, fun s p => portChecks s p ++ [portReadyCheck s p], actPool⟩
  | 0x0401 => some ⟨[3, 4], 15, [(0, 1), (1, 1), (2, 2), (4, 2), (6, 2), (8, 4), (12, 2), (14, 1)], 0, 0, denyPort, createChecks, actCreate⟩
  | 0x0402 => some ⟨[3, 4], 2, [(0, 1), (1, 1)], 0, 0, denyPort, vfChecks, actDestroy⟩
  | 0x0403 => some ⟨[3, 4], 4, [(0, 1), (1, 1), (2, 2)], 0, 0, denyPort, vfChecks, actQuiesce⟩
  | 0x0404 => some ⟨[3, 4], 2, [(0, 1), (1, 1)], 1, 0, denyPort, freezeChecks, actFreeze⟩
  | 0x0405 => some ⟨[3, 4], 2, [(0, 1), (1, 1)], 1, 1, denyPort, restoreChecks, actRestore⟩
  | 0x0406 => some ⟨[3, 4], 2, [(0, 1), (1, 1)], 0, 0, denyPort, resumeChecks, actResume⟩
  | 0x0407 => some ⟨[3, 4], 2, [(0, 1), (1, 1)], 0, 0, denyPort, vfChecks, actVfReset⟩
  | _ => none

end Sys2Proof.Machine
end

