-- ==== Sys2Proof/Machine/HarbourInfo.lean ====
section
/-! DEFINITION. Log, time, counter, diagnostic and capability commands (classes 0x07xx to 0x0Bxx; R4–R9, R507–R509,
R550–R552, R565–R593, R633). -/
namespace Sys2Proof.Machine

/-! ### Capabilities (R4–R8, R551, R552) -/

def Part.code : Part → Nat
  | .q1600a => 1
  | .q1600c => 2
  | .q1200a => 3
  | .q0800a => 4

def hasCipher (s : State) : Bool := s.cfg.part != .q1600c

def hubCap0 (s : State) (h : Half) : Nat :=
  if ¬ capValid s h then 0
  else
    let two := s.cfg.part != .q0800a
    putBits [(24, s.cfg.part.code), (16, s.cfg.step.get h), (12, ((upTo 16).filter (fun d => dieHalf d == h && diePresent s d)).length),
             (7, b2n two), (6, b2n (hasNmu s)), (5, b2n (hasCipher s)), (4, 1), (3, 1), (2, b2n two), (1, h.n), (0, 1)]

/-- Encoding of a feature of the silicon: 0 ABSENT, 1 PRESENT, 2 MASKED. -/
def featCode (anywhere inService : Bool) : Nat := if inService then 1 else if anywhere then 2 else 0

def hubCap1 (s : State) (h : Half) : Nat :=
  if ¬ capValid s h then 0
  else
    let p := s.units.pairing
    let two := s.cfg.part != .q0800a
    let any := (halvesOf s).any (fun g => stepFeat (s.cfg.step.get g)) || (upTo 16).any (fun d => diePresent s d && stepFeat (dieStepOf s d))
    let feat := fun (on : Bool) => if p.valid then featCode any on else b2n (stepFeat (s.cfg.step.get h))
    putBits [(12, feat p.evx), (10, feat p.drfm), (8, featCode two (two && !(p.valid && p.verdict != 0))),
             (6, featCode two (two && !(p.valid && p.verdict == 2))), (4, b2n two), (2, b2n (hasCipher s)), (0, b2n (hasNmu s))]

/-- Dies of a half in service. -/
def servingDies (s : State) (h : Half) : List Nat :=
  (upTo 16).filter (fun d => dieHalf d == h && diePresent s d && !(dieOf s d).heldOut && !(dieOf s d).lost)

def hubCap2 (s : State) (h : Half) : Nat :=
  if ¬ capValid s h then 0
  else
    let p := s.units.pairing
    let ds := (servingDies s h).map (dieStepOf s)
    putBits [(31, b2n p.valid), (26, if p.valid then p.verdict else 0), (16, if hubPresent s h.other then s.cfg.step.get h.other else 0),
             (8, ds.foldl min (ds.headD 0)), (0, ds.foldl max 0)]

def hubCap3 (s : State) (h : Half) : Nat :=
  if ¬ capValid s h then 0
  else putBits [(24, 3), (0, ((upTo 8).filter (fun k => (dieOf s (h.n * 8 + k)).heldOut)).foldl (fun (n : Nat) k => n + 2 ^ k) 0)]

def actCap (p : Pkt) (s : State) : State :=
  done p 16 (res [(4, hubCap0 s p.half), (4, hubCap1 s p.half), (4, hubCap2 s p.half), (4, hubCap3 s p.half)]) s

/-- Version of a cached image; 0 while none is cached. -/
def imageVersion (s : State) (h : Half) (t : Nat) : Nat := (tget ⟨0, 0, []⟩ (lhOf s h).cache t).version

/-- REV_GET; the ROM's version is a constant of the part that the spec does not give (log 20). -/
def actRev (p : Pkt) (s : State) : State :=
  let h := p.half
  done p 16 (res [(4, imageVersion s h 1), (4, Config.primN 12 [h.n] [] % 2 ^ 32), (4, tget 0 (cssOf s h).vers 0), (4, imageVersion s h 3)]) s

def actPairing (p : Pkt) (s : State) : State :=
  done p 3 (res [(1, s.cfg.step.a), (1, if hubPresent s .b then s.cfg.step.b else 0), (1, s.units.pairing.verdict)]) s

def actPing (p : Pkt) (s : State) : State := done p (min 24 p.plen) (p.prm % 256 ^ 24) s

/-! ### Event log (R566, R572, R573) -/

/-- The 64 bytes of an entry. -/
def entryBytes (e : LogEntry) : List Byte :=
  pack [(8, e.ts), (4, e.index), (4, e.source), (1, e.level), (1, e.cls), (2, e.code), (4, e.rep), (4, e.lost),
        (2, putBits [(0, b2n e.rsv), (1, b2n e.peer), (2, b2n e.bucket), (3, b2n e.notice), (4, b2n e.damaged)]), (2, e.ovf),
        (8, e.tlast), (24, e.data)]

/-- Entries from an index on, or from the oldest when it is not live. -/
def logFrom (l : Log) (i : Nat) : List LogEntry :=
  if l.entries.any (fun e => e.index == i) then l.entries.dropWhile (fun e => e.index != i) else l.entries

def logChecks (s : State) (p : Pkt) : List (Bool × Nat) :=
  halfChecks s (p.f 0 1) ++ [(!readyBit s p.half rbLog, stNotReady)]

def actLogRead (p : Pkt) (s : State) : State :=
  let l := s.log.get p.half
  let es := (logFrom l (p.f 4 4)).take p.ilen
  let next := match es.getLast? with
    | some e => (match (logFrom l e.index).drop 1 with | x :: _ => x.index | [] => l.nextIdx)
    | none => l.nextIdx
  done p 12 (res [(4, es.length), (4, next), (4, l.lostTotal)]) (writeBuf p (es.flatMap entryBytes) (ack p s))

/-- FAULT_N goes inactive when no log holds an uncleared UF entry of its own (R564). -/
def faultUpdate (s : State) : State :=
  if s.pkg.stopped then s
  else { s with faultN := s.faultN && (s.log.a.entries ++ s.log.b.entries).any (fun e => e.cls == clsUF) }

def actLogClear (p : Pkt) (s : State) : State :=
  let l := s.log.get p.half
  let keep := (l.entries.dropWhile (fun e => e.index != p.f 4 4)).drop 1
  done p 4 (l.entries.length - keep.length) (faultUpdate (updLog p.half (fun x => { x with entries := keep }) s))

def actLogStatus (p : Pkt) (s : State) : State :=
  let l := s.log.get p.half
  let old := match l.entries.head? with | some e => e.index | none => l.nextIdx
  let new := match l.entries.getLast? with | some e => e.index | none => (l.nextIdx + 2 ^ 32 - 1) % 2 ^ 32
  done p 14 (res [(4, old), (4, new), (4, l.lostTotal), (2, (l.entries.filter (fun e => e.rsv)).length)]) s

/-! ### Time (R505–R509) -/

def actTimeGet (p : Pkt) (s : State) : State :=
  let h := p.src.half
  done p 17 (res [(8, (s.st64.get h).toNat), (8, (lhOf s h).utc), (1, b2n (lhOf s h).att)]) s

/-- KEYID of a hub's DEVID. -/
def devKeyId (h : Half) : List Byte := sha384 (ecPub (devKey h.n 1))

/-- What a time token lacks: status 0 when it is good (R509). -/
def timeToken (s : State) (h : Half) (off : Nat) (t : List Byte) : Nat :=
  let utc := fieldAt t 8 8
  let sst := fieldAt t 0x10 8
  if t.take 4 ≠ [0x4C, 0x54, 0x54, 0x31] ∨ fieldAt t 4 4 ≠ 0 ∨ off ≠ (utc + 2 ^ 64 - sst) % 2 ^ 64 then stBadParam
  else if sha384 (slice t 0xB8 97) ≠ otpKey 3 ∨ ¬ ecdsaOk (slice t 0xB8 97) (t.take 0x58) (slice t 0x58 96) ∨
      slice t 0x28 48 ≠ devKeyId h ∨ sst + 10000000000 < (s.st64.get h).toNat then stDenied
  else 0

def timeSetChecks (s : State) (p : Pkt) : List (Bool × Nat) :=
  let ind := bitOf p.flags 0
  let t := if ind then readBuf s p 281 else none
  let st := match t with | some d => timeToken s p.src.half (p.f 0 8) d | none => 0
  [(ind && (decide (p.ilen < 5) || p.iptr % 64 != 0 || t.isNone || st == stBadParam), stBadParam), (ind && st == stDenied, stDenied),
   (!readyBit s p.src.half rbLh, stNotReady)]

def actTimeSet (p : Pkt) (s : State) : State :=
  let f := fun (l : Lh) => { l with utc := p.f 0 8, att := bitOf p.flags 0 }
  done p 8 (s.st64.get p.src.half).toNat (ack p (bothHubs (fun g t => updLh g f t) s))

/-- A time statement, signed (R508). -/
def statement (s : State) (h : Half) (nonce : Nat) : List Byte :=
  let body := [0x4C, 0x54, 0x53, 0x31] ++ pack [(1, h.n), (1, b2n (lhOf s h).att), (2, 0), (8, (s.st64.get h).toNat),
    (8, (lhOf s h).utc), (16, nonce)] ++ slice (devKeyId h) 0 48
  body ++ ecdsaSign (devKey h.n 1) body (freeVal s)

def timeAttestChecks (s : State) (p : Pkt) : List (Bool × Nat) :=
  [(bufBad s p, stBadParam), (!readyBit s p.src.half rbLh || (lhOf s p.src.half).noDev, stNotReady)]

def actTimeAttest (p : Pkt) (s : State) : State :=
  done p 0 0 (writeBuf p (statement s p.src.half (p.f 0 16)) (ack p (drawn s)))

/-! ### Counters (R575–R589) -/

/-- Counters of a block type (R575); 0 for a type without counters. -/
def ctrCount : Nat → Nat
  | 0x02 => 4 | 0x01 => 4 | 0x0A => 4 | 0x11 => 4 | 0x03 => 8 | 0x0B => 4 | 0x12 => 8 | 0x09 => 4 | 0x08 => 4 | 0x04 => 4
  | 0x05 => 4 | 0x06 => 8 | 0x07 => 8
  | _ => 0

/-- Event numbers of a block type (R594); type 0x10 is the core. -/
def eventOk (t e : Nat) : Bool :=
  let within := fun (lo n : Nat) => decide (lo < e ∧ e ≤ lo + n)
  e == 0 || (match t with
    | 0x10 => within 0 0xE || e == 0x800
    | 0x02 => within 0x100 6
    | 0x01 => within 0x180 3
    | 0x0A => within 0x300 4
    | 0x11 => within 0x200 7
    | 0x03 => within 0x280 7
    | 0x0B => within 0x600 2
    | 0x12 => within 0x380 5
    | 0x09 => within 0x3A0 3
    | 0x08 => within 0x3C0 3
    | 0x04 => within 0x400 5
    | 0x05 => within 0x480 5
    | 0x06 => within 0x500 5
    | 0x07 => within 0x580 3
    | _ => false)

/-- UNIT names a core (R576). -/
def isCoreUnit (u : Nat) : Bool := u / 2 ^ 16 == 0xFF00

/-- UNIT names a block with counters. -/
def ctrWell (u : Nat) : Bool :=
  (unitDie u == 0xFF && decide (u / 2 ^ 24 < 2) && ((unitType u == 0x11 && decide (unitInst u < 12)) || (unitType u == 0x12 && unitInst u == 0))) ||
  unitWell u

def pctSelectChecks (s : State) (p : Pkt) : List (Bool × Nat) :=
  let u := p.f 0 4
  let core := isCoreUnit u
  let t := if core then 0x10 else unitType u
  [(!core && ctrWell u && !unitThere s u, stUnitAbsent),
   ((!core && !ctrWell u) || (core && decide (lcnCount s ≤ u % 2 ^ 16)) || decide ((if core then 8 else ctrCount t) ≤ p.f 4 1) ||
      !eventOk t (p.f 6 2), stBadParam),
   (!(if core then halfServes s (lcnHalf s (u % 2 ^ 16)) else unitReady s u || pstateOf s u == 3), stNotReady)]

def denyPct (s : State) (p : Pkt) : Bool :=
  let u := p.f 0 4
  if isCoreUnit u then decide (u % 2 ^ 16 < lcnCount s) && otherHalf s p (lcnHalf s (u % 2 ^ 16)) else otherHalf s p (unitHalf u)

/-- Key of a counter. -/
def ctrKey (u i : Nat) : Nat := u * 8 + i

def actPctSelect (p : Pkt) (s : State) : State :=
  done p 0 0 { s with ctrs := tset Ctr.zero s.ctrs (ctrKey (p.f 0 4) (p.f 4 1)) ⟨0, p.f 6 2, false⟩ }

def recordLen : Nat := 42496

def collOf (s : State) (h : Half) : Coll := s.units.coll.get h
def updColl (h : Half) (f : Coll → Coll) (s : State) : State := updUnits (fun u => { u with coll := u.coll.set h (f (u.coll.get h)) }) s

/-- A half whose collector works: in DEGRADED only the running one (R583). -/
def collects (s : State) (h : Half) : Bool := readyBit s h rbPctc && !(effMode s == .degraded && h != runHalf s)

def collectChecks (s : State) (p : Pkt) : List (Bool × Nat) :=
  halfChecks s (p.f 0 1) ++
  [(decide (1000000 < p.f 4 4) || (p.f 4 4 != 0 &&
      (p.f 8 8 % 64 != 0 || p.f 16 4 % 64 != 0 || decide (p.f 16 4 < recordLen) || !dramOk s p.half (p.f 8 8) (p.f 16 4))), stBadParam),
   (!collects s p.half, stNotReady)]

def actCollect (p : Pkt) (s : State) : State :=
  done p 0 0 (updColl p.half (fun c =>
    if p.f 4 4 = 0 then { c with run := false, interval := 0 }
    else { c with run := true, base := p.f 8 8, size := p.f 16 4, interval := p.f 4 4, next := 0, seq := 0, missed := 0 }) s)

/-- A counter entry (R588). -/
def ctrEntry (c : Ctr) : Nat := putBits [(63, b2n c.ovf), (48, c.ev), (0, c.val)]

def ctrOf (s : State) (u i : Nat) : Ctr := tget Ctr.zero s.ctrs (ctrKey u i)

/-- `n` entries of a block, or zeros where the block is absent. -/
def ctrRun (s : State) (there : Bool) (u n : Nat) : List Byte :=
  (upTo n).flatMap (fun i => toBytes 8 (if there then ctrEntry (ctrOf s u i) else 0))

/-- An LCN has a slot of its own in a record: it is parked, or has a core of a die that came up (R24, R581, R587). -/
def slotLive (s : State) (l : Nat) : Bool :=
  (lcnOf s l).parked || (match coreOf s l with
    | some c => (dieOf s (c / 128)).ready || pstateOf s (dieUnit (c / 128)) == 3
    | none => false)

/-- The body of a record (R587). -/
def recordBody (s : State) (h : Half) : List Byte :=
  let hub := fun (t i : Nat) => srcOf h 0xFF t i
  let ls := lcnsOf s h
  let cores := (upTo 512).flatMap (fun i =>
    let l := ls.getD i 0
    ctrRun s (decide (i < ls.length) && slotLive s l) (coreUnit l) 8)
  let dies := (upTo 8).flatMap (fun k =>
    let d := h.n * 8 + k
    let on := diePresent s d
    (upTo 17).flatMap (fun i => ctrRun s on (srcOf h d 2 i) 4) ++ ctrRun s on (srcOf h d 1 0) 4 ++
      (upTo 2).flatMap (fun i => ctrRun s on (srcOf h d 0xA i) 4))
  let many := fun (t n k : Nat) => (upTo n).flatMap (fun i => ctrRun s true (hub t i) k)
  cores ++ dies ++ many 3 12 8 ++ many 0x11 12 4 ++ many 0xB 1 4 ++ many 0x12 1 8 ++ many 9 32 4 ++ many 8 16 4 ++ many 4 8 4 ++
    many 5 16 4 ++ many 6 1 8 ++ many 7 2 8 ++ (upTo 24).flatMap (fun i => ctrRun s (unitThere s (hub 0xA i)) (hub 0xA i) 4) ++
    List.replicate 32 0

/-- The header of a record (R586). -/
def recordHead (s : State) (h : Half) (manual : Bool) : List Byte :=
  let c := collOf s h
  let skew := s.fab.standby.any (fun d => decide (d < 16) && dieHalf d == h)
  let evx := s.units.pairing.valid && !s.units.pairing.evx
  [0x50, 0x43, 0x44, 0x31] ++ pack [(1, h.n), (1, putBits [(0, b2n manual), (1, b2n skew), (2, b2n evx)]), (2, 0), (4, recordLen),
    (4, c.missed), (8, c.seq + 1), (8, (s.st64.get h).toNat), (4, if manual ∧ ¬ c.run then 0 else c.interval), (28, 0)]

/-- A freeze pulse: one record at NEXT (R584, R585). -/
def pulse (h : Half) (manual : Bool) (s0 : State) : State :=
  let s := tally s0
  let c := collOf s h
  let d := recordHead s h manual ++ recordBody s h
  match dmaWrite s h (c.base + c.next * 64) d with
  | none => s
  | some (s1, _) =>
    let n := c.next * 64 + recordLen
    updColl h (fun x => { x with next := if n + recordLen ≤ c.size then n / 64 else 0, seq := x.seq + 1, missed := 0 }) s1

/-- FREEZE_PULSE of the interval; `busy` while the previous record is still being written (R584, R585). -/
def runFreezePulse (h : Half) (busy : Bool) (s : State) : State :=
  let c := collOf s h
  if ¬ c.run ∨ ¬ collects s h then s
  else if busy then updColl h (fun x => { x with miss := sat (x.miss + 1) 0xFFFFFFFF, missed := sat (x.missed + 1) 0xFFFFFFFF }) s
  else pulse h false s

def freezeNowChecks (s : State) (p : Pkt) : List (Bool × Nat) :=
  halfChecks s (p.f 0 1) ++ [((collOf s p.half).size == 0, stBadParam), (!collects s p.half, stNotReady)]

def actFreezeNow (p : Pkt) (s : State) : State := done p 8 (s.st64.get p.half).toNat (pulse p.half true s)

def ureadChecks (s : State) (p : Pkt) : List (Bool × Nat) :=
  [(decide (lcnCount s ≤ p.f 0 2) || decide (2 ≤ p.f 2 1) || decide (2 ≤ p.f 3 1), stBadParam),
   (!halfServes s (lcnHalf s (p.f 0 2)), stNotReady)]

def actUread (p : Pkt) (s : State) : State :=
  done p 0 0 (updCtx (p.f 0 2) (p.f 2 1) (fun c => { c with uread := p.f 3 1 == 1 }) s)

def sampleChecks (s : State) (p : Pkt) : List (Bool × Nat) :=
  let n := p.f 2 1
  [(decide (lcnCount s ≤ p.f 0 2) || !(n == 0 || decide (8 ≤ n ∧ n ≤ 20)) ||
      (n != 0 && (p.f 8 8 % 64 != 0 || p.f 16 4 % 64 != 0 || decide (p.f 16 4 < 4096) || !dramOk s (lcnHalf s (p.f 0 2)) (p.f 8 8) (p.f 16 4))),
      stBadParam),
   (!halfServes s (lcnHalf s (p.f 0 2)), stNotReady)]

def actSample (p : Pkt) (s : State) : State :=
  done p 0 0 (updLcn (p.f 0 2) (fun k => { k with samp := if p.f 2 1 = 0 then { k.samp with n := 0 }
    else { k.samp with n := p.f 2 1, base := p.f 8 8, size := p.f 16 4, off := 0, seq := 0, missed := 0 } }) s)

/-! ### Diagnostics (R72, R252, R633) -/

def scrubChecks (s : State) (p : Pkt) : List (Bool × Nat) :=
  unitChecks s [3] (p.f 0 4) ++ [(!unitReady s (p.f 0 4), stNotReady)]

/-- DIAG_SCRUB and DIAG_CORE_TEST stay in progress until ASYNC_COMMAND_COMPLETE. -/
def actWait (p : Pkt) (s : State) : State := accept p stAccepted s

def retrainChecks (s : State) (p : Pkt) : List (Bool × Nat) :=
  let st := (rytOf s (unitRyt (p.f 0 4))).st
  unitChecks s [0xA] (p.f 0 4) ++ [(!(st == .up || st == .hold || st == .fenced || st == .training), stNotReady), (st == .training, stBusy)]

def actRetrain (p : Pkt) (s : State) : State :=
  let k := unitRyt (p.f 0 4)
  if (rytOf s k).st = .fenced then done p 1 0 (ack p s) else startRetrain k (accept p stAccepted s)

def coreTestChecks (s : State) (p : Pkt) : List (Bool × Nat) :=
  let l := p.f 0 2
  let c := testCore s l
  let d := dieOf s (c / 128)
  let off := (coreOf s l).isNone && !(lcnOf s l).parked
  [(decide (lcnCount s ≤ l), stBadParam),
   (!halfServes s (lcnHalf s l) || (off && (d.lost || d.heldOut || !d.ready || pstateOf s (dieUnit (c / 128)) == 3)), stNotReady)]

def actCoreTest (p : Pkt) (s : State) : State :=
  let l := p.f 0 2
  let c := testCore s l
  if (coreOf s l).isSome ∨ (lcnOf s l).parked ∨ coreState s c = 1 ∨ coreState s c = 3 then ended p stNotQuiesced 0 0 (ack p s)
  else accept p stAccepted s

/-- The commands of these classes. -/
def cmdInfo : Nat → Option Cmd
  | 0x0700 => some ⟨[2, 3, 6], 8, [(0, 1), (4, 4)], 1, 1, denyHalf, fun s p => halfChecks s (p.f 0 1) ++
      [(bufBad s p, stBadParam), (!readyBit s p.half rbLog, stNotReady)], actLogRead⟩
  | 0x0701 => some ⟨[3, 6], 8, [(0, 1), (4, 4)], 0, 0, denyHalf, fun s p => halfChecks s (p.f 0 1) ++
      [(!(s.log.get p.half).entries.any (fun e => e.index == p.f 4 4), stBadParam), (!readyBit s p.half rbLog, stNotReady)], actLogClear⟩
  | 0x0702 => some ⟨[2, 3, 6], 1, [(0, 1)], 0, 0, denyHalf, logChecks, actLogStatus⟩
  | 0x0800 => some ⟨srcAll, 0, [], 0, 0, denyNone, fun _ _ => [], actTimeGet⟩
  | 0x0801 => some ⟨[3, 6], 8, [(0, 8)], 2, 0, fun s p => bitOf p.flags 0 && retired s, timeSetChecks, actTimeSet⟩
  | 0x0802 => some ⟨[2, 3, 4, 5], 16, [(0, 16)], 1, 3, fun s _ => retired s, timeAttestChecks, actTimeAttest⟩
  | 0x0900 => some ⟨[2, 3], 8, [(0, 4), (4, 1), (6, 2)], 0, 0, denyPct, pctSelectChecks, actPctSelect⟩
  | 0x0901 => some ⟨[2, 3], 20, [(0, 1), (4, 4), (8, 8), (16, 4)], 0, 0, denyHalf, collectChecks, actCollect⟩
  | 0x0902 => some ⟨[2, 3], 1, [(0, 1)], 0, 0, denyHalf, freezeNowChecks, actFreezeNow⟩
  | 0x0903 => some ⟨[2], 4, [(0, 2), (2, 1), (3, 1)], 0, 0, denyLcn, ureadChecks, actUread⟩
  | 0x0904 => some ⟨[2, 3], 20, [(0, 2), (2, 1), (8, 8), (16, 4)], 0, 0, denyLcn, sampleChecks, actSample⟩
  | 0x0A00 => some ⟨srcAll, 0, [(0, 48)], 0, 0, denyNone, fun _ _ => [], actPing⟩
  | 0x0A01 => some ⟨[3, 6], 4, [(0, 4)], 0, 0, denyUnit, scrubChecks, actWait⟩
  | 0x0A02 => some ⟨[3], 4, [(0, 4)], 0, 0, denyUnit, retrainChecks, actRetrain⟩
  | 0x0A03 => some ⟨[3], 2, [(0, 2)], 0, 0, denyLcn, coreTestChecks, actCoreTest⟩
  | 0x0B00 => some ⟨srcAll, 1, [(0, 1)], 0, 0, denyNone, fun s p => halfChecks s (p.f 0 1), actCap⟩
  | 0x0B01 => some ⟨srcAll, 1, [(0, 1)], 0, 0, denyNone, fun s p => halfChecks s (p.f 0 1), actRev⟩
  | 0x0B02 => some ⟨[2, 3, 6], 0, [], 0, 0, denyNone, fun _ _ => [], actPairing⟩
  | _ => none

end Sys2Proof.Machine
end

