-- ==== Sys2Proof/Machine/HarbourKey.lean ====
section
/-! DEFINITION. Ledger and key commands (classes 0x05xx and 0x06xx; R373, R400–R404, R415, R420–R423, R497–R502). -/
namespace Sys2Proof.Machine

/-! ### Ledger streams -/

/-- Stream parameter: its hub is in the variant (check 4), and it is in range (check 6). -/
def streamAbsent (s : State) (p : Pkt) : Bool × Nat :=
  (decide (p.f 0 4 < 131072) && !hubPresent s (halfOf (p.f 0 4 / 65536)), stUnitAbsent)
def streamRange (p : Pkt) : Bool × Nat := (decide (131072 ≤ p.f 0 4), stBadParam)

def streamChecks (s : State) (p : Pkt) : List (Bool × Nat) :=
  [streamAbsent s p, streamRange p]

def ledgerReady (s : State) (p : Pkt) : Bool × Nat := (!readyBit s (strHub s (p.f 0 4)) rbLedger, stNotReady)

/-- The stream is not OPEN. -/
def notOpen (s : State) (p : Pkt) : Bool × Nat := ((streamOf s (p.f 0 4)).isNone, stBadParam)

/-- Owner of a stream opened by a source: type and owner (R401). -/
def openOwner (p : Pkt) : Nat × Nat :=
  match p.src with
  | .func port fn _ => (1, fnKey port fn)
  | .ring _ l => (0, if l = 2 then fld (p.f 8 4) 23 12 else 0)
  | _ => (0, 0)

/-- A slot may be used for the stream (R373 for job ring 0xFFFF). -/
def streamSlot (s : State) (h : Half) (k : Nat) (p : Pkt) : Bool :=
  let x := kslotOf s h k
  x.world == 0 && x.ring == 0xFFFF && x.fn == (match p.src.fnOf? with | some f => 0x100 + f | none => 0)

def isAes (alg : Nat) : Bool := alg == 1 || alg == 2 || alg == 3

def denyOpen (s : State) (p : Pkt) : Bool :=
  retired s ||
  otherHalf s p (halfOf (p.f 0 4 / 65536)) ||
  (match p.src.fnOf? with
    | some k => decide ((fnOf s k).nstream ≤ (fnStreams s k).length) || (kslotOf s (strHub s (p.f 0 4)) (p.f 4 2)).fn != 0x100 + k ||
        portHalf (k / 64) != halfOf (p.f 0 4 / 65536)
    | none => false)

def openChecks (s : State) (p : Pkt) : List (Bool × Nat) :=
  let pol := p.f 8 4
  let h := strHub s (p.f 0 4)
  let enc := bitOf pol 30
  let base := p.f 24 8
  let size := p.f 32 4
  let sl := kslotOf s h (p.f 4 2)
  let ek := kslotOf s h (fld pol 11 0)
  [streamAbsent s p, (enc && !hasCipher s, stCipherAbsent), streamRange p,
   ((streamOf s (p.f 0 4)).isSome || p.f 12 4 == 0 || decide (65536 < p.f 12 4) || p.f 16 4 == 0 || decide (60000 < p.f 16 4) ||
      base % 65536 != 0 || size % 65536 != 0 || decide (size < 0x40000) || decide (0xFFFF0000 < size) || !dramOk s h base size ||
      decide (4096 ≤ p.f 4 2) || sl.st != 1 || sl.alg != 6 || (enc && (ek.st != 1 || !isAes ek.alg)) || (!enc && fld pol 11 0 != 0) ||
      bitOf pol 28 || decide (9 < fld pol 27 24) || (fld pol 23 12 != 0 && p.src.kind != 3), stBadParam),
   (!streamSlot s h (p.f 4 2) p || (enc && !streamSlot s h (fld pol 11 0) p), stDenied), ledgerReady s p]

def actOpen (p : Pkt) (s : State) : State :=
  let o := openOwner p
  let r := openStream (p.f 0 4) (p.f 4 2) (p.f 8 4) (p.f 12 4) (p.f 16 4) (p.f 24 8) (p.f 32 4) o.1 o.2 (ack p s)
  done p 16 (res [(8, r.2.1), (8, r.2.2)]) r.1

def actClose (p : Pkt) (s : State) : State := closeStream (p.f 0 4) (some ⟨p, false⟩) (accept p stAccepted s)

def headBytes (x : Head) : List Byte := slice x.chain 0 48 ++ pack [(8, x.seq), (8, x.lts)]

def actHeadRead (p : Pkt) (s : State) : State :=
  let x := headOf s (p.f 0 4)
  done p 16 (res [(8, x.seq), (8, x.lts)]) (writeBuf p (headBytes x) s)

def actCheckpoint (p : Pkt) (s : State) : State :=
  askCkpt (p.f 0 4) 3 (updStream (p.f 0 4) (fun t => { t with ckptCmd := some ⟨p, false⟩ }) (accept p stAccepted s))

def spoolChecks (s : State) (p : Pkt) : List (Bool × Nat) :=
  let id := p.f 0 4
  let h := strHub s id
  let sub := p.f 4 2
  let b := subOf s h (id / 65536 * 2048 + sub % 2048)
  let bad := match streamOf s id with
    | none => true
    | some t =>
      sub != 0xFFFF && (decide (2048 ≤ sub) || !b.v || b.otype != 2 || b.image != 0 || !inFence b t.base t.size ||
        (ldgOf s h).streams.any (fun x => x.1 != id && x.1 / 65536 == id / 65536 &&
          (x.2.spool == some sub || x.2.spoolNext == some (some sub))))
  streamChecks s p ++ [(bad, stBadParam), ledgerReady s p]

def actSpool (p : Pkt) (s : State) : State :=
  let b := if p.f 4 2 = 0xFFFF then none else some (p.f 4 2)
  done p 0 0 (applySpool (p.f 0 4) (updStream (p.f 0 4) (fun t => { t with spoolNext := some b }) s))

/-! ### Key slots (R497–R502) -/

/-- Bytes of a key by algorithm (R498). -/
def keyLen : Nat → Nat
  | 1 => 16 | 2 => 24 | 3 => 32 | 4 => 32 | 5 => 64 | 6 => 48 | 7 => 32
  | _ => 0

/-- An algorithm the variant lacks (R498). -/
def algAbsent (s : State) (alg : Nat) : Bool := !hasCipher s && (decide (1 ≤ alg ∧ alg ≤ 5) || alg == 7)

/-- The source may name this function code (R500). -/
def fnCodeMay (p : Pkt) (c : Nat) : Bool :=
  match p.src with
  | .func port fn _ => c == 0x100 + fnKey port fn
  | .admin port => decide (0x100 + port * 64 ≤ c ∧ c < 0x100 + port * 64 + 64)
  | _ => true

/-- The function code exists at the executing hub. -/
def fnCodeOk (h : Half) (c : Nat) : Bool := c == 0 || decide (0x100 + h.n * 128 ≤ c ∧ c < 0x100 + h.n * 128 + 128)

def keyRing (x : Nat) : Bool := decide (x < 256) || x == 0xFFFF

/-- Slots of a function that hold a key or wait for one. -/
def slotsHeld (s : State) (h : Half) (c : Nat) : Nat := ((lhOf s h).slots.filter (fun e => e.2.fn == c && e.2.st != 0)).length

/-- What denies a load or a generation (R500). -/
def denyKeyNew (s : State) (p : Pkt) : Bool :=
  let h := p.src.half
  let x := kslotOf s h (p.f 0 2)
  let c := p.f 4 2
  retired s || decide (p.f 0 2 < 2) || (p.f 2 1 == 1 && p.src.kind != 3 && p.src.kind != 6) || !fnCodeMay p c ||
  (x.st != 0 && !fnCodeMay p x.fn) ||
  (x.st == 1 && !(x.world == p.f 2 1 && x.fn == c && x.ring == p.f 6 2)) ||
  (match p.src.fnOf? with
    | some k => x.st == 0 && decide ((fnOf s k).nkey ≤ slotsHeld s h (0x100 + k))
    | none => false)

/-- Parameters of a load or a generation (R500). -/
def keyParamBad (p : Pkt) : Bool :=
  decide (4096 ≤ p.f 0 2) || decide (2 ≤ p.f 2 1) || !fnCodeOk p.src.half (p.f 4 2) || !keyRing (p.f 6 2) ||
  (p.f 2 1 == 1 && p.f 4 2 != 0)

/-- The wrapped key in the buffer. -/
def wrappedKey (s : State) (p : Pkt) : Option (List Byte) :=
  match readBuf s p 128 with
  | none => none
  | some d => if p.bufLen < 144 + fieldAt d 8 2 then none else readBuf s p (144 + fieldAt d 8 2)

def wrappedOk (d : List Byte) : Bool :=
  let m := fieldAt d 4 1
  d.take 4 == [0x4C, 0x57, 0x4B, 0x31] && decide (m < 2) && decide (1 ≤ fieldAt d 5 1 ∧ fieldAt d 5 1 ≤ 7) &&
  fieldAt d 8 2 == keyLen (fieldAt d 5 1) && fieldAt d 0xA 2 == 0 && (slice d 0x79 7).all (· == 0) &&
  (if m = 0 then fieldAt d 6 2 == 0 else (slice d 0x18 97).all (· == 0) && decide (fieldAt d 6 2 < 4096))

def loadChecks (s : State) (p : Pkt) : List (Bool × Nat) :=
  let d := (wrappedKey s p).getD []
  let kek := kslotOf s p.src.half (fieldAt d 6 2)
  [(algAbsent s (fieldAt d 5 1) || (!hasCipher s && fieldAt d 4 1 == 1 && d != []), stCipherAbsent),
   (keyParamBad p || !wrappedOk d, stBadParam),
   (fieldAt d 4 1 == 1 && !(kek.st == 1 && kek.alg == 7 && kek.world == p.f 2 1 && kek.fn == p.f 4 2), stDenied),
   (!readyBit s p.src.half rbLh || (fieldAt d 4 1 == 0 && (lhOf s p.src.half).noDev), stNotReady)]

def setSlot (h : Half) (k : Nat) (x : KSlot) (s : State) : State := updLh h (fun l => { l with slots := tset KSlot.empty l.slots k x }) s

/-- Unwrap (R502): the key, or the reason it fails. -/
def unwrapKey (s : State) (h : Half) (d : List Byte) : Except Nat (List Byte) :=
  let hd := d.take 128
  let n := fieldAt d 8 2
  let epub := slice d 0x18 97
  if fieldAt d 4 1 = 0 ∧ ¬ ecPoint epub then .error 0x30
  else
    let k := if fieldAt d 4 1 = 0 then (sha384 (ecdh (devKey h.n 0) epub ++ hd)).take 32 else (kslotOf s h (fieldAt d 6 2)).key
    let ct := slice d 128 n
    let iv := slice d 0xC 12
    if gcmTag k iv hd ct ≠ slice d (128 + n) 16 then .error 0x30
    else
      let key := gcmCrypt k iv ct
      if fieldAt d 5 1 = 6 ∧ ¬ ecScalar key then .error 0x31 else .ok key

def actKeyLoad (p : Pkt) (s : State) : State :=
  match wrappedKey s p with
  | none => s
  | some d =>
    match unwrapKey s p.src.half d with
    | .error r => ended p stFailed 1 r (ack p s)
    | .ok key => done p 0 0 (setSlot p.src.half (p.f 0 2) ⟨1, fieldAt d 5 1, p.f 2 1, p.f 4 2, p.f 6 2, key⟩ (ack p s))

def generateChecks (s : State) (p : Pkt) : List (Bool × Nat) :=
  [(algAbsent s (p.f 8 1), stCipherAbsent), (keyParamBad p || p.f 8 1 == 0 || decide (7 < p.f 8 1), stBadParam),
   (!readyBit s p.src.half rbLh, stNotReady)]

def actGenerate (p : Pkt) (s : State) : State :=
  setSlot p.src.half (p.f 0 2) ⟨2, p.f 8 1, p.f 2 1, p.f 4 2, p.f 6 2, []⟩ (accept p stAccepted s)

/-- The end of a generation: a fresh key of the algorithm's length, an ECDSA scalar being drawn in range (R499, R500). -/
def generateEnd (g : Prog) (s : State) : State :=
  let h := g.pkt.src.half
  let k := g.pkt.f 0 2
  let x := kslotOf s h k
  finish g stDone 0 0 (if x.st = 2 then setSlot h k { x with st := 1, key := drbg s.nonce (keyLen x.alg) } (drawn s) else s)

/-- Naming an existing slot: functions only their own, a port its functions' (R500). -/
def denySlot (s : State) (p : Pkt) : Bool :=
  let x := kslotOf s p.src.half (p.f 0 2)
  match p.src with
  | .func _ _ _ => !(x.st != 0 && fnCodeMay p x.fn)
  | .admin _ => !(x.st != 0 && fnCodeMay p x.fn)
  | _ => false

def slotChecks (s : State) (p : Pkt) : List (Bool × Nat) :=
  [(decide (4096 ≤ p.f 0 2), stBadParam), (!readyBit s p.src.half rbLh, stNotReady)]

/-- An open stream signs or encrypts under the slot. -/
def slotInStream (s : State) (h : Half) (k : Nat) : Bool :=
  (ldgOf s h).streams.any (fun x => x.2.sigSlot == k || (bitOf x.2.policy 30 && fld x.2.policy 11 0 == k))

def actErase (p : Pkt) (s : State) : State :=
  let h := p.src.half
  let k := p.f 0 2
  if slotInJob s h k ∨ slotInStream s h k then ended p stNotQuiesced 0 0 (ack p s)
  else done p 0 0 (setSlot h k KSlot.empty (ack p s))

/-- KEY_SLOT_INFO (R499). -/
def actSlotInfo (p : Pkt) (s : State) : State :=
  let h := p.src.half
  let k := p.f 0 2
  let x := kslotOf s h k
  if k < 2 then
    let on := !(lhOf s h).noDev
    done p 7 (res [(1, if on then (if k = 0 then 8 else 6) else 0), (1, 1), (2, 0), (2, 0xFFFF), (1, if on then 3 else 4)]) s
  else done p 7 (res [(1, x.alg), (1, x.world), (2, x.fn), (2, x.ring), (1, x.st)]) s

def denyPublic (s : State) (p : Pkt) : Bool := decide (2 ≤ p.f 0 2) && denySlot s p

def publicChecks (s : State) (p : Pkt) : List (Bool × Nat) :=
  let x := kslotOf s p.src.half (p.f 0 2)
  [(decide (4096 ≤ p.f 0 2) || bufBad s p || (decide (2 ≤ p.f 0 2) && !(x.st == 1 && x.alg == 6)), stBadParam),
   (!readyBit s p.src.half rbLh || (decide (p.f 0 2 < 2) && (lhOf s p.src.half).noDev), stNotReady)]

def actPublic (p : Pkt) (s : State) : State :=
  let h := p.src.half
  let k := p.f 0 2
  done p 0 0 (writeBuf p (ecPub (if k < 2 then devKey h.n k else (kslotOf s h k).key)) (ack p s))

/-- The commands of these classes. -/
def cmdKey : Nat → Option Cmd
  | 0x0500 => some ⟨[2, 3, 5], 36, [(0, 4), (4, 2), (8, 4), (12, 4), (16, 4), (24, 8), (32, 4)], 0, 0, denyOpen, openChecks, actOpen⟩
  | 0x0501 => some ⟨[2, 3, 5], 4, [(0, 4)], 0, 0, denyStream, fun s p => streamChecks s p ++ [notOpen s p, ledgerReady s p], actClose⟩
  | 0x0502 => some ⟨[2, 3, 5, 6], 4, [(0, 4)], 1, 1, denyStream, fun s p => streamChecks s p ++ [(bufBad s p, stBadParam), ledgerReady s p], actHeadRead⟩
  | 0x0503 => some ⟨[2, 3, 5], 4, [(0, 4)], 0, 0, denyStream, fun s p => streamChecks s p ++ [notOpen s p, ledgerReady s p], actCheckpoint⟩
  | 0x0504 => some ⟨[2, 3], 6, [(0, 4), (4, 2)], 0, 0, denyStream, spoolChecks, actSpool⟩
  | 0x0600 => some ⟨[2, 3, 4, 5], 8, [(0, 2), (2, 1), (4, 2), (6, 2)], 1, 3, denyKeyNew, loadChecks, actKeyLoad⟩
  | 0x0601 => some ⟨[2, 3, 4, 5], 9, [(0, 2), (2, 1), (4, 2), (6, 2), (8, 1)], 0, 0, denyKeyNew, generateChecks, actGenerate⟩
  | 0x0602 => some ⟨[2, 3, 4, 5], 2, [(0, 2)], 0, 0, fun s p => retired s || decide (p.f 0 2 < 2) || denySlot s p, slotChecks, actErase⟩
  | 0x0603 => some ⟨[2, 3, 4, 5], 2, [(0, 2)], 0, 0, denySlot, slotChecks, actSlotInfo⟩
  | 0x0604 => some ⟨[2, 3, 4, 5, 6], 2, [(0, 2)], 1, 2, denyPublic, publicChecks, actPublic⟩
  | _ => none

end Sys2Proof.Machine
end

