-- ==== Sys2Proof/Machine/Coherence.lean ====
section
/-! DEFINITION. The coherence messages (R213–R231) as commands: each is a message that reaches its receiver. -/
namespace Sys2Proof.Machine


/-- A request reaches its home (R214). -/
def request (op : MsgOp) (m : Msg) (s : State) : State :=
  let s1 := take op m s
  homeServe (homeFor s1 m.from_ m.sector) ⟨op, m⟩ s1

/-- A directory entry is lost: its set enters broadcast mode (R212). -/
def dirLost (f : Half) (sector : Nat) (s : State) : State :=
  let h := homeFor s f sector
  let line := sector / 4
  if ¬ (dirOf s h line).v then s
  else
    logNow h (rpt (homeSource s h f sector) 2 clsCE 0x0303 (dirSet line))
      (setDir h line (fun _ => DirEnt.none)
        (updHome h (fun x => { x with bcast := setIns x.bcast (dirSet line) }) s))

/-- A set of a slice holds no more lines than it has ways: one leaves when it does, which is open (log 3). -/
def fitWays (die slice set : Nat) (s : State) : State :=
  let ls := (((s.coh.cache.map (fun e => e.1)).filter (fun k => k / 2 ^ 46 = die ∧ l3Slice (k % 2 ^ 46) = slice ∧ l3Set (k % 2 ^ 46) = set)).map
    (fun k => k % 2 ^ 46 / 4)).eraseDups
  match ls with
  | [] => s
  | x :: _ => if ls.length ≤ waysLeft s die (x * 4) then s else evictLine die (ls.getD (freeVal s % ls.length) 0) (drawn s)

/-- Delete an L3 line's way (R206): at most 512 lines a slice, logged. -/
def deleteWay (die slice set way : Nat) (s : State) : State :=
  let k := die * 17 + slice
  let l := tget [] s.coh.deleted k
  if l.length < 512 ∧ ¬ l.contains (set * 16 + way) then
    logNow (dieHalf die) (rpt (srcOf (dieHalf die) die 2 slice) 1 clsCE 0x0203
        (ofBytes (pack [(1, slice), (2, set), (1, way), (2, l.length + 1)])))
      (fitWays die slice set (updCoh (fun c => { c with deleted := tset [] c.deleted k (setIns l (set * 16 + way)) }) s))
  else s

/-- An L3 entry erred: deleted when it errs twice within 1 s (R206). -/
def l3Erred (die slice set way : Nat) (s : State) : State :=
  let k := die * 17 + slice
  let now := (s.st64.get (dieHalf die)).toNat
  let l := tget [] s.coh.erred k
  let again := l.any (fun e => e.1 == set * 16 + way && decide (now ≤ e.2 + 1000000000))
  let s1 := updCoh (fun c => { c with erred := tset [] c.erred k ((l.filter (fun e => e.1 ≠ set * 16 + way)) ++ [(set * 16 + way, now)]) }) s
  if again then deleteWay die slice set way s1 else s1

/-- An uncorrectable error in the data an agent holds of a sector: the sector goes, a dirty one by a WBN marked poisoned and
logged UC (R205). -/
def agentDataErr (a sector : Nat) (s : State) : State :=
  let c := csec s a sector
  let f := agentHalf a
  let unit := if a < 16 then srcOf f a 2 (l3Slice sector) else hmUnit f
  match c.st with
  | .i => s
  | _ =>
    let way := (linesInSet s a sector).idxOf (sector / 4)
    let s1 := evictSector a sector (setCsec a sector { c with poison := c.poison || c.st.dirty } s)
    let s2 := if c.st.dirty then logNow f (rpt unit 1 clsUC 0x0201 (res [(1, l3Slice sector), (8, logPa sector)])) s1
      else (bucketHit unit 0 s1).1
    if a < 16 then l3Erred a (l3Slice sector) (l3Set sector) way s2 else s2

/-- An uncorrectable error in a victim buffer: the WBN is marked poisoned, UC (R205). -/
def victimErr (a sector : Nat) (s : State) : State :=
  if ¬ s.coh.victim.any (fun v => v.agent == a && v.sector == sector && v.hasData) then s
  else
    let f := agentHalf a
    let s1 := updCoh (fun k => { k with
      victim := k.victim.map (fun v => if v.agent = a ∧ v.sector = sector ∧ v.hasData then { v with poison := true } else v)
      net := k.net.map (fun x => if x.op = .wbn ∧ x.m.agent = a ∧ x.m.sector = sector ∧ x.m.hasData then
        { x with m := { x.m with poison := true } } else x) }) s
    logNow f (rpt (if a < 16 then srcOf f a 2 (l3Slice sector) else hmUnit f) 1 clsUC 0x0201
      (res [(1, l3Slice sector), (8, logPa sector)])) s1

/-- A home timeout names the dies among the agents that did not answer (R556). -/
def noteSilent (h : Half) (as : List Nat) (s : State) : State :=
  (as.filter (fun a => a < 16)).foldl (fun t d => updDie d (fun x => { x with silent := ((t.st64.get h).toNat :: x.silent).take 3 }) t) s

/-- HOME_TIMEOUT: the four steps of R218. A requester whose grant is not acknowledged has been completed by it. The log entry
has room for six silent nodes (R568). -/
def runHomeTimeout (h : Half) (tx : Nat) (s : State) : State :=
  match tget none (s.home.get h).trans tx with
  | none => s
  | some t =>
    let who := (t.await ++ t.evicting ++ (if t.phase = 1 then [t.m.agent] else [])).eraseDups
    let silent := who.take 6
    let f := t.m.from_
    let s0 := homeCount h f t.m.sector 0x204 1 s
    let lost := homeCount h f t.m.sector 0x205 1 (putSector s0 f t.m.sector (homeMem s0 f t.m.sector).1 true)
    let s1 := if t.phase = 1 then
                endTx h tx t (if (dirOf lost h (t.m.sector / 4)).v then setDir h (t.m.sector / 4) (setOwner t.m.sector 31) lost else lost)
              else poisonTx h tx t s0
    let s2 := logNow h (rpt (homeSource s h t.m.from_ t.m.sector) 2 clsUC 0x0301
      (ofBytes (pack ([(8, logPa t.m.sector), (2, tx)] ++ silent.map (fun a => (2, a)))))) s1
    settle h (noteSilent h who s2)

/-- What an RDS finds at its home and its sender (R205, R212, R273). `err`: 0 nothing; the memory read the home starts with its
snoops is 1 corrected, 2 uncorrectable; 3 the line's directory entry is lost; 4 the line in the Stockpot is, and is read again
from DRAM; 5 the entry of the transaction open on the sector is, which ends as at timeout; 6 the sender's own sector has an
uncorrectable error in its data, 7 in its victim buffer. -/
def rdsErr (m : Msg) (err : Nat) (s : State) : State :=
  let h := homeFor s m.from_ m.sector
  match err with
  | 3 => dirLost m.from_ m.sector s
  | 4 => updHome h (fun x => { x with stock := x.stock.erase (m.sector / 4) }) s
  | 5 => (match lockTx s h m.sector with | some (tx, _) => runHomeTimeout h tx s | none => s)
  | 6 => agentDataErr m.agent m.sector s
  | 7 => victimErr m.agent m.sector s
  | e => memErrAt m.from_ m.sector e s

/-- RDS (R215). -/
def runRds (m : Msg) (err : Nat) (s : State) : State := request .rds m (rdsErr m err s)
/-- RDX (R215). -/
def runRdx (m : Msg) (s : State) : State := (request .rdx m s)
/-- UPG (R217). -/
def runUpg (m : Msg) (s : State) : State := (request .upg m s)
/-- RDC (R215). -/
def runRdc (m : Msg) (s : State) : State := (request .rdc m s)
/-- WRF (R215). -/
def runWrf (m : Msg) (s : State) : State := (request .wrf m s)
/-- WRP (R215); `err` is how the read of its read-modify-write ends (R273, R275). -/
def runWrp (m : Msg) (err : Nat) (s : State) : State := (request .wrp m (memErrAt m.from_ m.sector err s))

/-- ATM: executed by the NMU once per request ID, else answered from the reply latch (R141, R215, R223). -/
def runAtm (m : Msg) (s : State) : State :=
  let h := homeFor s m.from_ m.sector
  if ¬ hasNmu s then s
  else match s.latches.find? (fun x => x.unit = 1024 + h.n && x.lcn == m.lcn && x.ctx == m.ctx && x.rid == m.rid) with
  | some l => (send .cmp { bare m m.agent with hasData := true, data := l.reply } (take .atm m s))
  | none => (request .atm m s)

/-- MNT (R226). -/
def runMnt (m : Msg) (s : State) : State := (request .mnt m s)
/-- WBN (R211). -/
def runWbn (m : Msg) (s : State) : State := (writeback m s)
/-- SNPS (R216). -/
def runSnps (m : Msg) (s : State) : State := (snoop .snps m s)
/-- SNPX (R216). -/
def runSnpx (m : Msg) (s : State) : State := (snoop .snpx m s)
/-- SNPC (R216). -/
def runSnpc (m : Msg) (s : State) : State := (snoop .snpc m s)
/-- SNPK (R216). -/
def runSnpk (m : Msg) (s : State) : State := (snoop .snpk m s)
/-- SNPI (R216). -/
def runSnpi (m : Msg) (s : State) : State := (snoop .snpi m s)

/-- A core's L2 holds a sector dirty. -/
def l2Dirty (s : State) (die sector : Nat) : Bool := s.coh.l2.any (fun e => inDie die sector e.1 && e.2 == .m)

/-- The L2s of a die write back and give up what they hold of an L3 set (R229 step 3). -/
def purgeL2 (die slice set : Nat) (s : State) : State :=
  let inSet := fun (k : Nat) => k / 2 ^ 46 / 128 == die && l3Slice (k % 2 ^ 46) == slice && l3Set (k % 2 ^ 46) == set
  updCoh (fun k => { k with
    l2 := k.l2.filter (fun e => !inSet e.1), l1d := k.l1d.filter (fun e => !inSet e), l1i := k.l1i.filter (fun e => !inSet e)
    holder := k.holder.foldl (fun t e =>
      tset 0xFF t e.1 (if e.1 / 2 ^ 46 == die && l3Slice (e.1 % 2 ^ 46 * 4) == slice && l3Set (e.1 % 2 ^ 46 * 4) == set then 0xFF else e.2)) [] }) s

/-- Dirty L2 sectors of a die whose data cannot be corrected stand poisoned, as they are written back (R142, R229). -/
def poisonSectors (die : Nat) (ue : List Nat) (s : State) : State :=
  ue.foldl (fun t sec => if l2Dirty s die sec then setCsec die sec { csec t die sec with poison := true } t else t) s

/-- PURGE (R229): after a tag or state error on an L3 line, the L2s write back their dirty sectors of its set, those of the failed line
by WBN; the line is invalidated, and the die broker logs the dirty-sector mask. ADDR names the slice and the set; `way` and `line`
are those of the failed entry, and `ue` its sectors whose dirty L2 data cannot be corrected, written back poisoned (R142). A line
of another slice or set stands in no entry of this one: nothing is purged. -/
def runPurge (die slice set way line : Nat) (ue : List Nat) (stateErr : Bool) (s0 : State) : State :=
  if slice ≠ l3Slice (line * 4) ∨ set ≠ l3Set (line * 4) then s0 else
  let s := poisonSectors die ue s0
  let dirtyAt := fun i => let c := csec s die (line * 4 + i)
                          if stateErr then c.st != .i else c.st.dirty
  let mask := ((upTo 4).filter dirtyAt).foldl (fun n i => n + 2 ^ i) 0
  let s1 := (upTo 4).foldl (fun t i =>
    if l2Dirty s die (line * 4 + i) ∧ (csec t die (line * 4 + i)).st.dirty then evictSector die (line * 4 + i) t
    else setCsec die (line * 4 + i) CSector.none t) s
  let s2 := purgeL2 die slice set s1
  let s3 := logNow (dieHalf die) (rpt (srcOf (dieHalf die) die 2 slice) 1 (if mask = 0 then clsCE else clsUC) 0x0202
      (ofBytes (pack [(1, slice), (2, set), (1, way), (1, mask)]))) s2
  (l3Erred die slice set way s3)

/-- RSP_I (R214). -/
def runRspI (m : Msg) (s : State) : State := (response .rspI m s)
/-- RSP_S (R214). -/
def runRspS (m : Msg) (s : State) : State := (response .rspS m s)
/-- RSP_E (R214). -/
def runRspE (m : Msg) (s : State) : State := (response .rspE m s)
/-- RSP_O (R214). -/
def runRspO (m : Msg) (s : State) : State := (response .rspO m s)
/-- RSP_M (R214). -/
def runRspM (m : Msg) (s : State) : State := (response .rspM m s)
/-- RSP_MISS (R211, R229). -/
def runRspMiss (m : Msg) (s : State) : State := (response .rspMiss m s)
/-- RSP_EVICTING (R224). -/
def runRspEvicting (m : Msg) (s : State) : State := (response .rspEvicting m s)

/-- GNT_S (R214). -/
def runGntS (m : Msg) (s : State) : State := (granted .gntS .s m s)
/-- GNT_E (R214). -/
def runGntE (m : Msg) (s : State) : State := (granted .gntE .e m s)
/-- GNT_M (R214). -/
def runGntM (m : Msg) (s : State) : State := (granted .gntM .m m s)

/-- CACK: the home records the holder and unlocks the sector (R214, R224). -/
def runCack (m : Msg) (s0 : State) : State :=
  let h := m.home
  let s := take .cack m s0
  match tget none (s.home.get h).trans m.txid with
  | some t =>
    if t.phase = 1 ∧ t.m.agent = m.agent ∧ t.m.sector = m.sector then
      let s1 := if upAgent m.agent then setDir h (m.sector / 4) (fun e =>
          addHolder m.agent (if m.opd1 = 1 then setOwner m.sector m.agent e else e)) s else s
      (settle h (endTx h m.txid t s1))
    else s
  | none => s

/-- WBACK: the owner frees the victim-buffer entry (R225). -/
def runWback (m : Msg) (s0 : State) : State :=
  let s := take .wback m s0
  (updCoh (fun k => { k with victim := dropFirst (fun v => v.agent == m.agent && v.sector == m.sector) k.victim }) s)

/-- RETRY: the requester holds the request for 64 × 2^HINT FCLK (R222). -/
def runRetry (op : MsgOp) (m : Msg) (s : State) : State :=
  let mine := fun (q : HReq) => q.req == op && q.m.agent == m.agent && q.m.sector == m.sector
  match s.coh.refused.find? mine with
  | some q => updCoh (fun k => { k with refused := dropFirst mine k.refused, retries := k.retries ++ [q] })
      (take .retry m s)
  | none => updCoh (fun k => { k with retries := k.retries ++ [⟨op, m⟩] }) (take .retry m s)

/-- RETRY_RESEND: the wait expires and the oldest such request is sent again at the tide level it had reached (R222, R243). -/
def runRetryResend (agent sector : Nat) (s : State) : State :=
  match s.coh.retries.find? (fun q => q.m.agent == agent && q.m.sector == sector) with
  | some q => (resend q.req q.m (updCoh (fun k => { k with retries := dropFirst (fun x => x == q) k.retries }) s))
  | none => s

/-- HOME_PARK_RELEASE: the oldest parked request is served (R222). -/
def runHomeParkRelease (h : Half) (s : State) : State :=
  match (s.home.get h).park with
  | q :: rest => (homeServe h q (updHome h (fun k => { k with park := rest }) s))
  | [] => s

/-- LATE_RESPONSE: a response or WBN for an ended transaction is discarded and the agent sent SNPI, a WBN also WBACK (R219). -/
def runLateResponse (op : MsgOp) (m : Msg) (s0 : State) : State :=
  let s := lateResponse m.home { m with txid := 0 } (take op m s0)
  (if op = .wbn then send .wback (bare m m.agent) s else s)

end Sys2Proof.Machine
end

