-- ==== Sys2Proof/Machine/HarbourMode.lean ====
section
/-! DEFINITION. Package commands: mode, drain control, power, clocks, cores, paths and buckets (R34–R48, R72 classes
0x01xx to 0x03xx). -/
namespace Sys2Proof.Machine

/-! ### Class 0x01xx -/

def actModeGet (p : Pkt) (s : State) : State := done p 5 (res [(4, sysMode s), (1, (leader s).n)]) s

/-- Targets of R39 that a MODE_SET without a half may name from the current mode. -/
def modeEdge (s : State) (fromM : Bool) (t : Mode) : Bool :=
  match s.pkg.mode, t with
  | .hold, .bringup => fromM
  | .bringup, .hold => true
  | .bringup, .unified => true
  | .bringup, .mirrored => true
  | .bringup, .split => true
  | .unified, .drain => true
  | .mirrored, .drain => true
  | .split, .drain => true
  | .degraded, .drain => true
  | .degraded, .mirrored => true
  | .drain, .hold => true
  | .drain, .unified => true
  | .drain, .mirrored => true
  | .drain, .split => true
  | .drain, .degraded => true
  | .drain, .drain => true
  | .split, .split => true
  | a, b => a == b

/-- The half, when the byte names one. -/
def namedHalf (x : Nat) : Option Half := if x = 0 then some .a else if x = 1 then some .b else none

/-- Combination of mode, target, half and follow-on that R39, R46 and R47 define. -/
def modeDefined (s : State) (fromM : Bool) (t : Mode) (half follow : Nat) : Bool :=
  let f := modeOf follow
  let noFollow := follow == 0
  match namedHalf half, t with
  | some h, .drain => s.pkg.mode == .split && f == some .hold && s.pkg.hstate.get h != .held
  | some h, .split => s.pkg.mode == .split && noFollow && (s.pkg.hstate.get h == .held || (s.pkg.htrans.get h).isSome)
  | some _, .degraded => (s.pkg.mode == .mirrored || (s.pkg.mode == .drain && effMode s == .degraded)) && noFollow
  | some _, _ => false
  | none, .drain =>
    half == 0xFF && modeEdge s fromM .drain &&
      (f == some .hold || ((f == some .unified || f == some .mirrored || f == some .split) && f != some (effMode s)))
  | none, m =>
    half == 0xFF && noFollow && modeEdge s fromM m && m != .off &&
      !(s.pkg.mode == .drain && m == .degraded && effMode s != .degraded)

/-- The mode is not offered by the variant (R11). -/
def modeAbsent (s : State) (m : Mode) : Bool := s.cfg.part == .q0800a && (m == .mirrored || m == .split || m == .degraded)

/-- The stepping pairing forbids the mode (R550). -/
def modeForbidden (s : State) (m : Mode) : Bool :=
  let v := s.units.pairing.verdict
  s.units.pairing.valid && ((m == .mirrored && v != 0) || (m == .unified && v == 2 && s.cfg.part != .q0800a))

/-- Readiness R39 asks for a target reached from BRINGUP. -/
def targetReady (s : State) (t : Mode) : Bool :=
  s.units.pairing.valid && (halvesOf s).all (fun h => runReady s h) &&
  (t == .split || s.cfg.part == .q0800a || bwaterReady s) && (t != .mirrored || wouldCap s .a == wouldCap s .b)

/-- What a follow-on that re-initialises DRAM needs (R47). -/
def followReady (s : State) (f : Mode) : Bool :=
  (halvesOf s).all (fun h => s.pkg.hstate.get h == .running) && (f != .mirrored || capacity s .a == capacity s .b)

def modeNotReady (s : State) (t : Mode) (half follow : Nat) : Bool :=
  let oneHeld := s.pkg.mode == .split && (halvesOf s).any (fun h => s.pkg.hstate.get h == .held)
  let quiet := s.pkg.htrans.a.isNone && s.pkg.htrans.b.isNone
  match s.pkg.mode, t with
  | .hold, .bringup => !feedIn s || counts s 0 || !capValid s .a
  | .bringup, .hold => false
  | .bringup, .bringup => false
  | .bringup, _ => !targetReady s t
  | .drain, _ => false
  | _, .drain =>
    (namedHalf half).isNone && follow != 1 && ((quiet && !followReady s ((modeOf follow).getD .hold)) || (quiet && oneHeld))
  | _, _ => false

/-- PWRFAIL_WARN_N keeps its drain from being aborted (R526). -/
def pfwHolds (s : State) : Bool :=
  let p := s.units.pwr
  counts s 1 || !(p.feedA.ok && p.feedB.ok) || decide ((s.st64.get (leader s)).toNat < p.pfwEnd + 10000000)

/-- The MODE_SET aborts the drain in progress (R43). -/
def modeAborts (s : State) (t : Mode) (half : Nat) : Bool :=
  match s.pkg.mode, s.pkg.trans with
  | .drain, some x => decide (x.phase = 1) && t == x.source && half == 0xFF && !(x.follow == .hold && (x.cmd.isNone || x.pfw) && pfwHolds s)
  | _, _ => false

def modeBusy (s : State) (t : Mode) (half : Nat) : Bool :=
  if modeAborts s t half then false
  else match namedHalf half with
  | some h => s.pkg.trans.isSome || (s.pkg.htrans.get h).isSome || (t == .degraded && s.pkg.trans.isSome)
  | none => s.pkg.trans.isSome || s.pkg.htrans.a.isSome || s.pkg.htrans.b.isSome

/-- Target equal to the current mode, no half named: nothing to do. -/
def modeSame (s : State) (t : Mode) (half : Nat) : Bool := t == s.pkg.mode && half == 0xFF

/-- Checks 4 to 9 of a MODE_SET (R38, R39). -/
def modeChecks (s : State) (fromM : Bool) (target half follow : Nat) : List (Bool × Nat) :=
  match modeOf target with
  | none => [(true, stBadParam)]
  | some t =>
    let f := if t = .drain then (modeOf follow).getD .off else t
    [(modeAbsent s t || modeAbsent s f || (half == 1 && !hubPresent s .b), stUnitAbsent),
     (!(modeSame s t half && follow == 0) && !modeDefined s fromM t half follow, stBadParam),
     (!modeSame s t half && (modeForbidden s t || modeForbidden s f), stDenied),
     (!modeSame s t half && modeNotReady s t half follow, stNotReady),
     (modeBusy s t half, stBusy)]

/-- LCNs of the half a MODE_SET DEGRADED fences are not halted (R38). -/
def modeOpen (s : State) (t : Mode) (half : Nat) : Bool :=
  t == .degraded && s.pkg.mode == .mirrored && (lcnsOf s (halfOf half)).any (fun l => !lcnHalted s l)

/-- Start the transition a MODE_SET asks for; `g` is its command, none for that of SYS_AUTO. -/
def modeStart (g : Option Prog) (t : Mode) (half follow : Nat) (s : State) : State :=
  let tr : Trans := { source := s.pkg.mode, target := t, follow := t, half := namedHalf half, cmd := g, abortCmd := none, phase := 0, pfw := false }
  let run := fun (x : Trans) (u : State) => updPkg (fun p => { p with trans := some x, target := t }) u
  if modeAborts s t half then
    match s.pkg.trans with
    | some x => updPkg (fun p => { p with trans := some { x with abortCmd := g, phase := 3, pfw := false } }) s
    | none => s
  else match namedHalf half, t with
  | some h, .drain =>
    modeChangeAll [h] (ldgDrain h (setHState h .draining
      (updPkg (fun p => { p with htrans := p.htrans.set h (some { tr with phase := 1, follow := .hold }) }) s)))
  | some h, .split => updPkg (fun p => { p with htrans := p.htrans.set h (some tr) }) (startHalf h s)
  | _, .drain => enterDrain ((modeOf follow).getD .hold) g false (updPkg (fun p => { p with target := .drain }) s)
  | _, .mirrored => if s.pkg.mode = .degraded then run tr (startHalf (runHalf s).other s) else run tr s
  | _, _ => run tr s

def actModeSet (p : Pkt) (s : State) : State :=
  match modeOf (p.f 0 1) with
  | none => s
  | some t =>
    if modeSame s t (p.f 1 1) then done p 4 (sysMode s) (ack p s)
    else if modeOpen s t (p.f 1 1) then ended p stNotQuiesced 0 0 (ack p s)
    else
      let s1 := { s with prog := s.prog ++ [⟨p, false⟩] }
      ack p (modeStart (some ⟨p, false⟩) t (p.f 1 1) (p.f 2 1) s1)

/-- SYS_DRAIN_CTL of a hub (R42). -/
def drainCtl (s : State) (h : Half) : Nat :=
  putBits [(26, max 1 (s.pkg.rshare.get h)), (16, s.pkg.pfwLimit.get h), (0, s.pkg.limit.get h)]

def setDrainCtl (h : Half) (v : Nat) (s : State) : State :=
  updPkg (fun p => { p with rshare := p.rshare.set h (fld v 31 26), pfwLimit := p.pfwLimit.set h (fld v 25 16),
                            limit := p.limit.set h (fld v 9 0) }) s

def actDrainCtl (p : Pkt) (s : State) : State :=
  let s1 := setDrainCtl .b (p.f 0 4) (setDrainCtl .a (p.f 0 4) s)
  done p 4 (drainCtl s1 (leader s1)) s1

/-! ### Class 0x02xx -/

def actClkStep (p : Pkt) (s : State) : State :=
  let ls := (upTo (p.f 2 2)).map (fun i => p.f 0 2 + i)
  let s1 := ls.foldl (fun t l => updLcn l (fun k => { k with div := p.f 4 1 }) t) s
  done p 2 ((ls.filter (fun l => divInForce s1 l == p.f 4 1)).length) (ack p s1)

def clkChecks (s : State) (p : Pkt) : List (Bool × Nat) :=
  [(!(p.f 4 1 == 3 || p.f 4 1 == 4 || p.f 4 1 == 6 || p.f 4 1 == 12) || decide (lcnCount s < p.f 0 2 + p.f 2 2), stBadParam),
   ((upTo (p.f 2 2)).any (fun i => !halfServes s (lcnHalf s (p.f 0 2 + i))), stNotReady)]

def denyRun (s : State) (p : Pkt) : Bool :=
  (upTo (p.f 2 2)).any (fun i => decide (p.f 0 2 + i < lcnCount s) && otherHalf s p (lcnHalf s (p.f 0 2 + i)))

/-- States a type accepts (R538). -/
def powerAccepts (s : State) (u v : Nat) : Bool :=
  let c := (chOf s (unitHalf u) (unitInst u)).st
  match unitType u with
  | 0x01 => v == 0 || v == 3
  | 0x02 => v == 0 || v == 2
  | 0x03 => v == 0 || ((v == 2 || v == 3) && (c == .spare || c == .unmapped || c == .down))
  | 0x0B => v == 0 || v == 2 || v == 3
  | 0x09 => decide (v < 3)
  | 0x07 => v == 0 || v == 3
  | 0x08 => v == 0 || v == 3
  | 0x0A => v == 0
  | _ => decide (v < 4)

/-- The unit answers: its readiness bit is set, or it is off or has none to wait for (R519, R538). -/
def powerReady (s : State) (u : Nat) : Bool :=
  halfServes s (unitHalf u) &&
  (unitReady s u || pstateOf s u == 3 || unitType u == 3 || unitType u == 8 || unitType u == 0xA) &&
  !(unitDie u != 0xFF && ((dieOf s (unitDie u)).lost || (dieOf s (unitDie u)).heldOut))

/-- Work that ends a request NOT_QUIESCED (R432, R468, R538). -/
def powerOpen (s : State) (u v : Nat) : Bool :=
  let h := unitHalf u
  let i := unitInst u
  match unitType u with
  | 0x01 => v == 3 && (upTo 68).any (fun c => let x := coreState s (unitDie u * 128 + c); x == 1 || x == 3)
  | 0x06 => !(ldgOf s h).streams.isEmpty
  | 0x09 => v == 2 && ((cpeOf s h i).cur.isSome || (cssOf s h).ift.any (fun e => e.2.parked && e.2.cpe == i && e.2.live))
  | 0x07 => (upTo 64).any (fun f => inFlight s (fnKey (h.n * 2 + i) f))
  | 0x08 => let x := (ppOf s (h.n * 16 + i)).st; !(x == 0 || x == 3 || x == 4)
  | _ => false

/-- A core of the block is halted by invasive debug (R519). -/
def powerHalted (s : State) (u : Nat) : Bool :=
  unitType u == 1 && (upTo (lcnCount s)).any (fun l => (coreOf s l).isSome && lcnDie s l == unitDie u &&
    ((ctxOf s l 0).halt != 0 || (ctxOf s l 1).halt != 0))

def actPower (p : Pkt) (s : State) : State :=
  let u := p.f 0 4
  let v := p.f 4 1
  let pending := s.units.preq.any (fun r => r.unit == u)
  if v = pstateOf s u ∧ ¬ pending then done p 1 v (ack p s)
  else if v = 0 ∧ pstateOf s u ≠ 3 ∧ ¬ pending then done p 1 0 (setPstate u 0 (ack p s))
  else if v ≠ 0 ∧ powerHalted s u then ended p stBusy 0 0 s
  else if v ≠ 0 ∧ powerOpen s u v then ended p stNotQuiesced 0 0 (ack p s)
  else
    let sec := v != 0 && unitSecure s u
    let s1 := accept p (if sec then stDeferred else stAccepted) s
    let s2 := if unitType u = 2 then unitEmpty u v s1 else s1
    updUnits (fun x => { x with preq := x.preq ++ [⟨u, v, sec, some ⟨p, false⟩, false⟩] }) s2

def powerChecks (s : State) (p : Pkt) : List (Bool × Nat) :=
  let u := p.f 0 4
  unitChecks s [1, 2, 3, 4, 5, 6, 7, 8, 9, 0xA, 0xB] u ++
  [(decide (3 < p.f 4 1) || !powerAccepts s u (p.f 4 1), stBadParam), (!powerReady s u, stNotReady)]

def actPowerGet (p : Pkt) (s : State) : State := done p 1 (pstateOf s (p.f 0 4)) s

def actClkStatus (p : Pkt) (s : State) : State :=
  let w := s.units.pwr
  done p 12 (res [(1, b2n w.ref), (1, 0), (2, (s.fab.standby.filter (fun d => d < 16)).foldl (fun (n : Nat) d => n + 2 ^ d) 0),
    (4, w.xcnt), (4, w.icnt)]) s

def actTemp (p : Pkt) (s : State) : State :=
  done p 2 ((BitVec.ofInt 16 (dieOf s (unitDie (p.f 0 4))).temp).toNat) s

/-- Checks of a command that reads one ready die. -/
def dieChecks (s : State) (p : Pkt) : List (Bool × Nat) :=
  unitChecks s [1] (p.f 0 4) ++ [(!unitReady s (p.f 0 4), stNotReady)]

/-! ### Class 0x03xx -/

/-- SPARE_CORE stays in progress until the broker's move (CORE_MOVE) has run. -/
def actSpareCore (p : Pkt) (s : State) : State := accept p stAccepted s

def spareChecks (s : State) (p : Pkt) : List (Bool × Nat) :=
  [(decide (2 ≤ p.f 2 1) || decide (lcnCount s ≤ p.f 0 2), stBadParam), (!halfServes s (lcnHalf s (p.f 0 2)), stNotReady),
   ((coreOf s (p.f 0 2)).isNone, stNotReady)]

def actSpareGet (p : Pkt) (s : State) : State :=
  let f := freeSpares s (unitDie (p.f 0 4))
  done p 17 (res [(1, f.length), (7, 0), (9, f.foldl (fun (n : Nat) m => n + 2 ^ m) 0)]) s

def actCoreOffline (p : Pkt) (s : State) : State :=
  let l := p.f 0 2
  if (lcnOf s l).parked ∨ lcnHalted s l then done p 0 0 (coreOffline l (ack p s)) else ended p stNotQuiesced 0 0 (ack p s)

def actCoreOnline (p : Pkt) (s : State) : State :=
  let l := p.f 0 2
  if (coreOf s l).isSome then done p 0 0 (ack p s)
  else match coreOnline l (ack p s) with
  | some s1 => done p 0 0 s1
  | none => ended p stFailed 1 0 (ack p s)

/-- L3_LINE_DELETE of a slice that has deleted its 512 lines ends FAILED (DEDUCED, log 20). -/
def actL3Delete (p : Pkt) (s : State) : State :=
  let u := p.f 0 4
  if 512 ≤ (tget [] s.coh.deleted (unitDie u * 17 + unitInst u)).length then ended p stFailed 1 0 (ack p s)
  else done p 0 0 (deleteWay (unitDie u) (unitInst u) (p.f 4 2) (p.f 6 1) (ack p s))

def l3Checks (s : State) (p : Pkt) : List (Bool × Nat) :=
  unitChecks s [2] (p.f 0 4) ++ [(decide (1024 ≤ p.f 4 2) || decide (16 ≤ p.f 6 1), stBadParam), (!unitReady s (p.f 0 4), stNotReady)]

def memSpareChecks (s : State) (p : Pkt) : List (Bool × Nat) :=
  let u := p.f 0 4
  let m := s.mem.get (unitHalf u)
  let c := (chOf s (unitHalf u) (unitInst u)).st
  unitChecks s [3] u ++ [(c != .mapped && c != .copying, stBadParam), (!readyBit s (unitHalf u) rbHfab, stNotReady), (m.copy, stBusy)]

def actMemSpare (p : Pkt) (s : State) : State :=
  let u := p.f 0 4
  match freeSpare (s.mem.get (unitHalf u)) with
  | none => ended p stFailed 1 2 (ack p s)
  | some _ => startCopy (unitHalf u) (unitInst u) (some ⟨p, false⟩) (accept p stAccepted s)

/-- Taking the port offline leaves a subchannel with an open entry and no path (R72, R305). -/
def pathNeeded (s : State) (pp : Nat) : Bool :=
  [Half.a, Half.b].any (fun h => (upTo 2).any (fun k =>
    (cssOf s h).subs.any (fun e => e.1 / 2048 == k && (upTo 4).any (fun i => pathOf e.2 i == some pp) &&
      !((pathsUp s h e.2).any (fun i => pathOf e.2 i != some pp)) &&
      (cssOf s h).ift.any (fun x => decide (1 ≤ x.2.st ∧ x.2.st ≤ 5) && subKey h x.2.sub == e.1))))

def pathChecks (s : State) (p : Pkt) : List (Bool × Nat) :=
  let u := p.f 0 4
  let st := (ppOf s ((unitHalf u).n * 16 + unitInst u)).st
  unitChecks s [8] u ++
  [(decide (2 ≤ p.f 4 1) || st == 0 || st == 1, stBadParam), (!readyBit s (unitHalf u) (rbPath (unitInst u)), stNotReady)]

/-- PATH_SET (R304, R305). -/
def actPathSet (p : Pkt) (s : State) : State :=
  let pp := (unitHalf (p.f 0 4)).n * 16 + unitInst (p.f 0 4)
  let x := ppOf s pp
  if p.f 4 1 = 1 then
    if x.st = 3 then done p 2 0 (ack p s)
    else if pathNeeded s pp then ended p stNotQuiesced 0 0 (ack p s)
    else
      let s1 := updPp pp (fun y => { y with st := 3, cycle := 0, pathups := [] }) s
      let busy := [Half.a, Half.b].any (fun h => (cssOf s h).ift.any (fun e => e.2.live && e.2.pp == pp))
      if busy then updPp pp (fun y => { y with cmd := some ⟨p, false⟩ }) (accept p stAccepted s1)
      else done p 2 (subsMoved s1 pp) (ack p s1)
  else if x.st = 2 then done p 2 0 (ack p s)
  else if x.st = 3 ∧ x.linkUp then done p 2 0 (portOnline pp (ack p s))
  else
    updPp pp (fun y => { y with st := if y.st = 3 then 1 else y.st, cycle := 1, cmd := some ⟨p, false⟩ }) (accept p stAccepted s)

/-- Units BUCKET_SET names: a die with instance 0 or 1, a channel, a Stockpot (R71, R143, R148, R277). -/
def bucketChecks (s : State) (p : Pkt) : List (Bool × Nat) :=
  let u := p.f 0 4
  let v := if unitType u = 1 ∧ unitInst u = 1 then u - 1 else u
  unitChecks s [1, 3, 0xB] v ++ [(!unitReady s v, stNotReady)]

/-- BUCKET_SET; a threshold the count has reached already overflows the bucket (DEDUCED, log 20). -/
def actBucket (p : Pkt) (s : State) : State :=
  let u := p.f 0 4
  let s1 := updBucket u (fun b => { b with thresh := p.f 4 2, leak := p.f 6 2 }) s
  let b := bucketOf s1 u
  if bLim b.thresh ≤ b.count then
    let r := bucketHit u 0 (updBucket u (fun x => { x with count := bLim x.thresh - 1 }) s1)
    let m := r.1.mem.get (unitHalf u)
    done p 0 0 (if unitType u = 3 ∧ m.auto ∧ ¬ m.copy ∧ (chOf r.1 (unitHalf u) (unitInst u)).st = .mapped then
      startCopy (unitHalf u) (unitInst u) none r.1 else r.1)
  else done p 0 0 s1

def homeTimerChecks (s : State) (p : Pkt) : List (Bool × Nat) :=
  halfChecks s (p.f 0 1) ++ [(decide (p.f 4 4 < 10) || decide (10000 < p.f 4 4), stBadParam), (!readyBit s p.half rbHome, stNotReady)]

def actHomeTimer (p : Pkt) (s : State) : State := done p 0 0 (updHome p.half (fun h => { h with timer := p.f 4 4 }) s)

def noChecks (_ : State) (_ : Pkt) : List (Bool × Nat) := []

/-- The commands of these classes. -/
def cmdMode : Nat → Option Cmd
  | 0x0100 => some ⟨srcAll, 0, [], 0, 0, denyNone, noChecks, actModeGet⟩
  | 0x0101 => some ⟨[3, 6], 2, [(0, 1), (1, 1), (2, 1)], 0, 0, denyNone,
      fun s p => (decide (p.f 0 1 = 7 ∧ p.plen < 3) || decide (3 < p.plen), stBadParam) ::
        modeChecks s (p.src.kind == 6) (p.f 0 1) (p.f 1 1) (p.f 2 1), actModeSet⟩
  | 0x0102 => some ⟨[3, 6], 4, [(0, 4)], 0, 0, denyNone, fun _ p => [(fld (p.f 0 4) 15 10 != 0, stBadParam)], actDrainCtl⟩
  | 0x0200 => some ⟨[2, 3], 5, [(0, 2), (2, 2), (4, 1)], 0, 0, denyRun, clkChecks, actClkStep⟩
  | 0x0201 => some ⟨[2, 3], 5, [(0, 4), (4, 1)], 0, 0, denyUnit, powerChecks, actPower⟩
  | 0x0202 => some ⟨[2, 3, 6], 4, [(0, 4)], 0, 0, denyUnit,
      fun s p => unitChecks s [1, 2, 3, 4, 5, 6, 7, 8, 9, 0xA, 0xB] (p.f 0 4) ++ [(!halfServes s (unitHalf (p.f 0 4)), stNotReady)], actPowerGet⟩
  | 0x0203 => some ⟨[2, 3, 6], 0, [], 0, 0, denyNone, noChecks, actClkStatus⟩
  | 0x0204 => some ⟨[2, 3, 6], 4, [(0, 4)], 0, 0, denyUnit, dieChecks, actTemp⟩
  | 0x0300 => some ⟨[3], 3, [(0, 2), (2, 1)], 0, 0, denyLcn, spareChecks, actSpareCore⟩
  | 0x0301 => some ⟨[2, 3, 6], 4, [(0, 4)], 0, 0, denyUnit, dieChecks, actSpareGet⟩
  | 0x0302 => some ⟨[3], 2, [(0, 2)], 0, 0, denyLcn, fun s p => lcnChecks s (p.f 0 2), actCoreOffline⟩
  | 0x0303 => some ⟨[3], 2, [(0, 2)], 0, 0, denyLcn, fun s p => lcnChecks s (p.f 0 2), actCoreOnline⟩
  | 0x0304 => some ⟨[3], 7, [(0, 4), (4, 2), (6, 1)], 0, 0, denyUnit, l3Checks, actL3Delete⟩
  | 0x0305 => some ⟨[3], 4, [(0, 4)], 0, 0, denyUnit, memSpareChecks, actMemSpare⟩
  | 0x0306 => some ⟨[2, 3], 5, [(0, 4), (4, 1)], 0, 0, denyUnit, pathChecks, actPathSet⟩
  | 0x0307 => some ⟨[3], 8, [(0, 4), (4, 2), (6, 2)], 0, 0, denyUnit, bucketChecks, actBucket⟩
  | 0x0308 => some ⟨[3], 8, [(0, 1), (4, 4)], 0, 0, denyHalf, homeTimerChecks, actHomeTimer⟩
  | _ => none

end Sys2Proof.Machine
end

