-- ==== Sys2Proof/Machine/HarbourRun.lean ====
section
/-! DEFINITION. The Harbourmaster at work: fetching, fences, checks, timeouts, its rings and the management port (R54–R70),
SYS_AUTO (R548) and the latches of the log (R569). -/
namespace Sys2Proof.Machine

/-- The opcode table (R72). -/
def cmdOf (op : Nat) : Option Cmd :=
  match cmdMode op, cmdFn op, cmdKey op, cmdInfo op with
  | some c, _, _, _ => some c
  | _, some c, _, _ => some c
  | _, _, some c, _ => some c
  | _, _, _, x => x

/-- Opcodes the ROM-resident part serves (R61). -/
def romServes (op : Nat) : Bool :=
  op == 0x0100 || op == 0x0101 || op == 0x0700 || op == 0x0702 || op == 0x0800 || op == 0x0B00 || op == 0x0B01 || op == 0x0B02 || op == 0x0A00

/-- The first failing check of a packet, `dup` telling that its tag was in use: none when it may act (R65). -/
def verdict (s : State) (dup : Bool) (p : Pkt) : Option Nat :=
  if p.src.kind = 6 ∧ ¬ hmReady s p.src.half ∧ ¬ romServes p.op then some stNotReady
  else match cmdOf p.op with
  | none => some stBadOpcode
  | some c => firstFail (checksOf c s dup p)

/-- Result bytes of a check that failed: VF_FREEZE with a short buffer gives the length it needs (R72). -/
def failRes (s : State) (dup : Bool) (p : Pkt) (st : Nat) : Nat × Nat :=
  let formed : Bool := match cmdOf p.op with | some c => !badForm c p && !dup | none => false
  if p.op = 0x0404 ∧ st = stBadParam ∧ formed ∧ (fnOf s p.vf).created ∧ p.bufLen < freezeNeed s p then (4, freezeNeed s p) else (0, 0)

/-- COMMAND_CHECK and what follows: the action, or the final reply of the check that failed, with DUP when the tag was in
use and check 3 failed (R67). -/
def serve (dup : Bool) (p : Pkt) (s : State) : State :=
  match verdict s dup p with
  | some st => postReply { replyTo p st true (failRes s dup p st).1 (failRes s dup p st).2 with dup := dup && st == stBadParam } s
  | none =>
    match cmdOf p.op with
    | some c => c.act p s
    | none => s

/-! ### Fetching and fences (R61, R63, R67) -/

/-- Commands of a source in progress, those that wait for a fence among them; a stopped ring's are its no more (R59). -/
def progCount (s : State) (src : Src) : Nat :=
  (s.prog.filter (fun g => !g.mute && g.pkt.src == src)).length + (s.waitFence.filter (fun w => w.pkt.src == src)).length

/-- A command with FENCE of this source is in progress. -/
def fenceUp (s : State) (src : Src) : Bool := s.prog.any (fun g => !g.mute && g.pkt.src == src && bitOf g.pkt.flags 1)

/-- Replies of a source are held for room in its status ring or queue (R67, R450). -/
def heldUp (s : State) (src : Src) : Bool :=
  match src with
  | .ring h l => (ringOf s h l).held != []
  | .admin p => (qpOf s (adminQp p)).held != []
  | .func _ _ q => (qpOf s q).held != []
  | .mgmt _ => false

/-- A command of a source may start now: no fence is up, and one with FENCE finds every earlier final reply posted. -/
def mayStart (s : State) (p : Pkt) : Bool :=
  !fenceUp s p.src && !(bitOf p.flags 1 && (s.prog.any (fun g => !g.mute && g.pkt.src == p.src) || heldUp s p.src))

/-- The oldest packet of a source that waits for a fence. -/
def waiting? (s : State) (src : Src) : Option Waiting := s.waitFence.find? (fun w => w.pkt.src == src)

/-- It can start: what waits behind a fence needs that command's final reply to be posted, not held (R63). -/
def released (s : State) (src : Src) : Bool :=
  match waiting? s src with | some w => mayStart s w.pkt && !heldUp s src | none => false

/-- Start the oldest waiting packet of a source. -/
def releaseOne (src : Src) (s : State) : State :=
  match waiting? s src with
  | some w => if released s src then serve w.dup w.pkt { s with waitFence := dropFirst (fun q => q == w) s.waitFence } else s
  | none => s

/-- A packet has arrived: it starts, or waits for a fence. -/
def arrive (p : Pkt) (s : State) : State :=
  if (waiting? s p.src).isSome ∨ ¬ mayStart s p then { s with waitFence := s.waitFence ++ [⟨p, dupTag s p⟩] }
  else serve (dupTag s p) p s

/-- The slot a core ring's next packet stands in. -/
def ringHas (r : Ring) : Bool := r.en && !r.stopped && r.held == [] && !(r.crTail % ringSlots r == r.crHead % ringSlots r)

/-- The Harbourmaster may fetch from a source. -/
def canFetch (s : State) (src : Src) : Bool :=
  hmReady s src.half && !s.pkg.stopped && (waiting? s src).isNone && !fenceUp s src && !heldUp s src &&
  decide (progCount s src < 64) &&
  (match src with
    | .ring h l => ringHas (ringOf s h l)
    | .admin p => (qpFront s (adminQp p) 0).isSome
    | .func _ _ q => (qpFront s q 0).isSome
    | .mgmt _ => false)

/-- Fetch one packet of a core ring; an address error or poison stops the ring (R59). -/
def ringFetch (h : Half) (l : Nat) (s : State) : State :=
  let r := ringOf s h l
  match dmaRead s h (r.crBase.toNat % 2 ^ 52 / 64 * 64 + r.ix r.crHead * 64) 64 with
  | some (d, false) => arrive (pktOf (.ring h l) d) (updRing h l (fun x => { x with crHead := (x.crHead + 1) % ringSlots x }) s)
  | _ => ringStop h l s

def fetchOne (src : Src) (s : State) : State :=
  match src with
  | .ring h l => ringFetch h l s
  | .admin p => (match qpFront s (adminQp p) 0 with | some d => arrive (pktOf src d) (qpAccept (adminQp p) s) | none => s)
  | .func _ _ q => (match qpFront s q 0 with | some d => arrive (pktOf src d) (qpAccept q s) | none => s)
  | .mgmt _ => s

/-- Every ring and queue there is. -/
def srcList (s : State) : List Src :=
  (halvesOf s).flatMap (fun h => [.ring h 0, .ring h 1, .ring h 2, .mgmt h]) ++
  (s.att.qps.filter (fun e => e.2.typ == 0)).filterMap (fun e =>
    (qpOwner s e.1).map (fun o => if 1024 ≤ e.1 % 2048 then Src.admin o.1 else Src.func o.1 o.2 e.1))

def hasWork (s : State) (src : Src) : Bool := released s src || canFetch s src

/-- One turn: one command of each ring or queue (R67). -/
def turn (s : State) : State :=
  (srcList s).foldl (fun t src => if released t src then releaseOne src t else if canFetch t src then fetchOne src t else t) s

def turns : Nat → State → State
  | 0, s => s
  | n + 1, s => if (srcList s).any (hasWork s) then turns n (turn s) else s

/-- The Harbourmaster serves what waits, at most 64 commands of each ring or queue in one step. -/
def harbourRun (s : State) : State := turns 64 s

/-! ### Core rings (R54–R59, R67) -/

/-- Post held replies as room allows. -/
def postHeldN (h : Half) (l : Nat) : Nat → State → State
  | 0, s => s
  | n + 1, s =>
    let r := ringOf s h l
    match r.held with
    | [] => s
    | x :: t => if srFull r ∨ ¬ r.en then s else postHeldN h l n (ringWrite h l x (updRing h l (fun k => { k with held := t }) s))

/-- STATUS_REPLY_POST (R67). -/
def runReplyPost (h : Half) (l : Nat) (s : State) : State := harbourRun (postHeldN h (l % 3) (ringOf s h (l % 3)).held.length s)

/-- SYS_CR_TAIL written; the Harbourmaster fetches after the store (`harbourRun`). -/
def setCrTail (h : Half) (l v : Nat) (s : State) : State :=
  if ¬ halfOn s h then s else updRing h (l % 3) (fun r => { r with crTail := v % ringSlots r }) s

/-- SYS_CR_TAIL_DOORBELL. -/
def runCrTail (h : Half) (l v : Nat) (s : State) : State := harbourRun (setCrTail h l v s)

/-- SYS_SR_HEAD written: held replies that now fit are posted. -/
def setSrHead (h : Half) (l v : Nat) (s : State) : State :=
  if ¬ halfOn s h then s
  else
    let s1 := updRing h (l % 3) (fun r => { r with srHead := v % ringSlots r }) s
    postHeldN h (l % 3) (ringOf s1 h (l % 3)).held.length s1

def runSrHead (h : Half) (l v : Nat) (s : State) : State := harbourRun (setSrHead h l v s)

/-- RING_STOP: a fetch or post got an address error or poison. -/
def runRingStop (h : Half) (l : Nat) (s : State) : State := if (ringOf s h (l % 3)).en then ringStop h (l % 3) s else s

/-- 1 written to STOPPED. -/
def runStoppedClear (h : Half) (l : Nat) (s : State) : State := updRing h (l % 3) (fun r => { r with stopped := false }) s

/-- SYS_CR_CTL written (R56): EN set fetches when STOPPED is clear. -/
def setCrCtl (h : Half) (l v : Nat) (s : State) : State :=
  updRing h l (fun r => { r with
    en := bitOf v 31, stopped := r.stopped && !bitOf v 30, vector := fld v 27 20, size := fld v 19 16, lcn := fld v 9 0 }) s

/-! ### Timeouts and the end of long work (R66, R69) -/

/-- What a timeout undoes: a generated key is not kept, a freeze lets the function go on. -/
def timeoutUndo (g : Prog) (s : State) : State :=
  match g.pkt.op with
  | 0x0601 => setSlot g.pkt.src.half (g.pkt.f 0 2) KSlot.empty s
  | 0x0403 => updFn g.pkt.vf (fun f => { f with quiesceCmd := none, quiesced := true }) s
  | 0x0404 => resumeFn g.pkt.vf (unfreeze g.pkt.vf (updFn g.pkt.vf (fun f => { f with freezeCmd := none }) s))
  | _ => s

/-- COMMAND_TIMEOUT: TIMEOUT with LOGGED, and the COMMAND entry with the first 24 bytes of the copy. -/
def runCommandTimeout (src : Src) (tag : Nat) (s : State) : State :=
  match s.prog.find? (fun g => g.pkt.src == src && g.pkt.tag == tag) with
  | none => s
  | some g =>
    let s1 := timeoutUndo g (logNow src.half (rpt (hmUnit src.half) 2 clsNote 0x0906 (ofBytes ((pktBytes g.pkt).take 24))) (unprog g s))
    harbourRun (if g.mute then s1 else postReply { replyTo g.pkt stTimeout true 0 0 with logged := true } s1)

/-- The scrub of a mapped channel with the errors it met: sector of the channel and 1 corrected or 2 uncorrectable. -/
def scrubEnd (g : Prog) (errs : List (Nat × Nat)) (s : State) : State :=
  let u := g.pkt.f 0 4
  let h := unitHalf u
  let m := s.mem.get h
  let n := fun (k : Nat) => (errs.filter (fun e => e.2 == k)).length
  let s1 := match slotOf m (unitInst u) with
    | some sl => errs.foldl (fun t e => memErr h (slotLine m sl (e.1 % chSectors m / 4) + e.1 % 4 * 64) e.2 t) s
    | none => s
  finish g stDone 8 (res [(4, n 1), (4, n 2)]) s1

def coreTestEnd (g : Prog) (pass : Bool) (s : State) : State :=
  finish g stDone 1 (b2n pass) (if pass then s else addFailed (testCore s (g.pkt.f 0 2)) s)

/-- ASYNC_COMMAND_COMPLETE: the work of KEY_GENERATE, DIAG_SCRUB or DIAG_CORE_TEST ends with its outcome. -/
def runAsyncComplete (src : Src) (tag : Nat) (pass : Bool) (errs : List (Nat × Nat)) (s : State) : State :=
  match s.prog.find? (fun g => g.pkt.src == src && g.pkt.tag == tag) with
  | none => s
  | some g =>
    harbourRun (match g.pkt.op with
      | 0x0601 => generateEnd g s
      | 0x0A01 => scrubEnd g errs s
      | 0x0A03 => coreTestEnd g pass s
      | _ => s)

/-! ### The management port (R60, R61, R494) -/

/-- The target answers: its hub is there and the hold domain is powered. -/
def i3cOn (s : State) (h : Half) : Bool := hubPresent s h && s.pkg.mode != .off

/-- What the target answers on the bus. -/
def i3cReply (h : Half) (ack : Bool) (d : List Byte) (s : State) : State := updI3c h (fun x => { x with ack := ack, out := d }) s

/-- A packet from the management port; one that would exceed 64 in progress is NACKed (log 20). -/
def mgmtPacket (p : Pkt) (s : State) : State :=
  match p.src with
  | .mgmt h =>
    if ¬ i3cOn s h then s
    else if 64 ≤ progCount s p.src then i3cReply h false [] s
    else harbourRun (arrive p (i3cReply h true [] s))
  | _ => s

/-- I3C_PRIVATE_WRITE: exactly 64 bytes. -/
def runI3cWrite (h : Half) (d : List Byte) (s : State) : State :=
  if ¬ i3cOn s h then s
  else if d.length ≠ 64 then i3cReply h false [] s
  else mgmtPacket (pktOf (.mgmt h) d) s

/-- I3C_PRIVATE_READ: the oldest unread reply; PHASE has no meaning on the port and reads 0 (log 20). -/
def runI3cRead (h : Half) (s : State) : State :=
  if ¬ i3cOn s h then s
  else match (s.i3c.get h).fifo with
  | [] => i3cReply h false [] s
  | r :: t => i3cReply h true (replyBytes r false) (updI3c h (fun x => { x with fifo := t }) s)

def setDyn (h : Half) (a : Option Nat) (s : State) : State := if i3cOn s h then i3cReply h true [] (updI3c h (fun x => { x with dyn := a }) s) else s

/-- ENTDAA gives the target of a hub a dynamic address unless it has one. -/
def runEntdaa (h : Half) (a : Nat) (s : State) : State := if (s.i3c.get h).dyn.isSome then s else setDyn h (some (a % 128)) s

/-- SETDASA by static address: 0x2C Hub A, 0x2D Hub B. -/
def runSetdasa (static a : Nat) (s : State) : State :=
  if static = 0x2C then (if (s.i3c.get .a).dyn.isSome then s else setDyn .a (some (a % 128)) s)
  else if static = 0x2D then (if (s.i3c.get .b).dyn.isSome then s else setDyn .b (some (a % 128)) s)
  else s

def runRstdaa (s : State) : State := setDyn .b none (setDyn .a none s)

/-- GETPID, GETBCR, GETDCR and GETSTATUS: bytes whose values the spec does not give (log 3). -/
def runI3cGet (h : Half) (n : Nat) (s : State) : State :=
  if i3cOn s h then i3cReply h true (toBytes n (freeVal s)) (drawn s) else s

/-- ENEC and DISEC: bit 0 of the event byte is the in-band interrupt (log 10). -/
def runEnec (h : Half) (ev : Nat) (on : Bool) (s : State) : State :=
  if i3cOn s h then i3cReply h true [] (if bitOf ev 0 then updI3c h (fun x => { x with ibiEn := on }) s else s) else s

/-- The Lighthouse answers on the bus while its image cache lacks an image (R494). -/
def bundleOn (s : State) (h : Half) : Bool := i3cOn s h && !cacheFull s h

def runBundle (h : Half) (d : List Byte) (s : State) : State :=
  if ¬ bundleOn s h then s
  else if 256 < d.length then i3cReply h false [] s
  else runBundleWrite h d (i3cReply h true [] s)

def runBundleRead (h : Half) (s : State) : State :=
  if bundleOn s h then i3cReply h true [BitVec.ofNat 8 (lhOf s h).bundleAns] s else s

/-! ### SYS_AUTO (R548) -/

/-- What the MODE_SET of SYS_AUTO waits for. -/
def autoReady (s : State) (t : Nat) : Bool :=
  (halvesOf s).all (fun h => readyBit s h rbHm && readyBit s h rbHfab &&
    (upTo 12).all (fun c => (dimmOf s h c).kind == 0 || ((chOf s h c).st != .training && (chOf s h c).st != .zeroing))) &&
  (upTo 16).all (fun d => !diePresent s d || (dieOf s d).ready || (dieOf s d).lost || (dieOf s d).heldOut) &&
  (t == 5 || s.cfg.part == .q0800a || bwaterReady s) && s.units.pairing.valid

/-- SYS_AUTO_MODE_SET; `waited` when WAIT has passed. -/
def runSysAuto (waited : Bool) (s : State) : State :=
  let a := s.units.auto.get (leader s)
  let t := a.target
  if s.pkg.mode ≠ .bringup ∨ ¬ a.en ∨ ¬ (t = 3 ∨ t = 4 ∨ t = 5) ∨ s.units.autoDone ∨ ¬ (waited ∨ autoReady s t) then s
  else
    let s1 := updUnits (fun u => { u with autoDone := true }) s
    match firstFail (modeChecks s true t 0xFF 0), modeOf t with
    | none, some m => modeStart none m 0xFF 0 s1
    | some st, _ => modeLog .bringup .bringup st s1
    | _, _ => s1

/-! ### Log latches (R569) -/

/-- The log of a hub may write: 20 ns after its last write, 1 µs in HOLD. -/
def logMay (s : State) (h : Half) : Bool :=
  match (s.log.get h).lastWrite with
  | none => true
  | some t => decide (t + (if s.pkg.mode = .hold then 1000 else 20) ≤ (s.st64.get h).toNat)

def logWrite (h : Half) (x : Latched) (s : State) : State :=
  logAt h x.ts x.rpt (updLog h (fun l => { l with lastWrite := some (s.st64.get h).toNat }) s)

/-- The latch of a source has no room for a report of this class. -/
def latchFull (l : Log) (r : Report) : Bool :=
  let hi := decide (0 < clsRank r.cls)
  let n := (l.latches.filter (fun x => x.rpt.source == r.source && (decide (0 < clsRank x.rpt.cls) == hi))).length
  if hi then decide (4 ≤ n) else decide (1 ≤ n)

/-- An error of an attach port enters AER of PF0 by its status bit, correctable when its class is CE; an Uncorrectable Internal
Error takes the link down and resets every function (R463, R464). -/
def portError (p bit : Nat) (ce : Bool) (s : State) : State :=
  if ¬ portPresent s p then s
  else if ce then aerCor (p * 64) bit s
  else if bit = 22 then runHotReset p true (aerSet (p * 64) bit s)
  else aerSet (p * 64) bit s

/-- What the unit that reports does with its error: an attach port (R463), or a hash lane that goes out of service (R428). -/
def reportAct (h : Half) (r : Report) (s : State) : State :=
  if r.code = 0x0A01 then portError (h.n * 2 + r.source % 2) (r.data / 256 % 256) (r.cls == clsCE) s
  else if r.code = 0x0701 ∧ r.source / 256 % 256 = 6 then updLdg h (fun l => { l with lanes := l.lanes - 1 }) s
  else s

/-- The report of LOG_REPORT is written at once when the log is free, else latched, or dropped when the latch is full. -/
def takeReport (h : Half) (r : Report) (s : State) : State :=
  let l := s.log.get h
  let x : Latched := ⟨(s.st64.get h).toNat, r⟩
  if ¬ hubPresent s h ∨ s.pkg.mode = .off then s
  else if l.latches = [] ∧ logMay s h then logWrite h x s
  else if latchFull l r then updLog h (fun k => logDrop k r.source) s
  else updLog h (fun k => { k with latches := k.latches ++ [x] }) s

/-- LOG_REPORT (R464, R569). -/
def runLogReport (h : Half) (r : Report) (s : State) : State := takeReport h r (reportAct h r s)

/-- The log serves one latch, UF and UC first. -/
def logServe (h : Half) (s : State) : State :=
  if ¬ logMay s h then s
  else
    let ls := (s.log.get h).latches
    match (match ls.find? (fun x => decide (0 < clsRank x.rpt.cls)) with | some x => some x | none => ls.head?) with
    | none => s
    | some x => logWrite h x (updLog h (fun k => { k with latches := dropFirst (fun y => y == x) k.latches }) s)

end Sys2Proof.Machine
end

