-- ==== Sys2Proof/Machine/RegRead.lean ====
section
/-! DEFINITION. What a 32-bit register reads (R31–R34 and the register rules of every unit). A 64-bit register is two
words, the lower one at the lower address (R31). -/
namespace Sys2Proof.Machine

/-- The word of a 64-bit register that an offset names. -/
def w64 (v off : Nat) : Nat := if off % 8 = 0 then v % 2 ^ 32 else v / 2 ^ 32 % 2 ^ 32

/-- A number whose bits are the elements of a list. -/
def maskOf (l : List Nat) : Nat := l.foldl (fun (n : Nat) i => n.lor (2 ^ i)) 0

/-! ### Harbourmaster block (R34, R42, R54–R57, R542, R543, R548) -/

def autoReg (a : Auto) : Nat := putBits [(31, b2n a.en), (24, a.target), (0, a.wait)]

/-- SYS_READYn. -/
def readyWord (s : State) (h : Half) (n : Nat) : Nat :=
  if n = 4 then maskOf ((upTo 24).filter (fun j => (rytOf s (rytKey (16 + h.n) j)).st == .up))
  else if 4 < n then 0
  else
    let base := maskOf ((upTo 32).filter (fun b => readyBit s h (n * 32 + b)))
    if n ≠ 0 then base
    else base + putBits [(4, b2n (bwaterReady s)),
      (8, maskOf ((upTo 12).filter (fun c => unitReady s (chUnit h c)))),
      (20, maskOf ((upTo 8).filter (fun k => (dieOf s (h.n * 8 + k)).ready)))]

def crCtl (r : Ring) : Nat := putBits [(31, b2n r.en), (30, b2n r.stopped), (20, r.vector), (16, r.size), (0, r.lcn)]

def ringReg (r : Ring) (o : Nat) : Nat :=
  if o < 8 then w64 r.crBase.toNat o
  else if o = 8 then crCtl r
  else if o = 0xC then r.ix r.crTail
  else if o = 0x10 then r.ix r.crHead
  else if 0x18 ≤ o ∧ o < 0x20 then w64 r.srBase.toNat o
  else if o = 0x20 then r.ix r.srHead
  else if o = 0x24 then r.ix r.srTail
  else 0

def sysRead (s : State) (h : Half) (o : Nat) : Nat :=
  if o = 0 then sysMode s
  else if o = 8 then drainCtl s h
  else if o = 0xC then autoReg (s.units.auto.get h)
  else if 0x100 ≤ o ∧ o < 0x120 then readyWord s h ((o - 0x100) / 4)
  else if 0x10000 ≤ o ∧ o < 0x13000 then ringReg (ringOf s h ((o - 0x10000) / 0x1000)) (o % 0x1000)
  else 0

/-! ### Lighthouse block (R481–R485, R510) -/

def lhStat (s : State) (h : Half) : Nat :=
  let l := lhOf s h
  putBits [(28, if l.otp then l.lc else 0), (27, b2n (readyBit s h rbLh)), (26, b2n l.hmok), (25, b2n l.cfwok), (24, b2n l.fmtok),
    (23, b2n l.nvmok), (22, b2n (l.otp && !cacheFull s h)), (0, (l.slots.filter (fun e => e.2.st == 1)).length)]

def lhRead (s : State) (h : Half) (o : Nat) : Nat :=
  let l := lhOf s h
  if o = 0 then lhStat s h
  else if 8 ≤ o ∧ o < 0x10 then w64 (s.st64.get h).toNat o
  else if o = 0x10 then l.smask * 2 ^ 16 + l.nmask
  else if o = 0x18 then lhDbgReg s h
  else if o = 0x100 then putBits [(31, b2n l.mbIen), (20, l.mbVec), (0, l.mbLcn)]
  else if o = 0x108 then maskOf l.inpend
  else if o = 0x10C then maskOf l.outpend
  else if 0x1000 ≤ o ∧ o < 0x2000 then fieldAt (tget [] l.mbIn ((o - 0x1000) / 256)) (o % 256) 4
  else if 0x2000 ≤ o ∧ o < 0x3000 then fieldAt (tget [] l.mbOut ((o - 0x2000) / 256)) (o % 256) 4
  else 0

/-! ### Clocks, supplies and sideband (R524, R532, R534, R624) -/

def clkStat (s : State) : Nat :=
  let p := s.units.pwr
  putBits [(31, b2n p.ref), (30, b2n p.lock), (29, b2n p.xok), (28, b2n p.irok), (16, p.losses),
    (0, maskOf (s.fab.standby.filter (fun d => decide (d < 16))))]

def pmuSupply (s : State) : Nat :=
  let p := s.units.pwr
  putBits [(31, b2n p.feedA.ok), (30, b2n p.feedB.ok), (29, b2n p.hOk), (28, b2n p.onHold), (27, b2n (p.active.contains 1)),
    (26, b2n (masked s 1)), (17, b2n p.feedA.sticky), (16, b2n p.feedB.sticky), (8, p.feedA.losses), (0, p.feedB.losses)]

def pmuSideband (s : State) : Nat :=
  let p := s.units.pwr
  putBits [(31, b2n p.svc), (24, maskOf p.chat), (20, maskOf p.stuck), (16, maskOf p.active), (0, p.masks)]

/-- CLK_DIVn: the dividers in force of eight LCNs (R534). -/
def clkDiv (s : State) (n : Nat) : Nat :=
  putBits ((upTo 8).map (fun k => (4 * k, if n * 8 + k < lcnCount s then divInForce s (n * 8 + k) else 0)))

def clkRead (s : State) (o : Nat) : Nat :=
  if o = 0 then clkStat s
  else if 8 ≤ o ∧ o < 0x10 then w64 (s.units.pwr.xcnt * 2 ^ 32 + s.units.pwr.icnt) o
  else if 0x800 ≤ o ∧ o < 0xA00 then clkDiv s ((o - 0x800) / 4)
  else if o = 0x1000 then pmuSupply s
  else if o = 0x1008 then pmuSideband s
  else 0

/-! ### Event log and counter collector (R563, R574, R589) -/

def logCtl (l : Log) : Nat :=
  putBits [(31, b2n l.ufEn), (30, b2n l.ucEn), (29, b2n l.crEn), (28, b2n l.ceEn), (20, l.vector), (19, b2n l.ibi), (0, l.lcn)]

def logStat (l : Log) : Nat :=
  let gen := l.entries.filter (fun e => !e.rsv)
  putBits [(31, b2n (decide ((gen.filter (fun e => decide (0 < clsRank e.cls))).length = 7936))),
    (30, b2n (l.entries.any (fun e => e.cls == clsUF))), (14, (l.entries.filter (fun e => e.rsv)).length), (0, l.entries.length)]

def logRegRead (s : State) (h : Half) (o : Nat) : Nat :=
  let l := s.log.get h
  if o = 0 then logCtl l else if o = 8 then logStat l else if o = 0x10 then l.lostTotal % 2 ^ 32 else 0

/-- BUSY is 1 only inside a freeze pulse, which is one step here (log 21). -/
def collRead (s : State) (h : Half) (o : Nat) : Nat :=
  let c := collOf s h
  if ¬ readyBit s h rbPctc then 0
  else if o < 8 then w64 (putBits [(63, b2n c.run), (32, c.next / 64), (0, c.seq % 2 ^ 32)]) o
  else if o = 8 then c.miss
  else 0

/-! ### Fabric (R227, R228, R231, R256) -/

def rytStat (r : Ryt) : Nat :=
  putBits [(28, r.st.n), (26, r.width), (24, r.pwidth), (23, b2n r.clkmode), (20, r.spares), (8, r.retrains), (0, r.attempt)]

def rytRead (s : State) (k o : Nat) : Nat :=
  if ¬ rytPresent s k then 0
  else if o = 0 then rytStat (rytOf s k)
  else if 8 ≤ o ∧ o < 0x10 then w64 (rytOf s k).lanes o
  else 0

def mntRead (x : Maint) (o : Nat) : Nat :=
  if o < 8 then w64 x.addr o
  else if o = 8 then putBits [(31, b2n x.busy), (30, b2n x.err), (28, x.op), (0, x.count)]
  else 0

def fabRead (s : State) (h : Half) (o : Nat) : Nat :=
  if 0x100000 ≤ o ∧ o < 0x118000 then
    (if readyBit s h rbHfab then rytRead s (rytKey (16 + h.n) ((o - 0x100000) / 0x1000)) (o % 0x1000) else 0)
  else if o = 0x800000 then (if readyBit s h rbHome then (s.home.get h).timer else 200)
  else if o = 0x800004 then
    (if readyBit s h rbHome then putBits [(13, (s.home.get h).bcast.length), (0, (s.home.get h).trans.length)] else 0)
  else if 0x801000 ≤ o ∧ o < 0x801100 then
    (if readyBit s h rbHfab then mntRead (maintOf s h ((o - 0x801000) / 16)) (o % 16) else 0)
  else 0

/-! ### Memory controllers (R278, R282, R290, R292–R294) -/

/-- MEM_CH_STAT; SLOT is the channel's place in the interleave set, 0xF outside it (R290, R291). -/
def chStat (m : Mem) (n : Nat) (c : Chan) : Nat :=
  putBits [(28, c.st.n), (26, c.speed), (24, c.kind), (22, c.dpc), (20, c.rankb), (19, b2n c.row17), (18, b2n c.hold),
    (17, b2n (c.throttled.any (fun t => decide (0 < t.level)))), (8, c.retrains), (4, (slotOf m n).getD 15)]

/-- A channel's registers but MEM_CH_STAT read their reset values before its readiness bit sets (R546). -/
def chRead (s : State) (h : Half) (c o : Nat) : Nat :=
  let x := chOf s h c
  let y := if unitReady s (chUnit h c) then x else Chan.reset
  let b := if unitReady s (chUnit h c) then bucketOf s (chUnit h c) else Bucket.reset
  if o = 0 then chStat (s.mem.get h) c x
  else if 8 ≤ o ∧ o < 0x10 then w64 (putBits [(48, b.leak), (32, b.thresh), (16, b.ovf), (0, b.count)]) o
  else if 0x10 ≤ o ∧ o < 0x18 then w64 (putBits [(63, b2n y.ueV), (62, b2n y.ueCmd), (61, b2n y.ueMore), (0, y.uePa % 2 ^ 52 / 64 * 64)]) o
  else if 0x18 ≤ o ∧ o < 0x20 then
    w64 (putBits [(63, b2n y.rhEn), (32, y.rhThresh), (20, y.rhSrc), (16, y.rhPort), (12, rhLevel y), (0, y.rhDetect)]) o
  else 0

def memHubCfg (m : Mem) : Nat :=
  putBits [(31, b2n m.fixed), (30, b2n m.spareEn), (29, b2n m.auto),
    (28, b2n (decide (m.spareCh < 12) && (tget Chan.reset m.chans m.spareCh).st == .spare)), (24, m.spareCh),
    (20, if m.fixed then m.map.length else 0), (14, if m.fixed then m.kshift else 0), (0, m.scrubH)]

def chMap (m : Mem) : Nat := putBits ((upTo 12).map (fun i => (4 * i, m.map.getD i 15)))

def memRead (s : State) (h : Half) (o : Nat) : Nat :=
  let m := if readyBit s h rbHfab then s.mem.get h else Mem.reset
  if o < 0xC00000 then chRead s h (o / 0x100000) (o % 0x100000)
  else if o = 0xC00000 then memHubCfg m
  else if 0xC00008 ≤ o ∧ o < 0xC00010 then w64 (chMap m) o
  else if 0xC00010 ≤ o ∧ o < 0xC00018 then
    w64 (putBits [(63, b2n m.copy), (52, m.copySrc), (48, m.copyDst), (8, m.copyPtr % 2 ^ 31)]) o
  else 0

/-! ### Channel subsystem (R295–R304, R319, R320, R327, R348, R349) -/

/-- Hub whose channel subsystem answers for hub `h`: the survivor once it adopted a lost hub's (R336). -/
def cssServer (s : State) (h : Half) : Half :=
  if !readyBit s h rbCss && readyBit s h.other rbCss && (cssOf s h.other).adopted then h.other else h

/-- Whether the registers of hub `h`'s subchannels and queues answer. -/
def cssAnswers (s : State) (h : Half) : Bool := readyBit s (cssServer s h) rbCss

/-- CSS_STAT (R348). -/
def cssStat (s : State) (h : Half) : Nat :=
  putBits [(31, b2n (readyBit s h rbCss)), (30, b2n (splitIft s)), (15, ((cssOf s h).ift.filter (fun e => e.2.st != 0)).length % 2 ^ 15),
           (0, ((cssOf s h).ift.filter (fun e => e.2.st == 10)).length)]

def schCfg (b : Sub) : Nat :=
  putBits [(63, b2n b.v), (62, b2n b.en), (60, b.otype), (48, b.owner), (39, b.cq), (35, b.image), (16, b.tmo)]

/-- CSS_SCH_STAT (R301) of subchannel `n` (with its hub bit 11). -/
def schStat (s : State) (h : Half) (n : Nat) : Nat :=
  let b := subOf s h n
  putBits [(60, subState s h n), (56, (queuedOf s h n).length), (52, maskOf (pathsUp s h b)),
    (0, match activeOf s h n with | some e => e.2.opno | none => 0)]

def subRead (s : State) (h : Half) (n o : Nat) : Nat :=
  let g := cssServer s h
  let b := subOf s g n
  if o < 8 then w64 (schCfg b) o
  else if o < 0x10 then w64 b.path o
  else if o < 0x18 then w64 b.fence o
  else if o < 0x20 then w64 b.dev o
  else if o < 0x28 then w64 b.sense o
  else if o < 0x30 then w64 (schStat s g n) o
  else 0

def cqCtl (q : Cq) : Nat :=
  putBits [(31, b2n q.en), (30, b2n q.stopped), (28, q.imode), (20, q.vector), (16, q.size), (0, q.target)]

def cqRead (q : Cq) (o : Nat) : Nat :=
  if o < 8 then w64 q.base o
  else if o = 8 then cqCtl q
  else if o = 0xC then q.head
  else if o = 0x10 then q.tail
  else if o = 0x14 then q.otype * 2 ^ 12 + q.owner
  else 0

def ppStat (p : PathPort) : Nat := putBits [(28, p.st), (25, p.gen), (23, p.width), (8, p.fails), (0, p.urs)]

def cpeStat (s : State) (h : Half) (c : Nat) : Nat :=
  let k := cpeOf s h c
  putBits [(31, b2n k.cur.isSome), (16, ((cssOf s h).ift.filter (fun e => e.2.parked && e.2.cpe == c)).length), (0, k.faults)]

/-- Key in the table of completion queues: another hub's adopted queues follow its own. -/
def cqIndex (s : State) (h : Half) (q : Nat) : Nat := if cssServer s h = h then q else 512 + q

def cssRead (s : State) (h : Half) (o : Nat) : Nat :=
  let on := cssAnswers s h
  if o = 0 then (if readyBit s h rbCss then cssStat s h else 0)
  else if 8 ≤ o ∧ o < 0x10 then
    (if readyBit s h rbCss then w64 (putBits [(24, (cssOf s h).imgBase), (0, maskOf (cssOf s h).loaded)]) o else 0)
  else if 0x10000 ≤ o ∧ o < 0x14000 then
    (if on then cqRead (cqOf s (cssServer s h) (cqIndex s h ((o - 0x10000) / 32))) (o % 32) else 0)
  else if 0x100000 ≤ o ∧ o < 0x120000 then
    (if on then subRead s h (h.n * 2048 + (o - 0x100000) / 64) (o % 64) else if o % 64 = 0 then w64 (schCfg Sub.reset) o else 0)
  else if 0x200000 ≤ o ∧ o < 0x201000 then
    (if readyBit s h (rbPath ((o - 0x200000) / 256)) ∧ o % 256 = 0 then ppStat (ppOf s (h.n * 16 + (o - 0x200000) / 256)) else 0)
  else if 0x300000 ≤ o ∧ o < 0x302000 then
    (if readyBit s h (rbCpe ((o - 0x300000) / 256)) ∧ o % 256 = 0 then cpeStat s h ((o - 0x300000) / 256) else 0)
  else if 0x1000000 ≤ o ∧ o < 0x1100000 then
    (if readyBit s h rbCss then fieldAt (iftBytes (iftOf s h ((o - 0x1000000) / 64))) (o % 64) 4 else 0)
  else 0

/-! ### Seal engines, movers, ledger (R352–R356, R385, R387, R398, R433) -/

def sealCtl (g : SRing) : Nat :=
  putBits [(31, b2n g.en), (30, b2n g.stopped), (28, g.imode), (20, g.vector), (16, g.size), (12, g.eng), (0, g.target)]

/-- A seal ring's registers as the normal world, or with `sec` the secure world, sees them (R355). -/
def sealRingRead (s : State) (h : Half) (sec : Bool) (r o : Nat) : Nat :=
  let g := sringOf s h r
  if g.otype = 2 ∧ ¬ sec then 0
  else if o < 8 then w64 g.base o
  else if o < 0x10 then w64 g.cbase o
  else if o = 0x10 then sealCtl g
  else if o = 0x14 then g.otype * 2 ^ 12 + g.owner
  else if o = 0x18 then g.tail % slots8 g.size
  else if o = 0x1C then g.head % slots8 g.size
  else if o = 0x20 then g.chead % slots8 g.size
  else if o = 0x24 then g.ctail % slots8 g.size
  else if 0x28 ≤ o ∧ o < 0x30 then w64 (g.last * 2 ^ 32 + g.first) o
  else if o = 0x30 then putBits [(28, g.bound), (25, ringJobs s h r)]
  else 0

/-- SEAL_ENG_STAT and SEAL_ENG_ERR (R385). -/
def sealEngRead (s : State) (h : Half) (e o : Nat) : Nat :=
  let g := sengOf s h e
  let cur := match g.cur with
    | none => 0x1FF
    | some j => if (sringOf s h j.ring).otype = 2 then 0x1FE else j.ring
  if o = 0 then putBits [(31, b2n g.cur.isSome), (16, (boundRings s h e).length), (0, cur)]
  else if 8 ≤ o ∧ o < 0x10 then
    w64 (putBits [(63, b2n g.errV), (62, b2n g.errW), (61, b2n g.errMore), (52, g.errRing), (0, g.errPa % 2 ^ 52 / 64 * 64)]) o
  else 0

def anySeal (s : State) (h : Half) : Bool := (upTo 8).any (fun e => readyBit s h (rbSeal e))

/-- What a seal ring, an engine and a mover channel read before their unit is ready (R546). -/
def sealIdle (o : Nat) : Nat := if o = 0x10 then 0xF000 else if o = 0x14 then 0x3000 else if o = 0x30 then 0xF0000000 else 0

def sealRead (s : State) (h : Half) (sec : Bool) (o : Nat) : Nat :=
  if o < 0x800000 then
    (if readyBit s h (rbSeal (o / 0x100000)) then sealEngRead s h (o / 0x100000) (o % 0x100000) else if o % 0x100000 = 0 then 0x1FF else 0)
  else if o < 0x804000 then
    (if anySeal s h then sealRingRead s h sec ((o - 0x800000) / 64) (o % 64) else sealIdle (o % 64))
  else 0

def mchRead (c : MCh) (sec : Bool) (o : Nat) : Nat :=
  if c.otype = 2 ∧ ¬ sec then 0
  else if o < 8 then w64 c.base o
  else if o = 8 then putBits [(31, b2n c.en), (30, b2n c.stopped), (28, c.imode), (20, c.vector), (16, c.size), (0, c.target)]
  else if o = 0xC then c.otype * 2 ^ 12 + c.owner
  else if o = 0x10 then c.tail % slots8 c.size
  else if o = 0x14 then c.head % slots8 c.size
  else if 0x18 ≤ o ∧ o < 0x20 then w64 (c.last * 2 ^ 32 + c.first) o
  else if o = 0x20 then c.burst * 256 + c.share
  else if o = 0x24 then chState c * 2 ^ 28
  else if 0x28 ≤ o ∧ o < 0x30 then w64 (c.errAddr % 2 ^ 52 / 64 * 64) o
  else if 0x30 ≤ o ∧ o < 0x38 then
    w64 (putBits [(63, b2n c.errV), (62, b2n c.errDir), (60, c.errCause), (32, c.errIdx), (0, c.errDone % 2 ^ 32)]) o
  else 0

def movRead (s : State) (h : Half) (sec : Bool) (o : Nat) : Nat :=
  if 0x800 ≤ o % 0x100000 then 0
  else if readyBit s h (rbMover (o / 0x100000)) then mchRead (mchOf s h (o / 0x100000) (o % 0x100000 / 0x100)) sec (o % 0x100)
  else mchRead MCh.reset sec (o % 0x100)

def ldgRead (s : State) (h : Half) (o : Nat) : Nat :=
  let l := ldgOf s h
  if ¬ readyBit s h rbLedger then 0
  else if o = 0 then putBits [(31, 1), (30, b2n l.fmt), (26, l.lanes), (0, l.streams.length)]
  else if o = 4 then l.sigq.length
  else if 8 ≤ o ∧ o < 0x10 then
    w64 (putBits [(63, b2n l.errV), (62, b2n l.errW), (61, b2n l.errMore), (59, l.errCause), (0, l.errPa % 2 ^ 52 / 64 * 64)]) o
  else if o = 0x10 then l.errStream
  else 0

/-! ### Attach ports (R445, R452, R454, R456, R477, R478) -/

def attStat (s : State) (p : Nat) : Nat :=
  let x := portOf s p
  putBits [(28, x.link), (25, x.gen), (20, x.width), (19, b2n (decide (6 ≤ x.gen))), (6, numVfs s p)]

def winRead (w : Win) (o : Nat) : Nat :=
  if o < 8 then w64 w.off o
  else if o < 0x10 then w64 (w.tgt + putBits [(2, b2n w.rd), (1, b2n w.wr), (0, b2n w.en)]) o
  else if o = 0x10 then w.log2
  else 0

def peerRead (w : Peer) (o : Nat) : Nat :=
  if o < 8 then w64 w.off o
  else if o < 0x10 then w64 w.haddr o
  else if o = 0x10 then putBits [(31, b2n w.en), (30, b2n w.wr), (29, b2n w.rd), (16, w.log2), (0, w.tport)]
  else 0

def msgRead (q : Qp) (o : Nat) : Nat :=
  if o < 8 then w64 q.rxBase o
  else if o = 8 then putBits [(31, b2n q.rxEn), (20, q.rxVec), (16, q.rxSize), (0, q.rxLcn)]
  else if o = 0xC then q.rxHead
  else if o = 0x10 then q.rxTail
  else if 0x18 ≤ o ∧ o < 0x20 then w64 q.txBase o
  else if o = 0x20 then q.txTail
  else if o = 0x24 then q.txHead
  else 0

/-- Hub queue pair q of a port's block belongs to that port (R443, R452). -/
def portQp (s : State) (p q : Nat) : Option Nat :=
  let k := (portHalf p).n * 2048 + q
  match qpOwner s k with
  | some (p', _) => if p' = p ∧ q < 1024 then some k else none
  | none => none

def attRead (s : State) (p o : Nat) : Nat :=
  let x := if readyBit s (portHalf p) (rbAtt (p % 2)) then portOf s p else Port.reset
  let f := (o - 0x10000) / 0x200
  if ¬ portPresent s p then 0
  else if o = 8 then x.nqp
  else if o = 0xC then x.nmsix
  else if ¬ readyBit s (portHalf p) (rbAtt (p % 2)) then 0
  else if o = 0 then attStat s p
  else if o = 4 then putBits [(31, b2n x.go), (30, b2n x.err), (0, x.set)]
  else if 0x10000 ≤ o ∧ o < 0x18000 then
    (let y := o % 0x200
     if y < 8 then w64 (fnRes s (p * 64 + f)) y
     else if y = 8 then fnStat s (p * 64 + f)
     else if 0x100 ≤ y then winRead ((fnOf s (p * 64 + f)).shadow.getD ((y - 0x100) / 32) Win.zero) (y % 32)
     else 0)
  else if 0x20000 ≤ o ∧ o < 0x20200 then peerRead (x.peersS.getD ((o - 0x20000) / 32) Peer.zero) (o % 32)
  else if 0x30000 ≤ o ∧ o < 0x40000 then
    (match portQp s p ((o - 0x30000) / 64) with | some k => msgRead (qpOf s k) (o % 64) | none => 0)
  else 0

/-! ### Compute dies (R8, R33, R163–R165, R206, R256, R544) -/

def cdCap (s : State) (d : Nat) : Nat :=
  putBits [(24, dieStepOf s d), (16, 68), (8, 64), (4, d), (0, 1)]

def cdSpare (s : State) (d : Nat) : Nat :=
  putBits [(16, (s.parks.filter (fun l => ((lcnOf s l).last.getD (homeCore s l)) / 128 == d)).length), (8, (dieOf s d).moves),
    (7, b2n (s.moves.any (fun m => m.old / 128 == d || m.new / 128 == d))), (0, (freeSpares s d).length)]

def pcMap (s : State) (core : Nat) : Nat :=
  let mv := s.moves.find? (fun m => m.old == core || m.new == core)
  let l := match mv with | some m => some m.lcn | none => servedBy s core
  putBits [(28, coreState s core), (10, b2n l.isSome), (0, l.getD 0)]

/-- Bits 31:0, 63:32 and 67:64 of a 68-bit mask. -/
def pcMask (l : List Nat) (i : Nat) : Nat := maskOf l / 2 ^ (32 * i) % 2 ^ 32

/-- The bytes of the core firmware that every die's SRAM holds (R28, R493). -/
def firmware (s : State) (h : Half) : List Byte := if (lhOf s h).cfwok then (tget ⟨0, 0, []⟩ (lhOf s h).cache 2).body else []

/-- A register of a compute die's window (R33). Before its site bit sets, a populated die reads its reset values: VALID 0, and the
map and CD_SPARE as the hold domain restores them (R8, R163, R164, R546). -/
def dieRead (s : State) (d o : Nat) : Nat :=
  let x := dieOf s d
  if ¬ diePresent s d then 0
  else if ¬ x.ready then
    (if o = 0 then cdCap s d / 2 * 2
     else if o = 0x10 then cdSpare s d
     else if 0x14 ≤ o ∧ o < 0x20 then pcMask (freeSpares s d) ((o - 0x14) / 4)
     else if 0x1000 ≤ o ∧ o < 0x1110 then pcMap s (d * 128 + (o - 0x1000) / 4)
     else 0)
  else if o < 0x1000000 then
    (if o = 0 then cdCap s d
     else if o = 0x10 then cdSpare s d
     else if 0x14 ≤ o ∧ o < 0x20 then pcMask (freeSpares s d) ((o - 0x14) / 4)
     else if 0x20 ≤ o ∧ o < 0x2C then pcMask x.coreReady ((o - 0x20) / 4)
     else if 0x1000 ≤ o ∧ o < 0x1110 then pcMap s (d * 128 + (o - 0x1000) / 4)
     else if 0x2000 ≤ o ∧ o < 0x2110 then tget 0 x.retry ((o - 0x2000) / 4)
     else if 0x800000 ≤ o then fieldAt (firmware s (dieHalf d)) (o - 0x800000) 4
     else 0)
  else if o < 0x1110000 then
    (if o % 0x10000 = 0 then (tget [] s.coh.deleted (d * 17 + (o - 0x1000000) / 0x10000)).length else 0)
  else if 0x2100000 ≤ o ∧ o < 0x2102000 then rytRead s (rytKey d ((o - 0x2100000) / 0x1000)) (o % 0x1000)
  else 0

/-! ### Debug block (R602–R607) -/

/-- A controller of the test access chain is in the chain: 0–15 the dies, 16 and 17 the hubs (R596). -/
def inChain (s : State) (n : Nat) : Bool :=
  if 16 ≤ n then decide (n ≤ 17) && hubPresent s (halfOf (n - 16)) && s.pkg.mode != .off
  else diePresent s n && !(dieOf s n).lost && !dieHeld s n && pstateOf s (dieUnit n) != 3 && s.pkg.mode != .hold && s.pkg.mode != .off

def dbgChain (s : State) : Nat :=
  putBits [(17, b2n (hubPresent s .b)), (16, 1), (0, maskOf ((upTo 16).filter (inChain s)))]

def dbgRun (s : State) (l : Nat) : Nat :=
  let a := (ctxOf s l 0).halt
  let b := (ctxOf s l 1).halt
  putBits [(19, b2n (b != 0)), (18, b2n (a != 0)), (12, b), (8, a)]

def trcCtl (k : Lcn) : Nat :=
  putBits [(31, b2n k.trcEn), (30, b2n k.trcWrap), (29, b2n k.trcFull), (27, k.trcCtx), (0, k.trcPages)]

def dbgLcnRead (s : State) (l o : Nat) : Nat :=
  let k := lcnOf s l
  if o = 0 then dbgRun s l
  else if 8 ≤ o ∧ o < 0x28 then w64 (tget 0 k.bp ((o - 8) / 8)).toNat o
  else if 0x40 ≤ o ∧ o < 0x48 then w64 k.trcBase.toNat o
  else if o = 0x48 then trcCtl k
  else if o = 0x4C then k.trcPtr
  else 0

/-- Block and LCN a debug register belongs to: none for the hub's own. -/
def dbgLcn (o : Nat) : Option Nat := if 0x100000 ≤ o then some ((o - 0x100000) / 256) else none

def dbgRead (s : State) (h : Half) (o : Nat) : Nat :=
  match dbgLcn o with
  | some l => dbgLcnRead s l (o % 256)
  | none => if o = 0 then dbgChain s else if o = 8 then b2n (s.units.dbg.nogate.get h) * 2 ^ 31 else 0

/-! ### Responses of debug accesses (R515–R518) -/

/-- UNIT whose readiness and power decide a debug access to a hub offset, where one does. -/
def unitAt (h : Half) (o : Nat) : Option Nat :=
  if 0x8000000 ≤ o ∧ o < 0x8C00000 then some (chUnit h ((o - 0x8000000) / 0x100000))
  else if 0x10200000 ≤ o ∧ o < 0x10201000 then some (pathUnit (h.n * 16 + (o - 0x10200000) / 256))
  else if 0x10300000 ≤ o ∧ o < 0x10302000 then some (cpeUnit h ((o - 0x10300000) / 256))
  else if 0x10000000 ≤ o ∧ o < 0x20000000 then some (cssUnit h)
  else if 0x20000000 ≤ o ∧ o < 0x20800000 then some (sealUnit h ((o - 0x20000000) / 0x100000))
  else if 0x21000000 ≤ o ∧ o < 0x22000000 then some (moverUnit h ((o - 0x21000000) / 0x100000))
  else if 0x22000000 ≤ o ∧ o < 0x23000000 then some (ldgUnit h)
  else if 0x23000000 ≤ o ∧ o < 0x25000000 then some (portUnit (h.n * 2 + (o - 0x23000000) / 0x1000000))
  else if 0x100000000 ≤ o ∧ o < 0x900000000 then some (dieUnit (h.n * 8 + (o - 0x100000000) / 0x100000000))
  else none

/-- The hold domain: registers a debug access reaches in every mode but OFF (R517). -/
def holdReg (o : Nat) : Bool :=
  decide (o < 0x5000000)

/-- A ring or channel of the secure world, or a die of a unit out of reach of the normal world, lies at the offset (R515). -/
def secureReg (s : State) (h : Half) (o : Nat) : Bool :=
  (decide (0x20800000 ≤ o ∧ o < 0x20804000) && (sringOf s h ((o - 0x20800000) / 64)).otype == 2) ||
  (decide (0x21000000 ≤ o ∧ o < 0x22000000) && decide (o % 0x100000 < 0x800) &&
    (mchOf s h ((o - 0x21000000) / 0x100000) (o % 0x100000 / 0x100)).otype == 2)

/-- The enable a debug access needs holds (R515). -/
def dbgEnabled (s : State) (secure write : Bool) : Bool := if secure then dbgenS s else if write then dbgenN s else nidenN s

/-- Mode check of R517 for a target of half `h`: 2 OFF, 3 NOT_READY, 0 allowed. -/
def dbgMode (s : State) (h : Half) (hold ready : Bool) : Nat :=
  match s.pkg.mode with
  | .off => 2
  | .hold => if hold then 0 else 2
  | .bringup => if hold ∨ ready then 0 else 3
  | .degraded => if hold ∨ h = runHalf s then 0 else 3
  | _ => 0

/-- R516 for a unit, or with none for what has no UNIT of its own. -/
def dbgResp (s : State) (h : Half) (u : Option Nat) (there secure write hold ready : Bool) : Nat :=
  if ¬ there then 4
  else if ¬ dbgEnabled s secure write then 1
  else
    let m := dbgMode s h hold ready
    if m ≠ 0 then m
    else match u with
      | some x => if pstateOf s x = 3 then 2 else 0
      | none => 0

/-- A DROWSE block that a debug access wakes (R518). -/
def dbgWake (u : Option Nat) (s : State) : State :=
  match u with
  | some x =>
    if pstateOf s x = 2 then updUnits (fun n => { n with dbg := { n.dbg with woken := setIns n.dbg.woken x } }) (setPstate x 0 s) else s
  | none => s

/-- UNIT of the die whose core serves an LCN. -/
def lcnUnit (s : State) (l : Nat) : Nat := dieUnit (lcnDie s l)

/-- R516 for a software or probe access to a register of the debug block. -/
def dbgBlockResp (s : State) (h : Half) (o : Nat) (write : Bool) : Nat :=
  match dbgLcn o with
  | some l =>
    let trace := decide (0x40 ≤ o % 256)
    let en := if trace then nidenN s else if write then dbgenN s else nidenN s
    if lcnCount s ≤ l ∨ (effMode s = .split ∧ lcnHalf s l ≠ h) then 4
    else if ¬ en then 1
    else
      let m := dbgMode s (lcnHalf s l) false (dieOf s (lcnDie s l)).ready
      if m ≠ 0 then m else if pstateOf s (lcnUnit s l) = 3 then 2 else 0
  | none =>
    if o = 8 ∧ write then (if dbgenN s then dbgMode s h false (readyBit s h rbHfab) else 1)
    else if ¬ nidenN s then 1 else dbgMode s h false (readyBit s h rbHfab)

/-! ### A word of the register space -/

/-- The 32-bit word at an offset of a hub's register region (R32); `sec` is the secure world's view. -/
def regRead (s : State) (h : Half) (sec : Bool) (o : Nat) : Nat :=
  if ¬ hubPresent s h then 0
  else if o < 0x1000000 then
    (if o = 0 then hubCap0 s h else if o = 4 then hubCap1 s h else if o = 8 then hubCap2 s h else if o = 0xC then hubCap3 s h else 0)
  else if o < 0x2000000 then sysRead s h (o - 0x1000000)
  else if o < 0x3000000 then lhRead s h (o - 0x2000000)
  else if o < 0x4000000 then clkRead s (o - 0x3000000)
  else if o < 0x5000000 then logRegRead s h (o - 0x4000000)
  else if o < 0x6000000 then collRead s h (o - 0x5000000)
  else if o < 0x7000000 then fabRead s h (o - 0x6000000)
  else if o < 0x8000000 then (if dbgBlockResp s h (o - 0x7000000) false = 0 then dbgRead s h (o - 0x7000000) else 0)
  else if o < 0x9000000 then memRead s h (o - 0x8000000)
  else if o < 0x10000000 then 0
  else if o < 0x20000000 then cssRead s h (o - 0x10000000)
  else if o < 0x21000000 then sealRead s h sec (o - 0x20000000)
  else if o < 0x22000000 then movRead s h sec (o - 0x21000000)
  else if o < 0x23000000 then ldgRead s h (o - 0x22000000)
  else if o < 0x25000000 then attRead s (h.n * 2 + (o - 0x23000000) / 0x1000000) (o % 0x1000000)
  else if o < 0x100000000 then 0
  else if o < 0x900000000 then dieRead s (h.n * 8 + (o - 0x100000000) / 0x100000000) (o % 0x100000000)
  else 0

end Sys2Proof.Machine
end

