-- ==== Sys2Proof/Machine/RegWrite.lean ====
section
/-! DEFINITION. What a write to a 32-bit register does (R14 and the register rules of every unit). A write with a
behaviour of its own calls the operation of that behaviour. -/
namespace Sys2Proof.Machine

/-- Replace the word of a 64-bit register that an offset names, keeping only the bits of `mask`. -/
def putW (x off v mask : Nat) : Nat :=
  let y := if off % 8 = 0 then x / 2 ^ 32 * 2 ^ 32 + v % 2 ^ 32 else v % 2 ^ 32 * 2 ^ 32 + x % 2 ^ 32
  y.land mask

/-- Bits `hi` down to `lo` set. -/
def bits (hi lo : Nat) : Nat := 2 ^ (hi + 1) - 2 ^ lo

/-! ### Hub-wide blocks -/

def ringRegWrite (h : Half) (l o v : Nat) (s : State) : State :=
  if o < 8 then updRing h l (fun r => { r with crBase := BitVec.ofNat 64 (putW r.crBase.toNat o v (bits 51 5)) }) s
  else if o = 8 then setCrCtl h l v s
  else if o = 0xC then setCrTail h l v s
  else if 0x18 ≤ o ∧ o < 0x20 then updRing h l (fun r => { r with srBase := BitVec.ofNat 64 (putW r.srBase.toNat o v (bits 51 5)) }) s
  else if o = 0x20 then setSrHead h l v s
  else s

/-- SYS_AUTO written (R548). -/
def autoWrite (h : Half) (v : Nat) (s : State) : State :=
  updUnits (fun u => { u with auto := u.auto.set h ⟨bitOf v 31, fld v 27 24, fld v 15 0⟩ }) s

def sysWrite (h : Half) (o v : Nat) (s : State) : State :=
  if o = 8 then setDrainCtl h v s
  else if o = 0xC then autoWrite h v s
  else if 0x10000 ≤ o ∧ o < 0x13000 ∧ halfOn s h then ringRegWrite h ((o - 0x10000) / 0x1000) (o % 0x1000) v s
  else s

def lhWrite (h : Half) (o v : Nat) (s : State) : State :=
  if o = 0x100 then updLh h (fun l => { l with mbIen := bitOf v 31, mbVec := fld v 27 20, mbLcn := fld v 9 0 }) s
  else if o = 0x104 then runMbDoorbell h v s
  else if o = 0x10C then runMbClear h v s
  else if 0x1000 ≤ o ∧ o < 0x2000 then
    updLh h (fun l => { l with mbIn := tmod [] l.mbIn ((o - 0x1000) / 256) (fun m => splice (slice m 0 256) (o % 256) (toBytes 4 v)) }) s
  else s

def clkWrite (o v : Nat) (s : State) : State :=
  if o = 0x1000 then runLostClear v s
  else if o = 0x1008 ∧ bitOf v 31 then runSvcClear s
  else s

def logCtlWrite (h : Half) (v : Nat) (s : State) : State :=
  updLog h (fun l => { l with
    ufEn := bitOf v 31, ucEn := bitOf v 30, crEn := bitOf v 29, ceEn := bitOf v 28, vector := fld v 27 20, ibi := bitOf v 19, lcn := fld v 9 0 }) s

/-- FAB_MNT_ADDR and FAB_MNT_CTL (R227, R228). -/
def fabWrite (h : Half) (o v : Nat) (s : State) : State :=
  if ¬ (0x801000 ≤ o ∧ o < 0x801100) ∨ ¬ readyBit s h rbHfab then s
  else
    let k := (o - 0x801000) / 16
    if o % 16 < 8 then (if (maintOf s h k).busy then s else updMaint h k (fun x => { x with addr := putW x.addr (o % 16) v (bits 43 6) }) s)
    else if o % 16 = 8 then runMntStart h k v s
    else s

/-- MEM_UE.V, MEM_RH and MEM_HUB_CFG (R282, R292, R293). -/
def memWrite (h : Half) (o v : Nat) (s : State) : State :=
  let c := o / 0x100000
  if o < 0xC00000 then
    (if ¬ unitReady s (chUnit h c) then s
     else if o % 0x100000 = 0x14 ∧ bitOf v 31 then runMemUeClear h c s
     else if o % 0x100000 = 0x1C then rhWrite h c (bitOf v 31) (fld v 15 0) s
     else s)
  else if o = 0xC00000 ∧ readyBit s h rbHfab then
    updMem h (fun m => { m with spareEn := if m.fixed then m.spareEn else bitOf v 30, auto := bitOf v 29, scrubH := fld v 7 0 }) s
  else s

/-! ### Channel subsystem -/

def updSub (g : Half) (n : Nat) (f : Sub → Sub) (s : State) : State :=
  updCss g (fun c => { c with subs := tmod Sub.reset c.subs (subKey g n) f }) s

/-- CSS_SCH_CFG written (R297): with an open entry V, OTYPE, OWNER, CQ and IMAGE keep their values. -/
def schCfgWrite (g : Half) (n o v : Nat) (s : State) : State :=
  if o % 8 = 0 then updSub g n (fun b => { b with tmo := fld v 31 16 }) s
  else
    let held := !(entriesOf s g n).isEmpty
    updSub g n (fun b => if held then { b with en := bitOf v 30 } else
      { b with v := bitOf v 31, en := bitOf v 30, otype := fld v 29 28, owner := fld v 27 16, cq := fld v 15 7, image := fld v 6 3 }) s

def subWrite (h : Half) (n o v : Nat) (s : State) : State :=
  let g := cssServer s h
  if o < 8 then schCfgWrite g n o v s
  else if o < 0x10 then updSub g n (fun b => { b with path := putW b.path o v 0x9F009F009F009F00 }) s
  else if o < 0x18 then updSub g n (fun b => { b with fence := putW b.fence o v (bits 63 0) }) s
  else if o < 0x20 then updSub g n (fun b => { b with dev := putW b.dev o v (bits 63 0) }) s
  else if o < 0x28 then updSub g n (fun b => { b with sense := putW b.sense o v (bits 51 6) }) s
  else s

def cqWriteReg (h : Half) (q o v : Nat) (s : State) : State :=
  if o < 8 then updCq h q (fun c => { c with base := putW c.base o v (bits 51 5) }) s
  else if o = 8 then
    updCq h q (fun c => { c with
      en := bitOf v 31, stopped := c.stopped && !bitOf v 30, imode := fld v 29 28, vector := fld v 27 20, size := fld v 19 16, target := fld v 10 0 }) s
  else if o = 0xC then runCqHead h q (v % 65536) s
  else if o = 0x14 then updCq h q (fun c => { c with otype := fld v 13 12, owner := fld v 11 0 }) s
  else s

def cssWrite (h : Half) (o v : Nat) (s : State) : State :=
  if 0x2000000 ≤ o ∧ o < 0x2020000 then
    (if o % 32 = 0 then runEventPage h ((o - 0x2000000) / 0x1000) (o % 0x1000 / 32) s else s)
  else if ¬ cssAnswers s h then s
  else if 8 ≤ o ∧ o < 0x10 then
    (if (cssOf s h).imgLock ∨ ¬ readyBit s h rbCss then s
     else updCss h (fun c => { c with imgBase := putW (c.imgBase * 2 ^ 24) o v (bits 51 24) / 2 ^ 24 }) s)
  else if 0x10000 ≤ o ∧ o < 0x14000 then cqWriteReg (cssServer s h) (cqIndex s h ((o - 0x10000) / 32)) (o % 32) v s
  else if 0x100000 ≤ o ∧ o < 0x120000 then subWrite h (h.n * 2048 + (o - 0x100000) / 64) (o % 64) v s
  else s

/-! ### Seal engines, movers, ledger -/

/-- SEAL_RING_CTL written (R354, R357). -/
def sealCtlWrite (h : Half) (r v : Nat) (s : State) : State :=
  let g := sringOf s h r
  let s1 := updSring h r (fun x => { x with
    en := x.en && bitOf v 31, stopped := x.stopped && !bitOf v 30, imode := fld v 29 28, vector := fld v 27 20,
    size := fld v 19 16, eng := fld v 15 12, target := fld v 10 0 }) s
  if ¬ g.en ∧ bitOf v 31 then runSealEnable h r s1 else s1

/-- SEAL_RING_OWN written: ignored while EN is 1; OTYPE 2 is the Lighthouse's alone (R355). -/
def sealOwnWrite (h : Half) (sec : Bool) (r v : Nat) (s : State) : State :=
  if (sringOf s h r).en ∨ (fld v 13 12 = 2 ∧ ¬ sec) then s
  else updSring h r (fun x => { x with otype := fld v 13 12, owner := fld v 11 0 }) s

def sealFenceWrite (h : Half) (r o v : Nat) (s : State) : State :=
  if (sringOf s h r).en then s
  else updSring h r (fun x => if o % 8 = 0 then { x with first := v % 2 ^ 32 } else { x with last := v % 2 ^ 32 }) s

def sealRingWrite (h : Half) (sec : Bool) (r o v : Nat) (s : State) : State :=
  if (sringOf s h r).otype = 2 ∧ ¬ sec then s
  else if o < 8 then updSring h r (fun x => { x with base := putW x.base o v (bits 51 5) }) s
  else if o < 0x10 then updSring h r (fun x => { x with cbase := putW x.cbase o v (bits 51 5) }) s
  else if o = 0x10 then sealCtlWrite h r v s
  else if o = 0x14 then sealOwnWrite h sec r v s
  else if o = 0x18 then runSealTail h r v s
  else if o = 0x20 then runSealChead h r v s
  else if 0x28 ≤ o ∧ o < 0x30 then sealFenceWrite h r o v s
  else s

def sealWrite (h : Half) (sec : Bool) (o v : Nat) (s : State) : State :=
  if o < 0x800000 then
    (if readyBit s h (rbSeal (o / 0x100000)) ∧ o % 0x100000 = 0xC ∧ bitOf v 31 then runSealErrClear h (o / 0x100000) s else s)
  else if o < 0x804000 ∧ anySeal s h then sealRingWrite h sec ((o - 0x800000) / 64) (o % 64) v s
  else s

/-- MOV_CH_CTL written (R387). -/
def movCtlWrite (h : Half) (m ch v : Nat) (s : State) : State :=
  updMch h m ch (fun c => { c with
    en := bitOf v 31, stopped := c.stopped && !bitOf v 30, imode := fld v 29 28, vector := fld v 27 20, size := fld v 19 16, target := fld v 10 0 }) s

def movOwnWrite (h : Half) (sec : Bool) (m ch v : Nat) (s : State) : State :=
  if (mchOf s h m ch).en ∨ (fld v 13 12 = 2 ∧ ¬ sec) then s
  else updMch h m ch (fun c => { c with otype := fld v 13 12, owner := fld v 11 0 }) s

def movFenceWrite (h : Half) (m ch o v : Nat) (s : State) : State :=
  if (mchOf s h m ch).en then s
  else updMch h m ch (fun c => if o % 8 = 0 then { c with first := v % 2 ^ 32 } else { c with last := v % 2 ^ 32 }) s

/-- MOV_CH_ACT written (R397). -/
def movAct (h : Half) (m ch v : Nat) (s : State) : State :=
  match v % 4 with
  | 1 => runMovResume h m ch s
  | 2 => runMovSkip h m ch s
  | 3 => runMovAbort h m ch s
  | _ => s

def mchWrite (h : Half) (sec : Bool) (m ch o v : Nat) (s : State) : State :=
  if (mchOf s h m ch).otype = 2 ∧ ¬ sec then s
  else if o < 8 then updMch h m ch (fun c => { c with base := putW c.base o v (bits 51 6) }) s
  else if o = 8 then movCtlWrite h m ch v s
  else if o = 0xC then movOwnWrite h sec m ch v s
  else if o = 0x10 then runMovTail h m ch v s
  else if 0x18 ≤ o ∧ o < 0x20 then movFenceWrite h m ch o v s
  else if o = 0x20 then updMch h m ch (fun c => { c with burst := fld v 10 8, share := fld v 5 0 }) s
  else if o = 0x38 then movAct h m ch v s
  else s

def movWrite (h : Half) (sec : Bool) (o v : Nat) (s : State) : State :=
  if o % 0x100000 < 0x800 ∧ readyBit s h (rbMover (o / 0x100000)) then
    mchWrite h sec (o / 0x100000) (o % 0x100000 / 0x100) (o % 0x100) v s
  else s

/-! ### Attach ports -/

/-- ATT_PF0_RES written (R478): ignored while a queue pair of PF0 is enabled or when it does not fit. -/
def pf0Write (p o v : Nat) (s : State) : State :=
  let k := p * 64
  let qs := (upTo (portOf s p).nqp).map (fnQp s p 0)
  if qs.any (fun q => (qpOf s q).en) then s
  else if o % 8 = 0 then
    (match lowestRun (qpRanges s (portHalf p) k) (fld v 8 0) with
     | some first =>
       if 256 < fld v 8 0 then s
       else
         let s1 := updFn k (fun f => { f with firstQp := first }) (updPort p (fun x => { x with nqp := fld v 8 0 }) s)
         (qs.filter (fun q => !((upTo (fld v 8 0)).map (fnQp s1 p 0)).contains q)).foldl (fun t q => qpClear q t) s1
     | none => s)
  else
    match lowestRunIn 2048 (msixRanges s p k) (fld v 11 0) with
    | some first =>
      if fld v 11 0 = 0 ∨ 2048 < fld v 11 0 then s
      else updFn k (fun f => { f with firstMsix := first }) (updPort p (fun x => { x with nmsix := fld v 11 0 }) s)
    | none => s

def winWrite (w : Win) (o v : Nat) : Win :=
  if o < 8 then { w with off := putW w.off o v (bits 37 12) }
  else if o = 8 then { w with tgt := putW w.tgt o v (bits 51 12), rd := bitOf v 2, wr := bitOf v 1, en := bitOf v 0 }
  else if o = 0xC then { w with tgt := putW w.tgt o v (bits 51 12) }
  else if o = 0x10 then { w with log2 := fld v 5 0 }
  else w

def peerWrite (w : Peer) (o v : Nat) : Peer :=
  if o < 8 then { w with off := putW w.off o v (bits 37 12) }
  else if o < 0x10 then { w with haddr := putW w.haddr o v (bits 63 12) }
  else if o = 0x10 then { w with en := bitOf v 31, wr := bitOf v 30, rd := bitOf v 29, log2 := fld v 21 16, tport := fld v 1 0 }
  else w

/-- MSG ring registers of a queue pair (R452). -/
def msgWrite (q o v : Nat) (s : State) : State :=
  if o < 8 then updQp q (fun x => { x with rxBase := putW x.rxBase o v (bits 51 6) }) s
  else if o = 8 then updQp q (fun x => { x with rxEn := bitOf v 31, rxVec := fld v 27 20, rxSize := min 12 (fld v 19 16), rxLcn := fld v 9 0 }) s
  else if o = 0xC then runMsgRx q v s
  else if 0x18 ≤ o ∧ o < 0x20 then updQp q (fun x => { x with txBase := putW x.txBase o v (bits 51 5) }) s
  else if o = 0x20 then runMsgTx q v s
  else s

def attWrite (p o v : Nat) (s : State) : State :=
  if ¬ portPresent s p ∨ ¬ readyBit s (portHalf p) (rbAtt (p % 2)) then s
  else if o = 4 then runWinCommit p v s
  else if o = 8 ∨ o = 0xC then pf0Write p o v s
  else if 0x10000 ≤ o ∧ o < 0x18000 ∧ 0x100 ≤ o % 0x200 then
    updFn (p * 64 + (o - 0x10000) / 0x200) (fun f => { f with shadow := modAt f.shadow ((o % 0x200 - 0x100) / 32) (fun w => winWrite w (o % 32) v) }) s
  else if 0x20000 ≤ o ∧ o < 0x20200 then
    updPort p (fun x => { x with peersS := modAt x.peersS ((o - 0x20000) / 32) (fun w => peerWrite w (o % 32) v) }) s
  else if 0x30000 ≤ o ∧ o < 0x40000 then
    (match portQp s p ((o - 0x30000) / 64) with | some q => msgWrite q (o % 64) v s | none => s)
  else s

/-! ### Compute dies: CD_RETRY_CNT (R165) -/

def dieWrite (d o v : Nat) (s : State) : State :=
  if diePresent s d ∧ (dieOf s d).ready ∧ 0x2000 ≤ o ∧ o < 0x2110 then
    updDie d (fun x => { x with retry := tset 0 x.retry ((o - 0x2000) / 4) (v % 2 ^ 32) }) s
  else s

/-! ### Debug block (R603–R607) -/

/-- Contexts a CTX field names: bit 27 context 0, bit 28 context 1. -/
def ctxBits (v : Nat) : List Nat := (if bitOf v 27 then [0] else []) ++ (if bitOf v 28 then [1] else [])

/-- A context halts with a cause; a WAIT is discarded and runs again after resume (R605). A BS instruction between its pieces
goes on to its end (`finishPieces`). -/
def haltCtx (cause : Nat) (c : Ctx) : Ctx := if c.halt = 0 then { c with halt := cause, wait := none, stepping := false } else c

/-- A halt discards what has not retired (R605). -/
def dbgHalt (l : Nat) (cs : List Nat) (s : State) : State := cs.foldl (fun t c => updCtx l c (haltCtx 1) (rollBack l c t)) s

def dbgResume (l : Nat) (cs : List Nat) (s : State) : State := cs.foldl (fun t c => updCtx l c unhalt t) s

/-- Each named context retires one instruction and halts (R604). -/
def dbgStep (l : Nat) (cs : List Nat) (s : State) : State :=
  cs.foldl (fun t c => updCtx l c (fun x => { unhalt x with stepping := true }) t) s

def dbgRunWrite (l v : Nat) (s : State) : State :=
  let s1 := if bitOf v 29 then dbgHalt l (ctxBits v) s else s
  if bitOf v 30 then (if bitOf v 31 then dbgStep l (ctxBits v) s1 else dbgResume l (ctxBits v) s1) else s1

/-- Bytes of a trace buffer of a number of pages (R607). -/
def trcSize (pages : Nat) : Nat := (if pages = 0 then 65536 else pages) * 4096

/-- DBG_TRC_CTL written (R607). -/
def trcCtlWrite (l v : Nat) (s : State) : State :=
  let k := lcnOf s l
  if bitOf v 31 ∧ ¬ dramRaw s (lcnHalf s l) k.trcBase.toNat (trcSize (fld v 15 0)) then s
  else updLcn l (fun x => { x with
    trcEn := bitOf v 31, trcWrap := bitOf v 30, trcFull := x.trcFull && !bitOf v 31, trcCtx := fld v 28 27, trcPages := fld v 15 0,
    trcPtr := if bitOf v 31 ∧ ¬ x.trcEn then 0 else x.trcPtr, trcCount := if bitOf v 31 ∧ ¬ x.trcEn then 0 else x.trcCount }) s

def dbgLcnWrite (l o v : Nat) (s : State) : State :=
  if o = 0 then dbgRunWrite l v s
  else if 8 ≤ o ∧ o < 0x28 then
    updLcn l (fun k => { k with bp := tmod 0 k.bp ((o - 8) / 8) (fun (x : W64) => BitVec.ofNat 64 (putW x.toNat o v (bits 63 59 + bits 56 0))) }) s
  else if 0x40 ≤ o ∧ o < 0x48 then updLcn l (fun k => { k with trcBase := BitVec.ofNat 64 (putW k.trcBase.toNat o v (bits 51 12)) }) s
  else if o = 0x48 then trcCtlWrite l v s
  else s

def dbgWrite (h : Half) (o v : Nat) (s : State) : State :=
  match dbgLcn o with
  | some l => dbgLcnWrite l (o % 256) v s
  | none => if o = 8 then updUnits (fun u => { u with dbg := { u.dbg with nogate := u.dbg.nogate.set h (bitOf v 31) } }) s else s

/-- A write to the debug block acts when R516 answers OK (R602). -/
def dbgBlockWrite (h : Half) (o v : Nat) (s : State) : State :=
  if dbgBlockResp s h o true ≠ 0 then s
  else dbgWrite h o v (dbgWake ((dbgLcn o).map (lcnUnit s)) s)

/-! ### A word of the register space -/

/-- A 32-bit write at an offset of a hub's register region; `sec` is the secure world's view. -/
def regWrite (h : Half) (sec : Bool) (o v : Nat) (s : State) : State :=
  if ¬ hubPresent s h then s
  else if o < 0x1000000 then s
  else if o < 0x2000000 then sysWrite h (o - 0x1000000) v s
  else if o < 0x3000000 then lhWrite h (o - 0x2000000) v s
  else if o < 0x4000000 then clkWrite (o - 0x3000000) v s
  else if o < 0x5000000 then (if o = 0x4000000 then logCtlWrite h v s else s)
  else if o < 0x6000000 then s
  else if o < 0x7000000 then fabWrite h (o - 0x6000000) v s
  else if o < 0x8000000 then dbgBlockWrite h (o - 0x7000000) v s
  else if o < 0x9000000 then memWrite h (o - 0x8000000) v s
  else if o < 0x10000000 then s
  else if o < 0x20000000 then cssWrite h (o - 0x10000000) v s
  else if o < 0x21000000 then sealWrite h sec (o - 0x20000000) v s
  else if o < 0x22000000 then movWrite h sec (o - 0x21000000) v s
  else if o < 0x23000000 then (if o = 0x2200000C ∧ bitOf v 31 ∧ readyBit s h rbLedger then runLdgErrClear h s else s)
  else if o < 0x25000000 then attWrite (h.n * 2 + (o - 0x23000000) / 0x1000000) (o % 0x1000000) v s
  else if o < 0x100000000 then s
  else if o < 0x900000000 then dieWrite (h.n * 8 + (o - 0x100000000) / 0x100000000) (o % 0x100000000) v s
  else s

/-- An aligned read of 4 or 8 bytes: consecutive words, the lower one in bits 31:0 (R31). -/
def regReadN (s : State) (h : Half) (sec : Bool) (o n : Nat) : List Byte :=
  (upTo (n / 4)).flatMap (fun i => toBytes 4 (regRead s h sec (o + 4 * i)))

def regWriteN (h : Half) (sec : Bool) (o : Nat) (d : List Byte) (s : State) : State :=
  (upTo (d.length / 4)).foldl (fun t i => regWrite h sec (o + 4 * i) (fieldAt d (4 * i) 4) t) s

/-- After stores that changed a command ring the Harbourmaster fetches (R54). -/
def kick (s t : State) : State := if t.rings = s.rings then t else harbourRun t

end Sys2Proof.Machine
end

