-- ==== Sys2Proof/Machine/Bus.lean ====
section
/-! DEFINITION. Accesses of cores to the register space and the attach windows (R28–R33, R140, R141, R461). -/
namespace Sys2Proof.Machine

/-- How a one-shot read ends: data, an address error, poison, or not yet. -/
inductive BusRes where
  | ok (d : List Byte)
  | err
  | poison
  | wait
deriving DecidableEq, Repr

/-- A latched reply as the core takes it. -/
def latchRes (r : List Byte) : BusRes :=
  match r with
  | [] => .err
  | k :: d => if k = 0 then .ok d else if k = 2 then .poison else .err

/-- A load from an attach window. The instruction that needs it waits for the port: it runs again once the answer is in
the reply latch, which its request ID names (R141, log 22). -/
def winLoad (lcn ctx p off n : Nat) (s : State) : State × BusRes :=
  let i := (ctxOf s lcn ctx).winIdx
  let used := updCtx lcn ctx (fun c => { c with winIdx := i + 1 })
  match (winLatches s lcn ctx)[i]? with
  | some l => (used s, latchRes l.reply)
  | none =>
    if loadOut s lcn ctx then (s, .wait)
    else
      let s1 := attLoad lcn ctx (ctxOf s lcn ctx).reqId p off n s
      match (winLatches s1 lcn ctx)[i]? with
      | some l => (used s1, latchRes l.reply)
      | none => (s1, .wait)

/-- A one-shot read of a core. -/
def busRead (s : State) (lcn ctx pa n : Nat) : State × BusRes :=
  match regionOf pa with
  | .regs g o => (s, .ok (regReadN s g false o n))
  | .attach p off => winLoad lcn ctx p off n s
  | _ => (s, .err)

/-- A one-shot write of a core. -/
def busWrite (pa : Nat) (d : List Byte) (s : State) : State :=
  match regionOf pa with
  | .regs g o => regWriteN g false o d s
  | .attach p off => attStore p off d s
  | _ => s

end Sys2Proof.Machine
end

