-- ==== Sys2Proof/Machine/Translate.lean ====
section
/-! DEFINITION. Address translation (R166–R193): stage-1 and stage-2 walks, marks, protection keys and TLBs. -/
namespace Sys2Proof.Machine

/-- Kinds of access in the order of XINFO.ACCESS (R182). -/
inductive Acc where
  | read | write | fetch | tlock
deriving DecidableEq, Repr

def Acc.n : Acc → Nat
  | .read => 0
  | .write => 1
  | .fetch => 2
  | .tlock => 3

/-- An exception to be taken: code, fault address, subcode bits of XCODE above bit 7, XINFO, and whether it goes to H
in every case; for STAGE2 also the VA and the IPA (R120, R121, R182). -/
structure Xf where
  code : Nat
  addr : Nat
  sub : Nat
  info : Nat
  toH : Bool
  va : Nat
  ipa : Nat
deriving DecidableEq, Repr

def xf (code addr : Nat) : Xf := ⟨code, addr, 0, 0, false, 0, 0⟩

/-- XINFO of R182. -/
def xinfoOf (cause level stage : Nat) (acc : Acc) (key : Nat) (walk : Bool) : Nat :=
  putBits [(28, cause), (25, level), (24, stage), (22, acc.n), (17, key), (16, b2n walk)]

/-- A stage-1 fault on fetch or data (R181). -/
def s1Fault (acc : Acc) (va cause level key : Nat) : Xf :=
  ⟨if acc = .fetch then 0x05 else 0x0B, va, 0, xinfoOf cause level 0 acc key false, false, 0, 0⟩

/-- A STAGE2 fault, which goes to H (R120, R177). -/
def s2Fault (acc : Acc) (va ipa cause level : Nat) (walk : Bool) : Xf :=
  ⟨0x18, 0, 0, xinfoOf cause level 1 acc 0 walk, true, va, ipa / 4096 * 4096⟩

/-- Why a present entry is refused, by stage and level (R174). -/
def pteBad (stage2 : Bool) (lvl e : Nat) : Option Nat :=
  let leaf := bitOf e 7
  let size := 2 ^ (12 + 9 * lvl)
  if ¬ bitOf e 0 then some 2
  else if (lvl = 4 ∧ leaf) ∨ (lvl = 0 ∧ ¬ leaf) then some 3
  else if leaf then
    (if 2 ≤ fld e 9 8 ∨ (stage2 ∧ fld e 56 52 ≠ 0) ∨ fld e 51 12 * 4096 % size ≠ 0 then some 3 else none)
  else if fld e 56 52 ≠ 0 ∨ fld e 9 8 ≠ 0 then some 3 else none

/-- A table address the walker refuses: the top 64 TiB, a reserved region, or at or above the DRAM limit (R179). -/
def badTable (s : State) (h : Half) (pa : Nat) : Bool := !dramOk s h pa 8

/-- A leaf as a walk finds it. -/
structure Leaf where
  e : Nat
  lvl : Nat
  /-- physical address of the entry -/
  at_ : Nat
deriving DecidableEq, Repr

/-- Capacities of the translation caches (R187): L1 for fetches and data, the sets and ways of the L2 TLB, the lock array,
the walk cache. -/
def itlbSize : Nat := 64
def dtlbSize : Nat := 96
def tlbSets : Nat := 188
def tlbWays : Nat := 16
def lockSize : Nat := 64
def walkSize : Nat := 64

/-- What an entry of a level stands for: the address bits above its index. -/
def walkTag (lvl a : Nat) : Nat := a % 2 ^ 57 / 2 ^ (12 + 9 * lvl)

/-- A walk-cache entry serves a walk of stage 1 (`asid` given) or 2 at an address (R187). -/
def walkHit (regH : Bool) (vmid : Nat) (asid : Option Nat) (lvl a : Nat) (e : WalkEnt) : Bool :=
  e.lvl == lvl && e.tag == walkTag lvl a && e.vmid == vmid &&
    (match asid with | none => e.s2 | some k => !e.s2 && e.regH == regH && e.asid == k)

/-- Where a walk starts: below the lowest level the walk cache holds an entry of, else at the root. -/
def walkFrom (regH : Bool) (vmid : Nat) (asid : Option Nat) (a root : Nat) (ws : List WalkEnt) : List Nat × Nat :=
  match [1, 2, 3, 4].findSome? (fun lvl => ws.find? (walkHit regH vmid asid lvl a)) with
  | some e => ((upTo e.lvl).reverse, e.table)
  | none => ([4, 3, 2, 1, 0], root)

def cacheWalk (e : WalkEnt) (ws : List WalkEnt) : List WalkEnt := (e :: ws).take walkSize

/-- Stage-2 walk over the given levels: a leaf, or cause and level (R172, R177); `ws` is the walk cache. -/
def walk2 (s : State) (h : Half) (vmid ipa : Nat) : List Nat → Nat → List WalkEnt → Except (Nat × Nat) (Leaf × List WalkEnt)
  | [], _, _ => .error (3, 0)
  | lvl :: rest, table, ws =>
    let a := table + fld ipa (20 + 9 * lvl) (12 + 9 * lvl) * 8
    if badTable s h a then .error (7, lvl)
    else match dmaRead s h a 8 with
      | none => .error (7, lvl)
      | some (_, true) => .error (8, lvl)
      | some (bs, false) =>
        let e := ofBytes bs
        let next := fld e 51 12 * 4096
        match pteBad true lvl e with
        | some c => .error (c, lvl)
        | none =>
          if bitOf e 7 then .ok (⟨e, lvl, a⟩, ws)
          else walk2 s h vmid ipa rest next (cacheWalk ⟨true, false, vmid, 0, lvl, walkTag lvl ipa, next⟩ ws)

/-- Output address of a leaf for an input address. -/
def leafAddr (l : Leaf) (a : Nat) : Nat :=
  let size := 2 ^ (12 + 9 * l.lvl)
  fld l.e 51 12 * 4096 / size * size + a % size

/-- Regime, VMID and ASID a context's entries carry (R169, R171, R187). -/
def regimeH (c : Ctx) : Bool := c.psw.pl == .h
def curVmid (c : Ctx) : Nat := if bitOf c.vttbr.toNat 0 then fld c.vttbr.toNat 63 52 else 0
def tagVmid (c : Ctx) : Nat := if regimeH c then 0 else curVmid c
def curTtbr (c : Ctx) : Nat := if regimeH c then c.ttbrH.toNat else c.ttbrS.toNat
def curAsid (c : Ctx) : Nat := fld (curTtbr c) 63 52

/-- Stage-2 translation of an IPA for an access; `walk` marks a table address (R177). -/
def stage2 (s : State) (h : Half) (c : Ctx) (va ipa : Nat) (acc need : Acc) (walk : Bool) (ws : List WalkEnt) :
    Except Xf (Leaf × List WalkEnt) :=
  let from_ := walkFrom false (curVmid c) none ipa (fld c.vttbr.toNat 51 12 * 4096) ws
  match walk2 s h (curVmid c) ipa from_.1 from_.2 ws with
  | .error (k, lvl) => .error (s2Fault acc va ipa k lvl walk)
  | .ok (l, ws1) =>
    if need = .write ∧ ¬ bitOf l.e 1 then .error (s2Fault acc va ipa 5 l.lvl walk)
    else if need = .fetch ∧ ¬ bitOf l.e 2 then .error (s2Fault acc va ipa 6 l.lvl walk)
    else .ok (l, ws1)

def s2On (c : Ctx) : Bool := c.psw.pl != .h && bitOf c.vttbr.toNat 0

/-- Stage-1 walk over the given levels; `table` is an IPA under stage 2 (R177, R180, R181). It answers the leaf, the address
its entry was read at before stage 2, and the walk cache. -/
def walk1 (s : State) (h : Half) (c : Ctx) (va : Nat) (acc : Acc) : List Nat → Nat → List WalkEnt → Except Xf (Leaf × Nat × List WalkEnt)
  | [], _, _ => .error (s1Fault acc va 3 0 0)
  | lvl :: rest, table, ws =>
    let ia := table + fld va (20 + 9 * lvl) (12 + 9 * lvl) * 8
    let pa := if s2On c then (stage2 s h c va ia acc .read true ws).map (fun r => (leafAddr r.1 ia, r.2)) else .ok (ia, ws)
    match pa with
    | .error x => .error x
    | .ok (a, ws1) =>
      if badTable s h a then .error ⟨0x0E, va, 0, xinfoOf 7 lvl 0 acc 0 true, false, 0, 0⟩
      else match dmaRead s h a 8 with
        | none => .error ⟨0x0E, va, 0, xinfoOf 7 lvl 0 acc 0 true, false, 0, 0⟩
        | some (_, true) => .error ⟨0x0F, a, 0, xinfoOf 8 lvl 0 acc 0 true, false, 0, 0⟩
        | some (bs, false) =>
          let e := ofBytes bs
          let next := fld e 51 12 * 4096
          match pteBad false lvl e with
          | some k => .error (s1Fault acc va k lvl 0)
          | none =>
            if bitOf e 7 then .ok (⟨e, lvl, a⟩, ia, ws1)
            else walk1 s h c va acc rest next
              (cacheWalk ⟨false, regimeH c, tagVmid c, curAsid c, lvl, walkTag lvl va, next⟩ ws1)

/-- Permission of a stage-1 leaf (R175): a cause, or none. -/
def permBad (c : Ctx) (acc : Acc) (u w x : Bool) : Option Nat :=
  if c.psw.pl = .u ∧ ¬ u then some 4
  else if acc = .fetch ∧ c.psw.pl ≠ .u ∧ u then some 4
  else if acc ≠ .fetch ∧ c.psw.pl = .s ∧ u ∧ ¬ c.sua then some 4
  else if acc = .write ∧ ¬ w then some 5
  else if acc = .fetch ∧ ¬ x then some 6
  else none

/-- PKEY on a data access (R183). -/
def keyBad (c : Ctx) (acc : Acc) (k : Nat) : Option Nat :=
  if (acc = .read ∨ acc = .write) ∧ bitOf c.pkr.toNat (2 * k) then some 11
  else if acc = .write ∧ bitOf c.pkr.toNat (2 * k + 1) then some 12
  else none

/-- ADH of the regime in use: the NMU is present and software has not cleared it (R170, R186). -/
def adh (s : State) (c : Ctx) : Bool :=
  s.cfg.part != .q0800a && (if c.psw.pl = .h then !c.adhOffH else !c.adhOffS)

/-- A TLB entry matches a lookup (R187). -/
def tlbHit (c : Ctx) (va : Nat) (e : TlbEntry) : Bool :=
  e.regH == regimeH c && e.vmid == tagVmid c && e.va == va / e.size * e.size && (e.g || e.asid == curAsid c)

/-- A translation: physical address, uncached or not, the page's entry. -/
structure Tr where
  pa : Nat
  unc : Bool
  ent : TlbEntry
deriving DecidableEq, Repr

/-- Use of a cached entry (R183, R187, R188). -/
def useEntry (c : Ctx) (va : Nat) (acc : Acc) (locked : Bool) (e : TlbEntry) : Except Xf Tr :=
  match permBad c acc e.u e.w e.x with
  | some k => .error (s1Fault acc va k e.lvl1 0)
  | none =>
    let ipa := e.ipa.getD 0 + va % e.size
    if acc = .write ∧ ¬ e.s2w then .error (s2Fault acc va ipa 5 e.lvl2 false)
    else if acc = .fetch ∧ ¬ e.s2x then .error (s2Fault acc va ipa 6 e.lvl2 false)
    else if locked ∧ acc = .write ∧ ¬ e.d then
      .error ⟨0x0D, va, 0, xinfoOf 10 e.lvl1 0 acc e.key false, false, 0, 0⟩
    else match keyBad c acc e.key with
      | some k => .error ⟨0x0C, va, 0, xinfoOf k e.lvl1 0 acc e.key false, false, 0, 0⟩
      | none => .ok ⟨e.pa + va % e.size, e.unc, e⟩

/-- L2 TLB set of an entry (R187). -/
def tlbSet (e : TlbEntry) : Nat := Config.tlbHash (e.va / e.size) % tlbSets

/-- An entry enters the L1 TLB of its kind. -/
def l1Insert (acc : Acc) (e : TlbEntry) (k : Lcn) : Lcn :=
  if acc = .fetch then { k with itlb := (e :: k.itlb).take itlbSize } else { k with dtlb := (e :: k.dtlb).take dtlbSize }

/-- An entry enters the L2 TLB; the oldest of a full set goes to a free slot of the lock array, as far as one is free
(R187, log 36). -/
def l2Insert (e : TlbEntry) (k : Lcn) : Lcn :=
  let same := k.tlb.filter (fun x => tlbSet x = tlbSet e)
  if same.length < tlbWays then { k with tlb := e :: k.tlb }
  else match same.getLast? with
    | none => { k with tlb := e :: k.tlb }
    | some o => { k with tlb := e :: k.tlb.erase o, slots := (o :: k.slots).take (lockSize - k.locks.length) }

/-- The swap a walker sends for the marks of an entry: done only while memory holds what the walker read (R185). -/
def nmuCas (h : Half) (pa old new : Nat) (s : State) : Option State :=
  if (readRun s h pa 8).1 = toBytes 8 old then some (writeRun h pa (toBytes 8 new) s) else none

/-- Not an exception: the instruction waits, and runs again (R185; for attach windows log 22). -/
def stallX : Xf := xf 0x100 0

/-- A walk for an access: marks set or trapped, then the key, and the entry cached when both marks are set (R181, R184–R187).
The state carries a mark that was set even where the key then refuses the access. A failed swap counts and walks again, `n`
times in one step. -/
def walkAll : Nat → State → Nat → Ctx → Nat → Acc → State × Except Xf Tr
  | 0, s, _, _, _, _ => (s, .error stallX)
  | n + 1, s0, lcn, c, va, acc =>
  let s := bump (coreUnit lcn) 9 1 s0
  let h := lcnHalf s lcn
  let from_ := walkFrom (regimeH c) (tagVmid c) (some (curAsid c)) va (fld (curTtbr c) 51 12 * 4096) (lcnOf s lcn).walks
  match walk1 s h c va acc from_.1 from_.2 (lcnOf s lcn).walks with
  | .error x => (s, .error x)
  | .ok (l, ia, ws) =>
    let u := bitOf l.e 3
    let w := bitOf l.e 1
    let x := bitOf l.e 2
    let key := fld l.e 56 52
    let size := 2 ^ (12 + 9 * l.lvl)
    let out := leafAddr l va
    match permBad c acc u w x with
    | some k => (s, .error (s1Fault acc va k l.lvl 0))
    | none =>
      let r2 : Except Xf (Option Leaf × List WalkEnt) :=
        if s2On c then (stage2 s h c va out acc acc false ws).map (fun r => (some r.1, r.2)) else .ok (none, ws)
      match r2 with
      | .error z => (s, .error z)
      | .ok (s2, ws2) =>
        let w2 := match s2 with | some k => bitOf k.e 1 | none => true
        let x2 := match s2 with | some k => bitOf k.e 2 | none => true
        let pa := match s2 with | some k => leafAddr k out | none => out
        let psize := match s2 with | some k => min size (2 ^ (12 + 9 * k.lvl)) | none => size
        let unc := fld l.e 9 8 == 1 || (match s2 with | some k => fld k.e 9 8 == 1 | none => false)
        let refused := keyBad c acc key
        let wantD := (acc == .write && (refused.isNone || !adh s c)) || (acc == .tlock && adh s c && w && w2)
        let needA := !bitOf l.e 4
        let needD := wantD && !bitOf l.e 5
        let e' := l.e + (if needA then 16 else 0) + (if needD then 32 else 0)
        if ¬ adh s c ∧ needA then (s, .error ⟨0x0D, va, 0, xinfoOf 9 l.lvl 0 acc key false, false, 0, 0⟩)
        else if ¬ adh s c ∧ needD then (s, .error ⟨0x0D, va, 0, xinfoOf 10 l.lvl 0 acc key false, false, 0, 0⟩)
        else
          let wr : Except Xf Unit :=
            if (needA ∨ needD) ∧ s2On c then (stage2 s h c va ia acc .write true ws2).map (fun _ => ()) else .ok ()
          match wr with
          | .error z => (s, .error z)
          | .ok _ =>
            match (if needA ∨ needD then nmuCas h l.at_ l.e e' s else some s) with
            | none => walkAll n (bump (coreUnit lcn) 0xA 1 s) lcn c va acc
            | some s1 =>
              let s2' := updLcn lcn (fun k => { k with walks := ws2 }) s1
              match refused with
              | some k => (s2', .error ⟨0x0C, va, 0, xinfoOf k l.lvl 0 acc key false, false, 0, 0⟩)
              | none =>
                let ent : TlbEntry :=
                  { regH := regimeH c, vmid := tagVmid c, asid := curAsid c, g := bitOf l.e 6, va := va / psize * psize,
                    size := psize, pa := pa / psize * psize, key := key, unc := unc, u := u, w := w, x := x, d := bitOf e' 5,
                    s2w := w2, s2x := x2, ipa := if s2On c then some (out / psize * psize) else none, lvl1 := l.lvl
                    lvl2 := match s2 with | some k => k.lvl | none => 7 }
                let s3 := if bitOf e' 5 ∧ acc ≠ .tlock then updLcn lcn (fun k => l1Insert acc ent (l2Insert ent k)) s2' else s2'
                (s3, .ok ⟨pa, unc, ent⟩)

/-- The entry of an access with stage 1 off (R166, R183); TLOCK may lock it. -/
def flatEntry (c : Ctx) (va pa : Nat) (unc : Bool) : TlbEntry :=
  { regH := regimeH c, vmid := tagVmid c, asid := curAsid c, g := false, va := va / 4096 * 4096, size := 4096,
    pa := pa / 4096 * 4096, key := 0, unc := unc, u := true, w := true, x := true, d := true, s2w := true, s2x := true,
    ipa := if s2On c then some (va / 4096 * 4096) else none, lvl1 := 7, lvl2 := 7 }

/-- An access with stage 1 off (R166): the address itself, through stage 2 where that is on; key 0 (R183). -/
def flat (s : State) (lcn : Nat) (c : Ctx) (va : Nat) (acc : Acc) : State × Except Xf Tr :=
  let out := fun (t : State) (pa : Nat) (unc : Bool) =>
    match keyBad c acc 0 with
    | some k => (t, Except.error (⟨0x0C, va, 0, xinfoOf k 7 0 acc 0 false, false, 0, 0⟩ : Xf))
    | none => (t, .ok (⟨pa, unc, flatEntry c va pa unc⟩ : Tr))
  if s2On c then
    match stage2 s (lcnHalf s lcn) c va va acc acc false (lcnOf s lcn).walks with
    | .error z => (s, .error z)
    | .ok (l, ws) => out (updLcn lcn (fun k => { k with walks := ws }) s) (leafAddr l va) (fld l.e 9 8 == 1)
  else out s va false

/-- Translate one address for an access of a context whose working registers are `c` (R166–R188): by a locked entry, the L1
and L2 TLBs, or a walk. -/
def translate (s : State) (lcn : Nat) (c : Ctx) (va : Nat) (acc : Acc) : State × Except Xf Tr :=
  if ¬ bitOf (curTtbr c) 0 then
    if 2 ^ 52 ≤ va then (s, .error (s1Fault acc va 1 7 0)) else flat s lcn c va acc
  else if fld va 63 57 ≠ (if bitOf va 56 then 127 else 0) then (s, .error (s1Fault acc va 1 7 0))
  else if acc = .tlock then walkAll 2 s lcn c va acc
  else
    let k := lcnOf s lcn
    match k.locks.find? (tlbHit c va) with
    | some e => (s, useEntry c va acc true e)
    | none =>
      match (if acc = .fetch then k.itlb else k.dtlb).find? (tlbHit c va) with
      | some e => (s, useEntry c va acc false e)
      | none =>
        match (k.tlb ++ k.slots).find? (tlbHit c va) with
        | some e => (updLcn lcn (l1Insert acc e) s, useEntry c va acc false e)
        | none => walkAll 2 s lcn c va acc

end Sys2Proof.Machine
end

