-- ==== Sys2Proof/Machine/CoreMem.lean ====
section
/-! DEFINITION. A core's data accesses: the store buffer (R135, R138, R201, R209), loads and stores through translation,
one-shot register and window accesses (R140), and taking and returning from an exception (R119–R124). -/
namespace Sys2Proof.Machine

/-! ### Taking an exception -/

/-- Target level: H for codes that go there and when raised at H, else S (R120, R121). -/
def targetLvl (p : Psw) (x : Xf) : Lvl := if x.toH ∨ p.pl = .h then .h else .s

/-- Codes whose details go to XINFO (R182). -/
def hasInfo (code : Nat) : Bool := code == 0x05 || (0x0B ≤ code && code ≤ 0x0F)

/-- Exception entry (R122, R182): XPC, XPSW, XCODE and XADDR of the target level, PL raised, A5, IE and SS cleared, and
the PC at the vector. XADDR of 0x07 to 0x09 is the instruction's address (R121). The streaming detector disarms (R201). -/
def enterX (ctx : Nat) (x : Xf) (pc : W64) (c : Ctx) : Ctx :=
  let l := targetLvl c.psw x
  let upd := fun (r : XRegs) => { r with
    xpc := pc
    xpsw := BitVec.ofNat 64 (c.psw.toNat ctx)
    xcode := BitVec.ofNat 64 (x.code + x.sub * 256)
    xaddr := if 0x07 ≤ x.code ∧ x.code ≤ 0x09 then pc else BitVec.ofNat 64 x.addr
    xinfo := if x.code = 0x18 then r.xinfo else if hasInfo x.code then BitVec.ofNat 64 x.info else 0 }
  let vec := fun (r : XRegs) => canonPc (r.evb.toNat + x.code * 64)
  let c1 := { c with psw := { c.psw with pl := l, a5 := false, ie := false, ss := false }, sdRun := 0, sdBytes := 0,
                     s2va := if x.code = 0x18 then BitVec.ofNat 64 x.va else c.s2va,
                     s2ipa := if x.code = 0x18 then BitVec.ofNat 64 x.ipa else c.s2ipa,
                     s2info := if x.code = 0x18 then BitVec.ofNat 64 x.info else c.s2info }
  if l = .h then { c1 with xh := upd c.xh, pc := vec c.xh } else { c1 with xs := upd c.xs, pc := vec c.xs }

/-- The shared exception entry of a context; it stands last in its retire group (R136). -/
def takeX (lcn ctx : Nat) (x : Xf) (pc : W64) (s : State) : State := closeGroup lcn ctx (updCtx lcn ctx (enterX ctx x pc) s)

/-- PSW of a saved word (R124). -/
def pswOf (x : Nat) : Psw :=
  { pl := if fld x 31 30 = 0 then .u else if fld x 31 30 = 1 then .s else .h,
    a5 := bitOf x 29, ie := bitOf x 28, ss := bitOf x 27, iv := bitOf x 26, dv := bitOf x 25, fe := fld x 24 20,
    ff := fld x 19 15, rm := fld x 14 12, cc := ccOf (x % 16) }

/-- Return from exception (R124): PC and PSW from XPC and XPSW of the current level; none raises ILLEGAL. -/
def leaveX (c : Ctx) : Option Ctx :=
  let r := if c.psw.pl = .h then c.xh else c.xs
  let p := fld r.xpsw.toNat 31 30
  if p = 3 ∨ c.psw.pl.n < p then none else some { c with pc := canonPc r.xpc.toNat, psw := pswOf r.xpsw.toNat }

/-! ### The store buffer -/

/-- One entry becomes globally performed (R138): into the core's L2 held writable, in MIRRORED mode through the home, an
uncached one at its home. A sector that stays poisoned is what PUBLISH reports (R106). -/
def performStore (lcn ctx : Nat) (e : SbEntry) (s : State) : State :=
  let core := coreFor s lcn
  let d := core / 128
  let h := lcnHalf s lcn
  let sec := e.pa / 64
  if ¬ dramOk s h e.pa e.data.length then s
  else
    let s1 :=
      if e.uncached then writeSector s h sec (e.pa % 64) e.data
      else
        let s0 := agentWrite d sec (e.pa % 64) e.data s
        if (csec s0 d sec).st = .i then s0 else l2Write core sec s0
    let bad := (curSector s1 h sec).2
    if bad then updCtx lcn ctx (fun c => { c with badStore := some e.pa }) s1 else s1

/-- A sector the context stores to while its detector is armed: the run's 65th or a later one (R201). -/
def armedSec (c : Ctx) (sec : Nat) : Bool := decide (sec ≤ c.sdNext ∧ c.sdNext + 64 ≤ sec + c.sdRun)

/-- The oldest entries of an armed run that cover one sector whole: they leave as one full-sector write (R201). -/
def streamHead (s : State) (c : Ctx) : Option (Nat × List SbEntry) :=
  match c.sb with
  | [] => none
  | e :: _ =>
    let sec := e.pa / 64
    let mine := c.sb.takeWhile (fun x => x.pa / 64 == sec && !x.uncached)
    if armedSec c sec ∧ sec < c.sdNext ∧ effMode s ≠ .mirrored then some (sec, mine) else none

/-- Entries have left the store buffer. -/
def popSb (lcn ctx n : Nat) (s : State) : State :=
  let k := ckOf s lcn ctx
  setCk lcn ctx { k with sbn := k.sbn - n } (updCtx lcn ctx (fun c => { c with sb := c.sb.drop n }) s)

/-- Drain the oldest entries, in at most `n` turns. -/
def drainSb (lcn ctx : Nat) : Nat → State → State
  | 0, s => s
  | n + 1, s =>
    match (ctxOf s lcn ctx).sb with
    | [] => s
    | e :: _ =>
      match streamHead s (ctxOf s lcn ctx) with
      | some (sec, mine) =>
        let d := mine.foldl (fun b x => splice b (x.pa % 64) x.data) (List.replicate 64 0)
        drainSb lcn ctx n (writeSector (popSb lcn ctx mine.length s) (lcnHalf s lcn) sec 0 d)
      | none => drainSb lcn ctx n (performStore lcn ctx e (popSb lcn ctx 1 s))

/-- Every store of the context so far is retired and becomes globally performed (R106, R107, R140). -/
def drainAll (lcn ctx : Nat) (s : State) : State := drainSb lcn ctx (ctxOf s lcn ctx).sb.length (retireGroup lcn ctx s)

/-- A group retires, and the oldest stores leave when more than the 64 entries of the buffer are in use (R135, R138). -/
def groupDone (lcn ctx : Nat) (s : State) : State := drainSb lcn ctx ((ctxOf s lcn ctx).sb.length - 64) (closeGroup lcn ctx s)

/-- Stores that wait for the rest of an armed run's sector, which its L2 does not allocate (R201). -/
def streamWaits (c : Ctx) : Bool :=
  match c.sb with
  | e :: _ => armedSec c c.sdNext && e.pa / 64 == c.sdNext && !e.uncached
  | [] => false

/-- Drain while time passes (R138); when is open (log 7). -/
def drainFree (lcn ctx : Nat) : Nat → State → State
  | 0, s => s
  | n + 1, s => if streamWaits (ctxOf s lcn ctx) then s else drainFree lcn ctx n (drainSb lcn ctx 1 s)

/-- Streaming detector on the bytes `m` of one sector (R201): in the run's next sector they add to it, elsewhere a run
begins; a sector written whole is one of the run. -/
def streamSec (sec m : Nat) (c : Ctx) : Ctx :=
  let run := if sec = c.sdNext then c.sdRun else 0
  let w := if sec = c.sdNext then c.sdBytes.lor m else m
  if w = 2 ^ 64 - 1 then { c with sdNext := sec + 1, sdBytes := 0, sdRun := run + 1 }
  else { c with sdNext := sec, sdBytes := w, sdRun := run }

/-- The detector on a store. -/
def streamStore (pa n : Nat) (c : Ctx) : Ctx :=
  (upTo ((pa % 64 + n + 63) / 64)).foldl (fun x i =>
    let lo := if i = 0 then pa % 64 else 0
    let hi := min 64 (pa % 64 + n - 64 * i)
    streamSec (pa / 64 + i) (2 ^ hi - 2 ^ lo) x) c

/-- A load of the run's last 4 KiB breaks it (R201). -/
def streamLoad (pa n : Nat) (c : Ctx) : Ctx :=
  if c.sdNext * 64 < pa + n + min c.sdRun 64 * 64 ∧ pa < c.sdNext * 64 + (if c.sdBytes = 0 then 0 else 64) then
    { c with sdRun := 0, sdBytes := 0, sdNext := 0 } else c

/-- Split bytes at 32-byte boundaries: one store-buffer entry each (R135). -/
def sbEntries (pa : Nat) (d : List Byte) (unc : Bool) : List SbEntry :=
  let n := (pa % 32 + d.length + 31) / 32
  (upTo n).map (fun i =>
    let lo := if i = 0 then 0 else 32 * i - pa % 32
    let hi := 32 * (i + 1) - pa % 32
    ⟨pa + lo, (d.drop lo).take (hi - lo), unc⟩)

/-- A store of the instruction under way: it stands behind those of the store buffer and enters it as the instruction's
group retires (R135, R138). -/
def storeRun (lcn ctx : Nat) (pa : Nat) (d : List Byte) (unc : Bool) (s : State) : State :=
  updCtx lcn ctx (fun c =>
    let c1 := { c with sb := c.sb ++ sbEntries pa d unc }
    if unc then c1 else streamStore pa d.length c1) s

/-! ### Accesses -/

/-- A page's part of an access: virtual and physical address, length, uncached. -/
structure Chunk where
  va : Nat
  pa : Nat
  n : Nat
  unc : Bool
deriving DecidableEq, Repr

/-- Address errors of a data access (R29, R31): regions, the DRAM limit, path windows, the other half in SPLIT, and
register accesses that are not aligned words. -/
def busBad (s : State) (h : Half) (k : Chunk) : Bool :=
  match regionOf k.pa with
  | .dram => !dramOk s h k.pa k.n
  | .reserved => true
  | .path _ _ _ => true
  | .regs o _ => (effMode s == .split && o != h) || !((k.n == 4 || k.n == 8) && k.pa % k.n == 0)
  | .attach p off => (effMode s == .split && portHalf p != h) || !winShape off k.n

/-- Pages an access touches: virtual address and length of each part (R91, R93). -/
def pageParts (va n : Nat) : List (Nat × Nat) :=
  let k := (va % 4096 + n + 4095) / 4096
  (upTo k).map (fun i =>
    let lo := if i = 0 then 0 else 4096 * i - va % 4096
    let hi := 4096 * (i + 1) - va % 4096
    (((va + lo) % 2 ^ 64), (if n ≤ hi then n else hi) - lo))

/-- Translate every page of an access (R91). A page the key refuses is remembered while the others are walked: PKEY comes
after the translation exceptions of the operand (R123). -/
def resolveGo (s : State) (lcn : Nat) (c : Ctx) (acc : Acc) : List (Nat × Nat) → State × Except Xf (List Chunk × Option Xf)
  | [] => (s, .ok ([], none))
  | (va, n) :: t =>
    match translate s lcn c va acc with
    | (s1, .error x) =>
      if x.code ≠ 0x0C then (s1, .error x)
      else match resolveGo s1 lcn c acc t with
        | (s2, .error y) => (s2, .error y)
        | (s2, .ok q) => (s2, .ok (q.1, some x))
    | (s1, .ok r) =>
      match resolveGo s1 lcn c acc t with
      | (s2, .error y) => (s2, .error y)
      | (s2, .ok q) => (s2, .ok (⟨va, r.pa, n, r.unc⟩ :: q.1, q.2))

/-- Virtual address of the first byte of a part that has no place (R121). -/
def badByte (s : State) (h : Half) (k : Chunk) : Nat :=
  if regionOf k.pa = .dram then k.va + ((upTo k.n).find? (fun i => !dramOk s h (k.pa + i) 1)).getD 0 else k.va

/-- Resolve an access: every page translated, then the keys, then the addresses (R91, R123). -/
def resolve (s : State) (lcn : Nat) (c : Ctx) (va n : Nat) (acc : Acc) : State × Except Xf (List Chunk) :=
  match resolveGo s lcn c acc (pageParts va n) with
  | (s1, .error x) => (s1, .error x)
  | (s1, .ok (_, some x)) => (s1, .error x)
  | (s1, .ok (ks, none)) =>
    match ks.find? (busBad s1 (lcnHalf s1 lcn)) with
    | some k => (s1, .error (xf (if acc = .fetch then 0x06 else 0x10) (badByte s1 (lcnHalf s1 lcn) k)))
    | none => (s1, .ok ks)

/-- Bytes of a context's own store buffer laid over what memory gives (R75). -/
def forward (sb : List SbEntry) (pa : Nat) (d : List Byte) : List Byte :=
  sb.foldl (fun b e =>
    (upTo e.data.length).foldl (fun b2 i =>
      if pa ≤ e.pa + i ∧ e.pa + i < pa + d.length then b2.set (e.pa + i - pa) (e.data.getD i 0) else b2) b) d

/-- MACHINE_CHECK by consuming poison (R160, R220): a fault of the instruction, to H. -/
def poisonX (pa : Nat) : Xf := ⟨0x01, pa, 1, 0, true, 0, 0⟩

/-- Physical address of the first poisoned byte of a run of DRAM (R121, R160). -/
def firstPoison (s : State) (h : Half) (pa n : Nat) : Option Nat :=
  ((upTo ((pa % 64 + n + 63) / 64)).find? (fun i => (curSector s h (pa / 64 + i)).2)).map (fun i => max pa ((pa / 64 + i) * 64))

/-- A sector enters the caches of a core for a load: the L3 of its die, its L2 and its L1D. A line new in the L1D is in no
frame store (R94). -/
def loadLine (lcn sec : Nat) (s : State) : State :=
  let core := coreFor s lcn
  let s1 := fillShared (core / 128) sec s
  if inL1d s1 core sec then s1 else dropFrameSec lcn sec (loadL1 core sec s1)

/-- Sectors of a run of bytes. -/
def sectorsOf (pa n : Nat) : List Nat := (upTo ((pa % 64 + n + 63) / 64)).map (fun i => pa / 64 + i)

/-- The context sends a one-shot access: every earlier store is performed, the request ID counts, and its instruction
stands last in its group (R136, R140). -/
def sendShot (lcn ctx va : Nat) (s : State) : State :=
  updCtx lcn ctx (fun c => { c with reqId := (c.reqId + 1) % 65536, shotVa := va, last := true }) (drainAll lcn ctx s)

/-- Load the bytes of resolved parts (R100, R138, R204). Registers and windows are one-shot reads, made after every
earlier store (R140). -/
def loadChunks (lcn ctx : Nat) : List Chunk → State → State × Except Xf (List Byte)
  | [], s => (s, .ok [])
  | k :: t, s =>
    let h := lcnHalf s lcn
    let step : State × Except Xf (List Byte) :=
      match regionOf k.pa with
      | .dram =>
        let s1 := if k.unc then s else (sectorsOf k.pa k.n).foldl (fun u x => loadLine lcn x u) s
        (match dmaRead s1 h k.pa k.n with
          | none => (s1, .error (xf 0x10 k.va))
          | some (_, true) => (s1, .error (poisonX ((firstPoison s1 h k.pa k.n).getD k.pa)))
          | some (d, false) =>
            (updCtx lcn ctx (streamLoad k.pa k.n) s1, .ok (forward (ctxOf s1 lcn ctx).sb k.pa d)))
      | _ =>
        (match busRead (sendShot lcn ctx k.va s) lcn ctx k.pa k.n with
          | (s2, .ok d) => (s2, .ok d)
          | (s2, .err) => (s2, .error (xf 0x10 k.va))
          | (s2, .poison) => (s2, .error (poisonX k.pa))
          | (s2, .wait) => (s2, .error stallX))
    match step with
    | (s1, .error x) => (s1, .error x)
    | (s1, .ok d) =>
      match loadChunks lcn ctx t s1 with
      | (s2, .error x) => (s2, .error x)
      | (s2, .ok r) => (s2, .ok (d ++ r))

/-- Store bytes to resolved parts; a register or window store is a one-shot write after every earlier store (R138, R140). -/
def storeChunks (lcn ctx : Nat) : List Chunk → List Byte → State → State
  | [], _, s => s
  | k :: t, d, s =>
    let s1 := match regionOf k.pa with
      | .dram => storeRun lcn ctx k.pa (d.take k.n) k.unc s
      | _ => busWrite k.pa (d.take k.n) (sendShot lcn ctx k.va s)
    storeChunks lcn ctx t (d.drop k.n) s1

/-- The bytes of a fetch reach the core's L1I; poisoned ones are consumed by it (R120, R160). -/
def fetchBytes (lcn : Nat) : List Chunk → State → State × Except Xf Unit
  | [], s => (s, .ok ())
  | k :: t, s =>
    if regionOf k.pa ≠ .dram then fetchBytes lcn t s
    else
      let core := coreFor s lcn
      let s1 := if k.unc then s else (sectorsOf k.pa k.n).foldl (fun u x => fetchL1 core x (fillShared (core / 128) x u)) s
      match firstPoison s1 (lcnHalf s1 lcn) k.pa k.n with
      | some pa => (s1, .error (poisonX pa))
      | none => fetchBytes lcn t s1

/-- Fetch page by page, the lowest parcel's exceptions first (R123). -/
def fetchGo (lcn : Nat) (c : Ctx) : List (Nat × Nat) → State → State × Except Xf Unit
  | [], s => (s, .ok ())
  | (va, n) :: t, s =>
    match resolve s lcn c va n .fetch with
    | (s1, .error x) => (s1, .error x)
    | (s1, .ok ks) =>
      match fetchBytes lcn ks s1 with
      | (s2, .error x) => (s2, .error x)
      | (s2, .ok _) => fetchGo lcn c t s2

def fetchRun (s : State) (lcn : Nat) (c : Ctx) (va n : Nat) : State × Except Xf Unit := fetchGo lcn c (pageParts va n) s

end Sys2Proof.Machine
end

