-- ==== Sys2Proof/Machine/Flags.lean ====
section
/-! DEFINITION. Integer arithmetic and every flag computation: R95, R101, R103 for AN, R134 for A5. Values are numbers
below 2^w. -/
namespace Sys2Proof.Machine

/-- A number as a signed value of `w` bits (two's complement, R95). -/
def toS (w x : Nat) : Int := if x % 2 ^ w < 2 ^ (w - 1) then (x % 2 ^ w : Nat) else (x % 2 ^ w : Nat) - (2 ^ w : Nat)

/-- An integer as `w` bits of two's complement. -/
def ofS (w : Nat) (x : Int) : Nat := (x % (2 ^ w : Nat)).toNat

/-- A signed value does not fit `w` bits. -/
def sOver (w : Nat) (x : Int) : Bool := decide (x < -(2 ^ (w - 1) : Nat) ∨ (2 ^ (w - 1) : Nat) ≤ x)

/-- A result with the flags it sets; `over` tells a signed overflow (R95). -/
structure Res where
  val : Nat
  cc : Cc
deriving DecidableEq, Repr

/-- N and Z from a result of `w` bits. -/
def nz (w x : Nat) (v c : Bool) : Cc := ⟨bitOf x (w - 1), x % 2 ^ w == 0, v, c⟩

def resOf (w x : Nat) (v c : Bool) : Res := ⟨x % 2 ^ w, nz w x v c⟩

/-- a + b (R95). -/
def addR (w a b : Nat) : Res :=
  resOf w (a + b) (sOver w (toS w a + toS w b)) (decide (2 ^ w ≤ a % 2 ^ w + b % 2 ^ w))

/-- a − b (R95). -/
def subR (w a b : Nat) : Res :=
  resOf w (a % 2 ^ w + (2 ^ w - b % 2 ^ w)) (sOver w (toS w a - toS w b)) (decide (a % 2 ^ w < b % 2 ^ w))

/-- a × b: the low bits, V when the signed product does not fit, C when the unsigned one does not (R95). -/
def mulR (w a b : Nat) : Res :=
  resOf w (a * b) (sOver w (toS w a * toS w b)) (decide (2 ^ w ≤ (a % 2 ^ w) * (b % 2 ^ w)))

/-- a ÷ b truncated toward zero; b is not 0 (R95; R133 for A5). For AN the spec states no rounding: DESIGN CHOICE (log 38). -/
def divR (w a b : Nat) : Res :=
  let q := (toS w a).tdiv (toS w b)
  resOf w (ofS w q) (sOver w q) false

def divuR (w a b : Nat) : Res := resOf w (a % 2 ^ w / (b % 2 ^ w)) false false

/-- Remainder with the sign of the dividend; b is not 0 (R133 for A5). For AN: DESIGN CHOICE (log 38). -/
def remR (w a b : Nat) : Res := resOf w (ofS w ((toS w a).tmod (toS w b))) false false

def remuR (w a b : Nat) : Res := resOf w (a % 2 ^ w % (b % 2 ^ w)) false false

def negR (w a : Nat) : Res := subR w 0 a

def absR (w a : Nat) : Res := if toS w a < 0 then ⟨(subR w 0 a).val, nz w (subR w 0 a).val (subR w 0 a).cc.v false⟩ else resOf w a false false

/-- Compares set CC as a subtraction does, with N telling a signed and C an unsigned less-than; CMPU's N and V are those
of the same subtraction (R86, R95). -/
def cmpR (w a b : Nat) : Cc := (subR w a b).cc

def minR (w a b : Nat) : Res := resOf w (if toS w a ≤ toS w b then a else b) false false
def maxR (w a b : Nat) : Res := resOf w (if toS w a ≤ toS w b then b else a) false false

/-- Logic instructions clear V and C (R103, R134). -/
def logicR (w x : Nat) : Res := resOf w x false false

/-- Shifts by a count taken modulo the width; C is the last bit out, 0 for a count of 0 (R103). -/
def shlR (w a n : Nat) : Res :=
  let k := n % w
  resOf w (a * 2 ^ k) false (k != 0 && bitOf (a % 2 ^ w) (w - k))

def shrR (w a n : Nat) : Res :=
  let k := n % w
  resOf w (a % 2 ^ w / 2 ^ k) false (k != 0 && bitOf a (k - 1))

def sarR (w a n : Nat) : Res :=
  let k := n % w
  resOf w (ofS w (toS w a / (2 ^ k : Nat))) false (k != 0 && bitOf a (k - 1))

/-- Rotate left: the last bit rotated out is the one that entered bit 0. -/
def rotR (w a n : Nat) : Res :=
  let k := n % w
  let x := a % 2 ^ w
  let r := (x * 2 ^ k + x / 2 ^ (w - k)) % 2 ^ w
  resOf w r false (k != 0 && bitOf r 0)

/-- Integer square root, rounded down: DESIGN CHOICE for SQRT of integers and packed decimals (log 38). -/
def isqrt (n : Nat) : Nat :=
  ((List.range (n.log2 / 2 + 1)).reverse).foldl (fun r i => if (r + 2 ^ i) * (r + 2 ^ i) ≤ n then r + 2 ^ i else r) 0

/-- A branch condition 0x0–0xF of BCC (R101). -/
def condHolds (k : Nat) (c : Cc) : Bool :=
  match k with
  | 0 => c.z
  | 1 => !c.z
  | 2 => c.n != c.v
  | 3 => c.n == c.v
  | 4 => c.z || c.n != c.v
  | 5 => !(c.z || c.n != c.v)
  | 6 => c.c
  | 7 => !c.c
  | 8 => c.v
  | 9 => !c.v
  | 10 => c.n
  | 11 => !c.n
  | 12 => c.toNat == 0
  | 13 => c.toNat == 1
  | 14 => c.toNat == 2
  | _ => c.toNat == 3

/-- CC of a result code k: N and Z 0, V bit 1, C bit 0 (R105). -/
def codeCc (k : Nat) : Cc := ⟨false, false, bitOf k 1, bitOf k 0⟩

end Sys2Proof.Machine
end

