-- ==== Sys2Proof/Machine/Decimal.lean ====
section
/-! DEFINITION. Packed decimal (R98): strings of digits, most significant first, sign in the last nibble. -/
namespace Sys2Proof.Machine

/-- Bytes of a packed-decimal operand of N digits (R98). -/
def pdBytes (digits : Nat) : Nat := digits / 2 + 1

/-- Nibbles of a byte list, high nibble first. -/
def nibbles : List Byte → List Nat
  | [] => []
  | b :: t => b.toNat / 16 :: b.toNat % 16 :: nibbles t

/-- The signed value of a packed-decimal operand; none is invalid data (DECIMAL_DATA, R98). -/
def pdVal (digits : Nat) (bs : List Byte) : Option Int :=
  let ns := nibbles bs
  let body := ns.take (ns.length - 1)
  let sign := ns.getLastD 0
  if body.any (fun d => decide (9 < d)) ∨ sign < 10 ∨ (digits % 2 = 0 ∧ body.headD 0 ≠ 0) then none
  else
    let m : Nat := body.foldl (fun n d => n * 10 + d) 0
    some (if sign = 11 ∨ sign = 13 then -(m : Int) else (m : Int))

/-- The nibbles of a number, least significant digit first. -/
def digitsLow : Nat → Nat → List Nat
  | 0, _ => []
  | n + 1, x => x % 10 :: digitsLow n (x / 10)

def pairUp : List Nat → List Byte
  | a :: b :: t => BitVec.ofNat 8 (a * 16 + b) :: pairUp t
  | _ => []

/-- A value as a packed-decimal operand of N digits: low-order digits kept, sign 0xC or 0xD; zero is positive (R98). -/
def pdPut (digits : Nat) (v : Int) : List Byte :=
  let w := pdBytes digits * 2 - 1
  let m := v.natAbs % 10 ^ digits
  let sign := if v < 0 ∧ m ≠ 0 then 13 else 12
  pairUp ((digitsLow w m).reverse ++ [sign])

/-- More significant digits than the destination (R98). -/
def pdOver (digits : Nat) (v : Int) : Bool := decide (10 ^ digits ≤ v.natAbs)

/-- CC of a packed-decimal result: N and Z from the result kept, V on overflow, C clear (R95, R98). -/
def pdCc (digits : Nat) (v : Int) : Cc :=
  let m := v.natAbs % 10 ^ digits
  ⟨decide (v < 0 ∧ m ≠ 0), decide (m = 0), pdOver digits v, false⟩

end Sys2Proof.Machine
end

