-- ==== Sys2Proof/Machine/Float.lean ====
section
/-! DEFINITION. IEEE 754 binary and decimal arithmetic (R96, R97) over exact integers: unpack, one exact operation,
one rounding under PSW.RM, pack. -/
namespace Sys2Proof.Machine

/-- A floating format: radix, precision, exponent range of an integer significand (value m × b^e), storage bits. -/
structure Fmt where
  dec : Bool
  prec : Nat
  emin : Int
  emax : Int
  bits : Nat
deriving DecidableEq, Repr

def Fmt.radix (f : Fmt) : Nat := if f.dec then 10 else 2

/-- binary32, binary64, binary128, decimal64, decimal128 (R83). -/
def b32F : Fmt := ⟨false, 24, -149, 104, 32⟩
def b64F : Fmt := ⟨false, 53, -1074, 971, 64⟩
def b128F : Fmt := ⟨false, 113, -16494, 16271, 128⟩
def d64F : Fmt := ⟨true, 16, -398, 369, 64⟩
def d128F : Fmt := ⟨true, 34, -6176, 6111, 128⟩

/-- A floating datum. -/
inductive Fp where
  | fin (neg : Bool) (m : Nat) (e : Int)
  | inf (neg : Bool)
  | nan (signaling : Bool) (neg : Bool) (payload : Nat)
deriving DecidableEq, Repr

/-- Exception conditions in FE order: 16 invalid, 8 divide-by-zero, 4 overflow, 2 underflow, 1 inexact (R77); 32 marks a
tiny result that is exact, which IEEE 754 signals as underflow only where that traps. -/
abbrev Exc := Nat

/-- A result and the conditions it met. -/
structure FRes where
  val : Fp
  exc : Exc
deriving DecidableEq, Repr

/-! ### Rounding -/

/-- Number of radix-b digits of m. -/
def numDigits (b : Nat) : Nat → Nat → Nat
  | 0, _ => 0
  | fuel + 1, m => if m = 0 then 0 else 1 + numDigits b fuel (m / b)

def digitsOf (f : Fmt) (m : Nat) : Nat := if f.dec then numDigits 10 (m.log2 + 2) m else if m = 0 then 0 else m.log2 + 1

/-- Round up? By mode, sign, oddness of the kept digits, and the discarded part against one half (R77). -/
def roundUp (rm : Nat) (neg odd : Bool) (rem half : Nat) (sticky : Bool) (even2 : Bool) : Bool :=
  let gt := decide (half < rem) || (decide (rem = half) && sticky)
  let eq := decide (rem = half) && !sticky && even2
  let any := decide (0 < rem) || sticky
  match rm with
  | 1 => false
  | 2 => any && !neg
  | 3 => any && neg
  | 4 => gt || eq
  | _ => gt || (eq && odd)

/-- Make the exponent as near the preferred one as the digits allow (decimal, exact results). -/
def toward (f : Fmt) (pref : Int) : Nat → Nat → Int → Nat × Int
  | 0, m, e => (m, e)
  | n + 1, m, e =>
    if m = 0 then (0, if pref < f.emin then f.emin else if f.emax < pref then f.emax else pref)
    else if e < pref ∧ m % 10 = 0 then toward f pref n (m / 10) (e + 1)
    else if pref < e ∧ digitsOf f m < f.prec ∧ f.emin < e then toward f pref n (m * 10) (e - 1)
    else (m, e)

/-- Round (m + sticky) × b^e to the format, with preferred exponent for decimal results. -/
def roundFp (f : Fmt) (rm : Nat) (neg : Bool) (m : Nat) (e : Int) (sticky : Bool) (pref : Int) : FRes :=
  let b := f.radix
  if m = 0 ∧ ¬ sticky then
    ⟨.fin neg 0 (if f.dec then (if pref < f.emin then f.emin else if f.emax < pref then f.emax else pref) else f.emin), 0⟩
  else
    let n := digitsOf f m
    let extra : Int := (n : Int) - f.prec
    let dropI : Int := if f.emin - e > extra then f.emin - e else extra
    let d := dropI.toNat
    let p := b ^ d
    let q := m / p
    let rem := m % p
    let inexact := decide (0 < rem) || sticky
    let up := roundUp rm neg (q % 2 == 1) (2 * rem) p sticky true
    let q1 := if up then q + 1 else q
    let e1 : Int := e + d
    let q2 := if q1 = b ^ f.prec then q1 / b else q1
    let e2 : Int := if q1 = b ^ f.prec then e1 + 1 else e1
    -- tiny after rounding: as rounded to the precision with no bound on the exponent
    let x := extra.toNat
    let carry : Int :=
      if roundUp rm neg (m / b ^ x % 2 == 1) (2 * (m % b ^ x)) (b ^ x) sticky true ∧ m / b ^ x + 1 = b ^ f.prec then 1 else 0
    let tiny := decide ((n : Int) + e + (if ¬ f.dec ∧ Config.tinyAfter then carry else 0) < f.emin + f.prec)
    -- a value above the largest exponent may still fit with more digits
    let norm := if f.dec ∧ ¬ inexact then toward f pref 40 q2 e2 else (q2, e2)
    let top := if f.emax < norm.2 then toward f f.emax 40 norm.1 norm.2 else norm
    if f.emax < top.2 then
      let maxFin := (.fin neg (b ^ f.prec - 1) f.emax : Fp)
      let v := match rm with
        | 1 => maxFin
        | 2 => if neg then maxFin else .inf neg
        | 3 => if neg then .inf neg else maxFin
        | _ => .inf neg
      ⟨v, 4 + 1⟩
    else ⟨.fin neg top.1 top.2, (if inexact then 1 else 0) + (if tiny then (if inexact then 2 else 32) else 0)⟩

/-! ### Encodings -/

/-- Bits of exponent and of trailing significand of a binary format. -/
def binExp (f : Fmt) : Nat := f.bits - f.prec

def unpackBin (f : Fmt) (x : Nat) : Fp :=
  let t := f.prec - 1
  let neg := bitOf x (f.bits - 1)
  let ex := fld x (f.bits - 2) t
  let fr := x % 2 ^ t
  if ex = 2 ^ binExp f - 1 then (if fr = 0 then .inf neg else .nan (!bitOf fr (t - 1)) neg (fr % 2 ^ (t - 1)))
  else if ex = 0 then .fin neg fr f.emin
  else .fin neg (fr + 2 ^ t) (f.emin + (ex - 1 : Nat))

/-- A finite binary value is first brought to full precision or the smallest exponent. -/
def normBin (f : Fmt) (m : Nat) (e : Int) : Nat × Int :=
  let k := f.prec - digitsOf f m
  let room := (e - f.emin).toNat
  let s := if k ≤ room then k else room
  (m * 2 ^ s, e - s)

def packBin (f : Fmt) (v : Fp) : Nat :=
  let t := f.prec - 1
  match v with
  | .inf n => b2n n * 2 ^ (f.bits - 1) + (2 ^ binExp f - 1) * 2 ^ t
  | .nan s n p => b2n n * 2 ^ (f.bits - 1) + (2 ^ binExp f - 1) * 2 ^ t + (if s then 0 else 2 ^ (t - 1)) + p % 2 ^ (t - 1)
  | .fin n m e =>
    let c := normBin f m e
    if c.1 < 2 ^ t then b2n n * 2 ^ (f.bits - 1) + c.1
    else b2n n * 2 ^ (f.bits - 1) + ((c.2 - f.emin).toNat + 1) * 2 ^ t + (c.1 - 2 ^ t)

/-- Three decimal digits of a declet (R97: densely packed decimal). -/
def dpdOut (x : Nat) : Nat :=
  let p := bitOf x 9
  let q := bitOf x 8
  let r := bitOf x 7
  let s := bitOf x 6
  let t := bitOf x 5
  let u := bitOf x 4
  let v := bitOf x 3
  let w := bitOf x 2
  let y := bitOf x 1
  let z := bitOf x 0
  let d3 := fun (a b c : Bool) => 4 * b2n a + 2 * b2n b + b2n c
  let d8 := fun (c : Bool) => 8 + b2n c
  let t3 :=
    if ¬ v then (d3 p q r, d3 s t u, d3 w y z)
    else if ¬ w ∧ ¬ y then (d3 p q r, d3 s t u, d8 z)
    else if ¬ w ∧ y then (d3 p q r, d8 u, d3 s t z)
    else if w ∧ ¬ y then (d8 r, d3 s t u, d3 p q z)
    else if ¬ s ∧ ¬ t then (d8 r, d8 u, d3 p q z)
    else if ¬ s ∧ t then (d8 r, d3 p q u, d8 z)
    else if s ∧ ¬ t then (d3 p q r, d8 u, d8 z)
    else (d8 r, d8 u, d8 z)
  t3.1 * 100 + t3.2.1 * 10 + t3.2.2

/-- The declet of three decimal digits. -/
def dpdIn (n : Nat) : Nat :=
  let a := n / 100 % 10
  let b := n / 10 % 10
  let c := n % 10
  let hi := fun (d : Nat) => decide (7 < d)
  let lo3 := fun (d : Nat) => d % 8
  let l := fun (d : Nat) => d % 2
  let mid := fun (d : Nat) => d / 2 % 4
  match hi a, hi b, hi c with
  | false, false, false => lo3 a * 128 + lo3 b * 16 + lo3 c
  | false, false, true => lo3 a * 128 + lo3 b * 16 + 8 + l c
  | false, true, false => lo3 a * 128 + mid c * 32 + l b * 16 + 10 + l c
  | true, false, false => mid c * 256 + l a * 128 + lo3 b * 16 + 12 + l c
  | true, true, false => mid c * 256 + l a * 128 + l b * 16 + 14 + l c
  | true, false, true => mid b * 256 + l a * 128 + 32 + l b * 16 + 14 + l c
  | false, true, true => lo3 a * 128 + 64 + l b * 16 + 14 + l c
  | true, true, true => l a * 128 + 96 + l b * 16 + 14 + l c

def declets : Nat → Nat → Nat
  | 0, _ => 0
  | k + 1, x => dpdOut (x % 1024) + 1000 * declets k (x / 1024)

def toDeclets : Nat → Nat → Nat
  | 0, _ => 0
  | k + 1, m => dpdIn (m % 1000) + 1024 * toDeclets k (m / 1000)

/-- Trailing declets and exponent-continuation bits of a decimal format. -/
def decT (f : Fmt) : Nat := (f.prec - 1) / 3
def decW (f : Fmt) : Nat := f.bits - 6 - 10 * decT f

def unpackDec (f : Fmt) (x : Nat) : Fp :=
  let neg := bitOf x (f.bits - 1)
  let g := fld x (f.bits - 2) (f.bits - 6)
  let w := fld x (f.bits - 7) (10 * decT f)
  let tr := x % 2 ^ (10 * decT f)
  if g = 31 then .nan (bitOf x (f.bits - 7)) neg (declets (decT f) tr)
  else if g = 30 then .inf neg
  else
    let lead := if 24 ≤ g then 8 + g % 2 else g % 8
    let eh := if 24 ≤ g then g / 2 % 4 else g / 8
    .fin neg (lead * 1000 ^ decT f + declets (decT f) tr) (f.emin + (eh * 2 ^ decW f + w : Nat))

def packDec (f : Fmt) (v : Fp) : Nat :=
  let top := 2 ^ (f.bits - 1)
  match v with
  | .inf n => b2n n * top + 30 * 2 ^ (f.bits - 6)
  | .nan s n p => b2n n * top + 31 * 2 ^ (f.bits - 6) + b2n s * 2 ^ (f.bits - 7) + toDeclets (decT f) p
  | .fin n m e =>
    let ex := (e - f.emin).toNat
    let lead := m / 1000 ^ decT f
    let eh := ex / 2 ^ decW f
    let g := if 8 ≤ lead then 24 + eh * 2 + lead % 2 else eh * 8 + lead
    b2n n * top + g * 2 ^ (f.bits - 6) + ex % 2 ^ decW f * 2 ^ (10 * decT f) + toDeclets (decT f) m

def unpackF (f : Fmt) (x : Nat) : Fp := if f.dec then unpackDec f x else unpackBin f x
def packF (f : Fmt) (v : Fp) : Nat := if f.dec then packDec f v else packBin f v

/-! ### Operations. `p` is the free payload of a NaN result (log 3). -/

def isSnan : Fp → Bool
  | .nan true _ _ => true
  | _ => false

def isNan : Fp → Bool
  | .nan _ _ _ => true
  | _ => false

def negF : Fp → Fp
  | .fin n m e => .fin (!n) m e
  | .inf n => .inf (!n)
  | .nan s n p => .nan s (!n) p

def absF : Fp → Fp
  | .fin _ m e => .fin false m e
  | .inf _ => .inf false
  | .nan s _ p => .nan s false p

/-- A NaN result: invalid for a signaling operand. -/
def nanRes (p : Nat) (a b : Fp) : FRes := ⟨.nan false false p, if isSnan a || isSnan b then 16 else 0⟩

def invalid (p : Nat) : FRes := ⟨.nan false false p, 16⟩

/-- Exact value of m × b^e over a common exponent. -/
def atExp (b : Nat) (m : Nat) (e k : Int) : Nat := m * b ^ (e - k).toNat

def addF (f : Fmt) (rm p : Nat) (a b : Fp) : FRes :=
  match a, b with
  | .nan _ _ _, _ => nanRes p a b
  | _, .nan _ _ _ => nanRes p a b
  | .inf x, .inf y => if x = y then ⟨.inf x, 0⟩ else invalid p
  | .inf x, _ => ⟨.inf x, 0⟩
  | _, .inf y => ⟨.inf y, 0⟩
  | .fin n1 m1 e1, .fin n2 m2 e2 =>
    let k := if e1 < e2 then e1 else e2
    let x : Int := (if n1 then -1 else 1) * (atExp f.radix m1 e1 k : Int)
    let y : Int := (if n2 then -1 else 1) * (atExp f.radix m2 e2 k : Int)
    let z := x + y
    let neg := if z = 0 then (if n1 = n2 then n1 else rm == 3) else decide (z < 0)
    roundFp f rm neg z.natAbs k false k

def mulF (f : Fmt) (rm p : Nat) (a b : Fp) : FRes :=
  match a, b with
  | .nan _ _ _, _ => nanRes p a b
  | _, .nan _ _ _ => nanRes p a b
  | .inf x, .fin y m _ => if m = 0 then invalid p else ⟨.inf (x != y), 0⟩
  | .fin x m _, .inf y => if m = 0 then invalid p else ⟨.inf (x != y), 0⟩
  | .inf x, .inf y => ⟨.inf (x != y), 0⟩
  | .fin n1 m1 e1, .fin n2 m2 e2 => roundFp f rm (n1 != n2) (m1 * m2) (e1 + e2) false (e1 + e2)

def divF (f : Fmt) (rm p : Nat) (a b : Fp) : FRes :=
  match a, b with
  | .nan _ _ _, _ => nanRes p a b
  | _, .nan _ _ _ => nanRes p a b
  | .inf _, .inf _ => invalid p
  | .inf x, .fin y _ _ => ⟨.inf (x != y), 0⟩
  | .fin x _ _, .inf y => ⟨.fin (x != y) 0 f.emin, 0⟩
  | .fin n1 m1 e1, .fin n2 m2 e2 =>
    if m2 = 0 then (if m1 = 0 then invalid p else ⟨.inf (n1 != n2), 8⟩)
    else
      let s := f.prec + 3 + digitsOf f m2
      let q := m1 * f.radix ^ s / m2
      let r := m1 * f.radix ^ s % m2
      roundFp f rm (n1 != n2) q (e1 - e2 - s) (decide (0 < r)) (e1 - e2)

/-- Remainder x − y × n with n the integer nearest x / y, even on a tie (IEEE 754). -/
def remF (f : Fmt) (rm p : Nat) (a b : Fp) : FRes :=
  match a, b with
  | .nan _ _ _, _ => nanRes p a b
  | _, .nan _ _ _ => nanRes p a b
  | .inf _, _ => invalid p
  | .fin n m e, .inf _ => ⟨.fin n m e, 0⟩
  | .fin n1 m1 e1, .fin _ m2 e2 =>
    if m2 = 0 then invalid p
    else
      let k := if e1 < e2 then e1 else e2
      let x := atExp f.radix m1 e1 k
      let y := atExp f.radix m2 e2 k
      let q := x / y
      let r := x % y
      let up := decide (y < 2 * r) || (decide (2 * r = y) && q % 2 == 1)
      let v : Int := if up then (r : Int) - y else r
      let neg := if v = 0 then n1 else if v < 0 then !n1 else n1
      roundFp f rm neg v.natAbs k false k

def sqrtF (f : Fmt) (rm p : Nat) (a : Fp) : FRes :=
  match a with
  | .nan _ _ _ => nanRes p a a
  | .inf true => invalid p
  | .inf false => ⟨.inf false, 0⟩
  | .fin n m e =>
    if m = 0 then ⟨.fin n 0 (e / 2), 0⟩
    else if n then invalid p
    else
      let odd : Nat := (e % 2).toNat
      let s := f.prec + 2
      let x := m * f.radix ^ (odd + 2 * s)
      let r := isqrt x
      let e' : Int := (e - odd) / 2 - s
      roundFp f rm false r e' (decide (r * r ≠ x)) ((e - odd) / 2)

/-- Order of two data that are no NaN: less, equal. -/
def ltEqF (b : Nat) (x y : Fp) : Bool × Bool :=
  match x, y with
  | .inf a, .inf c => (a && !c, a == c)
  | .inf a, _ => (a, false)
  | _, .inf c => (!c, false)
  | .fin n1 m1 e1, .fin n2 m2 e2 =>
    let k := if e1 < e2 then e1 else e2
    let u : Int := (if n1 then -1 else 1) * (atExp b m1 e1 k : Int)
    let v : Int := (if n2 then -1 else 1) * (atExp b m2 e2 k : Int)
    (decide (u < v), decide (u = v))
  | _, _ => (false, false)

/-- MIN and MAX. With a NaN the result is a NaN, and of two equal values such as +0 and −0 it is the left one for MAX, the
right one for MIN: DESIGN CHOICE, the spec says neither (log 38). -/
def minMaxF (f : Fmt) (p : Nat) (big : Bool) (a b : Fp) : FRes :=
  if isNan a || isNan b then nanRes p a b
  else if (ltEqF f.radix a b).1 then ⟨if big then b else a, 0⟩ else ⟨if big then a else b, 0⟩

/-! ### Conversions (R103) -/

/-- An integer rounded to a format. -/
def intToF (f : Fmt) (rm : Nat) (v : Int) : FRes := roundFp f rm (decide (v < 0)) v.natAbs 0 false 0

/-- A finite value rounded to an integer under RM, with inexact. -/
def finToInt (b rm : Nat) (neg : Bool) (m : Nat) (e : Int) : Int × Exc :=
  if 0 ≤ e then ((if neg then -1 else 1) * (m * b ^ e.toNat : Nat), 0)
  else
    let p := b ^ (-e).toNat
    let q := m / p
    let rem := m % p
    let up := roundUp rm neg (q % 2 == 1) (2 * rem) p false true
    ((if neg then -1 else 1) * ((if up then q + 1 else q : Nat) : Int), if rem = 0 then 0 else 1)

/-- Between floating formats. Across radices the value is scaled exactly, or to a quotient with a sticky digit. The preferred
exponent of an exact binary-to-decimal result, which picks the member of its cohort, is the binary exponent: DESIGN CHOICE
(log 38). -/
def fToF (g f : Fmt) (rm p : Nat) (a : Fp) : FRes :=
  match a with
  | .nan s n _ => ⟨.nan false n p, if s then 16 else 0⟩
  | .inf n => ⟨.inf n, 0⟩
  | .fin n m e =>
    if g.dec = f.dec then roundFp f rm n m e false e
    else if 0 ≤ e then roundFp f rm n (m * g.radix ^ e.toNat) 0 false 0
    else
      let den := g.radix ^ (-e).toNat
      let s := f.prec + 3 + digitsOf f den
      roundFp f rm n (m * f.radix ^ s / den) (-(s : Int)) (decide (0 < m * f.radix ^ s % den)) e

end Sys2Proof.Machine
end

