-- ==== Sys2Proof/Machine/Operands.lean ====
section
/-! DEFINITION. Reading an AN instruction's parcels (R80–R90): data types, specifiers, the length parcel. -/
namespace Sys2Proof.Machine

/-- Data types (R83). -/
inductive Ty where
  | i8 | i16 | i32 | i64 | i128 | b32 | b64 | b128 | d64 | d128 | pd | bs
deriving DecidableEq, Repr

def tyOf : Nat → Option Ty
  | 0 => some .i8
  | 1 => some .i16
  | 2 => some .i32
  | 3 => some .i64
  | 4 => some .i128
  | 5 => some .b32
  | 6 => some .b64
  | 7 => some .b128
  | 8 => some .d64
  | 9 => some .d128
  | 10 => some .pd
  | 11 => some .bs
  | _ => none

/-- Width in bytes of a type of fixed width (R83). -/
def Ty.bytes : Ty → Nat
  | .i8 => 1
  | .i16 => 2
  | .i32 => 4
  | .i64 => 8
  | .i128 => 16
  | .b32 => 4
  | .b64 => 8
  | .b128 => 16
  | .d64 => 8
  | .d128 => 16
  | .pd => 0
  | .bs => 0

def Ty.isInt : Ty → Bool
  | .i8 => true
  | .i16 => true
  | .i32 => true
  | .i64 => true
  | .i128 => true
  | _ => false

def Ty.isFp : Ty → Bool
  | .b32 => true
  | .b64 => true
  | .b128 => true
  | .d64 => true
  | .d128 => true
  | _ => false

/-- An operand specifier (R87, R88). -/
inductive Spec where
  | frame (bank off : Nat)
  | reg (n : Nat)
  | base (n : Nat) (disp : Int)
  | index (n i scale : Nat) (disp : Int)
  | predec (n : Nat)
  | postinc (n : Nat)
  | indirect (n : Nat) (disp : Int)
  | pcrel (disp : Int)
  /-- immediate: ISZ and the raw bits -/
  | imm (isz raw : Nat)
deriving DecidableEq, Repr

/-- The bits of following parcels, low parcel first (R80). -/
def wide : List W16 → Nat
  | [] => 0
  | p :: t => p.toNat + 65536 * wide t

/-- A displacement of DSZ and the parcels after it; none is a reserved DSZ or a missing parcel (R88). -/
def dispOf (dsz : Nat) (ps : List W16) : Option (Int × List W16) :=
  match dsz with
  | 0 => some (0, ps)
  | 1 => if ps.length < 1 then none else some (toS 16 (wide (ps.take 1)), ps.drop 1)
  | 2 => if ps.length < 2 then none else some (toS 32 (wide (ps.take 2)), ps.drop 2)
  | _ => none

/-- One specifier off the front of the parcels; none raises ILLEGAL (R85, R87, R88). -/
def specOf : List W16 → Option (Spec × List W16)
  | [] => none
  | p :: ps =>
    let x := p.toNat
    let mode := x / 4096
    let r := fld x 11 8
    if mode < 4 then some (.frame mode (x % 4096), ps)
    else if mode = 4 then (if x % 256 = 0 then some (.reg r, ps) else none)
    else if mode = 5 then
      (if x % 64 ≠ 0 then none else (dispOf (fld x 7 6) ps).map (fun d => (.base r d.1, d.2)))
    else if mode = 6 then (dispOf (x % 4) ps).map (fun d => (.index r (fld x 7 4) (2 ^ fld x 3 2) d.1, d.2))
    else if mode = 7 then (if x % 256 = 0 then some (.predec r, ps) else none)
    else if mode = 8 then (if x % 256 = 0 then some (.postinc r, ps) else none)
    else if mode = 9 then
      (if x % 64 ≠ 0 then none else (dispOf (fld x 7 6) ps).map (fun d => (.indirect r d.1, d.2)))
    else if mode = 10 then
      (if x % 1024 ≠ 0 then none else (dispOf (fld x 11 10) ps).map (fun d => (.pcrel d.1, d.2)))
    else if mode = 11 then
      let isz := fld x 11 10
      let n := if isz = 0 then 0 else 2 ^ (isz - 1)
      if isz = 0 then some (.imm 0 (x % 1024), ps)
      else if x % 1024 ≠ 0 ∨ ps.length < n then none
      else some (.imm isz (wide (ps.take n)), ps.drop n)
    else none

/-- `n` specifiers; none raises ILLEGAL. -/
def specsOf : Nat → List W16 → Option (List Spec × List W16)
  | 0, ps => some ([], ps)
  | n + 1, ps =>
    match specOf ps with
    | none => none
    | some (sp, r) => (specsOf n r).map (fun x => (sp :: x.1, x.2))

/-- Operand count of FMT (R82). -/
def fmtOps : Nat → Nat
  | 0 => 2
  | 1 => 3
  | 2 => 1
  | _ => 0

/-- Immediate value of an integer type: sign-extended from its own width (R88). -/
def immInt (isz raw w : Nat) : Nat :=
  let k := if isz = 0 then 10 else if isz = 1 then 16 else if isz = 2 then 32 else 64
  ofS w (toS k raw)

/-- An immediate is allowed for the type: integers up to I64, and the floating types whose width it has (R88). -/
def immOk (t : Ty) (isz : Nat) : Bool :=
  match t with
  | .i8 => true
  | .i16 => true
  | .i32 => true
  | .i64 => true
  | .b32 => isz == 2
  | .b64 => isz == 3
  | .d64 => isz == 3
  | _ => false

/-- REG and IMM restrictions of R90 on one operand: `dst` it is written, `adr` only its address is used. -/
def specOk (t : Ty) (dst adr : Bool) (sp : Spec) : Bool :=
  match sp with
  | .imm isz _ => !dst && !adr && immOk t isz
  | .reg _ => !adr && (match t with
    | .i128 => false
    | .b128 => false
    | .d128 => false
    | .pd => false
    | .bs => false
    | _ => true)
  | _ => true

/-- Operand size for address updates and accesses: TYPE width, PD digits or BS length (R89, R98). -/
def opSize (t : Ty) (digits len : Nat) : Nat :=
  match t with
  | .pd => digits / 2 + 1
  | .bs => len
  | _ => t.bytes

end Sys2Proof.Machine
end

