-- ==== Sys2Proof/Machine/AnOps.lean ====
section
/-! DEFINITION. What every AN instruction shares: fetch, specifiers, operands, results, and the order of exceptions
(R80–R99, R119–R123). -/
namespace Sys2Proof.Machine

/-- What a part of an instruction gives: the state as far as it got, and an exception or a value. -/
abbrev Res1 (α : Type) := State × Except Xf α

/-- An operand resolved. -/
inductive Opd where
  /-- a register, with its value when the specifier was evaluated (R89) -/
  | reg (n : Nat) (v : Nat := 0)
  | imm (isz raw : Nat)
  | mem (va : Nat) (ks : List Chunk)
  /-- address only (R90) -/
  | adr (va : Nat)
deriving DecidableEq, Repr

/-- Use of an operand. -/
inductive Role where
  | rd | wr | adr
deriving DecidableEq, Repr

def gOf (c : Ctx) (n : Nat) : Nat := (tget 0 c.g n).toNat
def setG (n : Nat) (v : Nat) (c : Ctx) : Ctx := { c with g := tset 0 c.g n (BitVec.ofNat 64 v) }

def addVa (a : Nat) (d : Int) : Nat := (((a : Int) + d) % (2 ^ 64 : Nat)).toNat

/-- Frame-store lines of a FRAME access with their sectors: those inside the bank page (R93, R94). -/
def frameLines (bank off n : Nat) (ks : List Chunk) : List (Nat × Nat) :=
  match ks with
  | k :: _ =>
    if k.unc ∨ regionOf k.pa ≠ .dram then []
    else ((upTo ((off % 64 + n + 63) / 64)).map (fun i => off / 64 + i)).filterMap (fun j =>
      if j < 64 then some (bank * 64 + j, k.pa / 4096 * 64 + j) else none)
  | [] => []

/-- A line enters the frame store; which leaves when 64 are held is open (log 3). -/
def frameFill (lcn ctx : Nat) (e : Nat × Nat) (s : State) : State :=
  let s1 := loadLine lcn e.2 s
  let f := (ctxOf s1 lcn ctx).frame
  let f1 := if f.length < 64 ∨ f.any (fun x => x.1 == e.1) then f else f.eraseIdx (freeVal s1 % f.length)
  updCtx lcn ctx (fun c => { c with frame := tset 0 f1 e.1 e.2 }) (drawn s1)

/-- A FRAME access: it finds its lines resident in the frame store and the L1D, which counts as a hit, or a read fills them
from L1D (R94, R594). -/
def frameTouch (lcn ctx bank off n : Nat) (rd : Bool) (ks : List Chunk) (s : State) : State :=
  let es := frameLines bank off n ks
  let core := coreFor s lcn
  if es = [] then s
  else if es.all (fun e => (ctxOf s lcn ctx).frame.contains e && inL1d s core e.2) then bump (coreUnit lcn) 0xC 1 s
  else if rd then es.foldl (fun t e => frameFill lcn ctx e t) s else s

/-- Evaluate one specifier (R88, R89, R93): its address, and the working registers after its update. -/
def evalSpec (lcn ctx : Nat) (size : Nat) (s : State) (w : Ctx) (sp : Spec) : Res1 (Opd × Ctx) :=
  match sp with
  | .reg n => (s, .ok (.reg n (gOf w n), w))
  | .imm z r => (s, .ok (.imm z r, w))
  | .frame b off => (s, .ok (.adr (((tget 0 w.fb b).toNat + off) % 2 ^ 64), w))
  | .base n d => (s, .ok (.adr (addVa (gOf w n) d), w))
  | .index n i k d => (s, .ok (.adr (addVa (gOf w n + gOf w i * k) d), w))
  | .predec n => (s, .ok (.adr (addVa (gOf w n) (-(size : Int))), setG n (addVa (gOf w n) (-(size : Int))) w))
  | .postinc n => (s, .ok (.adr (gOf w n), setG n (gOf w n + size) w))
  | .pcrel d => (s, .ok (.adr (addVa w.pc.toNat d), w))
  | .indirect n d =>
    match resolve s lcn w (addVa (gOf w n) d) 8 .read with
    | (s1, .error x) => (s1, .error x)
    | (s1, .ok ks) =>
      match loadChunks lcn ctx ks s1 with
      | (s2, .error x) => (s2, .error x)
      | (s2, .ok b) => (s2, .ok (.adr (ofBytes b), w))

/-- One operand in its role: its pages translated and checked before anything is read or written (R91). -/
def evalOp (lcn ctx : Nat) (size : Nat) (role : Role) (s : State) (w : Ctx) (sp : Spec) : Res1 (Opd × Ctx) :=
  match evalSpec lcn ctx size s w sp with
  | (s1, .ok (.adr va, w1)) =>
    if role = .adr then (s1, .ok (.adr va, w1))
    else match resolve s1 lcn w1 va size (if role = .wr then .write else .read) with
      | (s2, .error x) => (s2, .error x)
      | (s2, .ok ks) =>
        match sp with
        | .frame b off => (frameTouch lcn ctx b off size (role == .rd) ks s2, .ok (.mem va ks, w1))
        | _ => (s2, .ok (.mem va ks, w1))
  | r => r

/-- All operands in order, each with its size and role (R89). -/
def evalOps (lcn ctx : Nat) : List (Spec × Nat × Role) → State → Ctx → Res1 (List Opd × Ctx)
  | [], s, w => (s, .ok ([], w))
  | (sp, n, r) :: t, s, w =>
    match evalOp lcn ctx n r s w sp with
    | (s1, .error x) => (s1, .error x)
    | (s1, .ok (o, w1)) =>
      match evalOps lcn ctx t s1 w1 with
      | (s2, .error x) => (s2, .error x)
      | (s2, .ok (os, w2)) => (s2, .ok (o :: os, w2))

/-- Read an operand's bytes; an immediate has the type's width (R88). -/
def readOp (lcn ctx : Nat) (t : Ty) (size : Nat) (s : State) (o : Opd) : Res1 (List Byte) :=
  match o with
  | .reg _ v => (s, .ok (toBytes size v))
  | .imm z r => (s, .ok (toBytes size (if t.isInt then immInt z r (8 * size) else r)))
  | .mem _ ks => loadChunks lcn ctx ks s
  | .adr va => (s, .ok (toBytes size va))

/-- Write a register operand: its low bytes; the others keep their values (log 8). -/
def putReg (n : Nat) (d : List Byte) (w : Ctx) : Ctx :=
  setG n (gOf w n / 256 ^ d.length * 256 ^ d.length + ofBytes d) w

/-- Write a destination: a register at once, memory into the store buffer. -/
def writeOp (lcn ctx : Nat) (o : Opd) (d : List Byte) (sw : State × Ctx) : State × Ctx :=
  match o with
  | .reg n _ => (sw.1, putReg n d sw.2)
  | .mem _ ks => (storeChunks lcn ctx ks d sw.1, sw.2)
  | _ => sw

/-- Bytes of an AN instruction from the parcels its form used. -/
def anLen (all left : List W16) : Nat := 2 * (1 + (all.length - left.length))

/-- The fetch of an instruction (R80, R123, R166): alignment of the PC, then its bytes. -/
def fetchCheck (s : State) (lcn : Nat) (c : Ctx) (n : Nat) : Res1 Unit :=
  if c.pc.toNat % 2 = 1 then (s, .error (xf 0x06 c.pc.toNat)) else fetchRun s lcn c c.pc.toNat n

/-- Put the working registers of a completed instruction in force: everything architectural from `w`, what the memory
side keeps from the state (R119). It joins the group in flight, which retires when it is the eighth, stands last in it, halts
the context or steps it, or fills the store buffer (R135–R137). A single step under SS makes DEBUG due (R77, R120). A BS
instruction with pieces left retires the first; its registers wait for the last (R139). -/
def commit (lcn ctx : Nat) (ss : Bool) (w : Ctx) (s : State) : State :=
  let k := ckOf s lcn ctx
  if w.pieces ≠ [] then groupDone lcn ctx (setCk lcn ctx { k with rest := some ({ w with pieces := [] }, w.pieces) } s) else
  let c := ctxOf s lcn ctx
  let s1 := updCtx lcn ctx (fun c =>
    { w with sb := c.sb, badStore := c.badStore, reqId := c.reqId, frame := c.frame, sdNext := c.sdNext,
             sdBytes := c.sdBytes, sdRun := c.sdRun, mcheck := c.mcheck, uread := c.uread, modeChange := c.modeChange,
             clockLoss := c.clockLoss, ckSeq := c.ckSeq, debugDue := c.debugDue || ss, shotVa := c.shotVa,
             halt := if c.stepping then 2 else c.halt, stepping := false }) s
  let s2 := setCk lcn ctx { k with n := k.n + 1, snap := some (k.snap.getD c) } s1
  if 7 ≤ k.n ∨ w.last ∨ c.last ∨ c.stepping ∨ ss ∨ 64 < c.sb.length then groupDone lcn ctx s2 else s2

/-! ### BS instructions in pieces (R139) -/

/-- The first `n` bytes of a list of stores. -/
def headStores : Nat → List SbEntry → List SbEntry
  | _, [] => []
  | n, e :: t =>
    if n = 0 then []
    else if e.data.length ≤ n then e :: headStores (n - e.data.length) t
    else [{ e with data := e.data.take n }]

/-- What is left after the first `n` bytes. -/
def tailStores : Nat → List SbEntry → List SbEntry
  | _, [] => []
  | n, e :: t =>
    if e.data.length ≤ n then tailStores (n - e.data.length) t
    else { e with pa := e.pa + n, data := e.data.drop n } :: t

/-- The pieces of a list of stores, 256 bytes each. -/
def piecesOf : Nat → List SbEntry → List Piece
  | 0, _ => []
  | k + 1, es => ⟨headStores 256 es⟩ :: piecesOf k (tailStores 256 es)

/-- The parts of a destination with their bytes. -/
def partsOf : List Chunk → List Byte → List SbEntry
  | [], _ => []
  | k :: t, d => ⟨k.pa, d.take k.n, k.unc⟩ :: partsOf t (d.drop k.n)

def runPiece (lcn ctx : Nat) (p : Piece) (s : State) : State :=
  p.stores.foldl (fun t e => storeChunks lcn ctx [⟨0, e.pa, e.data.length, e.uncached⟩] e.data t) s

/-- How a BS instruction of `n` bytes ends once its operands are read: it stores `d` to the parts `ks` and leaves registers
`w`. A longer one than 256 bytes performs its first piece, a group of its own, and leaves the others. -/
def bsEnd (lcn ctx n : Nat) (ks : List Chunk) (d : List Byte) (w : Ctx) (s : State) : Res1 Ctx :=
  let w1 := { w with last := true }
  if n ≤ 256 then (storeChunks lcn ctx ks d s, .ok w1)
  else
    match piecesOf ((n + 255) / 256) (partsOf ks d) with
    | [] => (s, .ok w1)
    | p :: ps =>
      (runPiece lcn ctx p (retireGroup lcn ctx s), .ok { w1 with pieces := ps })

/-- The pieces of a BS instruction that are left perform in order, each a group; the registers come into force with the
last (R125, R139). -/
def finishPieces (lcn ctx : Nat) (s : State) : State :=
  match (ckOf s lcn ctx).rest with
  | none => s
  | some (w, ps) =>
    if ¬ lcnRuns s lcn ∨ inRetry s lcn ctx then s
    else
      let s1 := ps.dropLast.foldl (fun t p => groupDone lcn ctx (runPiece lcn ctx p t)) s
      let s2 := runPiece lcn ctx (ps.getLastD ⟨[]⟩) s1
      kick s (commit lcn ctx w.psw.ss w (setCk lcn ctx { ckOf s2 lcn ctx with rest := none } s2))

/-- A context comes between instructions: its BS instruction has ended and its group retired (R125, R136). -/
def betweenInsns (lcn ctx : Nat) (s : State) : State := retireGroup lcn ctx (finishPieces lcn ctx s)

/-- The instruction is over: its attach-window replies are released (R141), and the LCN's sampling LFSR, whose
polynomial the spec does not give, has advanced (R590, log 3). -/
def release (lcn ctx : Nat) (s : State) : State :=
  let s1 := if (ctxOf s lcn ctx).winIdx = 0 ∧ winLatches s lcn ctx = [] then s
    else updCtx lcn ctx (fun k => { k with winIdx := 0 })
      { s with latches := s.latches.filter (fun l => !(l.unit / 256 % 256 == 7 && l.lcn == lcn && l.ctx == ctx)) }
  if (lcnOf s lcn).samp.n = 0 then s1
  else updLcn lcn (fun k => { k with samp := { k.samp with lfsr := Config.lfsr k.samp.lfsr % 2 ^ 20 } }) s1

/-- How an instruction that ran in state `s` from context `c` ends: in force, in an exception, between the pieces of a BS
instruction, or waiting for a window and to run again with the same request IDs. What it stored to a command ring reaches
the Harbourmaster after it. -/
def endInsn (lcn ctx : Nat) (s : State) (c : Ctx) (ss : Bool) (r : State × Except Xf Ctx) : State :=
  kick s <| match r.2 with
  | .error x =>
    if x.code = stallX.code then updCtx lcn ctx (fun k => { k with reqId := c.reqId, winIdx := 0, last := false }) r.1
    else release lcn ctx (takeX lcn ctx x c.pc r.1)
  | .ok w => release lcn ctx (commit lcn ctx ss w r.1)

def illegal : Xf := xf 0x07 0
def privileged : Xf := xf 0x08 0

/-- A body gets the state, the working context and the specifiers' parcels; it answers the new working context with the
next PC already in it. -/
abbrev Body := State → Ctx → Res1 Ctx

/-- Run an instruction of `n` bytes at a context (R119, R122, R123): fetch, body, and on an exception the entry with the
PC of the instruction. A context that does not run executes nothing; one between the pieces of a BS instruction first
ends that. -/
def runInsn (lcn ctx n : Nat) (a5 : Bool) (body : Body) (s0 : State) : State :=
  let s := finishPieces lcn ctx s0
  let c := ctxOf s lcn ctx
  if ¬ ctxRuns s lcn ctx then s
  else match fetchCheck s lcn c n with
    | (s1, .error x) => takeX lcn ctx x c.pc s1
    | (s1, .ok _) =>
      if c.psw.a5 ≠ a5 then takeX lcn ctx illegal c.pc s1
      else endInsn lcn ctx s c c.psw.ss (body s1 c)

/-- Move past an instruction. -/
def stepPc (n : Nat) (w : Ctx) : Ctx := { w with pc := canonPc (w.pc.toNat + n) }

/-- The same for one that stands last in its retire group (R136). -/
def stepLast (n : Nat) (w : Ctx) : Ctx := { stepPc n w with last := true }

/-- An instruction with an exception found while decoding is fetched first (R123): at least parcel 0. -/
def anIllegal (o : AnOp) (s : State) : State := runInsn o.lcn o.ctx 2 false (fun t _ => (t, .error illegal)) s

/-- The parts of an instruction once decoded: type, digit counts and length of PD and BS, specifiers, bytes. -/
structure Dec where
  t : Ty
  d1 : Nat
  d2 : Nat
  d3 : Nat
  /-- BS length from the parcel; none: from G0 (R84) -/
  len : Option Nat
  specs : List Spec
  n : Nat
deriving DecidableEq, Repr

/-- Decode FMT, TYPE, the length parcel and the specifiers of an instruction whose TYPE names a data type (R82–R85). -/
def decodeAn (o : AnOp) (fmts : List Nat) : Option Dec :=
  if ¬ fmts.contains o.fmt then none
  else match tyOf o.ty with
  | none => none
  | some t =>
    let k := fmtOps o.fmt
    let lp := (o.rest.headD 0).toNat
    let after := if t = .pd ∨ t = .bs then o.rest.drop 1 else o.rest
    let badLen :=
      if t = .pd then
        o.rest.isEmpty || bitOf lp 15 || lp % 32 == 0 || (2 ≤ k && fld lp 9 5 == 0) || (k < 2 && fld lp 9 5 != 0) ||
          (3 ≤ k && fld lp 14 10 == 0) || (k < 3 && fld lp 14 10 != 0)
      else if t = .bs then o.rest.isEmpty || fld lp 14 12 != 0
      else false
    if badLen then none
    else match specsOf k after with
      | none => none
      | some (sps, left) =>
        let n := anLen o.rest left
        if 16 < n then none
        else some { t := t, d1 := lp % 32, d2 := fld lp 9 5, d3 := fld lp 14 10,
                    len := if t = .bs ∧ bitOf lp 15 then none else some (lp % 4096 + 1), specs := sps, n := n }

/-- BS length of an instruction at its start; none raises ILLEGAL (R84). -/
def bsLen (d : Dec) (c : Ctx) : Option Nat :=
  match d.len with
  | some n => some n
  | none => if 1 ≤ gOf c 0 ∧ gOf c 0 ≤ 4096 then some (gOf c 0) else none

/-- Digits of operand i (1 to 3). -/
def Dec.dig (d : Dec) (i : Nat) : Nat := if i = 1 then d.d1 else if i = 2 then d.d2 else d.d3

/-- Move past a decoded instruction; one of PD or BS stands last in its group (R136). -/
def Dec.step (d : Dec) (w : Ctx) : Ctx := { stepPc d.n w with last := d.t == .pd || d.t == .bs }

/-- Run a decoded instruction's body. -/
def runAn (o : AnOp) (d : Option Dec) (body : Dec → Body) (s : State) : State :=
  match d with
  | none => anIllegal o s
  | some d => runInsn o.lcn o.ctx d.n false (body d) s

end Sys2Proof.Machine
end

