-- ==== Sys2Proof/Machine/AnArith.lean ====
section
/-! DEFINITION. AN arithmetic, logic, shift and move instructions (R86, R95–R98, R101, R103). -/
namespace Sys2Proof.Machine

/-- What a value instruction computes. -/
inductive Alu where
  | add | sub | mul | mulu | div | divu | rem | remu | neg | abs | sqrt | min | max
  | and | or | xor | not | shl | shr | sar | rot
deriving DecidableEq, Repr

/-- Its single source operand is operand 1, where it has one source (R101). -/
def Alu.unary : Alu → Bool
  | .neg => true
  | .abs => true
  | .sqrt => true
  | .not => true
  | _ => false

def Alu.logic : Alu → Bool
  | .and => true
  | .or => true
  | .xor => true
  | .not => true
  | .shl => true
  | .shr => true
  | .sar => true
  | .rot => true
  | _ => false

/-- Result bytes with CC and the sticky flags to add to FF (R95, R96). -/
structure Val where
  bytes : List Byte
  cc : Cc
  ff : Nat
deriving DecidableEq, Repr

def fmtOf : Ty → Fmt
  | .b32 => b32F
  | .b64 => b64F
  | .b128 => b128F
  | .d64 => d64F
  | _ => d128F

/-- Integer results (R95, R101, R103); `p` is the free value of a square root of a negative number (log 3). -/
def aluInt (k : Alu) (w p : Nat) (a b : Nat) : Except Xf Res :=
  match k with
  | .add => .ok (addR w a b)
  | .sub => .ok (subR w a b)
  | .mul => .ok (mulR w a b)
  | .mulu => .ok (mulR w a b)
  | .div => if b % 2 ^ w = 0 then .error (xf 0x11 0) else .ok (divR w a b)
  | .divu => if b % 2 ^ w = 0 then .error (xf 0x11 0) else .ok (divuR w a b)
  | .rem => if b % 2 ^ w = 0 then .error (xf 0x11 0) else .ok (remR w a b)
  | .remu => if b % 2 ^ w = 0 then .error (xf 0x11 0) else .ok (remuR w a b)
  | .neg => .ok (negR w a)
  | .abs => .ok (absR w a)
  | .sqrt => .ok (if toS w a < 0 then resOf w p false false else resOf w (isqrt (a % 2 ^ w)) false false)
  | .min => .ok (minR w a b)
  | .max => .ok (maxR w a b)
  | .and => .ok (logicR w (a.land b))
  | .or => .ok (logicR w (a.lor b))
  | .xor => .ok (logicR w (a.xor b))
  | .not => .ok (logicR w (2 ^ w - 1 - a % 2 ^ w))
  | .shl => .ok (shlR w a b)
  | .shr => .ok (shrR w a b)
  | .sar => .ok (sarR w a b)
  | .rot => .ok (rotR w a b)

/-- Floating results (R96, R97). -/
def aluFp (k : Alu) (f : Fmt) (rm p : Nat) (a b : Fp) : FRes :=
  match k with
  | .add => addF f rm p a b
  | .sub => addF f rm p a (negF b)
  | .mul => mulF f rm p a b
  | .mulu => mulF f rm p a b
  | .div => divF f rm p a b
  | .divu => divF f rm p a b
  | .rem => remF f rm p a b
  | .remu => remF f rm p a b
  | .neg => ⟨negF a, 0⟩
  | .abs => ⟨absF a, 0⟩
  | .sqrt => sqrtF f rm p a
  | .min => minMaxF f p false a b
  | .max => minMaxF f p true a b
  | _ => ⟨a, 0⟩

/-- Packed-decimal results, exact integers (R98); division truncates (R134), `p` as in `aluInt`. -/
def aluPd (k : Alu) (p : Nat) (a b : Int) : Except Xf Int :=
  match k with
  | .add => .ok (a + b)
  | .sub => .ok (a - b)
  | .mul => .ok (a * b)
  | .mulu => .ok (a * b)
  | .div => if b = 0 then .error (xf 0x11 0) else .ok (a.tdiv b)
  | .divu => if b = 0 then .error (xf 0x11 0) else .ok (a.tdiv b)
  | .rem => if b = 0 then .error (xf 0x11 0) else .ok (a.tmod b)
  | .remu => if b = 0 then .error (xf 0x11 0) else .ok (a.tmod b)
  | .neg => .ok (-a)
  | .abs => .ok a.natAbs
  | .sqrt => .ok (if a < 0 then (p : Int) else (isqrt a.natAbs : Int))
  | .min => .ok (if a ≤ b then a else b)
  | .max => .ok (if a ≤ b then b else a)
  | _ => .ok a

/-- CC of a floating result: N and Z from the result, V and C clear (R95). -/
def fpCc (v : Fp) : Cc :=
  match v with
  | .fin n m _ => ⟨n && m != 0, m == 0, false, false⟩
  | .inf n => ⟨n, false, false, false⟩
  | .nan _ n _ => ⟨n, false, false, false⟩

/-- Conditions whose FE bit is set raise FP, named in XCODE bits 12:8; the others join FF (R96, R120). An exact tiny result
is an underflow only where underflow traps. -/
def fpCheck (psw : Psw) (exc : Nat) : Except Xf Nat :=
  let met := if bitOf exc 5 ∧ bitOf psw.fe 1 then (exc % 32).lor 2 else exc % 32
  if met.land psw.fe ≠ 0 then .error { xf 0x15 0 with sub := met.land psw.fe } else .ok (exc % 32)

/-- Overflow under IV and DV (R95, R98). -/
def ivCheck (psw : Psw) (cc : Cc) : Except Xf Unit := if cc.v ∧ psw.iv then .error (xf 0x12 0) else .ok ()

/-- One computation on operand bytes: `x` left, `y` right, digits of each and of the destination. -/
def compute (k : Alu) (t : Ty) (psw : Psw) (p dx dy dd : Nat) (x y : List Byte) : Except Xf Val :=
  if t.isInt then
    match aluInt k (8 * t.bytes) p (ofBytes x) (ofBytes y) with
    | .error e => .error e
    | .ok r => match ivCheck psw r.cc with
      | .error e => .error e
      | .ok _ => .ok ⟨toBytes t.bytes r.val, r.cc, 0⟩
  else if t.isFp then
    let f := fmtOf t
    let r := aluFp k f psw.rm p (unpackF f (ofBytes x)) (unpackF f (ofBytes y))
    match fpCheck psw r.exc with
    | .error e => .error e
    | .ok ff => .ok ⟨toBytes t.bytes (packF f r.val), fpCc r.val, ff⟩
  else if t = .pd then
    match pdVal dx x, pdVal dy y with
    | some a, some b =>
      (match aluPd k p a b with
        | .error e => .error e
        | .ok r => if pdOver dd r ∧ psw.dv then .error (xf 0x14 0) else .ok ⟨pdPut dd r, pdCc dd r, 0⟩)
    | _, _ => .error (xf 0x13 0)
  else .error illegal

def setCc (cc : Cc) (w : Ctx) : Ctx := { w with psw := { w.psw with cc := cc } }
def orFf (ff : Nat) (w : Ctx) : Ctx := { w with psw := { w.psw with ff := w.psw.ff.lor ff } }

/-- The specifiers pass the restrictions of R90; `dst` names the destination operands (from 1). -/
def specsOk (d : Dec) (dst : List Nat) : Bool :=
  (upTo d.specs.length).all (fun i => specOk d.t (dst.contains (i + 1)) false (d.specs.getD i (.reg 0)))

/-- Roles of the operands of a value instruction: sources read, the destination checked for writing (R91). -/
def withRoles (d : Dec) (len : Nat) (dst : List Nat) : List (Spec × Nat × Role) :=
  (upTo d.specs.length).map (fun i =>
    (d.specs.getD i (.reg 0), opSize d.t (d.dig (i + 1)) len, if dst.contains (i + 1) then Role.wr else Role.rd))

/-- Body of a value instruction: the left and right sources by operand number, and the destination (R86). -/
def aluBody (o : AnOp) (k : Alu) (d : Dec) : Body := fun s w =>
  let three := o.fmt == 1
  let li := if k.unary then 1 else if three then 1 else 2
  let ri := if k.unary then 1 else if three then 2 else 1
  let di := if three then 3 else 2
  if (k.logic && !d.t.isInt) || d.t == .bs || !specsOk d [di] then (s, .error illegal)
  else
    match evalOps o.lcn o.ctx (withRoles d 0 [di]) s w with
    | (s1, .error x) => (s1, .error x)
    | (s1, .ok (os, w1)) =>
      let sz := fun i => opSize d.t (d.dig i) 0
      match readOp o.lcn o.ctx d.t (sz li) s1 (os.getD (li - 1) (.reg 0)) with
      | (s2, .error x) => (s2, .error x)
      | (s2, .ok a) =>
        match (if k.unary then (s2, .ok a) else readOp o.lcn o.ctx d.t (sz ri) s2 (os.getD (ri - 1) (.reg 0))) with
        | (s3, .error x) => (s3, .error x)
        | (s3, .ok b) =>
          match compute k d.t w1.psw (freeVal s3) (d.dig li) (d.dig ri) (d.dig di) a b with
          | .error x => (s3, .error x)
          | .ok v =>
            let r := writeOp o.lcn o.ctx (os.getD (di - 1) (.reg 0)) v.bytes (drawn s3, w1)
            (r.1, .ok (d.step (orFf v.ff (setCc v.cc r.2))))

def runAlu (o : AnOp) (fmts : List Nat) (k : Alu) (s : State) : State := runAn o (decodeAn o fmts) (aluBody o k) s

/-! ### Compares and TEST -/

/-- CC of comparing x with y: as x − y for integers (R86, R95); for floating data N less and Z equal, and for unordered
data a CC the spec does not state, with the invalid condition of a signaling NaN (log 3). -/
def compareCc (t : Ty) (psw : Psw) (p dx dy : Nat) (x y : List Byte) : Except Xf (Cc × Nat) :=
  if t.isInt then .ok (cmpR (8 * t.bytes) (ofBytes x) (ofBytes y), 0)
  else if t.isFp then
    let f := fmtOf t
    let a := unpackF f (ofBytes x)
    let b := unpackF f (ofBytes y)
    if isNan a || isNan b then
      (match fpCheck psw (if isSnan a || isSnan b then 16 else 0) with
        | .error e => .error e
        | .ok ff => .ok (ccOf (p % 16), ff))
    else .ok (⟨(ltEqF f.radix a b).1, (ltEqF f.radix a b).2, false, (ltEqF f.radix a b).1⟩, 0)
  else if t = .pd then
    match pdVal dx x, pdVal dy y with
    | some a, some b => .ok (⟨decide (a < b), decide (a = b), false, decide (a < b)⟩, 0)
    | _, _ => .error (xf 0x13 0)
  else .error illegal

/-- Body of an instruction that reads two operands and writes only PSW. -/
def flagBody (o : AnOp) (f : Dec → Psw → Nat → List Byte → List Byte → Except Xf (Cc × Nat)) (intOnly : Bool) (d : Dec) : Body :=
  fun s w =>
  if (intOnly && !d.t.isInt) || d.t == .bs || !specsOk d [] then (s, .error illegal)
  else
    match evalOps o.lcn o.ctx (withRoles d 0 []) s w with
    | (s1, .error x) => (s1, .error x)
    | (s1, .ok (os, w1)) =>
      match readOp o.lcn o.ctx d.t (opSize d.t d.d1 0) s1 (os.getD 0 (.reg 0)) with
      | (s2, .error x) => (s2, .error x)
      | (s2, .ok a) =>
        match readOp o.lcn o.ctx d.t (opSize d.t d.d2 0) s2 (os.getD 1 (.reg 0)) with
        | (s3, .error x) => (s3, .error x)
        | (s3, .ok b) =>
          match f d w1.psw (freeVal s3) a b with
          | .error x => (s3, .error x)
          | .ok r => (drawn s3, .ok (d.step (orFf r.2 (setCc r.1 w1))))

/-- CMP and CMPU compare operand 2 with operand 1, as the TWO form of a subtraction (R86, log 8). -/
def runAnCmp (o : AnOp) (s : State) : State :=
  runAn o (decodeAn o [0]) (flagBody o (fun d psw p a b => compareCc d.t psw p d.d2 d.d1 b a) false) s

def runTest (o : AnOp) (s : State) : State :=
  runAn o (decodeAn o [0])
    (flagBody o (fun d _ _ a b => .ok ((logicR (8 * d.t.bytes) ((ofBytes a).land (ofBytes b))).cc, 0)) true) s

/-! ### MOV, CLR, LEA -/

/-- A byte string written to a resolved operand of `len` bytes ends the instruction (R139). -/
def bsPut (o : AnOp) (len : Nat) (dst : Opd) (x : List Byte) (w : Ctx) (s : State) : Res1 Ctx :=
  match dst with
  | .mem _ ks => bsEnd o.lcn o.ctx len ks x w s
  | _ => (s, .error illegal)

/-- MOV copies operand 1 to operand 2 (R86); a packed-decimal copy follows R98, one of byte strings R91 and R139. -/
def movBody (o : AnOp) (d : Dec) : Body := fun s w =>
  match (if d.t = .bs then bsLen d w else some 0) with
  | none => (s, .error illegal)
  | some len =>
  if !specsOk d [2] then (s, .error illegal)
  else
    match evalOps o.lcn o.ctx (withRoles d len [2]) s w with
    | (s1, .error x) => (s1, .error x)
    | (s1, .ok (os, w1)) =>
      match readOp o.lcn o.ctx d.t (opSize d.t d.d1 len) s1 (os.getD 0 (.reg 0)) with
      | (s2, .error x) => (s2, .error x)
      | (s2, .ok a) =>
        if d.t = .bs then bsPut o len (os.getD 1 (.reg 0)) a (d.step w1) s2
        else if d.t = .pd then
          match pdVal d.d1 a with
          | none => (s2, .error (xf 0x13 0))
          | some v =>
            if pdOver d.d2 v ∧ w1.psw.dv then (s2, .error (xf 0x14 0))
            else
              let r := writeOp o.lcn o.ctx (os.getD 1 (.reg 0)) (pdPut d.d2 v) (s2, w1)
              (r.1, .ok (d.step (if pdOver d.d2 v then setCc { r.2.psw.cc with v := true } r.2 else r.2)))
        else
          let r := writeOp o.lcn o.ctx (os.getD 1 (.reg 0)) a (s2, w1)
          (r.1, .ok (d.step r.2))

/-- The zero of a type: all bytes 0, a positive packed zero, decimal zeros with exponent 0. -/
def zeroOf (t : Ty) (digits len : Nat) : List Byte :=
  match t with
  | .pd => pdPut digits 0
  | .d64 => toBytes 8 (packF d64F (.fin false 0 0))
  | .d128 => toBytes 16 (packF d128F (.fin false 0 0))
  | .bs => List.replicate len 0
  | _ => List.replicate t.bytes 0

/-- CLR writes zero to operand 1 (R101). -/
def clrBody (o : AnOp) (d : Dec) : Body := fun s w =>
  match (if d.t = .bs then bsLen d w else some 0) with
  | none => (s, .error illegal)
  | some len =>
    if !specsOk d [1] then (s, .error illegal)
    else match evalOps o.lcn o.ctx (withRoles d len [1]) s w with
      | (s1, .error x) => (s1, .error x)
      | (s1, .ok (os, w1)) =>
        if d.t = .bs then bsPut o len (os.getD 0 (.reg 0)) (zeroOf d.t d.d1 len) (d.step w1) s1
        else
          let r := writeOp o.lcn o.ctx (os.getD 0 (.reg 0)) (zeroOf d.t d.d1 len) (s1, w1)
          (r.1, .ok (d.step r.2))

/-- LEA writes the address of operand 1, which is not accessed, to operand 2 (R90). A TYPE that is no integer raises ILLEGAL:
DESIGN CHOICE, the spec limits the TYPE of other instructions only (log 38). -/
def leaBody (o : AnOp) (d : Dec) : Body := fun s w =>
  let s1p := d.specs.getD 0 (.reg 0)
  let s2p := d.specs.getD 1 (.reg 0)
  if !d.t.isInt || !specOk d.t false true s1p || !specOk d.t true false s2p then (s, .error illegal)
  else
    match evalOps o.lcn o.ctx [(s1p, d.t.bytes, .adr), (s2p, d.t.bytes, .wr)] s w with
    | (s1, .error x) => (s1, .error x)
    | (s1, .ok (os, w1)) =>
      match os.getD 0 (.reg 0) with
      | .adr va =>
        let r := writeOp o.lcn o.ctx (os.getD 1 (.reg 0)) (toBytes d.t.bytes va) (s1, w1)
        (r.1, .ok (d.step r.2))
      | _ => (s1, .error illegal)

/-! ### CVT -/

/-- Decoded CVT: source and destination types, digits, specifiers, bytes (R84, R103). -/
structure CvtDec where
  t : Ty
  u : Ty
  d1 : Nat
  d2 : Nat
  a : Spec
  b : Spec
  n : Nat
deriving DecidableEq, Repr

def decodeCvt (o : AnOp) : Option CvtDec :=
  if o.fmt ≠ 0 then none
  else match tyOf o.ty, o.rest with
  | some t, tp :: r =>
    match tyOf (tp.toNat % 16) with
    | none => none
    | some u =>
      if 16 ≤ tp.toNat ∨ t = .bs ∨ u = .bs ∨ (t = u ∧ t ≠ .pd) then none
      else
        let hasPd := t == .pd || u == .pd
        let lp := if hasPd then (r.headD 0).toNat else 0
        let after := if hasPd then r.drop 1 else r
        let d1 := lp % 32
        let d2 := fld lp 9 5
        if (hasPd ∧ (r.isEmpty ∨ 1024 ≤ lp)) ∨ (t = .pd ∧ d1 = 0) ∨ (t ≠ .pd ∧ d1 ≠ 0) ∨ (u = .pd ∧ d2 = 0) ∨ (u ≠ .pd ∧ d2 ≠ 0)
        then none
        else match specsOf 2 after with
          | some ([a, b], left) =>
            let n := anLen o.rest left
            if 16 < n then none else some ⟨t, u, d1, d2, a, b, n⟩
          | _ => none
  | _, _ => none

/-- The most negative value of an integer type (R103). -/
def mostNeg (u : Ty) : Nat := 2 ^ (8 * u.bytes - 1)

/-- An integer value into an integer type: low bits kept, V when it changes (R103). -/
def toInt (psw : Psw) (u : Ty) (v : Int) : Except Xf Val :=
  let w := 8 * u.bytes
  let outside := sOver w v
  if outside ∧ psw.iv then .error (xf 0x12 0)
  else .ok ⟨toBytes u.bytes (ofS w v), nz w (ofS w v) outside false, 0⟩

/-- An exact value into packed decimal (R98, R103). -/
def toPd (psw : Psw) (d2 : Nat) (v : Int) : Except Xf Val :=
  if pdOver d2 v ∧ psw.dv then .error (xf 0x14 0) else .ok ⟨pdPut d2 v, pdCc d2 v, 0⟩

/-- A floating result with its conditions. -/
def fromF (psw : Psw) (f : Fmt) (n : Nat) (r : FRes) : Except Xf Val :=
  match fpCheck psw r.exc with
  | .error e => .error e
  | .ok ff => .ok ⟨toBytes n (packF f r.val), fpCc r.val, ff⟩

/-- The conversions of the table of R103; `p` is the free NaN payload. A floating value that is rounded to an integer or to
packed decimal signals inexact, and N and Z follow the result while C is clear: DESIGN CHOICE, the table names neither
(log 38). -/
def convert (t u : Ty) (psw : Psw) (p d1 d2 : Nat) (x : List Byte) : Except Xf Val :=
  if t.isFp then
    let g := fmtOf t
    let a := unpackF g (ofBytes x)
    if u.isFp then fromF psw (fmtOf u) u.bytes (fToF g (fmtOf u) psw.rm p a)
    else match a with
      | .fin n m e =>
        let r := finToInt g.radix psw.rm n m e
        if u = .pd then
          (match fpCheck psw r.2 with
            | .error z => .error z
            | .ok ff => (toPd psw d2 r.1).map (fun v => { v with ff := ff }))
        else if sOver (8 * u.bytes) r.1 then
          (match fpCheck psw 16 with
            | .error z => .error z
            | .ok ff => .ok ⟨toBytes u.bytes (mostNeg u), { nz (8 * u.bytes) (mostNeg u) true false with v := true }, ff⟩)
        else
          (match fpCheck psw r.2 with
            | .error z => .error z
            | .ok ff => .ok ⟨toBytes u.bytes (ofS (8 * u.bytes) r.1), nz (8 * u.bytes) (ofS (8 * u.bytes) r.1) false false, ff⟩)
      | _ =>
        (match fpCheck psw 16 with
          | .error z => .error z
          | .ok ff =>
            if u = .pd then .ok ⟨pdPut d2 0, ⟨false, true, true, false⟩, ff⟩
            else .ok ⟨toBytes u.bytes (mostNeg u), nz (8 * u.bytes) (mostNeg u) true false, ff⟩)
  else
    let v : Option Int := if t = .pd then pdVal d1 x else some (toS (8 * t.bytes) (ofBytes x))
    match v with
    | none => .error (xf 0x13 0)
    | some v =>
      if u.isFp then fromF psw (fmtOf u) u.bytes (intToF (fmtOf u) psw.rm v)
      else if u = .pd then toPd psw d2 v
      else toInt psw u v

/-- Move past a CVT; one with a PD operand stands last in its group (R136). -/
def CvtDec.step (d : CvtDec) (w : Ctx) : Ctx := { stepPc d.n w with last := d.t == .pd || d.u == .pd }

def cvtBody (o : AnOp) (d : CvtDec) : Body := fun s w =>
  if !specOk d.t false false d.a || !specOk d.u true false d.b then (s, .error illegal)
  else
    match evalOps o.lcn o.ctx [(d.a, opSize d.t d.d1 0, .rd), (d.b, opSize d.u d.d2 0, .wr)] s w with
    | (s1, .error x) => (s1, .error x)
    | (s1, .ok (os, w1)) =>
      match readOp o.lcn o.ctx d.t (opSize d.t d.d1 0) s1 (os.getD 0 (.reg 0)) with
      | (s2, .error x) => (s2, .error x)
      | (s2, .ok a) =>
        match convert d.t d.u w1.psw (freeVal s2) d.d1 d.d2 a with
        | .error x => (s2, .error x)
        | .ok v =>
          let r := writeOp o.lcn o.ctx (os.getD 1 (.reg 0)) v.bytes (drawn s2, w1)
          (r.1, .ok (d.step (orFf v.ff (setCc v.cc r.2))))

def runCvt (o : AnOp) (s : State) : State :=
  match decodeCvt o with
  | none => anIllegal o s
  | some d => runInsn o.lcn o.ctx d.n false (cvtBody o d) s

end Sys2Proof.Machine
end

