-- ==== Sys2Proof/Machine/AnControl.lean ====
section
/-! DEFINITION. AN control transfer, WAIT, strings, atomics, control registers, frame banks and the A5 area
(R77–R79, R92, R93, R99, R101, R102, R126–R128, R168–R171). -/
namespace Sys2Proof.Machine

/-! ### Decoding instructions whose TYPE names no data type -/

/-- An instruction with `k` specifiers and no length parcel. -/
structure Plain where
  specs : List Spec
  n : Nat
deriving DecidableEq, Repr

def decodePlain (o : AnOp) (fmt : Nat) (tyOk : Nat → Bool) : Option Plain :=
  if o.fmt ≠ fmt ∨ ¬ tyOk o.ty then none
  else match specsOf (fmtOps fmt) o.rest with
    | none => none
    | some (sps, left) => let n := anLen o.rest left
                          if 16 < n then none else some ⟨sps, n⟩

/-- A ZERO-format instruction: its function parcel (R82, R102). -/
def decodeZero (o : AnOp) : Option Nat :=
  match o.rest with
  | p :: _ => if o.fmt = 3 ∧ o.ty = 0 then some p.toNat else none
  | [] => none

def runPlain (o : AnOp) (d : Option Plain) (body : Plain → Body) (s : State) : State :=
  match d with
  | none => anIllegal o s
  | some d => runInsn o.lcn o.ctx d.n false (body d) s

def runZero (o : AnOp) (ok : Nat → Bool) (body : Nat → Body) (s : State) : State :=
  match decodeZero o with
  | none => anIllegal o s
  | some f => if ok f then runInsn o.lcn o.ctx 4 false (body f) s else anIllegal o s

/-- A memory specifier: neither REG nor IMM (R90). -/
def memSpec : Spec → Bool
  | .reg _ => false
  | .imm _ _ => false
  | _ => true

/-- Address of an address-only operand, the register update by `size` (R89, R90). -/
def addrOf (lcn ctx size : Nat) (s : State) (w : Ctx) (sp : Spec) : Res1 (Nat × Ctx) :=
  if ¬ memSpec sp then (s, .error illegal)
  else match evalOp lcn ctx size .adr s w sp with
    | (s1, .error x) => (s1, .error x)
    | (s1, .ok (.adr va, w1)) => (s1, .ok (va, w1))
    | (s1, .ok _) => (s1, .error illegal)

/-- Continue with a value, or stop with the exception. -/
def andThen {α β : Type} (r : Res1 α) (f : State → α → Res1 β) : Res1 β :=
  match r with
  | (s, .error x) => (s, .error x)
  | (s, .ok a) => f s a

/-- Read `n` bytes at a virtual address as data. -/
def readVa (lcn ctx : Nat) (w : Ctx) (va n : Nat) (s : State) : Res1 (List Byte) :=
  andThen (resolve s lcn w va n .read) (fun s1 ks => loadChunks lcn ctx ks s1)

/-- Needs at least level S (R79). -/
def atS (w : Ctx) (b : Res1 Ctx) (s : State) : Res1 Ctx := if w.psw.pl = .u then (s, .error privileged) else b

/-! ### Control transfer (R102) -/

def jumpTo (a : Nat) (w : Ctx) : Ctx := { w with pc := canonPc a }

/-- Operand size of the address operands of BR, BCC and CALL: TYPE 0x0 is one byte wide (R83, R89; log 8). -/
def brBody (o : AnOp) (p : Plain) : Body := fun s w =>
  andThen (addrOf o.lcn o.ctx 1 s w (p.specs.getD 0 (.reg 0))) (fun s1 r => (s1, .ok (jumpTo r.1 r.2)))

def bccBody (o : AnOp) (p : Plain) : Body := fun s w =>
  andThen (addrOf o.lcn o.ctx 1 s w (p.specs.getD 0 (.reg 0))) (fun s1 r =>
    (s1, .ok (if condHolds o.ty w.psw.cc then jumpTo r.1 r.2 else stepPc p.n r.2)))

def callBody (o : AnOp) (p : Plain) : Body := fun s w =>
  andThen (addrOf o.lcn o.ctx 1 s w (p.specs.getD 0 (.reg 0))) (fun s1 r =>
    let sp := addVa (gOf r.2 15) (-8)
    andThen (resolve s1 o.lcn w sp 8 .write) (fun s2 ks =>
      (storeChunks o.lcn o.ctx ks (toBytes 8 (canonPc (w.pc.toNat + p.n)).toNat) s2, .ok (jumpTo r.1 (setG 15 sp r.2)))))

def retBody (o : AnOp) : Body := fun s w =>
  andThen (readVa o.lcn o.ctx w (gOf w 15) 8 s) (fun s1 d => (s1, .ok (jumpTo (ofBytes d) (setG 15 (gOf w 15 + 8) w))))

def runBr (o : AnOp) (s : State) : State := runPlain o (decodePlain o 2 (fun t => t == 0)) (brBody o) s
def runBcc (o : AnOp) (s : State) : State := runPlain o (decodePlain o 2 (fun _ => true)) (bccBody o) s
def runCall (o : AnOp) (s : State) : State := runPlain o (decodePlain o 2 (fun t => t == 0)) (callBody o) s
def runRet (o : AnOp) (s : State) : State := runZero o (fun f => f == 0) (fun _ => retBody o) s
def runNop (o : AnOp) (s : State) : State := runZero o (fun f => f == 0) (fun _ s w => (s, .ok (stepPc 4 w))) s

/-- SVC and HVC complete and then trap with the PC of the next instruction and the service number in XCODE bits 23:8
(R102, R119, R122). A step due under SS is not taken beside the trap (log 8). -/
def trapBody (o : AnOp) (code num n : Nat) (toH : Bool) : Body := fun s w =>
  (s, .ok { enterX o.ctx ⟨code, 0, num, 0, toH, 0, 0⟩ (canonPc (w.pc.toNat + n)) w with last := true })

/-- As `runInsn`, for an instruction that ends in a trap: SS makes nothing due. -/
def runTrap (lcn ctx n : Nat) (a5 : Bool) (body : Body) (s0 : State) : State :=
  let s := finishPieces lcn ctx s0
  let c := ctxOf s lcn ctx
  if ¬ ctxRuns s lcn ctx then s
  else match fetchCheck s lcn c n with
    | (s1, .error x) => takeX lcn ctx x c.pc s1
    | (s1, .ok _) =>
      if c.psw.a5 ≠ a5 then takeX lcn ctx illegal c.pc s1
      else endInsn lcn ctx s c false (body (updCtx lcn ctx (fun k => { k with sdRun := 0, sdBytes := 0 }) s1) c)

def runSvc (o : AnOp) (s : State) : State :=
  match decodeZero o with
  | none => anIllegal o s
  | some f => runTrap o.lcn o.ctx 4 false (trapBody o 0x16 f 4 false) s

def runHvc (o : AnOp) (s : State) : State :=
  match decodeZero o with
  | none => anIllegal o s
  | some f => runTrap o.lcn o.ctx 4 false (fun s w => atS w (trapBody o 0x17 f 4 true s w) s) s

/-- XRET (R79, R124). -/
def xretBody : Body := fun s w =>
  atS w (match leaveX w with
    | none => (s, .error illegal)
    | some w1 => (s, .ok { w1 with last := true })) s

def runXret (o : AnOp) (s : State) : State := runZero o (fun f => f == 0) (fun _ => xretBody) s

/-- An event that R123 would take is pending. -/
def eventDue (s : State) (l : Nat) (c : Ctx) : Bool :=
  c.mcheck.isSome || c.clockLoss || c.modeChange || c.debugDue || !(lcnOf s l).ext.isEmpty

/-- WAIT (R102): ends at once when an event is pending already. -/
def waitBody (o : AnOp) (limit : Nat) : Body := fun s w =>
  atS w (if eventDue s o.lcn w then (s, .ok (stepLast 4 (setCc Cc.zero w))) else (s, .ok { w with wait := some limit, last := true })) s

/-- A WAIT that begins is not complete, so a step under SS comes due at its end. -/
def runWait (o : AnOp) (s : State) : State :=
  match decodeZero o with
  | none => anIllegal o s
  | some f =>
    let c := ctxOf s o.lcn o.ctx
    if eventDue s o.lcn c then runInsn o.lcn o.ctx 4 false (waitBody o f) s
    else runTrap o.lcn o.ctx 4 false (waitBody o f) s

/-- WAIT_LIMIT_EXPIRY (R102): CC 0x1. -/
def waitExpire (lcn ctx : Nat) (s : State) : State :=
  match (ctxOf s lcn ctx).wait with
  | some 0 => s
  | some _ => updCtx lcn ctx (endWait (codeCc 1)) s
  | none => s

/-! ### Strings (R99) -/

/-- Operands of a string instruction: sizes accessed, operand 2 written or not. Operand 1 of SRCH, which R99 does not use,
is resolved as a readable string like the others: DESIGN CHOICE (log 38). -/
def strOps (o : AnOp) (d : Dec) (len n1 : Nat) (wr2 : Bool) (s : State) (w : Ctx) : Res1 (Nat × List Chunk × List Chunk × Ctx) :=
  if d.t ≠ .bs ∨ ¬ d.specs.all memSpec then (s, .error illegal)
  else
    andThen (evalOp o.lcn o.ctx len .adr s w (d.specs.getD 0 (.reg 0))) (fun s1 r1 =>
      match r1.1 with
      | .adr a =>
        andThen (resolve s1 o.lcn r1.2 a n1 .read) (fun s2 k1 =>
          andThen (evalOp o.lcn o.ctx len (if wr2 then .wr else .rd) s2 r1.2 (d.specs.getD 1 (.reg 0))) (fun s3 r2 =>
            match r2.1 with
            | .mem _ k2 => (s3, .ok (a, k1, k2, r2.2))
            | _ => (s3, .error illegal)))
      | _ => (s1, .error illegal))

def withLen (d : Dec) (f : Nat → Body) : Body := fun s w =>
  match bsLen d w with
  | none => (s, .error illegal)
  | some n => f n s w

def movsBody (o : AnOp) (d : Dec) : Body := withLen d (fun n s w =>
  andThen (strOps o d n n true s w) (fun s1 r =>
    andThen (loadChunks o.lcn o.ctx r.2.1 s1) (fun s2 x =>
      bsEnd o.lcn o.ctx n r.2.2.1 x (d.step r.2.2.2) s2)))

/-- CC of the first unequal pair, compared as CMPU compares its operands (R86, R99). With every pair equal Z alone is set:
DESIGN CHOICE, R99 names the CC of an unequal pair only (log 38). -/
def firstDiff : List Byte → List Byte → Cc
  | x :: xs, y :: ys => if x = y then firstDiff xs ys else cmpR 8 y.toNat x.toNat
  | _, _ => cmpR 8 0 0

def cmpsBody (o : AnOp) (d : Dec) : Body := withLen d (fun n s w =>
  andThen (strOps o d n n false s w) (fun s1 r =>
    andThen (loadChunks o.lcn o.ctx r.2.1 s1) (fun s2 x =>
      andThen (loadChunks o.lcn o.ctx r.2.2.1 s2) (fun s3 y =>
        bsEnd o.lcn o.ctx n [] [] (d.step (setCc (firstDiff x y) r.2.2.2)) s3))))

def trsBody (o : AnOp) (d : Dec) : Body := withLen d (fun n s w =>
  andThen (strOps o d n 256 true s w) (fun s1 r =>
    andThen (loadChunks o.lcn o.ctx r.2.1 s1) (fun s2 t =>
      andThen (loadChunks o.lcn o.ctx r.2.2.1 s2) (fun s3 y =>
        bsEnd o.lcn o.ctx n r.2.2.1 (y.map (fun b => t.getD b.toNat 0)) (d.step r.2.2.2) s3))))

def srchBody (o : AnOp) (d : Dec) : Body := withLen d (fun n s w =>
  andThen (strOps o d n n false s w) (fun s1 r =>
    andThen (loadChunks o.lcn o.ctx r.2.2.1 s1) (fun s2 y =>
      let k := y.findIdx (fun b => b.toNat == gOf w 1 % 256)
      let w1 := setG 0 k r.2.2.2
      bsEnd o.lcn o.ctx n [] [] (d.step (setCc { w1.psw.cc with z := decide (k < y.length) } w1)) s2)))

/-! ### Atomics (R92, R101, R140) -/

/-- ALIGN of a misaligned operand, after translation and before an address error (R92, R123). -/
def alignCheck {α : Type} (al va : Nat) (r : Res1 α) : Res1 α :=
  if va % al = 0 then r
  else match r with
    | (s, .error x) => if x.code = 0x10 then (s, .error (xf 0x19 va)) else (s, .error x)
    | (s, .ok _) => (s, .error (xf 0x19 va))

/-- The operands of an atomic, each a source that may be written back; every one in memory must be aligned (R92). -/
def atomEval (o : AnOp) (n : Nat) (wr : List Nat) : Nat → List Spec → State → Ctx → Res1 (List Opd × Ctx)
  | _, [], s, w => (s, .ok ([], w))
  | i, sp :: t, s, w =>
    let one : Res1 (Opd × Ctx) :=
      if memSpec sp then
        andThen (evalOp o.lcn o.ctx n .adr s w sp) (fun s1 r =>
          match r.1 with
          | .adr va =>
            andThen (alignCheck n va (resolve s1 o.lcn r.2 va n (if wr.contains i then .write else .read)))
              (fun s2 ks => (s2, .ok (.mem va ks, r.2)))
          | _ => (s1, .error illegal))
      else evalOp o.lcn o.ctx n .rd s w sp
    andThen one (fun s1 r => andThen (atomEval o n wr (i + 1) t s1 r.2) (fun s2 q => (s2, .ok (r.1 :: q.1, q.2))))

/-- The types of the atomics: R92 names these three, for their alignment. Another TYPE raises ILLEGAL: DESIGN CHOICE
(log 38). -/
def atomTy (t : Ty) : Bool := t == .i32 || t == .i64 || t == .i128

/-- An atomic is a one-shot operation, after every earlier store and globally performed at its end (R100, R140). -/
def oneShot (lcn ctx : Nat) (s : State) : State :=
  updCtx lcn ctx (fun c => { c with reqId := (c.reqId + 1) % 65536, last := true }) (drainAll lcn ctx s)

/-- The write of an atomic's memory operand. In MIRRORED mode its home executes it, and no cached copy is left (R209, R215). -/
def atomWrite (lcn ctx : Nat) (p : Opd) (d : List Byte) (sw : State × Ctx) : State × Ctx :=
  match p with
  | .mem _ ks =>
    if effMode sw.1 = .mirrored ∧ ks.all (fun k => regionOf k.pa == .dram) then
      ((partsOf ks d).foldl (fun t e => writeRun (lcnHalf t lcn) e.pa e.data t) sw.1, sw.2)
    else writeOp lcn ctx p d sw
  | _ => writeOp lcn ctx p d sw

def atomBody (o : AnOp) (mem : Nat) (wr : List Nat) (f : Nat → List Nat → Nat × Nat × Option Bool) (d : Dec) : Body := fun s w =>
  let n := d.t.bytes
  if ¬ atomTy d.t ∨ ¬ (upTo d.specs.length).all (fun i => specOk d.t (wr.contains (i + 1)) false (d.specs.getD i (.reg 0))) then
    (s, .error illegal)
  else
    andThen (atomEval o n wr 1 d.specs s w) (fun s1 r =>
      let s2 := oneShot o.lcn o.ctx s1
      andThen ((upTo d.specs.length).foldl (fun (acc : Res1 (List Nat)) i =>
          andThen acc (fun u vs => andThen (readOp o.lcn o.ctx d.t n u (r.1.getD i (.reg 0))) (fun v x => (v, .ok (vs ++ [ofBytes x])))))
        (s2, .ok [])) (fun s3 vs =>
        let out := f n vs
        let a := atomWrite o.lcn o.ctx (r.1.getD (mem - 1) (.reg 0)) (toBytes n out.1) (s3, r.2)
        let b := match out.2.2 with
          | some true => a
          | _ => writeOp o.lcn o.ctx (r.1.getD 0 (.reg 0)) (toBytes n out.2.1) a
        let w2 := match out.2.2 with
          | some z => setCc { b.2.psw.cc with z := z } b.2
          | none => b.2
        (drainAll o.lcn o.ctx b.1, .ok (stepPc d.n w2))))

/-- CAS: new value of operand 3, value for operand 1, and Z (R101). -/
def casOf (_ : Nat) (v : List Nat) : Nat × Nat × Option Bool :=
  if v.getD 2 0 = v.getD 0 0 then (v.getD 1 0, v.getD 0 0, some true) else (v.getD 2 0, v.getD 2 0, some false)

/-- SWAP and FADD update operand 2 and give its old value to operand 1; CC is kept (log 8). -/
def swapOf (_ : Nat) (v : List Nat) : Nat × Nat × Option Bool := (v.getD 0 0, v.getD 1 0, none)
def faddOf (n : Nat) (v : List Nat) : Nat × Nat × Option Bool := ((v.getD 0 0 + v.getD 1 0) % 256 ^ n, v.getD 1 0, none)

def runCas (o : AnOp) (s : State) : State := runAn o (decodeAn o [1]) (atomBody o 3 [1, 3] casOf) s
def runSwap (o : AnOp) (s : State) : State := runAn o (decodeAn o [0]) (atomBody o 2 [1, 2] swapOf) s
def runFadd (o : AnOp) (s : State) : State := runAn o (decodeAn o [0]) (atomBody o 2 [1, 2] faddOf) s

/-! ### Control registers (R78, R168–R171) -/

/-- Level a control register needs, or none for a number that names none (R78, R168). -/
def crLevel (k : Nat) : Option Lvl :=
  if k ∈ [1, 2, 3, 4, 5, 0x10, 0x11, 0x12, 0x13, 0x20, 0x21, 0x28, 0x30] then some .s
  else if k ∈ [9, 10, 11, 12, 13, 0x22, 0x23, 0x24, 0x29, 0x2C, 0x2D, 0x2E] then some .h
  else none

def crRead (s : State) (lcn ctx : Nat) (c : Ctx) (k : Nat) : Nat :=
  match k with
  | 0x01 => c.xs.evb.toNat
  | 0x02 => c.xs.xpc.toNat
  | 0x03 => c.xs.xpsw.toNat
  | 0x04 => c.xs.xcode.toNat
  | 0x05 => c.xs.xaddr.toNat
  | 0x09 => c.xh.evb.toNat
  | 0x0A => c.xh.xpc.toNat
  | 0x0B => c.xh.xpsw.toNat
  | 0x0C => c.xh.xcode.toNat
  | 0x0D => c.xh.xaddr.toNat
  | 0x10 => c.cbase.toNat
  | 0x11 => c.clim.toNat
  | 0x12 => b2n c.uread
  | 0x13 => lcn + ctx * 65536
  | 0x20 => c.ttbrS.toNat
  | 0x21 => b2n c.sua + 2 * b2n (s.cfg.part != .q0800a && !c.adhOffS)
  | 0x22 => c.ttbrH.toNat
  | 0x23 => 2 * b2n (s.cfg.part != .q0800a && !c.adhOffH)
  | 0x24 => c.vttbr.toNat
  | 0x28 => c.xs.xinfo.toNat
  | 0x29 => c.xh.xinfo.toNat
  | 0x2C => c.s2va.toNat
  | 0x2D => c.s2ipa.toNat
  | 0x2E => c.s2info.toNat
  | 0x30 => (lcnOf s lcn).locks.length
  | _ => 0

def bv64 (v : Nat) : W64 := BitVec.ofNat 64 v

/-- Reserved bits 11:1 of a table root register (R169, R171). -/
def rootBits (v : Nat) : W64 := bv64 (v - fld v 11 1 * 2)

/-- Write a control register; read-only ones keep their value (R14). -/
def crWrite (k v : Nat) (c : Ctx) : Ctx :=
  match k with
  | 0x01 => { c with xs := { c.xs with evb := bv64 (v / 4096 * 4096) } }
  | 0x02 => { c with xs := { c.xs with xpc := bv64 v } }
  | 0x03 => { c with xs := { c.xs with xpsw := bv64 v } }
  | 0x05 => { c with xs := { c.xs with xaddr := bv64 v } }
  | 0x09 => { c with xh := { c.xh with evb := bv64 (v / 4096 * 4096) } }
  | 0x0A => { c with xh := { c.xh with xpc := bv64 v } }
  | 0x0B => { c with xh := { c.xh with xpsw := bv64 v } }
  | 0x0D => { c with xh := { c.xh with xaddr := bv64 v } }
  | 0x10 => { c with cbase := bv64 (v / 65536 * 65536) }
  | 0x11 => { c with clim := bv64 v }
  | 0x20 => { c with ttbrS := rootBits v }
  | 0x21 => { c with sua := bitOf v 0, adhOffS := !bitOf v 1 }
  | 0x22 => { c with ttbrH := rootBits v }
  | 0x23 => { c with adhOffH := !bitOf v 1 }
  | 0x24 => { c with vttbr := rootBits v }
  | _ => c

/-- The control-register number: an immediate operand (R78). -/
def crNum (sp : Spec) : Option Nat :=
  match sp with
  | .imm z r => some (immInt z r 64)
  | _ => none

/-- Whether a control register exists and may be reached at this level (R78). -/
def crCheck (w : Ctx) (num : Option Nat) : Except Xf Nat :=
  match num with
  | none => .error illegal
  | some k =>
    match crLevel k with
    | none => .error illegal
    | some l => if w.psw.pl = .u ∨ (l = .h ∧ w.psw.pl ≠ .h) then .error privileged else .ok k

def wrDest (o : AnOp) (d : Dec) (i : Nat) (v : Nat) (s : State) (w : Ctx) : Res1 Ctx :=
  andThen (evalOp o.lcn o.ctx d.t.bytes .wr s w (d.specs.getD i (.reg 0))) (fun s1 r =>
    let q := writeOp o.lcn o.ctx r.1 (toBytes d.t.bytes v) (s1, r.2)
    (q.1, .ok (stepPc d.n q.2)))

def rdSrc (o : AnOp) (d : Dec) (i : Nat) (s : State) (w : Ctx) : Res1 (Nat × Ctx) :=
  andThen (evalOp o.lcn o.ctx d.t.bytes .rd s w (d.specs.getD i (.reg 0))) (fun s1 r =>
    andThen (readOp o.lcn o.ctx d.t d.t.bytes s1 r.1) (fun s2 x => (s2, .ok (ofBytes x, r.2))))

/-- MFCR: operand 1 names the register, operand 2 receives its low bytes (R78). Of MFCR, MTCR, MFPSW and MTPSW the spec
leaves open: a TYPE narrower than the register reads its low bytes and writes zeros above the operand, and a TYPE that is no
integer raises ILLEGAL: DESIGN CHOICE (log 38). -/
def mfcrBody (o : AnOp) (d : Dec) : Body := fun s w =>
  if ¬ d.t.isInt ∨ ¬ specOk d.t false false (d.specs.getD 0 (.reg 0)) ∨ ¬ specOk d.t true false (d.specs.getD 1 (.reg 0)) then (s, .error illegal)
  else match crCheck w (crNum (d.specs.getD 0 (.reg 0))) with
    | .error x => (s, .error x)
    | .ok k => wrDest o d 1 (crRead s o.lcn o.ctx w k) s w

/-- MTCR: operand 1 is the value, operand 2 names the register (R78, R171); narrow types as MFCR says. -/
def mtcrBody (o : AnOp) (d : Dec) : Body := fun s w =>
  if ¬ d.t.isInt ∨ ¬ d.specs.all (specOk d.t false false) then (s, .error illegal)
  else match crCheck w (crNum (d.specs.getD 1 (.reg 0))) with
    | .error x => (s, .error x)
    | .ok k => andThen (rdSrc o d 0 s w) (fun s1 r =>
        if k = 0x24 ∧ bitOf r.1 0 ∧ fld r.1 63 52 = 0 then (s1, .error illegal)
        else (s1, .ok (stepLast d.n (crWrite k r.1 r.2))))

def mfpswBody (o : AnOp) (d : Dec) : Body := fun s w =>
  if ¬ d.t.isInt ∨ ¬ specOk d.t true false (d.specs.getD 0 (.reg 0)) then (s, .error illegal)
  else wrDest o d 0 (w.psw.toNat o.ctx) s w

/-- MTPSW writes the RW fields, at U not IE and SS (R77). -/
def pswWrite (v : Nat) (p : Psw) : Psw :=
  let q := pswOf v
  { p with iv := q.iv, dv := q.dv, fe := q.fe, ff := q.ff, rm := q.rm, cc := q.cc,
           ie := if p.pl = .u then p.ie else q.ie, ss := if p.pl = .u then p.ss else q.ss }

/-- MTPSW: of a TYPE narrower than 32 bits the fields above the operand are written 0, and one that is no integer raises
ILLEGAL: DESIGN CHOICE (log 38). -/
def mtpswBody (o : AnOp) (d : Dec) : Body := fun s w =>
  if ¬ d.t.isInt ∨ ¬ specOk d.t false false (d.specs.getD 0 (.reg 0)) then (s, .error illegal)
  else andThen (rdSrc o d 0 s w) (fun s1 r => (s1, .ok (stepLast d.n { r.2 with psw := pswWrite r.1 r.2.psw })))

/-- WRFB: operand 1 is the address, operand 2 the bank number (R93); the bank's frame-store lines drop (R94). Which operand
is which, and that a bank above 3 raises ILLEGAL here and in RDFB, the spec does not say: DESIGN CHOICE (log 38). -/
def wrfbBody (o : AnOp) (d : Dec) : Body := fun s w =>
  if ¬ d.t.isInt ∨ ¬ d.specs.all (specOk d.t false false) then (s, .error illegal)
  else andThen (rdSrc o d 0 s w) (fun s1 r => andThen (rdSrc o d 1 s1 r.2) (fun s2 b =>
      if 3 < b.1 then (s2, .error illegal)
      else
        let s3 := updCtx o.lcn o.ctx (fun c => { c with frame := c.frame.filter (fun x => x.1 / 64 ≠ b.1) }) s2
        (s3, .ok (stepLast d.n { b.2 with fb := tset 0 b.2.fb b.1 (bv64 (r.1 / 4096 * 4096)) }))))

def rdfbBody (o : AnOp) (d : Dec) : Body := fun s w =>
  if ¬ d.t.isInt ∨ ¬ specOk d.t false false (d.specs.getD 0 (.reg 0)) ∨ ¬ specOk d.t true false (d.specs.getD 1 (.reg 0)) then
    (s, .error illegal)
  else andThen (rdSrc o d 0 s w) (fun s1 r =>
      if 3 < r.1 then (s1, .error illegal) else wrDest o d 1 (tget 0 r.2.fb r.1).toNat s1 r.2)

/-! ### The A5 area (R127, R128) -/

def a5Area (c : Ctx) : List Byte :=
  (upTo 8).flatMap (fun i => toBytes 4 (tget 0 c.a5a i).toNat) ++
  (upTo 16).flatMap (fun i => toBytes 8 (tget 0 c.a5d i).toNat) ++
  (upTo 4).flatMap (fun i => toBytes 16 (tget 0 c.a5ac i).toNat) ++
  toBytes 1 c.bnk.toNat ++ toBytes 1 c.a5cc.toNat ++ List.replicate 30 0

def a5Load (d : List Byte) (c : Ctx) : Ctx :=
  { c with
    a5a := (upTo 8).foldl (fun t i => tset 0 t i (BitVec.ofNat 32 (fieldAt d (4 * i) 4))) []
    a5d := (upTo 16).foldl (fun t i => tset 0 t i (BitVec.ofNat 64 (fieldAt d (0x20 + 8 * i) 8))) []
    a5ac := (upTo 4).foldl (fun t i => tset 0 t i (BitVec.ofNat 128 (fieldAt d (0xA0 + 16 * i) 16))) []
    bnk := d.getD 0xE0 0
    a5cc := ccOf ((d.getD 0xE1 0).toNat % 16) }

/-- The area's operand, aligned to 64 bytes (R128). -/
def areaOf (o : AnOp) (d : Dec) (acc : Acc) (s : State) (w : Ctx) : Res1 (List Chunk × Ctx) :=
  andThen (addrOf o.lcn o.ctx d.t.bytes s w (d.specs.getD 0 (.reg 0))) (fun s1 r =>
    andThen (alignCheck 64 r.1 (resolve s1 o.lcn r.2 r.1 256 acc)) (fun s2 ks => (s2, .ok (ks, r.2))))

/-- The operand of SVA5 and LDA5 is an address, of an integer TYPE (log 8). -/
def areaOk (d : Dec) : Bool := d.t.isInt && memSpec (d.specs.getD 0 (.reg 0))

def sva5Body (o : AnOp) (d : Dec) : Body := fun s w =>
  if ¬ areaOk d then (s, .error illegal) else atS w (andThen (areaOf o d .write s w) (fun s1 r => (storeChunks o.lcn o.ctx r.1 (a5Area w) s1, .ok (stepPc d.n r.2)))) s

def lda5Body (o : AnOp) (d : Dec) : Body := fun s w =>
  if ¬ areaOk d then (s, .error illegal) else atS w (andThen (areaOf o d .read s w) (fun s1 r =>
    andThen (loadChunks o.lcn o.ctx r.1 s1) (fun s2 x => (s2, .ok (stepLast d.n (a5Load x r.2)))))) s

end Sys2Proof.Machine
end

