-- ==== Sys2Proof/Machine/AnSystem.lean ====
section
/-! DEFINITION. AN instructions on translations, keys, locks, counters and command rings (R104–R106, R114–R118,
R187–R194). -/
namespace Sys2Proof.Machine

/-! ### TLB invalidation (R191–R193) -/

/-- The entry maps the page of a virtual address. -/
def mapsVa (e : TlbEntry) (va : Nat) : Bool := e.va == va / e.size * e.size

/-- The stage-2 page an entry's translation used is that of an IPA (R191). -/
def usedIpa (e : TlbEntry) (ipa : Nat) : Bool :=
  match e.ipa with
  | some i => i / 2 ^ (12 + 9 * e.lvl2) == fld ipa 51 12 * 4096 / 2 ^ (12 + 9 * e.lvl2)
  | none => false

/-- An unlocked entry an invalidation removes (R191). -/
def tlbiHits (m : Tlbi) (e : TlbEntry) : Bool :=
  match m.kind with
  | 0 => e.regH == m.regH && e.vmid == m.vmid && mapsVa e m.arg && (e.asid == m.asid || e.g)
  | 1 => e.regH == m.regH && e.vmid == m.vmid && e.asid == m.arg % 4096 && !e.g
  | 2 => e.regH == m.regH && e.vmid == m.vmid
  | 3 => !e.regH && e.vmid == m.arg % 4096
  | 4 => !e.regH && e.vmid == m.vmid && usedIpa e m.arg
  | _ => false

/-- A walk-cache entry an invalidation removes (R191): on the path to the VA, of the ASID, of the regime, of the VMID in
both stages; for an IPA those of stage 2 on its path (log 36). -/
def walkGone (m : Tlbi) (e : WalkEnt) : Bool :=
  match m.kind with
  | 0 => !e.s2 && e.regH == m.regH && e.vmid == m.vmid && e.asid == m.asid && e.tag == walkTag e.lvl m.arg
  | 1 => !e.s2 && e.regH == m.regH && e.vmid == m.vmid && e.asid == m.arg % 4096
  | 2 => e.regH == m.regH
  | 3 => !e.regH && e.vmid == m.arg % 4096
  | 4 => e.s2 && e.vmid == m.vmid && e.tag == walkTag e.lvl (fld m.arg 51 12 * 4096)
  | _ => false

/-- A locked entry TLBILCK removes: regime, VMID, ASID and page agree (R191). -/
def lockHit (m : Tlbi) (e : TlbEntry) : Bool :=
  e.regH == m.regH && e.vmid == m.vmid && e.asid == m.asid && mapsVa e m.arg

/-- An invalidation covers the page of a bank of a context: an entry it removes maps it, or what it names is the context's
(R94, R191). -/
def coversBank (m : Tlbi) (gone : List TlbEntry) (c : Ctx) (bank : Nat) : Bool :=
  let va := (tget 0 c.fb bank).toNat
  gone.any (fun e => mapsVa e va) ||
  (match m.kind with
    | 1 => regimeH c == m.regH && tagVmid c == m.vmid && curAsid c == m.arg % 4096
    | 2 => regimeH c == m.regH && tagVmid c == m.vmid
    | 3 => !regimeH c && curVmid c == m.arg % 4096
    | 4 => !regimeH c && curVmid c == m.vmid
    | _ => va / 4096 == m.arg / 4096)

/-- Frame-store lines of the banks an invalidation covers leave (R94). -/
def dropFrames (m : Tlbi) (gone : List TlbEntry) (c : Ctx) : Ctx :=
  { c with frame := c.frame.filter (fun x => !coversBank m gone c (x.1 / 64)) }

/-- Entries of a core an invalidation removes: unlocked ones, and by TLBILCK locked ones. -/
def tlbiGone (m : Tlbi) (k : Lcn) : List TlbEntry :=
  (k.itlb ++ k.dtlb ++ k.tlb ++ k.slots).filter (tlbiHits m) ++ (if m.kind = 5 then k.locks.filter (lockHit m) else [])

/-- An invalidation takes effect on one core. -/
def tlbiApply (m : Tlbi) (lcn : Nat) (s : State) : State :=
  let keep := fun (l : List TlbEntry) => l.filter (fun e => !tlbiHits m e)
  let gone := tlbiGone m (lcnOf s lcn)
  let s1 := updLcn lcn (fun k =>
    { k with itlb := keep k.itlb, dtlb := keep k.dtlb, tlb := keep k.tlb, slots := keep k.slots,
             walks := k.walks.filter (fun e => !walkGone m e),
             locks := if m.kind = 5 then k.locks.filter (fun e => !lockHit m e) else k.locks }) s
  modCtx lcn 1 (dropFrames m gone) (modCtx lcn 0 (dropFrames m gone) s1)

/-- Cores in service in the coherence domain of an LCN, without itself (R192). -/
def tlbDomain (s : State) (lcn : Nat) : List Nat :=
  (upTo (lcnCount s)).filter (fun l =>
    l != lcn && (coreOf s l).isSome &&
    (match effMode s with
      | .split => lcnHalf s l == lcnHalf s lcn
      | .degraded => lcnHalf s l == runHalf s
      | _ => true))

/-- The invalidation an instruction sends, for the current regime, VMID and ASID. -/
def tlbiOf (kind arg lcn ctx : Nat) (w : Ctx) (left : List Nat) : Tlbi :=
  { kind := kind, regH := regimeH w, vmid := if kind = 4 then curVmid w else tagVmid w, asid := curAsid w, arg := arg,
    left := left, src := lcn * 2 + ctx }

/-- The executing core's own copy goes at once; a broadcast is under way to the others (R191, R193). -/
def tlbiRun (o : AnOp) (kind : Nat) (bcast : Bool) (arg n : Nat) (s : State) (w : Ctx) : Res1 Ctx :=
  let m := tlbiOf kind arg o.lcn o.ctx w (if bcast then tlbDomain s o.lcn else [])
  let s1 := tlbiApply m o.lcn s
  let s2 := if bcast ∧ m.left ≠ [] then { s1 with tlbq := s1.tlbq ++ [m] } else s1
  (s2, .ok (stepPc n w))

/-- Level check of R79 and R191. -/
def tlbLevel (hOnly : Bool) (w : Ctx) : Bool := w.psw.pl == .h || (w.psw.pl == .s && !hOnly)

/-- An invalidation with an operand read as a value of the listed TYPE. -/
def tlbiBody (o : AnOp) (kind : Nat) (bcast hOnly : Bool) (d : Dec) : Body := fun s w =>
  if ¬ specOk d.t false false (d.specs.getD 0 (.reg 0)) then (s, .error illegal)
  else if ¬ tlbLevel hOnly w then (s, .error privileged)
  else andThen (rdSrc o d 0 s w) (fun s1 r => tlbiRun o kind bcast r.1 d.n s1 r.2)

def runTlbi (o : AnOp) (ty kind : Nat) (bcast hOnly : Bool) (s : State) : State :=
  runAn o (if o.ty = ty then decodeAn o [2] else none) (tlbiBody o kind bcast hOnly) s

def runTlbiAll (o : AnOp) (bcast : Bool) (s : State) : State :=
  runZero o (fun f => f == 0) (fun _ s w =>
    if ¬ tlbLevel false w then (s, .error privileged) else tlbiRun o 2 bcast 0 4 s w) s

/-- The oldest invalidation that has not reached a core arrives there. -/
def tlbiArrive (lcn : Nat) : List Tlbi → Option Tlbi × List Tlbi
  | [] => (none, [])
  | m :: t =>
    if m.left.contains lcn then
      let m' := { m with left := m.left.erase lcn }
      (some m, if m'.left = [] then t else m' :: t)
    else
      let r := tlbiArrive lcn t
      (r.1, m :: r.2)

/-- TLB_INVALIDATION_ARRIVAL (R192, R193). -/
def tlbArrival (lcn : Nat) (s : State) : State :=
  match tlbiArrive lcn s.tlbq with
  | (none, _) => s
  | (some m, q) => tlbiApply m lcn { s with tlbq := q }

/-- TLBSYNC completes when every core has done the context's invalidations (R193): those under way arrive first. -/
def syncAll (src : Nat) (s : State) : State :=
  let mine := s.tlbq.filter (fun m => m.src = src)
  let s1 := mine.foldl (fun t m => m.left.foldl (fun u l => tlbiApply m l u) t) s
  { s1 with tlbq := s.tlbq.filter (fun m => m.src ≠ src) }

def runTlbsync (o : AnOp) (s : State) : State :=
  runZero o (fun f => f == 0) (fun _ s w =>
    atS w (syncAll (o.lcn * 2 + o.ctx) s, .ok (stepPc 4 w)) s) s

/-! ### PUBLISH, protection keys -/

/-- Every earlier store of the context is globally performed; a poisoned one raises MACHINE_CHECK (R106, R160). -/
def publish (lcn ctx : Nat) (s : State) : Res1 Unit :=
  let s1 := drainAll lcn ctx s
  match (ctxOf s1 lcn ctx).badStore with
  | some pa => (updCtx lcn ctx (fun c => { c with badStore := none }) s1, .error ⟨0x01, pa, 2, 0, true, 0, 0⟩)
  | none => (s1, .ok ())

def runPublish (o : AnOp) (s : State) : State :=
  runZero o (fun f => f == 0) (fun _ s w => andThen (publish o.lcn o.ctx s) (fun s1 _ => (s1, .ok (stepPc 4 w)))) s

/-- Decode a device-particular instruction: TYPE 0x0 and its format (R104). -/
def decodeDev (o : AnOp) (fmt : Nat) : Option Plain := decodePlain o fmt (fun t => t == 0)

/-- A value operand of a fixed integer type. -/
def rdVal (o : AnOp) (t : Ty) (sp : Spec) (s : State) (w : Ctx) : Res1 (Nat × Ctx) :=
  if ¬ specOk t false false sp then (s, .error illegal)
  else andThen (evalOp o.lcn o.ctx t.bytes .rd s w sp) (fun s1 r =>
    andThen (readOp o.lcn o.ctx t t.bytes s1 r.1) (fun s2 x => (s2, .ok (ofBytes x, r.2))))

/-- An I64 destination, resolved before anything takes effect. -/
def wrVal (o : AnOp) (sp : Spec) (s : State) (w : Ctx) : Res1 (Opd × Ctx) :=
  if ¬ specOk .i64 true false sp then (s, .error illegal) else evalOp o.lcn o.ctx 8 .wr s w sp

/-- An address operand of `n` bytes accessed as `acc` (R90, R104). -/
def memVal (o : AnOp) (n : Nat) (acc : Acc) (sp : Spec) (s : State) (w : Ctx) : Res1 (List Chunk × Ctx) :=
  andThen (addrOf o.lcn o.ctx n s w sp) (fun s1 r =>
    andThen (resolve s1 o.lcn r.2 r.1 n acc) (fun s2 ks => (s2, .ok (ks, r.2))))

/-- The i-th specifier of an instruction. -/
def Plain.sp (p : Plain) (i : Nat) : Spec := p.specs.getD i (.reg 0)

def runWrpkr (o : AnOp) (s : State) : State :=
  runPlain o (decodeDev o 2) (fun p s w =>
    andThen (rdVal o .i64 (p.sp 0) s w) (fun s1 r => (s1, .ok (stepPc p.n { r.2 with pkr := bv64 r.1 })))) s

def runRdpkr (o : AnOp) (s : State) : State :=
  runPlain o (decodeDev o 2) (fun p s w =>
    andThen (wrVal o (p.sp 0) s w) (fun s1 r =>
      let q := writeOp o.lcn o.ctx r.1 (toBytes 8 r.2.pkr.toNat) (s1, r.2)
      (q.1, .ok (stepPc p.n q.2)))) s

/-! ### TLOCK and TUNLOCK (R116, R188, R189) -/

/-- Lock an entry in place of every other of its page; unlocked entries keep the slots that are left (R187, R188). -/
def lockPut (c : Ctx) (va : Nat) (e : TlbEntry) (k : Lcn) : Lcn :=
  let keep := fun (l : List TlbEntry) => l.filter (fun x => !tlbHit c va x)
  let locks := keep k.locks ++ [e]
  { k with locks := locks, itlb := keep k.itlb, dtlb := keep k.dtlb, tlb := keep k.tlb
           slots := (keep k.slots).take (lockSize - locks.length) }

/-- TLOCK: walk, then lock the entry in place of a locked one of the same page, or in a free slot. -/
def tlockBody (o : AnOp) (p : Plain) : Body := fun s w =>
  if ¬ memSpec (p.sp 0) then (s, .error illegal)
  else atS w (andThen (addrOf o.lcn o.ctx 1 s w (p.sp 0)) (fun s1 r =>
    let k := lcnOf s1 o.lcn
    let held := k.locks.any (tlbHit r.2 r.1)
    match translate s1 o.lcn r.2 r.1 .tlock with
    | (s2, .error x) => (s2, .error x)
    | (s2, .ok t) =>
      if !held && decide (lockSize ≤ k.locks.length) then (s2, .ok (stepLast p.n (setCc (codeCc 2) r.2)))
      else
        (updLcn o.lcn (lockPut r.2 r.1 t.ent) s2, .ok (stepLast p.n (setCc (codeCc 0) r.2))))) s

def tunlockBody (o : AnOp) (p : Plain) : Body := fun s w =>
  if ¬ memSpec (p.sp 0) then (s, .error illegal)
  else atS w (andThen (addrOf o.lcn o.ctx 1 s w (p.sp 0)) (fun s1 r =>
    let held := (lcnOf s1 o.lcn).locks.any (tlbHit r.2 r.1)
    let s2 := updLcn o.lcn (fun k => { k with locks := k.locks.filter (fun e => !tlbHit r.2 r.1 e) }) s1
    (s2, .ok (stepLast p.n (setCc (codeCc (if held then 0 else 1)) r.2))))) s

def runTlock (o : AnOp) (s : State) : State := runPlain o (decodeDev o 2) (tlockBody o) s
def runTunlock (o : AnOp) (s : State) : State := runPlain o (decodeDev o 2) (tunlockBody o) s

/-! ### Counters (R117, R578, R582) -/

/-- A counter as it is read: COUNT in bits 47:0 and the overflow bit in bit 63 (R117). -/
def ctrRead (c : Ctr) : Nat := c.val + b2n c.ovf * 2 ^ 63

def rdpctBody (o : AnOp) (p : Plain) : Body := fun s w =>
  if ¬ specOk .i16 false false (p.sp 0) ∨ ¬ specOk .i64 true false (p.sp 1) then (s, .error illegal)
  else if w.psw.pl = .u ∧ ¬ w.uread then (s, .error privileged)
  else andThen (rdVal o .i16 (p.sp 0) s w) (fun s1 r =>
    if 8 ≤ r.1 then (s1, .error illegal)
    else andThen (wrVal o (p.sp 1) s1 r.2) (fun s2 q =>
      let s3 := tally s2
      let x := writeOp o.lcn o.ctx q.1 (toBytes 8 (ctrRead (ctrOf s3 (coreUnit o.lcn) r.1))) (s3, q.2)
      (x.1, .ok (stepPc p.n x.2))))

def runRdpct (o : AnOp) (s : State) : State := runPlain o (decodeDev o 0) (rdpctBody o) s

/-! ### CMD (R118) -/

/-- The hub operand 2 of CMD selects; none is no ring. -/
def cmdHub (s : State) (lcn v : Nat) : Option Half :=
  let h := if v = 0 then some Half.a else if v = 1 then some Half.b else if v = 0xFF then some (lcnHalf s lcn) else none
  match h with
  | some h => if hubPresent s h ∧ ¬ (effMode s = .split ∧ h ≠ lcnHalf s lcn) then some h else none
  | none => none

/-- The command ring is full (R58). -/
def crFull (r : Ring) : Bool := (r.crTail + 1) % ringSlots r == r.crHead % ringSlots r

/-- Put a packet into the next slot of a ring and advance SYS_CR_TAIL: result code and state. -/
def cmdPost (h : Half) (level : Nat) (d : List Byte) (s : State) : Nat × State :=
  let g := ringOf s h level
  if ¬ g.en ∨ g.stopped then (3, s)
  else if crFull g then (2, s)
  else match dmaWrite s h (g.crBase.toNat % 2 ^ 52 + g.crTail * 64) d with
    | none => (3, ringStop h level s)
    | some (s1, _) => (0, updRing h level (fun k => { k with crTail := (k.crTail + 1) % ringSlots k }) s1)

end Sys2Proof.Machine
end

