-- ==== Sys2Proof/Machine/A5.lean ====
section
/-! DEFINITION. The A5-series instructions (R126–R134). -/
namespace Sys2Proof.Machine

/-- Register classes (R127, R132). -/
inductive A5Reg where
  | a (n : Nat)
  | d (n : Nat)
  | ac (n : Nat)
deriving DecidableEq, Repr

def a5Reg (x : Nat) : Option A5Reg :=
  if x < 8 then some (.a x) else if x < 0x18 then some (.d (x - 8)) else if x < 0x1C then some (.ac (x - 0x18)) else none

def A5Reg.bytes : A5Reg → Nat
  | .a _ => 4
  | .d _ => 8
  | .ac _ => 16

def A5Reg.bits (r : A5Reg) : Nat := 8 * r.bytes

def A5Reg.isA : A5Reg → Bool
  | .a _ => true
  | _ => false

def A5Reg.isD : A5Reg → Bool
  | .d _ => true
  | _ => false

def A5Reg.isAc : A5Reg → Bool
  | .ac _ => true
  | _ => false

def a5Get (c : Ctx) : A5Reg → Nat
  | .a n => (tget 0 c.a5a n).toNat
  | .d n => (tget 0 c.a5d n).toNat
  | .ac n => (tget 0 c.a5ac n).toNat

def a5Set (r : A5Reg) (v : Nat) (c : Ctx) : Ctx :=
  match r with
  | .a n => { c with a5a := tset 0 c.a5a n (BitVec.ofNat 32 v) }
  | .d n => { c with a5d := tset 0 c.a5d n (BitVec.ofNat 64 v) }
  | .ac n => { c with a5ac := tset 0 c.a5ac n (BitVec.ofNat 128 v) }

def a5Class : Xf := xf 0x09 0

/-- EA of the current instruction (R131). -/
def a5Ea (c : Ctx) : Nat := (c.pc.toNat + 2 ^ 64 - c.cbase.toNat) % 2 ^ 64

/-- Virtual address of an EA; above CLIM it raises A5_LIMIT (R130). -/
def a5Va (c : Ctx) (ea : Nat) : Except Xf Nat :=
  let va := (c.cbase.toNat + ea) % 2 ^ 64
  if c.clim.toNat < ea then .error (xf 0x0A va) else .ok va

/-- The fetch of the 32-bit word (R123, R130, R131). -/
def a5Fetch (s : State) (lcn : Nat) (c : Ctx) : Res1 Unit :=
  if a5Ea c % 4 ≠ 0 then (s, .error (xf 0x06 c.pc.toNat))
  else match a5Va c (a5Ea c) with
    | .error x => (s, .error x)
    | .ok va => fetchRun s lcn c va 4

/-- Run an A5 instruction. Outside A5 mode the context fetches its first parcel, and the command names no AN instruction:
ILLEGAL. -/
def runA5 (o : A5Op) (trap : Bool) (body : Body) (s0 : State) : State :=
  let s := finishPieces o.lcn o.ctx s0
  let c := ctxOf s o.lcn o.ctx
  if ¬ ctxRuns s o.lcn o.ctx then s
  else if ¬ c.psw.a5 then runInsn o.lcn o.ctx 2 false (fun t _ => (t, .error illegal)) s
  else match a5Fetch s o.lcn c with
    | (s1, .error x) => takeX o.lcn o.ctx x c.pc s1
    | (s1, .ok _) =>
      endInsn o.lcn o.ctx s c (c.psw.ss && !trap) (body s1 c)

/-- Continue at an EA (R131). -/
def a5Go (c : Ctx) (ea : Nat) (w : Ctx) : Ctx := { w with pc := canonPc (c.cbase.toNat + ea % 2 ^ 32) }

def a5Next (w : Ctx) : Ctx := a5Go w (a5Ea w + 4) w

/-- The displacement or immediate F, sign-extended (R133). -/
def a5Imm (f : Nat) : Int := toS 16 f

/-- EA(RB, F): A[RB] + F modulo 2^32; RB must be an A register (R129, R133). -/
def a5Addr (w : Ctx) (rb f : Nat) : Except Xf Nat :=
  match a5Reg rb with
  | none => .error illegal
  | some (.a n) => .ok (ofS 32 ((a5Get w (.a n) : Int) + a5Imm f))
  | some _ => .error a5Class

/-- The short-address EA (R130). -/
def a5Short (w : Ctx) (f : Nat) : Nat := w.bnk.toNat * 65536 + f % 65536

/-- A register specifier of the classes `ok` (R129, R132). -/
def a5Want (x : Nat) (ok : A5Reg → Bool) : Except Xf A5Reg :=
  match a5Reg x with
  | none => .error illegal
  | some r => if ok r then .ok r else .error a5Class

/-- Bind on the checks, which have no effect. -/
def chk {α : Type} (s : State) (e : Except Xf α) (f : α → Res1 Ctx) : Res1 Ctx :=
  match e with
  | .error x => (s, .error x)
  | .ok a => f a

/-- Fields an opcode does not use are 0 (R131). -/
def unused (s : State) (zero : Bool) (f : Res1 Ctx) : Res1 Ctx := if zero then f else (s, .error illegal)

def a5Load1 (o : A5Op) (ea n : Nat) (w : Ctx) (s : State) : Res1 Nat :=
  match a5Va w ea with
  | .error x => (s, .error x)
  | .ok va => andThen (readVa o.lcn o.ctx w va n s) (fun s1 d => (s1, .ok (ofBytes d)))

def a5Store1 (o : A5Op) (ea n v : Nat) (w : Ctx) (s : State) : Res1 Unit :=
  match a5Va w ea with
  | .error x => (s, .error x)
  | .ok va => andThen (resolve s o.lcn w va n .write) (fun s1 ks => (storeChunks o.lcn o.ctx ks (toBytes n v) s1, .ok ()))

/-- Loads: a register of the allowed classes from an EA. -/
def a5LdBody (o : A5Op) (ok : A5Reg → Bool) (bytes : A5Reg → Nat) (ea : Ctx → Except Xf Nat) (zero : Bool) : Body := fun s w =>
  unused s zero (chk s (a5Want o.ra ok) (fun r => chk s (ea w) (fun a =>
    andThen (a5Load1 o a (bytes r) w s) (fun s1 v => (s1, .ok (a5Next (a5Set r v w)))))))

def a5StBody (o : A5Op) (ok : A5Reg → Bool) (bytes : A5Reg → Nat) (ea : Ctx → Except Xf Nat) (zero : Bool) : Body := fun s w =>
  unused s zero (chk s (a5Want o.ra ok) (fun r => chk s (ea w) (fun a =>
    andThen (a5Store1 o a (bytes r) (a5Get w r) w s) (fun s1 _ => (s1, .ok (a5Next w))))))

def anyReg (_ : A5Reg) : Bool := true
def one (_ : A5Reg) : Nat := 1

def runA5Nop (o : A5Op) (s : State) : State :=
  runA5 o false (fun s w => unused s (o.ra == 0 && o.rb == 0 && o.f == 0) (s, .ok (a5Next w))) s
def runA5Ld (o : A5Op) (s : State) : State :=
  runA5 o false (a5LdBody o anyReg A5Reg.bytes (fun w => a5Addr w o.rb o.f) true) s
def runA5St (o : A5Op) (s : State) : State :=
  runA5 o false (a5StBody o anyReg A5Reg.bytes (fun w => a5Addr w o.rb o.f) true) s
def runA5Lds (o : A5Op) (s : State) : State :=
  runA5 o false (a5LdBody o anyReg A5Reg.bytes (fun w => .ok (a5Short w o.f)) (o.rb == 0)) s
def runA5Sts (o : A5Op) (s : State) : State :=
  runA5 o false (a5StBody o anyReg A5Reg.bytes (fun w => .ok (a5Short w o.f)) (o.rb == 0)) s
def runA5Ldb (o : A5Op) (s : State) : State :=
  runA5 o false (a5LdBody o A5Reg.isD one (fun w => a5Addr w o.rb o.f) true) s
def runA5Stb (o : A5Op) (s : State) : State :=
  runA5 o false (a5StBody o A5Reg.isD one (fun w => a5Addr w o.rb o.f) true) s

def runA5Lea (o : A5Op) (s : State) : State :=
  runA5 o false (fun s w => chk s (a5Want o.ra A5Reg.isA) (fun r => chk s (a5Addr w o.rb o.f) (fun a =>
    (s, .ok (a5Next (a5Set r a w)))))) s

/-- Moves between registers (R129): within a class, A with D, D with AC; D to AC sign-extends. -/
def a5MovVal (r q : A5Reg) (v : Nat) : Except Xf Nat :=
  match r, q with
  | .a _, .ac _ => .error a5Class
  | .ac _, .a _ => .error a5Class
  | .ac _, .d _ => .ok (ofS 128 (toS 64 v))
  | _, _ => .ok v

def runA5Mov (o : A5Op) (s : State) : State :=
  runA5 o false (fun s w => unused s (o.f == 0) (chk s (a5Want o.ra anyReg) (fun r => chk s (a5Want o.rb anyReg) (fun q =>
    chk s (a5MovVal r q (a5Get w q)) (fun v => (s, .ok (a5Next (a5Set r v w)))))))) s

def runA5Ldi (o : A5Op) (s : State) : State :=
  runA5 o false (fun s w => unused s (o.rb == 0) (chk s (a5Want o.ra anyReg) (fun r =>
    (s, .ok (a5Next (a5Set r (ofS r.bits (a5Imm o.f)) w)))))) s

def runA5Lui (o : A5Op) (s : State) : State :=
  runA5 o false (fun s w => unused s (o.rb == 0) (chk s (a5Want o.ra (fun r => !r.isAc)) (fun r =>
    (s, .ok (a5Next (a5Set r (ofS r.bits (toS 32 (o.f * 65536))) w)))))) s

/-! ### Arithmetic, logic, shifts, compares (R133, R134) -/

def a5Put (r : A5Reg) (x : Res) (w : Ctx) : Ctx := a5Next { a5Set r x.val w with a5cc := x.cc }

def sameClass (r q : A5Reg) : Bool := r.isA == q.isA && r.isD == q.isD

/-- An operation of two registers of one class; its result under IV (R95, R134). -/
def a5Op2 (o : A5Op) (ok : A5Reg → Bool) (f : Nat → Nat → Nat → Except Xf Res) : Body := fun s w =>
  unused s (o.f == 0) (chk s (a5Want o.ra ok) (fun r => chk s (a5Want o.rb (fun q => ok q && sameClass r q)) (fun q =>
    chk s (f r.bits (a5Get w r) (a5Get w q)) (fun x => chk s (ivCheck w.psw x.cc) (fun _ => (s, .ok (a5Put r x w)))))))

def notD (r : A5Reg) : Bool := !r.isD
def divChecked (f : Nat → Nat → Nat → Res) (w a b : Nat) : Except Xf Res := if b % 2 ^ w = 0 then .error (xf 0x11 0) else .ok (f w a b)

def runA5Add (o : A5Op) (s : State) : State := runA5 o false (a5Op2 o notD (fun w a b => .ok (addR w a b))) s
def runA5Sub (o : A5Op) (s : State) : State := runA5 o false (a5Op2 o notD (fun w a b => .ok (subR w a b))) s
def runA5Mul (o : A5Op) (s : State) : State := runA5 o false (a5Op2 o A5Reg.isAc (fun w a b => .ok (mulR w a b))) s
def runA5Div (o : A5Op) (s : State) : State := runA5 o false (a5Op2 o A5Reg.isAc (divChecked divR)) s
def runA5Rem (o : A5Op) (s : State) : State := runA5 o false (a5Op2 o A5Reg.isAc (divChecked remR)) s
def runA5And (o : A5Op) (s : State) : State := runA5 o false (a5Op2 o A5Reg.isD (fun w a b => .ok (logicR w (a.land b)))) s
def runA5Or (o : A5Op) (s : State) : State := runA5 o false (a5Op2 o A5Reg.isD (fun w a b => .ok (logicR w (a.lor b)))) s
def runA5Xor (o : A5Op) (s : State) : State := runA5 o false (a5Op2 o A5Reg.isD (fun w a b => .ok (logicR w (a.xor b)))) s
def runA5Not (o : A5Op) (s : State) : State :=
  runA5 o false (a5Op2 o A5Reg.isD (fun w _ b => .ok (logicR w (2 ^ w - 1 - b % 2 ^ w)))) s

def runA5Addi (o : A5Op) (s : State) : State :=
  runA5 o false (fun s w => unused s (o.rb == 0) (chk s (a5Want o.ra notD) (fun r =>
    let x := addR r.bits (a5Get w r) (ofS r.bits (a5Imm o.f))
    chk s (ivCheck w.psw x.cc) (fun _ => (s, .ok (a5Put r x w)))))) s

/-- Packed decimal on accumulators: 31 digits (R98, R133, R134). -/
def a5Dec (k : Alu) (psw : Psw) (a b : Nat) : Except Xf Res :=
  match pdVal 31 (toBytes 16 a), pdVal 31 (toBytes 16 b) with
  | some x, some y =>
    (match aluPd k 0 x y with
      | .error e => .error e
      | .ok r => if pdOver 31 r ∧ psw.dv then .error (xf 0x14 0) else .ok ⟨ofBytes (pdPut 31 r), pdCc 31 r⟩)
  | _, _ => .error (xf 0x13 0)

def a5DecBody (o : A5Op) (k : Alu) : Body := fun s w =>
  unused s (o.f == 0) (chk s (a5Want o.ra A5Reg.isAc) (fun r => chk s (a5Want o.rb A5Reg.isAc) (fun q =>
    chk s (a5Dec k w.psw (a5Get w r) (a5Get w q)) (fun x => (s, .ok (a5Put r x w))))))

def runA5Dadd (o : A5Op) (s : State) : State := runA5 o false (a5DecBody o .add) s
def runA5Dsub (o : A5Op) (s : State) : State := runA5 o false (a5DecBody o .sub) s
def runA5Dmul (o : A5Op) (s : State) : State := runA5 o false (a5DecBody o .mul) s
def runA5Ddiv (o : A5Op) (s : State) : State := runA5 o false (a5DecBody o .div) s

def a5Shift (o : A5Op) (f : Nat → Nat → Nat → Res) : Body := fun s w =>
  unused s (o.rb == 0 && decide (o.f < 64)) (chk s (a5Want o.ra A5Reg.isD) (fun r =>
    (s, .ok (a5Put r (f 64 (a5Get w r) o.f) w))))

def runA5Shl (o : A5Op) (s : State) : State := runA5 o false (a5Shift o shlR) s
def runA5Shr (o : A5Op) (s : State) : State := runA5 o false (a5Shift o shrR) s
def runA5Sar (o : A5Op) (s : State) : State := runA5 o false (a5Shift o sarR) s
def runA5Rot (o : A5Op) (s : State) : State := runA5 o false (a5Shift o rotR) s

def a5CmpBody (o : A5Op) : Body := fun s w =>
  unused s (o.f == 0) (chk s (a5Want o.ra anyReg) (fun r => chk s (a5Want o.rb (sameClass r)) (fun q =>
    (s, .ok (a5Next { w with a5cc := cmpR r.bits (a5Get w r) (a5Get w q) })))))

def runA5Cmp (o : A5Op) (s : State) : State := runA5 o false (a5CmpBody o) s
def runA5Cmpu (o : A5Op) (s : State) : State := runA5 o false (a5CmpBody o) s
def runA5Cmpi (o : A5Op) (s : State) : State :=
  runA5 o false (fun s w => unused s (o.rb == 0) (chk s (a5Want o.ra anyReg) (fun r =>
    (s, .ok (a5Next { w with a5cc := cmpR r.bits (a5Get w r) (ofS r.bits (a5Imm o.f)) }))))) s

/-! ### Control transfer (R133, R134); the word offset F is signed (log 8) -/

def a5Rel (w : Ctx) (f : Nat) : Nat := ofS 32 ((a5Ea w : Int) + 4 + a5Imm f * 4)

/-- Condition of BC: 0x00–0x0B as BCC, 0x10 always, else ILLEGAL. -/
def a5Cond (ra : Nat) (c : Cc) : Except Xf Bool :=
  if ra < 12 then .ok (condHolds ra c) else if ra = 16 then .ok true else .error illegal

def runA5Bc (o : A5Op) (s : State) : State :=
  runA5 o false (fun s w => unused s (o.rb == 0) (chk s (a5Cond o.ra w.a5cc) (fun t =>
    (s, .ok (if t then a5Go w (a5Rel w o.f) w else a5Next w))))) s

/-- Push the return EA and go to `ea`. -/
def a5Push (o : A5Op) (ea : Nat) (s : State) (w : Ctx) : Res1 Ctx :=
  let sp := ofS 32 ((a5Get w (.a 7) : Int) - 4)
  andThen (a5Store1 o sp 4 (a5Ea w + 4) w s) (fun s1 _ => (s1, .ok (a5Go w ea (a5Set (.a 7) sp w))))

def runA5Call (o : A5Op) (s : State) : State :=
  runA5 o false (fun s w => unused s (o.ra == 0 && o.rb == 0) (a5Push o (a5Rel w o.f) s w)) s

def runA5Callr (o : A5Op) (s : State) : State :=
  runA5 o false (fun s w => unused s (o.ra == 0 && o.f == 0) (chk s (a5Addr w o.rb 0) (fun ea => a5Push o ea s w))) s

def runA5Ret (o : A5Op) (s : State) : State :=
  runA5 o false (fun s w => unused s (o.ra == 0 && o.rb == 0 && o.f == 0)
    (andThen (a5Load1 o (a5Get w (.a 7)) 4 w s) (fun s1 ea =>
      (s1, .ok (a5Go w ea (a5Set (.a 7) (a5Get w (.a 7) + 4) w)))))) s

def runA5Jmp (o : A5Op) (s : State) : State :=
  runA5 o false (fun s w => unused s (o.ra == 0) (chk s (a5Addr w o.rb o.f) (fun ea => (s, .ok (a5Go w ea w))))) s

/-- TRAP: an SVC exception with F as service number, taken after the instruction (R122, R133); it disarms the streaming
detector (R201). -/
def runA5Trap (o : A5Op) (s : State) : State :=
  runA5 o true (fun s w => unused s (o.ra == 0 && o.rb == 0)
    (updCtx o.lcn o.ctx (fun k => { k with sdRun := 0, sdBytes := 0 }) s, .ok { enterX o.ctx ⟨0x16, 0, o.f, 0, false, 0, 0⟩ (a5Next w).pc w with last := true })) s

end Sys2Proof.Machine
end

