-- ==== Sys2Proof/Machine/Live.lean ====
section
/-! DEFINITION. The shape of a command's outcome: every command answers a next state; those the powered package takes have no
effect while it is off or stopped. -/
namespace Sys2Proof.Machine

abbrev Out := Host.Outcome State Fault Refusal

/-- The hold domain is powered and FAULT_N has not stopped the package (R16, R531, R564). -/
def live (s : State) : Bool := !s.pkg.stopped && s.pkg.mode != .off

/-- A command the package takes: its effect while the package is live, nothing otherwise. -/
def act (f : State → State) (s : State) : Out := .next (if live s then f s else s)

end Sys2Proof.Machine
end

