-- ==== Sys2Proof/Machine/ExecA5.lean ====
section
/-! DEFINITION. Meanings of the commands of A5 instructions (R131–R134). -/
namespace Sys2Proof.Machine

/-- A5_NOP (R133). -/
def execA5Nop (o : A5Op) (s : State) : Out := act (runA5Nop o) s
/-- A5_LD (R133). -/
def execA5Ld (o : A5Op) (s : State) : Out := act (runA5Ld o) s
/-- A5_ST (R133). -/
def execA5St (o : A5Op) (s : State) : Out := act (runA5St o) s
/-- A5_LDS (R133). -/
def execA5Lds (o : A5Op) (s : State) : Out := act (runA5Lds o) s
/-- A5_STS (R133). -/
def execA5Sts (o : A5Op) (s : State) : Out := act (runA5Sts o) s
/-- A5_LDB (R133). -/
def execA5Ldb (o : A5Op) (s : State) : Out := act (runA5Ldb o) s
/-- A5_STB (R133). -/
def execA5Stb (o : A5Op) (s : State) : Out := act (runA5Stb o) s
/-- A5_LEA (R133). -/
def execA5Lea (o : A5Op) (s : State) : Out := act (runA5Lea o) s
/-- A5_MOV (R133). -/
def execA5Mov (o : A5Op) (s : State) : Out := act (runA5Mov o) s
/-- A5_LDI (R133). -/
def execA5Ldi (o : A5Op) (s : State) : Out := act (runA5Ldi o) s
/-- A5_LUI (R133). -/
def execA5Lui (o : A5Op) (s : State) : Out := act (runA5Lui o) s
/-- A5_ADD (R133). -/
def execA5Add (o : A5Op) (s : State) : Out := act (runA5Add o) s
/-- A5_SUB (R133). -/
def execA5Sub (o : A5Op) (s : State) : Out := act (runA5Sub o) s
/-- A5_ADDI (R133). -/
def execA5Addi (o : A5Op) (s : State) : Out := act (runA5Addi o) s
/-- A5_MUL (R133). -/
def execA5Mul (o : A5Op) (s : State) : Out := act (runA5Mul o) s
/-- A5_DIV (R133). -/
def execA5Div (o : A5Op) (s : State) : Out := act (runA5Div o) s
/-- A5_REM (R133). -/
def execA5Rem (o : A5Op) (s : State) : Out := act (runA5Rem o) s
/-- A5_DADD (R133). -/
def execA5Dadd (o : A5Op) (s : State) : Out := act (runA5Dadd o) s
/-- A5_DSUB (R133). -/
def execA5Dsub (o : A5Op) (s : State) : Out := act (runA5Dsub o) s
/-- A5_DMUL (R133). -/
def execA5Dmul (o : A5Op) (s : State) : Out := act (runA5Dmul o) s
/-- A5_DDIV (R133). -/
def execA5Ddiv (o : A5Op) (s : State) : Out := act (runA5Ddiv o) s
/-- A5_AND (R133). -/
def execA5And (o : A5Op) (s : State) : Out := act (runA5And o) s
/-- A5_OR (R133). -/
def execA5Or (o : A5Op) (s : State) : Out := act (runA5Or o) s
/-- A5_XOR (R133). -/
def execA5Xor (o : A5Op) (s : State) : Out := act (runA5Xor o) s
/-- A5_NOT (R133). -/
def execA5Not (o : A5Op) (s : State) : Out := act (runA5Not o) s
/-- A5_SHL (R133). -/
def execA5Shl (o : A5Op) (s : State) : Out := act (runA5Shl o) s
/-- A5_SHR (R133). -/
def execA5Shr (o : A5Op) (s : State) : Out := act (runA5Shr o) s
/-- A5_SAR (R133). -/
def execA5Sar (o : A5Op) (s : State) : Out := act (runA5Sar o) s
/-- A5_ROT (R133). -/
def execA5Rot (o : A5Op) (s : State) : Out := act (runA5Rot o) s
/-- A5_CMP (R133). -/
def execA5Cmp (o : A5Op) (s : State) : Out := act (runA5Cmp o) s
/-- A5_CMPU (R133). -/
def execA5Cmpu (o : A5Op) (s : State) : Out := act (runA5Cmpu o) s
/-- A5_CMPI (R133). -/
def execA5Cmpi (o : A5Op) (s : State) : Out := act (runA5Cmpi o) s
/-- A5_BC (R134). -/
def execA5Bc (o : A5Op) (s : State) : Out := act (runA5Bc o) s
/-- A5_CALL (R133). -/
def execA5Call (o : A5Op) (s : State) : Out := act (runA5Call o) s
/-- A5_CALLR (R133). -/
def execA5Callr (o : A5Op) (s : State) : Out := act (runA5Callr o) s
/-- A5_RET (R133). -/
def execA5Ret (o : A5Op) (s : State) : Out := act (runA5Ret o) s
/-- A5_JMP (R133). -/
def execA5Jmp (o : A5Op) (s : State) : Out := act (runA5Jmp o) s
/-- A5_TRAP (R133). -/
def execA5Trap (o : A5Op) (s : State) : Out := act (runA5Trap o) s

end Sys2Proof.Machine
end

