-- ==== Sys2Proof/Machine/AnDevice.lean ====
section
/-! DEFINITION. The device-particular instructions of the channel subsystem, the ledger engine and the command rings
(R104–R113, R118), and the same operations as a unit receives them (R141). -/
namespace Sys2Proof.Machine

/-! ### What the unit does -/

/-- Answer of a unit: result code, number for operand 3, record of CTEST, next state. -/
structure DevAns where
  code : Nat
  num : Nat
  out : List Byte
  st : State

/-- A context owns a subchannel or a stream by its VMID, or runs at H (R298, R401). -/
def coreOwns (q : DevReq) (otype owner : Nat) : Bool := otype == 0 && (q.level == 2 || owner == q.vmid)

/-- The subchannel number is one the requester may use (R108, R298). -/
def subAllowed (s : State) (q : DevReq) (n : Nat) : Bool :=
  let h := subHub s n
  subReach s (lcnHalf s q.lcn) n && (subOf s h n).v && coreOwns q (subOf s h n).otype (subOf s h n).owner && readyBit s h rbCss

/-- The stream ID is one the requester may append to (R112, R113). -/
def streamAllowed (s : State) (q : DevReq) (id : Nat) : Bool :=
  decide (id < 131072) && hubPresent s (halfOf (id / 65536)) && (effMode s != .split || halfOf (id / 65536) == lcnHalf s q.lcn) &&
    (match streamOf s id with | some t => coreOwns q t.otype t.owner | none => false)

def devStart (q : DevReq) (n cpa tag flags tmo : Nat) (s : State) : DevAns :=
  if subAllowed s q n then
    let r := cssStart (subHub s n) n cpa tag (bitOf flags 0) tmo false s
    ⟨r.1, r.2.1, [], r.2.2⟩
  else ⟨3, 0, [], s⟩

def devTest (q : DevReq) (n : Nat) (s : State) : DevAns :=
  if subAllowed s q n then ⟨(cssTest s (subHub s n) n).1, 0, slice (cssTest s (subHub s n) n).2 0 32, s⟩ else ⟨3, 0, [], s⟩

def devHalt (q : DevReq) (n : Nat) (s : State) : DevAns :=
  if subAllowed s q n then ⟨(cssHalt (subHub s n) n s).1, 0, [], (cssHalt (subHub s n) n s).2⟩ else ⟨3, 0, [], s⟩

def devClear (q : DevReq) (n : Nat) (s : State) : DevAns :=
  if subAllowed s q n then ⟨(cssClear (subHub s n) n s).1, 0, [], (cssClear (subHub s n) n s).2⟩ else ⟨3, 0, [], s⟩

def devAppend (q : DevReq) (id addr len tag flags : Nat) (s : State) : DevAns :=
  if streamAllowed s q id then
    let r := ldgAppend id addr len tag flags s
    ⟨r.1, r.2.1, [], r.2.2⟩
  else ⟨3, 0, [], s⟩

def devCmd (q : DevReq) (hub : Nat) (d : List Byte) (s : State) : DevAns :=
  match cmdHub s q.lcn hub with
  | some b => ⟨(cmdPost b (q.level % 3) d s).1, 0, [], (cmdPost b (q.level % 3) d s).2⟩
  | none => ⟨3, 0, [], s⟩

/-- A unit performs a one-shot operation. -/
def devPerform (q : DevReq) (op : DevOp) (s : State) : DevAns :=
  match op with
  | .start n cpa tag flags tmo => devStart q n cpa tag flags tmo s
  | .test n => devTest q n s
  | .halt n => devHalt q n s
  | .clear n => devClear q n s
  | .append id addr len tag flags => devAppend q id addr len tag flags s
  | .cmd hub d => devCmd q hub d s

/-! ### The instructions -/

/-- The context as the requester of a one-shot operation. -/
def devReq (o : AnOp) (s : State) (w : Ctx) : DevReq := ⟨o.lcn, o.ctx, w.psw.pl.n, curVmid w, (ctxOf s o.lcn o.ctx).reqId⟩

/-- The result code goes to CC (R105). -/
def devEnd (p : Plain) (code : Nat) (s : State) (w : Ctx) : Res1 Ctx := (s, .ok (stepPc p.n (setCc (codeCc code) w)))

/-- CSTART and LAPPEND: operands, the PUBLISH they act as (R107), the parameters in memory, and the number to operand 3. -/
def numBody (o : AnOp) (t : Ty) (len : Nat) (mk : Nat → List Byte → DevOp) (p : Plain) : Body := fun s w =>
  if ¬ specOk t false false (p.sp 0) ∨ ¬ memSpec (p.sp 1) ∨ ¬ specOk .i64 true false (p.sp 2) then (s, .error illegal)
  else atS w (andThen (rdVal o t (p.sp 0) s w) (fun s1 a =>
    andThen (memVal o len .read (p.sp 1) s1 a.2) (fun s2 m =>
      andThen (wrVal o (p.sp 2) s2 m.2) (fun s3 dst =>
        andThen (publish o.lcn o.ctx s3) (fun s4 _ =>
          andThen (loadChunks o.lcn o.ctx m.1 (oneShot o.lcn o.ctx s4)) (fun s5 d =>
            let r := devPerform (devReq o s5 w) (mk a.1 d) s5
            let x := writeOp o.lcn o.ctx dst.1 (toBytes 8 r.num) (r.st, dst.2)
            devEnd p r.code x.1 x.2)))))) s

/-- The start request (R312). -/
def startOf (n : Nat) (d : List Byte) : DevOp := .start n (fieldAt d 0 8 % 2 ^ 52) (fieldAt d 8 8) (fieldAt d 0x10 2) (fieldAt d 0x14 4)

/-- The append descriptor (R112); RECADDR with bits 63:52 set lies outside the DRAM window. -/
def appendOf (id : Nat) (d : List Byte) : DevOp :=
  .append id (fieldAt d 0 8) (fieldAt d 8 4) (fieldAt d 0xC 2) (fieldAt d 0xE 2)

def runCstart (o : AnOp) (s : State) : State := runPlain o (decodeDev o 1) (numBody o .i16 32 startOf) s
def runLappend (o : AnOp) (s : State) : State := runPlain o (decodeDev o 1) (numBody o .i32 16 appendOf) s

/-- CTEST (R110): the record goes to operand 2 but for result code 3. -/
def ctestBody (o : AnOp) (p : Plain) : Body := fun s w =>
  if ¬ specOk .i16 false false (p.sp 0) ∨ ¬ memSpec (p.sp 1) then (s, .error illegal)
  else atS w (andThen (rdVal o .i16 (p.sp 0) s w) (fun s1 a =>
    andThen (memVal o 32 .write (p.sp 1) s1 a.2) (fun s2 m =>
      let s3 := oneShot o.lcn o.ctx s2
      let r := devPerform (devReq o s3 w) (.test a.1) s3
      devEnd p r.code (if r.code = 3 then r.st else storeChunks o.lcn o.ctx m.1 r.out r.st) m.2))) s

def runCtest (o : AnOp) (s : State) : State := runPlain o (decodeDev o 0) (ctestBody o) s

/-- CHALT and CCLEAR (R111). -/
def haltBody (o : AnOp) (mk : Nat → DevOp) (p : Plain) : Body := fun s w =>
  if ¬ specOk .i16 false false (p.sp 0) then (s, .error illegal)
  else atS w (andThen (rdVal o .i16 (p.sp 0) s w) (fun s1 a =>
    let s2 := oneShot o.lcn o.ctx s1
    let r := devPerform (devReq o s2 w) (mk a.1) s2
    devEnd p r.code r.st a.2)) s

def runChalt (o : AnOp) (s : State) : State := runPlain o (decodeDev o 2) (haltBody o .halt) s
def runCclear (o : AnOp) (s : State) : State := runPlain o (decodeDev o 2) (haltBody o .clear) s

/-- CMD (R118). The Harbourmaster fetches once the instruction is complete. -/
def cmdBody (o : AnOp) (p : Plain) : Body := fun s w =>
  if ¬ memSpec (p.sp 0) ∨ ¬ specOk .i8 false false (p.sp 1) then (s, .error illegal)
  else andThen (memVal o 64 .read (p.sp 0) s w) (fun s1 m =>
    andThen (rdVal o .i8 (p.sp 1) s1 m.2) (fun s2 h =>
      andThen (publish o.lcn o.ctx s2) (fun s3 _ =>
        andThen (loadChunks o.lcn o.ctx m.1 (oneShot o.lcn o.ctx s3)) (fun s4 d =>
          let r := devPerform (devReq o s4 w) (.cmd h.1 d) s4
          devEnd p r.code r.st h.2))))

def runCmd (o : AnOp) (s : State) : State := runPlain o (decodeDev o 0) (cmdBody o) s

/-! ### Uncached requests as their unit receives them (R31, R140, R141, R237) -/

/-- The unit whose reply latch answers a one-shot operation. -/
def opUnit (s : State) (q : DevReq) : DevOp → Nat
  | .start n _ _ _ _ => cssUnit (subHub s n)
  | .test n => cssUnit (subHub s n)
  | .halt n => cssUnit (subHub s n)
  | .clear n => cssUnit (subHub s n)
  | .append id _ _ _ _ => ldgUnit (strHub s id)
  | .cmd hub _ => hmUnit ((cmdHub s q.lcn hub).getD (lcnHalf s q.lcn))

/-- The latched reply of a unit for a request. -/
def latched (s : State) (unit lcn ctx rid : Nat) : Option Latch :=
  s.latches.find? (fun x => x.unit == unit && x.lcn == lcn && x.ctx == ctx && x.rid == rid)

/-- A unit latches its reply in place of the one of an earlier request of the context (R141). -/
def latchReply (unit lcn ctx rid : Nat) (d : List Byte) (s : State) : State :=
  { s with latches := s.latches.filter (fun x => !(x.unit == unit && x.lcn == lcn && x.ctx == ctx)) ++ [⟨unit, lcn, ctx, rid, d⟩] }

/-- The reply of a unit to an OPS of a core, on its way to the die the LCN runs on (R154, R237). -/
def opsReply (u : Nat) (q : DevReq) (d : List Byte) (s : State) : State :=
  send .cmp { agent := lcnDie s q.lcn, home := unitHalf u, from_ := lcnHalf s q.lcn, sector := 0, txid := 0, tide := 4,
              poison := false, hasData := true, data := d, mask := 0, aux := 0, opd1 := 0, opd2 := 0,
              rid := q.rid, lcn := q.lcn, ctx := q.ctx } s

/-- OPS: the unit performs the operation once per request ID and replies; a repeated one is answered from the latch. -/
def runOps (q : DevReq) (op : DevOp) (s : State) : State :=
  let u := opUnit s q op
  match latched s u q.lcn q.ctx q.rid with
  | some l => opsReply u q l.reply s
  | none =>
    let r := devPerform q op s
    let d := toBytes 1 r.code ++ toBytes 8 r.num ++ r.out
    kick s (opsReply u q d (latchReply u q.lcn q.ctx q.rid d r.st))

/-- The unit that owns a register. -/
def regUnit (g : Half) (o : Nat) : Nat := (unitAt g o).getD (hmUnit g)

/-- RRD and RWR reach an address of the register space that takes them from half `f` (R29, R31). -/
def regTarget (s : State) (f : Half) (pa n : Nat) : Option (Half × Nat) :=
  match regionOf pa with
  | .regs g o => if (n = 4 ∨ n = 8) ∧ pa % n = 0 ∧ ¬ (effMode s = .split ∧ g ≠ f) then some (g, o) else none
  | _ => none

def msgPa (m : Msg) : Nat := m.sector * 64 + m.mask % 64

/-- Attach port and offset that an uncached request may reach (R29, R461). -/
def winTarget (s : State) (f : Half) (pa n : Nat) : Option (Nat × Nat) :=
  match regionOf pa with
  | .attach p off => if winShape off n ∧ ¬ (effMode s = .split ∧ portHalf p ≠ f) then some (p, off) else none
  | _ => none

/-- The answer of a unit to an uncached request goes back: data or CMP, or an address error. -/
def answer (op : MsgOp) (m : Msg) (d : List Byte) (s : State) : State :=
  send op { bare m m.agent with hasData := d != [], data := d } s

/-- A latched reply of an attach port goes out again: data, poison or an address error. -/
def answerLatch (m : Msg) (r : List Byte) (s : State) : State :=
  match latchRes r with
  | .ok d => answer .cmp m d s
  | .poison => send .cmp { bare m m.agent with poison := true } s
  | _ => answer .aerr m [] s

/-- RRD: an uncached read of AUX bytes at PA + MASK (R31, R140, R141, R237). -/
def runRrd (m : Msg) (s0 : State) : State :=
  let s := take .rrd m s0
  match regTarget s m.from_ (msgPa m) m.aux with
  | some (g, o) =>
    (match latched s (regUnit g o) m.lcn m.ctx m.rid with
     | some l => answer .cmp m l.reply s
     | none =>
       let d := regReadN s g false o m.aux
       answer .cmp m d (latchReply (regUnit g o) m.lcn m.ctx m.rid d s))
  | none =>
    match winTarget s m.from_ (msgPa m) m.aux with
    | some (p, off) =>
      (match latched s (portUnit p) m.lcn m.ctx m.rid with
       | some l => answerLatch m l.reply s
       | none => if loadOut s m.lcn m.ctx then s else attLoad m.lcn m.ctx m.rid p off m.aux s)
    | none => answer .aerr m [] s

/-- RWR: an uncached write of the low AUX bytes of OPD1. -/
def runRwr (m : Msg) (s0 : State) : State :=
  let s := take .rwr m s0
  match regTarget s m.from_ (msgPa m) m.aux with
  | some (g, o) =>
    (match latched s (regUnit g o) m.lcn m.ctx m.rid with
     | some _ => answer .cmp m [] s
     | none => kick s (answer .cmp m [] (latchReply (regUnit g o) m.lcn m.ctx m.rid [] (regWriteN g false o (toBytes m.aux m.opd1) s))))
  | none =>
    match winTarget s m.from_ (msgPa m) m.aux with
    | some (p, off) =>
      (match latched s (portUnit p) m.lcn m.ctx m.rid with
       | some _ => answer .cmp m [] s
       | none => answer .cmp m [] (latchReply (portUnit p) m.lcn m.ctx m.rid [] (attStore p off (toBytes m.aux m.opd1) s)))
    | none => answer .aerr m [] s

/-- ONE_SHOT_RELEASE: the units free the latch for a request ID of a context (R141). -/
def runRelease (lcn ctx rid : Nat) (s : State) : State :=
  { s with latches := s.latches.filter (fun x => !(x.lcn == lcn && x.ctx == ctx && x.rid == rid)) }

/-- INT: the vector becomes pending at the LCN, wherever it runs (R24, R154). -/
def runInt (lcn vector : Nat) (s : State) : State := if lcn < lcnCount s then raiseExt lcn (vector % 256) s else s

/-- AERR: the requester learns of an address error; a core whose one-shot operation it answers takes DATA_BUS_ERROR with
the virtual address of the access it sent (R29, R120, R121). -/
def runAerr (m : Msg) (s0 : State) : State :=
  let s := giveAerr m (take .aerr m s0)
  if m.rid ≠ 0 ∧ ctxRuns s m.lcn m.ctx then
    let k := ctxOf s m.lcn m.ctx
    takeX m.lcn m.ctx (xf 0x10 k.shotVa) k.pc s
  else s

/-! ### Asynchronous events between instructions (R102, R120, R123) -/

/-- A context is between instructions: it is up, and no instruction waits for an attach window. -/
def atBoundary (s : State) (l c : Nat) : Bool := ctxUp s l c && !loadOut s l c && (winLatches s l c).isEmpty

/-- MODE_CHANGE is pending and enabled. -/
def modeChangeDue (k : Ctx) : Bool := k.modeChange && k.psw.ie

/-- An asynchronous event `x` that `due` says a context takes now (R123): it comes between instructions, behind the last piece
of a BS instruction and the end of the group in flight (R125, R136), and `got` clears what was pending. -/
def takeEvent (l c : Nat) (x : Xf) (due : State → Ctx → Bool) (got : State → State) (s : State) : State :=
  let s1 := finishPieces l c s
  if atBoundary s1 l c ∧ due s1 (ctxOf s1 l c) then takeX l c x (ctxOf s1 l c).pc (got (retireGroup l c s1)) else s

/-- EXTERNAL_INTERRUPT: a pending vector, when IE is 1 and nothing of higher priority is due. -/
def runExternal (l c vector : Nat) (s : State) : State :=
  takeEvent l c ⟨0x20, 0, vector, 0, false, 0, 0⟩
    (fun t k => k.psw.ie && (lcnOf t l).ext.contains vector && k.mcheck.isNone && !k.clockLoss && !k.modeChange && !k.debugDue)
    (updLcn l (fun x => { x with ext := setDel x.ext vector })) s

/-- MODE_CHANGE_INTERRUPT: to H, when IE is 1 (R41, R120). -/
def runModeChange (l c : Nat) (s : State) : State :=
  takeEvent l c ⟨0x03, 0, 0, 0, true, 0, 0⟩ (fun _ k => modeChangeDue k && k.mcheck.isNone && !k.clockLoss)
    (updCtx l c (fun x => { x with modeChange := false })) s

/-- CLOCK_LOSS_INTERRUPT: to H, not maskable (R120, R530). -/
def runClockLoss (l c : Nat) (s : State) : State :=
  takeEvent l c ⟨0x02, 0, 0, 0, true, 0, 0⟩ (fun _ k => k.clockLoss && k.mcheck.isNone)
    (updCtx l c (fun x => { x with clockLoss := false })) s

/-- DEBUG_EXCEPTION: a single step under PSW.SS is due (R77, R120). -/
def runDebugX (l c : Nat) (s : State) : State :=
  takeEvent l c ⟨0x04, 0, 0, 0, false, 0, 0⟩ (fun _ k => k.debugDue && k.mcheck.isNone && !k.clockLoss && !modeChangeDue k)
    (updCtx l c (fun x => { x with debugDue := false })) s

/-- A check reported after its group's checkpoint came into force: the die broker cannot contain it, and the context takes
MACHINE_CHECK UNCONTAINED, which ends a WAIT (R102, R120, R160, R568). -/
def runUncontained (l c : Nat) (s : State) : State :=
  if ¬ lcnRuns s l ∨ 1 < c ∨ (ctxOf s l c).mcheck.isSome then s
  else
    let s1 := updCtx l c (endWait Cc.zero) (betweenInsns l c s)
    takeX l c ⟨0x01, 0, 4, 0, true, 0, 0⟩ (ctxOf s1 l c).pc
      (logNow (dieHalf (coreFor s l / 128)) (rpt (pcUnit (coreFor s l)) 1 clsUC 0x0106 (res [(2, l), (1, c)])) s1)

/-- A locked TLB entry with a parity error is reloaded by a walk, whose outcome applies as for a TLOCK (R142, R189). An entry
the context's regime, VMID and ASID cannot walk for is lost: DESIGN CHOICE (log 36). -/
def reloadLock (e : CoreErr) (s : State) : State :=
  match (lcnOf s e.lcn).locks[e.entry]? with
  | none => s
  | some x =>
    let s0 := updLcn e.lcn (fun k => { k with locks := k.locks.eraseIdx e.entry }) s
    let c := ctxOf s0 e.lcn (e.ctx % 2)
    if ¬ tlbHit c x.va x then s0
    else match translate s0 e.lcn c x.va .tlock with
      | (s1, .error y) => takeX e.lcn (e.ctx % 2) y c.pc s1
      | (s1, .ok t) => updLcn e.lcn (lockPut c x.va t.ent) s1

/-- CORE_ERROR_DETECTED: an uncorrectable error of a core's structure (R142, R144). A dirty L2 sector is lost without a retry, a
check that came too late is not contained, and every other error begins or fails a retry. -/
def runCoreFault (e : CoreErr) (s : State) : State :=
  if ¬ lcnRuns s e.lcn ∨ needsSpare (lcnOf s e.lcn) then s
  else match e.arr with
    | .late => runUncontained e.lcn e.ctx s
    | .tlbLock => reloadLock e (runCoreError e s)
    | .l2data =>
      if l2Of s (coreFor s e.lcn) e.sector = .m then poisonL2 (coreFor s e.lcn) e.sector s else runCoreError e s
    | _ => runCoreError e s

/-- CONTEXT_LOST: of the store buffer's retired entries those before the faulty one, its first `n`, drain; the context is marked
lost, and the LCN awaits its move (R156). -/
def runContextLost (l c n : Nat) (s : State) : State :=
  if ¬ lcnRuns s l ∨ 1 < c then s
  else
    let s1 := drainSb l c n (rollBack l c s)
    let s2 := updCtx l c (fun x => { x with sb := [], mcheck := some (3, 0) }) s1
    let s3 := setCk l c { Ckpt.reset with sel := (ckOf s2 l c).sel } s2
    let s4 := updLcn l (fun k => { k with attempt := 5 }) s3
    logNow (dieHalf (coreFor s l / 128)) (rpt (pcUnit (coreFor s l)) 1 clsUC 0x0105 (res [(2, l), (1, c)])) s4

end Sys2Proof.Machine
end

