-- ==== Sys2Proof/Machine/ExecAn.lean ====
section
/-! DEFINITION. Meanings of the commands of AN instructions (R86–R118, R191–R193). -/
namespace Sys2Proof.Machine

/-- BR (R102). -/
def execBr (o : AnOp) (s : State) : Out := act (runBr o) s
/-- BCC (R101). -/
def execBcc (o : AnOp) (s : State) : Out := act (runBcc o) s
/-- CALL (R102). -/
def execCall (o : AnOp) (s : State) : Out := act (runCall o) s
/-- RET (R102). -/
def execRet (o : AnOp) (s : State) : Out := act (runRet o) s
/-- SVC (R102). -/
def execSvc (o : AnOp) (s : State) : Out := act (runSvc o) s
/-- HVC (R102). -/
def execHvc (o : AnOp) (s : State) : Out := act (runHvc o) s
/-- XRET (R124). -/
def execXret (o : AnOp) (s : State) : Out := act (runXret o) s
/-- NOP (R102). -/
def execNop (o : AnOp) (s : State) : Out := act (runNop o) s
/-- WAIT (R102). -/
def execWait (o : AnOp) (s : State) : Out := act (runWait o) s
/-- WAIT_LIMIT_EXPIRY (R102). -/
def execWaitLimitExpiry (lcn : Nat) (ctx : Nat) (s : State) : Out := act (waitExpire lcn ctx) s
/-- ADD (R86). -/
def execAdd (o : AnOp) (s : State) : Out := act (runAlu o [0, 1] .add) s
/-- SUB (R86). -/
def execSub (o : AnOp) (s : State) : Out := act (runAlu o [0, 1] .sub) s
/-- MUL (R95). -/
def execMul (o : AnOp) (s : State) : Out := act (runAlu o [0, 1] .mul) s
/-- MULU (R95). -/
def execMulu (o : AnOp) (s : State) : Out := act (runAlu o [0, 1] .mulu) s
/-- DIV (R95). -/
def execDiv (o : AnOp) (s : State) : Out := act (runAlu o [0, 1] .div) s
/-- DIVU (R95). -/
def execDivu (o : AnOp) (s : State) : Out := act (runAlu o [0, 1] .divu) s
/-- REM (R95). -/
def execRem (o : AnOp) (s : State) : Out := act (runAlu o [0, 1] .rem) s
/-- REMU (R95). -/
def execRemu (o : AnOp) (s : State) : Out := act (runAlu o [0, 1] .remu) s
/-- CMP (R95). -/
def execCmp (o : AnOp) (s : State) : Out := act (runAnCmp o) s
/-- CMPU (R95). -/
def execCmpu (o : AnOp) (s : State) : Out := act (runAnCmp o) s
/-- NEG (R101). -/
def execNeg (o : AnOp) (s : State) : Out := act (runAlu o [0] .neg) s
/-- ABS (R101). -/
def execAbs (o : AnOp) (s : State) : Out := act (runAlu o [0] .abs) s
/-- SQRT (R101). -/
def execSqrt (o : AnOp) (s : State) : Out := act (runAlu o [0] .sqrt) s
/-- MIN (R101). -/
def execMin (o : AnOp) (s : State) : Out := act (runAlu o [0, 1] .min) s
/-- MAX (R101). -/
def execMax (o : AnOp) (s : State) : Out := act (runAlu o [0, 1] .max) s
/-- MOV (R86). -/
def execMov (o : AnOp) (s : State) : Out := act (runAn o (decodeAn o [0]) (movBody o)) s
/-- CLR (R101). -/
def execClr (o : AnOp) (s : State) : Out := act (runAn o (decodeAn o [2]) (clrBody o)) s
/-- CVT (R103). -/
def execCvt (o : AnOp) (s : State) : Out := act (runCvt o) s
/-- LEA (R90). -/
def execLea (o : AnOp) (s : State) : Out := act (runAn o (decodeAn o [0]) (leaBody o)) s
/-- AND (R101). -/
def execAnd (o : AnOp) (s : State) : Out := act (runAlu o [0, 1] .and) s
/-- OR (R101). -/
def execOr (o : AnOp) (s : State) : Out := act (runAlu o [0, 1] .or) s
/-- XOR (R101). -/
def execXor (o : AnOp) (s : State) : Out := act (runAlu o [0, 1] .xor) s
/-- NOT (R101). -/
def execNot (o : AnOp) (s : State) : Out := act (runAlu o [0] .not) s
/-- SHL (R103). -/
def execShl (o : AnOp) (s : State) : Out := act (runAlu o [0, 1] .shl) s
/-- SHR (R103). -/
def execShr (o : AnOp) (s : State) : Out := act (runAlu o [0, 1] .shr) s
/-- SAR (R103). -/
def execSar (o : AnOp) (s : State) : Out := act (runAlu o [0, 1] .sar) s
/-- ROT (R103). -/
def execRot (o : AnOp) (s : State) : Out := act (runAlu o [0, 1] .rot) s
/-- TEST (R103). -/
def execTest (o : AnOp) (s : State) : Out := act (runTest o) s
/-- MOVS (R99). -/
def execMovs (o : AnOp) (s : State) : Out := act (runAn o (decodeAn o [0]) (movsBody o)) s
/-- CMPS (R99). -/
def execCmps (o : AnOp) (s : State) : Out := act (runAn o (decodeAn o [0]) (cmpsBody o)) s
/-- TRS (R99). -/
def execTrs (o : AnOp) (s : State) : Out := act (runAn o (decodeAn o [0]) (trsBody o)) s
/-- SRCH (R99). -/
def execSrch (o : AnOp) (s : State) : Out := act (runAn o (decodeAn o [0]) (srchBody o)) s
/-- CAS (R101). -/
def execCas (o : AnOp) (s : State) : Out := act (runCas o) s
/-- SWAP (R140). -/
def execSwap (o : AnOp) (s : State) : Out := act (runSwap o) s
/-- FADD (R140). -/
def execFadd (o : AnOp) (s : State) : Out := act (runFadd o) s
/-- MFCR (R78). -/
def execMfcr (o : AnOp) (s : State) : Out := act (runAn o (decodeAn o [0]) (mfcrBody o)) s
/-- MTCR (R78). -/
def execMtcr (o : AnOp) (s : State) : Out := act (runAn o (decodeAn o [0]) (mtcrBody o)) s
/-- MFPSW (R77). -/
def execMfpsw (o : AnOp) (s : State) : Out := act (runAn o (decodeAn o [2]) (mfpswBody o)) s
/-- MTPSW (R77). -/
def execMtpsw (o : AnOp) (s : State) : Out := act (runAn o (decodeAn o [2]) (mtpswBody o)) s
/-- WRFB (R93). -/
def execWrfb (o : AnOp) (s : State) : Out := act (runAn o (decodeAn o [0]) (wrfbBody o)) s
/-- RDFB (R101). -/
def execRdfb (o : AnOp) (s : State) : Out := act (runAn o (decodeAn o [0]) (rdfbBody o)) s
/-- SVA5 (R128). -/
def execSva5 (o : AnOp) (s : State) : Out := act (runAn o (decodeAn o [2]) (sva5Body o)) s
/-- LDA5 (R128). -/
def execLda5 (o : AnOp) (s : State) : Out := act (runAn o (decodeAn o [2]) (lda5Body o)) s
/-- TLBIVA (R191). -/
def execTlbiva (o : AnOp) (s : State) : Out := act (runTlbi o 3 0 true false) s
/-- TLBIASID (R191). -/
def execTlbiasid (o : AnOp) (s : State) : Out := act (runTlbi o 1 1 true false) s
/-- TLBIALL (R191). -/
def execTlbiall (o : AnOp) (s : State) : Out := act (runTlbiAll o true) s
/-- TLBIVMID (R191). -/
def execTlbivmid (o : AnOp) (s : State) : Out := act (runTlbi o 1 3 true true) s
/-- TLBIIPA (R191). -/
def execTlbiipa (o : AnOp) (s : State) : Out := act (runTlbi o 3 4 true true) s
/-- TLBILCK (R191). -/
def execTlbilck (o : AnOp) (s : State) : Out := act (runTlbi o 3 5 true false) s
/-- TLBSYNC (R193). -/
def execTlbsync (o : AnOp) (s : State) : Out := act (runTlbsync o) s
/-- TLBIVA_L (R191). -/
def execTlbivaL (o : AnOp) (s : State) : Out := act (runTlbi o 3 0 false false) s
/-- TLBIASID_L (R191). -/
def execTlbiasidL (o : AnOp) (s : State) : Out := act (runTlbi o 1 1 false false) s
/-- TLBIALL_L (R191). -/
def execTlbiallL (o : AnOp) (s : State) : Out := act (runTlbiAll o false) s
/-- TLBIVMID_L (R191). -/
def execTlbivmidL (o : AnOp) (s : State) : Out := act (runTlbi o 1 3 false true) s
/-- TLBIIPA_L (R191). -/
def execTlbiipaL (o : AnOp) (s : State) : Out := act (runTlbi o 3 4 false true) s
/-- TLBILCK_L (R191). -/
def execTlbilckL (o : AnOp) (s : State) : Out := act (runTlbi o 3 5 false false) s
/-- TLB_INVALIDATION_ARRIVAL (R193). -/
def execTlbInvalidationArrival (lcn : Nat) (s : State) : Out := act (tlbArrival lcn) s
/-- PUBLISH (R106). -/
def execPublish (o : AnOp) (s : State) : Out := act (runPublish o) s
/-- CSTART (R313). -/
def execCstart (o : AnOp) (s : State) : Out := act (runCstart o) s
/-- CTEST (R110). -/
def execCtest (o : AnOp) (s : State) : Out := act (runCtest o) s
/-- CHALT (R315). -/
def execChalt (o : AnOp) (s : State) : Out := act (runChalt o) s
/-- CCLEAR (R316). -/
def execCclear (o : AnOp) (s : State) : Out := act (runCclear o) s
/-- LAPPEND (R113). -/
def execLappend (o : AnOp) (s : State) : Out := act (runLappend o) s
/-- WRPKR (R115). -/
def execWrpkr (o : AnOp) (s : State) : Out := act (runWrpkr o) s
/-- RDPKR (R104). -/
def execRdpkr (o : AnOp) (s : State) : Out := act (runRdpkr o) s
/-- TLOCK (R116). -/
def execTlock (o : AnOp) (s : State) : Out := act (runTlock o) s
/-- TUNLOCK (R116). -/
def execTunlock (o : AnOp) (s : State) : Out := act (runTunlock o) s
/-- RDPCT (R117). -/
def execRdpct (o : AnOp) (s : State) : Out := act (runRdpct o) s
/-- CMD (R118). -/
def execCmd (o : AnOp) (s : State) : Out := act (runCmd o) s

end Sys2Proof.Machine
end

