-- ==== Sys2Proof/Machine/ExecAttach.lean ====
section
/-! DEFINITION. Meanings of the commands of attach ports (R436–R467). -/
namespace Sys2Proof.Machine

/-- PCIE_CONFIG_REQUEST (R436). -/
def execPcieConfigRequest (port : Nat) (fn : Nat) (off : Nat) (tag : Nat) (wr : Option (Nat × Nat)) (s : State) : Out :=
  act (runConfig port fn off tag wr) s
/-- INBOUND_MEMORY_REQUEST (R455). -/
def execInboundMemoryRequest (r : InReq) (s : State) : Out := act (runInbound r) s
/-- PEER_FORWARD (R456). -/
def execPeerForward (r : InReq) (s : State) : Out := act (runPeer r) s
/-- ATT_QP_SQTAIL_DOORBELL (R449). -/
def execAttQpSqtailDoorbell (q : Nat) (v : Nat) (s : State) : Out := act (runQpTail q v) s
/-- ATT_QP_CQHEAD_WRITE (R450). -/
def execAttQpCqheadWrite (q : Nat) (v : Nat) (s : State) : Out := act (runQpCqHead q v) s
/-- QUEUE_PAIR_STOP (R451). -/
def execQueuePairStop (q : Nat) (cause : Nat) (s : State) : Out := act (runQpStop q cause) s
/-- ATT_MSG_TXTAIL_DOORBELL (R453). -/
def execAttMsgTxtailDoorbell (q : Nat) (v : Nat) (s : State) : Out := act (runMsgTx q v) s
/-- ATT_MSG_RXHEAD_WRITE (R453). -/
def execAttMsgRxheadWrite (q : Nat) (v : Nat) (s : State) : Out := act (runMsgRx q v) s
/-- ATT_WIN_COMMIT (R457). -/
def execAttWinCommit (port : Nat) (v : Nat) (s : State) : Out := act (runWinCommit port v) s
/-- FUNCTION_LEVEL_RESET (R467). -/
def execFunctionLevelReset (k : Nat) (s : State) : Out := act (runFlr k) s
/-- HOT_RESET (R436). -/
def execHotReset (port : Nat) (down : Bool) (s : State) : Out := act (runHotReset port down) s
/-- BUS_MASTER_DISABLE (R466). -/
def execBusMasterDisable (k : Nat) (s : State) : Out := act (runBmeOff k) s
/-- BME_LOST_CLEAR (R466). -/
def execBmeLostClear (k : Nat) (s : State) : Out := act (runBmeClear k) s
/-- ATTACH_WINDOW_ACCESS (R461). -/
def execAttachWindowAccess (lcn : Nat) (ctx : Nat) (port : Nat) (off : Nat) (n : Nat) (wr : Option (List Byte)) (s : State) : Out :=
  act (runWindowAccess lcn ctx port off n wr) s
/-- ATTACH_COMPLETION_TIMEOUT (R463). -/
def execAttachCompletionTimeout (port : Nat) (tag : Nat) (s : State) : Out := act (runReadTimeout port tag) s
/-- LTR_UPDATE (R465). -/
def execLtrUpdate (port : Nat) (s : State) : Out := act (runLtr port) s
/-- ATT_FN_ISR_CLEAR (R462). -/
def execAttFnIsrClear (k : Nat) (v : Nat) (s : State) : Out := act (runIsrClear k v) s

end Sys2Proof.Machine
end

