-- ==== Sys2Proof/Machine/ExecCoherence.lean ====
section
/-! DEFINITION. Meanings of the commands of coherence messages (R210–R229). -/
namespace Sys2Proof.Machine

/-- RDS (R215). -/
def execRds (m : Msg) (err : Nat) (s : State) : Out := act (reach .rds m (runRds m err)) s
/-- RDX (R215). -/
def execRdx (m : Msg) (s : State) : Out := act (reach .rdx m (runRdx m)) s
/-- UPG (R217). -/
def execUpg (m : Msg) (s : State) : Out := act (reach .upg m (runUpg m)) s
/-- RDC (R215). -/
def execRdc (m : Msg) (s : State) : Out := act (reach .rdc m (runRdc m)) s
/-- WRF (R215). -/
def execWrf (m : Msg) (s : State) : Out := act (reach .wrf m (runWrf m)) s
/-- WRP (R215). -/
def execWrp (m : Msg) (err : Nat) (s : State) : Out := act (reach .wrp m (runWrp m err)) s
/-- ATM (R215). -/
def execAtm (m : Msg) (s : State) : Out := act (reach .atm m (runAtm m)) s
/-- MNT (R226). -/
def execMnt (m : Msg) (s : State) : Out := act (reach .mnt m (runMnt m)) s
/-- WBN (R211). -/
def execWbn (m : Msg) (s : State) : Out := act (reach .wbn m (runWbn m)) s
/-- SNPS (R216). -/
def execSnps (m : Msg) (s : State) : Out := act (reach .snps m (runSnps m)) s
/-- SNPX (R216). -/
def execSnpx (m : Msg) (s : State) : Out := act (reach .snpx m (runSnpx m)) s
/-- SNPC (R216). -/
def execSnpc (m : Msg) (s : State) : Out := act (reach .snpc m (runSnpc m)) s
/-- SNPK (R216). -/
def execSnpk (m : Msg) (s : State) : Out := act (reach .snpk m (runSnpk m)) s
/-- SNPI (R216). -/
def execSnpi (m : Msg) (s : State) : Out := act (reach .snpi m (runSnpi m)) s
/-- PURGE (R229). -/
def execPurge (die : Nat) (slice : Nat) (set : Nat) (way : Nat) (line : Nat) (ue : List Nat) (stateErr : Bool) (s : State) : Out :=
  act (runPurge die slice set way line ue stateErr) s
/-- RSP_I (R214). -/
def execRspI (m : Msg) (s : State) : Out := act (reach .rspI m (runRspI m)) s
/-- RSP_S (R214). -/
def execRspS (m : Msg) (s : State) : Out := act (reach .rspS m (runRspS m)) s
/-- RSP_E (R214). -/
def execRspE (m : Msg) (s : State) : Out := act (reach .rspE m (runRspE m)) s
/-- RSP_O (R214). -/
def execRspO (m : Msg) (s : State) : Out := act (reach .rspO m (runRspO m)) s
/-- RSP_M (R214). -/
def execRspM (m : Msg) (s : State) : Out := act (reach .rspM m (runRspM m)) s
/-- RSP_MISS (R229). -/
def execRspMiss (m : Msg) (s : State) : Out := act (reach .rspMiss m (runRspMiss m)) s
/-- RSP_EVICTING (R224). -/
def execRspEvicting (m : Msg) (s : State) : Out := act (reach .rspEvicting m (runRspEvicting m)) s
/-- GNT_S (R214). -/
def execGntS (m : Msg) (s : State) : Out := act (reach .gntS m (runGntS m)) s
/-- GNT_E (R214). -/
def execGntE (m : Msg) (s : State) : Out := act (reach .gntE m (runGntE m)) s
/-- GNT_M (R214). -/
def execGntM (m : Msg) (s : State) : Out := act (reach .gntM m (runGntM m)) s
/-- CMP_COMPLETION (R213). -/
def execCmpCompletion (m : Msg) (s : State) : Out := act (reach .cmp m (runCmp m)) s
/-- CACK (R214). -/
def execCack (m : Msg) (s : State) : Out := act (reach .cack m (runCack m)) s
/-- WBACK (R225). -/
def execWback (m : Msg) (s : State) : Out := act (reach .wback m (runWback m)) s
/-- RETRY (R222). -/
def execRetry (op : MsgOp) (m : Msg) (s : State) : Out := act (reach .retry m (runRetry op m)) s
/-- RETRY_RESEND (R222). -/
def execRetryResend (agent : Nat) (sector : Nat) (s : State) : Out := act (runRetryResend agent sector) s
/-- HOME_PARK_RELEASE (R222). -/
def execHomeParkRelease (h : Half) (s : State) : Out := act (runHomeParkRelease h) s
/-- HOME_TIMEOUT (R218). -/
def execHomeTimeout (h : Half) (tx : Nat) (s : State) : Out := act (runHomeTimeout h tx) s
/-- LATE_RESPONSE (R219). -/
def execLateResponse (op : MsgOp) (m : Msg) (s : State) : Out := act (reach op m (runLateResponse op m)) s

end Sys2Proof.Machine
end

