-- ==== Sys2Proof/Machine/ExecCore.lean ====
section
/-! DEFINITION. Meanings of the commands of interrupts, core errors, buckets and core moves (R120–R158). -/
namespace Sys2Proof.Machine

/-- EXTERNAL_INTERRUPT (R123). -/
def execExternalInterrupt (l : Nat) (c : Nat) (vector : Nat) (s : State) : Out := act (runExternal l c vector) s
/-- MODE_CHANGE_INTERRUPT (R41). -/
def execModeChangeInterrupt (l : Nat) (c : Nat) (s : State) : Out := act (runModeChange l c) s
/-- CLOCK_LOSS_INTERRUPT (R530). -/
def execClockLossInterrupt (l : Nat) (c : Nat) (s : State) : Out := act (runClockLoss l c) s
/-- DEBUG_EXCEPTION (R120). -/
def execDebugException (l : Nat) (c : Nat) (s : State) : Out := act (runDebugX l c) s
/-- CORE_ERROR_DETECTED (R145). -/
def execCoreErrorDetected (l : Nat) (entry : Nat) (kind : CoreFind) (s : State) : Out :=
  act (runCoreFault ⟨l, kind.ctx, kind.arr, entry, kind.sector⟩) s
/-- RETRY_ATTEMPT_END (R145). -/
def execRetryAttemptEnd (l : Nat) (ok : Bool) (s : State) : Out := act (runRetryEnd l ok) s
/-- CORRECTED_ERROR (R143). -/
def execCorrectedError (u : Nat) (s : State) : Out := act (runCorrected u) s
/-- BUCKET_LEAK (R143). -/
def execBucketLeak (u : Nat) (s : State) : Out := act (runBucketLeak u) s
/-- CORE_MOVE (R152). -/
def execCoreMove (l : Nat) (bad : MoveErrs) (s : State) : Out := act (runCoreMove l bad.spares bad.sectors) s
/-- CORE_MOVE_COMPLETE (R152). -/
def execCoreMoveComplete (l : Nat) (s : State) : Out := act (runMoveComplete l) s
/-- CONTEXT_LOST (R156). -/
def execContextLost (l : Nat) (c : Nat) (n : Nat) (s : State) : Out := act (runContextLost l c n) s

end Sys2Proof.Machine
end

