-- ==== Sys2Proof/Machine/ExecCpe.lean ====
section
/-! DEFINITION. Meanings of the commands of CPE instructions and the report of interrupted operations (R335, R341–R346). -/
namespace Sys2Proof.Machine

/-- CPE_WAIT (R342). -/
def execCpeWait (o : CpeOp) (s : State) : Out := act (runCpeWait o) s
/-- CPE_ADD (R342). -/
def execCpeAdd (o : CpeOp) (s : State) : Out := act (runCpeAdd o) s
/-- CPE_SUB (R342). -/
def execCpeSub (o : CpeOp) (s : State) : Out := act (runCpeSub o) s
/-- CPE_AND (R342). -/
def execCpeAnd (o : CpeOp) (s : State) : Out := act (runCpeAnd o) s
/-- CPE_OR (R342). -/
def execCpeOr (o : CpeOp) (s : State) : Out := act (runCpeOr o) s
/-- CPE_XOR (R342). -/
def execCpeXor (o : CpeOp) (s : State) : Out := act (runCpeXor o) s
/-- CPE_SLL (R342). -/
def execCpeSll (o : CpeOp) (s : State) : Out := act (runCpeSll o) s
/-- CPE_SRL (R342). -/
def execCpeSrl (o : CpeOp) (s : State) : Out := act (runCpeSrl o) s
/-- CPE_SRA (R342). -/
def execCpeSra (o : CpeOp) (s : State) : Out := act (runCpeSra o) s
/-- CPE_SLTU (R342). -/
def execCpeSltu (o : CpeOp) (s : State) : Out := act (runCpeSltu o) s
/-- CPE_ADDI (R342). -/
def execCpeAddi (o : CpeOp) (s : State) : Out := act (runCpeAddi o) s
/-- CPE_ANDI (R342). -/
def execCpeAndi (o : CpeOp) (s : State) : Out := act (runCpeAndi o) s
/-- CPE_ORI (R342). -/
def execCpeOri (o : CpeOp) (s : State) : Out := act (runCpeOri o) s
/-- CPE_LUI (R342). -/
def execCpeLui (o : CpeOp) (s : State) : Out := act (runCpeLui o) s
/-- CPE_LW (R343). -/
def execCpeLw (o : CpeOp) (s : State) : Out := act (runCpeLw o) s
/-- CPE_LHU (R343). -/
def execCpeLhu (o : CpeOp) (s : State) : Out := act (runCpeLhu o) s
/-- CPE_LBU (R343). -/
def execCpeLbu (o : CpeOp) (s : State) : Out := act (runCpeLbu o) s
/-- CPE_SW (R342). -/
def execCpeSw (o : CpeOp) (s : State) : Out := act (runCpeSw o) s
/-- CPE_SH (R342). -/
def execCpeSh (o : CpeOp) (s : State) : Out := act (runCpeSh o) s
/-- CPE_SB (R342). -/
def execCpeSb (o : CpeOp) (s : State) : Out := act (runCpeSb o) s
/-- CPE_BEQ (R342). -/
def execCpeBeq (o : CpeOp) (s : State) : Out := act (runCpeBeq o) s
/-- CPE_BNE (R342). -/
def execCpeBne (o : CpeOp) (s : State) : Out := act (runCpeBne o) s
/-- CPE_BLTU (R342). -/
def execCpeBltu (o : CpeOp) (s : State) : Out := act (runCpeBltu o) s
/-- CPE_BGEU (R342). -/
def execCpeBgeu (o : CpeOp) (s : State) : Out := act (runCpeBgeu o) s
/-- CPE_JAL (R342). -/
def execCpeJal (o : CpeOp) (s : State) : Out := act (runCpeJal o) s
/-- CPE_JR (R342). -/
def execCpeJr (o : CpeOp) (s : State) : Out := act (runCpeJr o) s
/-- NXCMD (R344). -/
def execNxcmd (o : CpeOp) (s : State) : Out := act (runNxcmd o) s
/-- WSET (R342). -/
def execWset (o : CpeOp) (s : State) : Out := act (runWset o) s
/-- CPE_POST (R342). -/
def execCpePost (o : CpeOp) (s : State) : Out := act (runCpePost o) s
/-- CKPT (R329). -/
def execCkpt (o : CpeOp) (s : State) : Out := act (runCkpt o) s
/-- CPE_END (R342). -/
def execCpeEnd (o : CpeOp) (s : State) : Out := act (runCpeEnd o) s
/-- EVADDR (R342). -/
def execEvaddr (o : CpeOp) (s : State) : Out := act (runEvaddr o) s
/-- INTERRUPTED_REPORT (R335). -/
def execInterruptedReport (h : Half) (q : Nat) (s : State) : Out := act (runInterruptedReport h q) s

end Sys2Proof.Machine
end

