-- ==== Sys2Proof/Machine/ExecCss.lean ====
section
/-! DEFINITION. Meanings of the commands of channel subsystem events (R300–R346). -/
namespace Sys2Proof.Machine

/-- CSS_CQ_HEAD_WRITE (R325). -/
def execCssCqHeadWrite (h : Half) (q : Nat) (v : Nat) (s : State) : Out := act (runCqHead h q v) s
/-- CQ_POST (R324). -/
def execCqPost (h : Half) (j : Nat) (s : State) : Out := act (runCqPost h j) s
/-- ATTACH_START_ENTRY (R318). -/
def execAttachStartEntry (q : Nat) (s : State) : Out := act (runStartEntry q) s
/-- OPERATION_DISPATCH (R314). -/
def execOperationDispatch (h : Half) (n : Nat) (s : State) : Out := act (dispatchNext h n) s
/-- OPERATION_TIMEOUT (R317). -/
def execOperationTimeout (h : Half) (j : Nat) (s : State) : Out := act (runOpTimeout h j) s
/-- PATHDOWN (R332). -/
def execPathdown (h : Half) (j : Nat) (s : State) : Out := act (runPathdown h j) s
/-- RECOVERY_QUERY_END (R333). -/
def execRecoveryQueryEnd (h : Half) (j : Nat) (outcome : Nat) (s : State) : Out := act (runQueryEnd h j outcome) s
/-- HALT_CONFIRM_TIMEOUT (R315). -/
def execHaltConfirmTimeout (h : Half) (j : Nat) (s : State) : Out := act (runConfirmTimeout h j) s
/-- FREEZE_TIMEOUT (R337). -/
def execFreezeTimeout (h : Half) (j : Nat) (s : State) : Out := act (runFreezeTimeout h j) s
/-- DEVICE_EVENT (R346). -/
def execDeviceEvent (h : Half) (j : Nat) (s : State) : Out := act (runDeviceEvent h j) s
/-- EVENT_PAGE_WRITE (R303). -/
def execEventPageWrite (h : Half) (cpe : Nat) (slot : Nat) (s : State) : Out := act (runEventPage h cpe slot) s
/-- PATH_PORT_FAILED (R304). -/
def execPathPortFailed (pp : Nat) (cause : Nat) (s : State) : Out := act (runPortFailed pp cause) s
/-- PATH_RECOVERY_CYCLE (R304). -/
def execPathRecoveryCycle (pp : Nat) (gen : Nat) (width : Nat) (switch : Bool) (s : State) : Out :=
  act (runPathCycle pp gen width switch) s
/-- PATH_TRAINING_TIMEOUT (R304). -/
def execPathTrainingTimeout (pp : Nat) (s : State) : Out := act (runPathTrainTimeout pp) s
/-- PATHUP_END (R304). -/
def execPathupEnd (pp : Nat) (image : Nat) (outcome : Nat) (s : State) : Out := act (runPathupEnd pp image outcome) s
/-- PATH_OFFLINE_LIMIT (R305). -/
def execPathOfflineLimit (pp : Nat) (s : State) : Out := act (runOfflineLimit pp) s
/-- PATH_INBOUND_REQUEST (R303). -/
def execPathInboundRequest (pp : Nat) (pa : Nat) (n : Nat) (wr : Option (List Byte)) (s : State) : Out :=
  act (runPathInbound pp pa n wr) s

end Sys2Proof.Machine
end

