-- ==== Sys2Proof/Machine/DebugRun.lean ====
section
/-! DEFINITION. The test access chain (R595–R601), debug of cores (R602–R606), sample and trace records (R590–R592, R607,
R608), and register writes as commands (R14, R31). -/
namespace Sys2Proof.Machine

def updTap (f : Tap → Tap) (s : State) : State := updUnits (fun u => { u with tap := f u.tap }) s

/-! ### Instruction registers -/

/-- Instruction register of a controller; IDCODE after Test-Logic-Reset (R595, R597). -/
def irOf (s : State) (n : Nat) : Nat := tget 1 s.units.tap.ir n

/-- Load an instruction register and capture into the data register it selects. -/
def setIr (n ir dr : Nat) (s : State) : State :=
  if inChain s n then updTap (fun t => { t with ir := tset 1 t.ir n ir, dr := tset 0 t.dr n dr }) s else s

/-- TRST_N low: every controller in Test-Logic-Reset. -/
def runTrst (s : State) : State := updTap (fun t => { t with ir := [], dr := [] }) s

/-- IDCODE of a controller (R598): version by its die's stepping. -/
def idcode (s : State) (n : Nat) : Nat :=
  let st := if 16 ≤ n then s.cfg.step.get (halfOf (n - 16)) else dieStepOf s n
  let ver := (st / 16 + 6) % 16 * 4 % 16 + st % 16
  putBits [(28, ver % 16), (12, if 16 ≤ n then 0xA16A else 0xA16C), (1, 0x4E7), (0, 1)]

def runIdcode (n : Nat) (s : State) : State := setIr n 0x01 (idcode s n) s

/-- SAMPLE/PRELOAD of a hub: the levels of the lands are captured, which no rule gives, and `v` is preloaded (R597). -/
def runSamplePreload (h : Half) (v : Nat) (s : State) : State :=
  if inChain s (16 + h.n) then
    setIr (16 + h.n) 0x02 (freeVal s) (updTap (fun t => { t with bsr := t.bsr.set h v }) (drawn s))
  else s

/-- The lands obey EXTEST, CLAMP and HIGHZ only in BRINGUP with HM clear; else these act as BYPASS (R599). -/
def landsOpen (s : State) (h : Half) : Bool := s.pkg.mode == .bringup && !readyBit s h rbHm

/-- What drives the lands of a hub: 0 the hub's function, 1 the boundary register, 2 nothing (R599). -/
def landDrive (s : State) (h : Half) : Nat :=
  let ir := irOf s (16 + h.n)
  if ¬ landsOpen s h then 0 else if ir = 3 ∨ ir = 4 then 1 else if ir = 5 then 2 else 0

/-- EXTEST of a hub with the value its boundary register is updated with. -/
def runExtest (h : Half) (v : Nat) (s : State) : State :=
  let s1 := setIr (16 + h.n) 0x03 0 s
  if landsOpen s h ∧ inChain s (16 + h.n) then updTap (fun t => { t with bsr := t.bsr.set h v }) s1 else s1

def runClamp (h : Half) (s : State) : State := setIr (16 + h.n) 0x04 0 s
def runHighz (h : Half) (s : State) : State := setIr (16 + h.n) 0x05 0 s

/-- IJTAG: what the instruments read is open (R600). -/
def runIjtag (n : Nat) (s : State) : State := if inChain s n then setIr n 0x10 (freeVal s) (drawn s) else s

def runBypass (n : Nat) (s : State) : State := setIr n 0xFF 0 s

/-! ### The access port (R515–R518, R601) -/

/-- UNIT at an address, response and reach of an access port access. -/
structure ApTarget where
  unit : Option Nat
  resp : Nat
  /-- the secure world's view -/
  sec : Bool
deriving DecidableEq, Repr

/-- The checks of R516 for a physical address; an address error is DENIED. -/
def apTarget (s : State) (h : Half) (addr n : Nat) (write : Bool) : ApTarget :=
  match regionOf addr with
  | .dram =>
    let r := dbgResp s h none true (inImage s h addr n) write false false
    ⟨none, if r ≠ 0 then r else if dramRaw s h addr n ∧ addr % n = 0 then 0 else 1, false⟩
  | .regs g o =>
    let u := unitAt g o
    let sec := secureReg s g o
    let there := hubPresent s g && (match u with | some x => unitThere s x | none => true)
    let ready := match u with | some x => unitReady s x | none => readyBit s g rbHfab
    let r := if 0x7000000 ≤ o ∧ o < 0x8000000 then (if hubPresent s g then dbgBlockResp s g (o - 0x7000000) write else 4)
      else dbgResp s g u there sec write (holdReg o) ready
    ⟨u, if r ≠ 0 then r else if addr % n ≠ 0 ∨ (effMode s = .split ∧ g ≠ h) then 1 else 0, sec⟩
  | _ => ⟨none, 1, false⟩

/-- The access itself: data read and state. -/
def apAccess (h : Half) (addr n data : Nat) (write sec : Bool) (s : State) : Nat × State :=
  match regionOf addr with
  | .regs g o => if write then (0, kick s (regWriteN g sec o (toBytes n data) s)) else (ofBytes (regReadN s g sec o n), s)
  | _ => if write then (0, writeRun h addr (toBytes n data) s) else (ofBytes (readRun s h addr n).1, s)

/-- The result of an access is in the port. -/
def apDone (h : Half) (resp addr data : Nat) (s : State) : State :=
  updTap (fun t => { t with apDone := t.apDone.set h true, apResp := t.apResp.set h resp, apAddr := t.apAddr.set h addr,
                            apData := t.apData.set h data, apHeld := t.apHeld.set h none }) s

/-- A block that changes its power state makes the access wait (R518). -/
def apWaits (s : State) (u : Option Nat) : Bool :=
  match u with | some x => s.units.preq.any (fun r => r.unit == x) | none => false

/-- Perform an access of the port, or hold it while its target changes power state. -/
def apRun (h : Half) (op size addr data : Nat) (s : State) : State :=
  let n := if size % 4 = 3 then 8 else 4
  let t := apTarget s h addr n (op == 2)
  if t.resp ≠ 0 then apDone h t.resp addr 0 s
  else if apWaits s t.unit then
    updTap (fun x => { x with apDone := x.apDone.set h false, apResp := x.apResp.set h 7, apAddr := x.apAddr.set h addr,
                              apHeld := x.apHeld.set h (some (op, size, addr, data)) }) s
  else
    let r := apAccess h addr n data (op == 2) t.sec (dbgWake t.unit s)
    apDone h 0 addr r.1 r.2

/-- DBGAP: the instruction is selected and an Update-DR starts OP 1 read or 2 write; OP 0 and 3 poll. -/
def runDbgap (h : Half) (op size addr data : Nat) (s : State) : State :=
  if ¬ inChain s (16 + h.n) then s
  else
    let s1 := setIr (16 + h.n) 0x20 0 s
    if s.pkg.stopped ∨ ¬ (op % 4 = 1 ∨ op % 4 = 2) then s1
    else apRun h (op % 4) size (addr % 2 ^ 52) (data % 2 ^ 64) s1

/-- A held access goes on once its target's power state no longer changes. -/
def apTick (h : Half) (s : State) : State :=
  match s.units.tap.apHeld.get h with
  | some (op, size, addr, data) => apRun h op size addr data s
  | none => s

/-! ### Halt, resume, step, breakpoints (R603–R606) -/

def dbgRunReg (l : Nat) : Nat := 0x100000 + l * 256

/-- DBG_HALT: HALT written to DBG_RUN of an LCN through hub `h`, for the contexts of a mask. -/
def runDbgHalt (h : Half) (l mask : Nat) (s : State) : State := dbgBlockWrite h (dbgRunReg l) (2 ^ 29 + mask % 4 * 2 ^ 27) s
def runDbgResume (h : Half) (l mask : Nat) (s : State) : State := dbgBlockWrite h (dbgRunReg l) (2 ^ 30 + mask % 4 * 2 ^ 27) s
def runDbgStep (h : Half) (l mask : Nat) (s : State) : State :=
  dbgBlockWrite h (dbgRunReg l) (2 ^ 31 + 2 ^ 30 + mask % 4 * 2 ^ 27) s

/-- DBG_BP: the breakpoint is enabled for a context (R606). -/
def bpOn (s : State) (l ctx b : Nat) : Bool :=
  let x := (tget 0 (lcnOf s l).bp b).toNat
  let c := fld x 60 59
  decide (b < 4) && bitOf x 63 && (c == 0 || bitOf c ctx)

/-- BREAKPOINT_MATCH of breakpoint b: the context's next instruction lies at VA, or, for a watchpoint, accesses the 8-byte
word of VA (`acc`: the address and whether it is written). The context halts before it; its group retires first (R136, R606). -/
def runBreakpoint (l ctx b : Nat) (acc : Option (Nat × Bool)) (s : State) : State :=
  let x := (tget 0 (lcnOf s l).bp b).toNat
  let va := x % 2 ^ 57
  if ¬ dbgenN s ∨ ¬ ctxRuns s l ctx ∨ ¬ bpOn s l ctx b then s
  else match acc with
    | none => if fld x 62 61 = 0 ∧ (ctxOf s l ctx).pc.toNat % 2 ^ 57 = va then updCtx l ctx (haltCtx 3) (retireGroup l ctx s) else s
    | some (a, wr) =>
      if a % 2 ^ 57 / 8 = va / 8 ∧ (if wr then bitOf x 62 else bitOf x 61) then updCtx l ctx (haltCtx 4) (retireGroup l ctx s) else s

/-! ### Sample and trace records -/

/-- A record written by WRF into DRAM of the LCN's half; an address error loses it. -/
def recordOut (h : Half) (pa : Nat) (d : List Byte) (s : State) : State :=
  match dmaWrite s h pa d with | some (s1, _) => s1 | none => s

/-- SOURCE of a sample (R593). -/
def sourceCode (s : State) (l : Nat) (r : SampleOp) : Nat :=
  match r.source, regionOf (r.dpa % 2 ^ 52) with
  | .none, _ => 0
  | .l1 _, .dram => 1
  | .l2, .dram => 2
  | .l3 d, .dram =>
    if (coreOf s l).map (fun c => c / 128) = some d then 3 else if dieHalf d = lcnHalf s l then 4 else 5
  | .stockpot, .dram => 6
  | .dram, .dram => 7
  | _, _ => 8

/-- TLB of a sample (R592). -/
def tlbCode : TlbSrc → Nat
  | .l1 => 0
  | .l2 => 1
  | .locked => 2
  | .walkCached => 3
  | .walk => 4
  | .none => 15

/-- The home of the operand is in the other half. -/
def sampleRemote (s : State) (l : Nat) (r : SampleOp) : Bool :=
  decide (regionOf (r.dpa % 2 ^ 52) = .dram) && homeFor s (lcnHalf s l) (r.dpa % 2 ^ 52 / 64) != lcnHalf s l

/-- FLAGS of a sample (R592). -/
def sampleFlags (s : State) (l : Nat) (r : SampleOp) : Nat :=
  let some' := decide (r.source ≠ .none)
  putBits [(5, b2n (some' && sampleRemote s l r)), (4, b2n (decide (r.source = .l1 true))), (3, b2n r.uncached), (2, b2n r.atomic),
    (1, b2n r.store), (0, b2n r.exc)]

/-- A sample record (R592); an instruction without a data access has DVA and DPA 0. -/
def sampleBytes (s : State) (l : Nat) (r : SampleOp) : List Byte :=
  let k := (lcnOf s l).samp
  let dva := if r.source = .none then 0 else r.dva
  let dpa := if r.source = .none then 0 else r.dpa
  pack [(8, r.pc), (8, dva), (8, dpa % 2 ^ 52), (8, (s.st64.get (lcnHalf s l)).toNat), (2, sat r.fetch 65535), (2, sat r.issue 65535),
    (2, sat r.mem 65535), (2, sat r.retire 65535), (2, sat r.total 65535), (1, sourceCode s l r), (1, tlbCode r.tlb), (2, r.parcel),
    (1, putBits [(0, r.ctx % 2), (1, b2n r.a5), (2, r.pl % 4)]), (1, sampleFlags s l r), (2, l), (2, k.missed), (4, 0), (8, k.seq + 1)]

/-- SAMPLE_RECORD: a tagged instruction retired or faulted, with its record, or with none was discarded (R590–R592). -/
def runSampleRecord (l : Nat) (r : Option SampleOp) (s : State) : State :=
  let k := (lcnOf s l).samp
  if k.n = 0 ∨ ¬ lcnRuns s l then s
  else match r with
    | none => updLcn l (fun x => { x with samp := { x.samp with missed := sat (x.samp.missed + 1) 65535 } }) s
    | some r =>
      let s1 := recordOut (lcnHalf s l) (k.base + k.off) (sampleBytes s l r) s
      updLcn l (fun x => { x with samp := { x.samp with
        off := if k.size < k.off + 128 then 0 else k.off + 64, seq := x.samp.seq + 1, missed := 0 } }) s1

/-- One 16-byte record into the group buffer; a full group goes out by WRF, and the end of the buffer wraps or stops. -/
def tracePut (l : Nat) (d : List Byte) (s : State) : State :=
  let k := lcnOf s l
  if ¬ k.trcEn then s
  else
    let g := k.trcBuf ++ d
    let next := k.trcPtr + 16
    let s1 := if next % 64 = 0 then recordOut (lcnHalf s l) (k.trcBase.toNat + next - g.length) g s else s
    let last := decide (trcSize k.trcPages ≤ next)
    updLcn l (fun x => { x with
      trcBuf := if next % 64 = 0 then [] else g, trcPtr := if last then 0 else next
      trcEn := if last ∧ ¬ x.trcWrap then false else x.trcEn, trcFull := if last ∧ ¬ x.trcWrap then true else x.trcFull }) s1

def modeByte (c : Ctx) (ctx : Nat) : Nat := putBits [(0, ctx), (1, b2n c.psw.a5), (2, c.psw.pl.n)]

def traceBytes (target delta count typ mode : Nat) : List Byte :=
  pack [(8, target % 2 ^ 57), (4, sat delta (2 ^ 32 - 1)), (2, sat count 65535), (1, typ), (1, mode)]

/-- TRACE_RECORD: an event of a traced context. A record that finds the group buffer busy is dropped, and a LOST record
precedes the next one (R608). -/
def runTraceRecord (l ctx : Nat) (r : TraceOp) (s : State) : State :=
  let k := lcnOf s l
  let m := modeByte (ctxOf s l ctx) ctx
  if ¬ k.trcEn ∨ ¬ bitOf k.trcCtx ctx ∨ ¬ lcnRuns s l ∨ ¬ (1 ≤ r.typ ∧ r.typ ≤ 5) then s
  else if r.busy then updLcn l (fun x => { x with trcLost := x.trcLost + 1 }) s
  else
    let s1 := if k.trcLost = 0 then s else tracePut l (traceBytes 0 r.delta k.trcLost 6 m) s
    let s2 := tracePut l (traceBytes r.target r.delta k.trcCount r.typ m) s1
    updLcn l (fun x => { x with trcLost := 0, trcCount := 0 }) s2

/-! ### A register write as a command (R14, R31) -/

/-- REGISTER_WRITE of 4 or 8 aligned bytes at an offset of a hub's register region, by software of that half. Any other
size or alignment gets an address error and does nothing. -/
def runRegisterWrite (h : Half) (off n v : Nat) (s : State) : State :=
  if ¬ halfOn s h ∨ ¬ (n = 4 ∨ n = 8) ∨ off % n ≠ 0 then s else kick s (regWriteN h false off (toBytes n v) s)

end Sys2Proof.Machine
end

