-- ==== Sys2Proof/Machine/ExecDebug.lean ====
section
/-! DEFINITION. Meanings of the commands of the test access chain and core debug (R595–R606). -/
namespace Sys2Proof.Machine

/-- TRST_N (R595). -/
def execTrstN (s : State) : Out := .next (runTrst s)
/-- IDCODE (R598). -/
def execIdcode (n : Nat) (s : State) : Out := .next (runIdcode n s)
/-- SAMPLE_PRELOAD (R597). -/
def execSamplePreload (h : Half) (v : Nat) (s : State) : Out := .next (runSamplePreload h v s)
/-- EXTEST (R599). -/
def execExtest (h : Half) (v : Nat) (s : State) : Out := .next (runExtest h v s)
/-- CLAMP (R599). -/
def execClamp (h : Half) (s : State) : Out := .next (runClamp h s)
/-- HIGHZ (R599). -/
def execHighz (h : Half) (s : State) : Out := .next (runHighz h s)
/-- IJTAG (R600). -/
def execIjtag (n : Nat) (s : State) : Out := .next (runIjtag n s)
/-- BYPASS (R597). -/
def execBypass (n : Nat) (s : State) : Out := .next (runBypass n s)
/-- DBGAP (R601). -/
def execDbgap (h : Half) (op : Nat) (size : Nat) (addr : Nat) (data : Nat) (s : State) : Out :=
  .next (runDbgap h op size addr data s)
/-- DBG_HALT (R605). -/
def execDbgHalt (h : Half) (l : Nat) (mask : Nat) (s : State) : Out := act (runDbgHalt h l mask) s
/-- DBG_RESUME (R604). -/
def execDbgResume (h : Half) (l : Nat) (mask : Nat) (s : State) : Out := act (runDbgResume h l mask) s
/-- DBG_STEP (R604). -/
def execDbgStep (h : Half) (l : Nat) (mask : Nat) (s : State) : Out := act (runDbgStep h l mask) s
/-- BREAKPOINT_MATCH (R606). -/
def execBreakpointMatch (l : Nat) (ctx : Nat) (b : Nat) (acc : Option (Nat × Bool)) (s : State) : Out :=
  act (runBreakpoint l ctx b acc) s

end Sys2Proof.Machine
end

