-- ==== Sys2Proof/Machine/ExecFabric.lean ====
section
/-! DEFINITION. Meanings of the commands of fabric packets and Rytum modules (R237–R262). -/
namespace Sys2Proof.Machine

/-- RRD (R237). -/
def execRrd (m : Msg) (s : State) : Out := act (reach .rrd m (runRrd m)) s
/-- RWR (R237). -/
def execRwr (m : Msg) (s : State) : Out := act (reach .rwr m (runRwr m)) s
/-- OPS (R141). -/
def execOps (q : DevReq) (x : DevOp) (s : State) : Out := act (runOps q x) s
/-- ONE_SHOT_RELEASE (R141). -/
def execOneShotRelease (lcn : Nat) (ctx : Nat) (rid : Nat) (s : State) : Out := act (runRelease lcn ctx rid) s
/-- INT (R237). -/
def execInt (lcn : Nat) (vector : Nat) (s : State) : Out := act (runInt lcn vector) s
/-- DOMAIN_ASLEEP (R247). -/
def execDomainAsleep (op : MsgOp) (m : Msg) (unit : Nat) (s : State) : Out := act (reach op m (runAsleep op m unit)) s
/-- DOMAIN_OFF (R247). -/
def execDomainOff (op : MsgOp) (m : Msg) (unit : Nat) (s : State) : Out := act (reach op m (runDomainOff op m)) s
/-- AERR (R29). -/
def execAerr (m : Msg) (s : State) : Out := act (reach .aerr m (runAerr m)) s
/-- MIRW (R262). -/
def execMirw (m : Msg) (s : State) : Out := act (reach .mirw m (runMirw m)) s
/-- MIRACK (R329). -/
def execMirack (m : Msg) (s : State) : Out := act (reach .mirack m (runMirack m)) s
/-- MIRH (R261). -/
def execMirh (h : Half) (s : State) : Out := act (runMirh h) s
/-- TIDE_RAISE (R243). -/
def execTideRaise (j : Nat) (s : State) : Out := act (runTideRaise j) s
/-- ROUTE_EPOCH_CHANGE (R245). -/
def execRouteEpochChange (scope : Nat) (s : State) : Out := act (runRouteEnd scope) s
/-- FLIT_CHECK_FAIL (R251). -/
def execFlitCheckFail (k : Nat) (n : Nat) (s : State) : Out := act (runFlitFail k n) s
/-- NAK (R251). -/
def execNak (k : Nat) (ok : Bool) (s : State) : Out := act (runNak k ok) s
/-- RYTUM_RETRAIN (R252). -/
def execRytumRetrain (k : Nat) (s : State) : Out := act (runRetrainLink k) s
/-- RYTUM_TRAINING_END (R252). -/
def execRytumTrainingEnd (k : Nat) (failed : Nat) (spare : Nat) (s : State) : Out := act (runTrainEnd k failed spare) s
/-- HEARTBEAT_SEND (R255). -/
def execHeartbeatSend (k : Nat) (s : State) : Out := act (runHbSend k) s
/-- HEARTBEAT (R255). -/
def execHeartbeat (k : Nat) (s : State) : Out := act (runHb k) s
/-- FORWARDED_CLOCK_LOSS (R259). -/
def execForwardedClockLoss (d : Nat) (s : State) : Out := act (runClockFwdLoss d) s
/-- MODULE_RESET (R540). -/
def execModuleReset (k : Nat) (s : State) : Out := act (runModuleReset k) s

end Sys2Proof.Machine
end

