-- ==== Sys2Proof/Machine/ExecHarbour.lean ====
section
/-! DEFINITION. Meanings of the commands of the Harbourmaster's opcodes (R72), each as its packet reaches it, and the rings (R54–R59, R66–R69). -/
namespace Sys2Proof.Machine

/-- A packet can come from its source now: a ring that is enabled with no reply held, or a queue pair of type CMD that is
enabled, its function being the source's (R54–R61). -/
def mayCome (s : State) (src : Src) : Bool :=
  hmReady s src.half && (waiting? s src).isNone && !fenceUp s src && decide (progCount s src < 64) &&
  (match src with
    | .ring h l => decide (l < 3) && (ringOf s h l).en && !(ringOf s h l).stopped && (ringOf s h l).held == []
    | .admin p => decide (p < 4) && qpTakes s (adminQp p)
    | .func p fn q => qpOwner s q == some (p, fn) && decide (q % 2048 < 1024) && qpTakes s q
    | .mgmt _ => false)
where
  qpTakes (s : State) (q : Nat) : Bool := (qpOf s q).typ == 0 && (qpOf s q).en && (qpOf s q).held == [] && !cqFull (qpOf s q)

/-- A packet's fields cut to their widths (R62), with the opcode of its row. -/
def pktFit (op : Nat) (p : Pkt) : Pkt :=
  { p with op := op, tag := p.tag % 2 ^ 16, flags := p.flags % 2 ^ 8, plen := p.plen % 2 ^ 8, iptr := p.iptr % 2 ^ 64,
           prm := p.prm % 2 ^ 384 }

/-- A packet with an opcode reaches the Harbourmaster from its source (log 17). -/
def hmTake (op : Nat) (p : Pkt) (s : State) : State :=
  match p.src with
  | .mgmt _ => mgmtPacket (pktFit op p) s
  | _ => if mayCome s p.src then harbourRun (arrive (pktFit op p) s) else s


/-- MODE_GET (R72). -/
def execModeGet (p : Pkt) (s : State) : Out := act (hmTake 0x0100 p) s
/-- MODE_SET (R38). -/
def execModeSet (p : Pkt) (s : State) : Out := act (hmTake 0x0101 p) s
/-- DRAIN_CTL_SET (R42). -/
def execDrainCtlSet (p : Pkt) (s : State) : Out := act (hmTake 0x0102 p) s
/-- CLK_STEP_SET (R533). -/
def execClkStepSet (p : Pkt) (s : State) : Out := act (hmTake 0x0200 p) s
/-- PWR_STATE_SET (R519). -/
def execPwrStateSet (p : Pkt) (s : State) : Out := act (hmTake 0x0201 p) s
/-- PWR_STATE_GET (R72). -/
def execPwrStateGet (p : Pkt) (s : State) : Out := act (hmTake 0x0202 p) s
/-- CLK_STATUS_GET (R532). -/
def execClkStatusGet (p : Pkt) (s : State) : Out := act (hmTake 0x0203 p) s
/-- TEMP_READ (R72). -/
def execTempRead (p : Pkt) (s : State) : Out := act (hmTake 0x0204 p) s
/-- SPARE_CORE (R150). -/
def execSpareCore (p : Pkt) (s : State) : Out := act (hmTake 0x0300 p) s
/-- SPARE_STATE_GET (R163). -/
def execSpareStateGet (p : Pkt) (s : State) : Out := act (hmTake 0x0301 p) s
/-- CORE_OFFLINE (R158). -/
def execCoreOffline (p : Pkt) (s : State) : Out := act (hmTake 0x0302 p) s
/-- CORE_ONLINE (R158). -/
def execCoreOnline (p : Pkt) (s : State) : Out := act (hmTake 0x0303 p) s
/-- L3_LINE_DELETE (R206). -/
def execL3LineDelete (p : Pkt) (s : State) : Out := act (hmTake 0x0304 p) s
/-- MEM_SPARE (R286). -/
def execMemSpare (p : Pkt) (s : State) : Out := act (hmTake 0x0305 p) s
/-- PATH_SET (R304). -/
def execPathSet (p : Pkt) (s : State) : Out := act (hmTake 0x0306 p) s
/-- BUCKET_SET (R143). -/
def execBucketSet (p : Pkt) (s : State) : Out := act (hmTake 0x0307 p) s
/-- HOME_TIMER_SET (R218). -/
def execHomeTimerSet (p : Pkt) (s : State) : Out := act (hmTake 0x0308 p) s
/-- POOL_GET (R72). -/
def execPoolGet (p : Pkt) (s : State) : Out := act (hmTake 0x0400 p) s
/-- VF_CREATE (R443). -/
def execVfCreate (p : Pkt) (s : State) : Out := act (hmTake 0x0401 p) s
/-- VF_DESTROY (R468). -/
def execVfDestroy (p : Pkt) (s : State) : Out := act (hmTake 0x0402 p) s
/-- VF_QUIESCE (R469). -/
def execVfQuiesce (p : Pkt) (s : State) : Out := act (hmTake 0x0403 p) s
/-- VF_FREEZE (R471). -/
def execVfFreeze (p : Pkt) (s : State) : Out := act (hmTake 0x0404 p) s
/-- VF_RESTORE (R475). -/
def execVfRestore (p : Pkt) (s : State) : Out := act (hmTake 0x0405 p) s
/-- VF_RESUME (R476). -/
def execVfResume (p : Pkt) (s : State) : Out := act (hmTake 0x0406 p) s
/-- VF_RESET (R468). -/
def execVfReset (p : Pkt) (s : State) : Out := act (hmTake 0x0407 p) s
/-- LDG_STREAM_OPEN (R403). -/
def execLdgStreamOpen (p : Pkt) (s : State) : Out := act (hmTake 0x0500 p) s
/-- LDG_STREAM_CLOSE (R422). -/
def execLdgStreamClose (p : Pkt) (s : State) : Out := act (hmTake 0x0501 p) s
/-- LDG_HEAD_READ (R415). -/
def execLdgHeadRead (p : Pkt) (s : State) : Out := act (hmTake 0x0502 p) s
/-- LDG_CHECKPOINT (R420). -/
def execLdgCheckpoint (p : Pkt) (s : State) : Out := act (hmTake 0x0503 p) s
/-- LDG_SPOOL_SET (R423). -/
def execLdgSpoolSet (p : Pkt) (s : State) : Out := act (hmTake 0x0504 p) s
/-- KEY_LOAD_SLOT (R502). -/
def execKeyLoadSlot (p : Pkt) (s : State) : Out := act (hmTake 0x0600 p) s
/-- KEY_GENERATE (R499). -/
def execKeyGenerate (p : Pkt) (s : State) : Out := act (hmTake 0x0601 p) s
/-- KEY_ERASE (R500). -/
def execKeyErase (p : Pkt) (s : State) : Out := act (hmTake 0x0602 p) s
/-- KEY_SLOT_INFO (R499). -/
def execKeySlotInfo (p : Pkt) (s : State) : Out := act (hmTake 0x0603 p) s
/-- KEY_PUBLIC_READ (R500). -/
def execKeyPublicRead (p : Pkt) (s : State) : Out := act (hmTake 0x0604 p) s
/-- LOG_READ (R572). -/
def execLogRead (p : Pkt) (s : State) : Out := act (hmTake 0x0700 p) s
/-- LOG_CLEAR (R573). -/
def execLogClear (p : Pkt) (s : State) : Out := act (hmTake 0x0701 p) s
/-- LOG_STATUS (R572). -/
def execLogStatus (p : Pkt) (s : State) : Out := act (hmTake 0x0702 p) s
/-- TIME_GET (R507). -/
def execTimeGet (p : Pkt) (s : State) : Out := act (hmTake 0x0800 p) s
/-- TIME_SET_OFFSET (R509). -/
def execTimeSetOffset (p : Pkt) (s : State) : Out := act (hmTake 0x0801 p) s
/-- TIME_ATTEST (R508). -/
def execTimeAttest (p : Pkt) (s : State) : Out := act (hmTake 0x0802 p) s
/-- PCT_SELECT (R577). -/
def execPctSelect (p : Pkt) (s : State) : Out := act (hmTake 0x0900 p) s
/-- PCT_COLLECT_SET (R583). -/
def execPctCollectSet (p : Pkt) (s : State) : Out := act (hmTake 0x0901 p) s
/-- PCT_FREEZE (R584). -/
def execPctFreeze (p : Pkt) (s : State) : Out := act (hmTake 0x0902 p) s
/-- PCT_UREAD_SET (R582). -/
def execPctUreadSet (p : Pkt) (s : State) : Out := act (hmTake 0x0903 p) s
/-- PCT_SAMPLE_SET (R590). -/
def execPctSampleSet (p : Pkt) (s : State) : Out := act (hmTake 0x0904 p) s
/-- DIAG_PING (R72). -/
def execDiagPing (p : Pkt) (s : State) : Out := act (hmTake 0x0A00 p) s
/-- DIAG_SCRUB (R279). -/
def execDiagScrub (p : Pkt) (s : State) : Out := act (hmTake 0x0A01 p) s
/-- DIAG_LINK_RETRAIN (R255). -/
def execDiagLinkRetrain (p : Pkt) (s : State) : Out := act (hmTake 0x0A02 p) s
/-- DIAG_CORE_TEST (R633). -/
def execDiagCoreTest (p : Pkt) (s : State) : Out := act (hmTake 0x0A03 p) s
/-- CAP_GET (R72). -/
def execCapGet (p : Pkt) (s : State) : Out := act (hmTake 0x0B00 p) s
/-- REV_GET (R72). -/
def execRevGet (p : Pkt) (s : State) : Out := act (hmTake 0x0B01 p) s
/-- PAIRING_GET (R72). -/
def execPairingGet (p : Pkt) (s : State) : Out := act (hmTake 0x0B02 p) s
/-- COMMAND_TIMEOUT (R69). -/
def execCommandTimeout (src : Src) (tag : Nat) (s : State) : Out := act (runCommandTimeout src tag) s
/-- STATUS_REPLY_POST (R67). -/
def execStatusReplyPost (h : Half) (level : Nat) (s : State) : Out := act (runReplyPost h level) s
/-- SYS_CR_TAIL_DOORBELL (R54). -/
def execSysCrTailDoorbell (h : Half) (level : Nat) (v : Nat) (s : State) : Out := act (runCrTail h level v) s
/-- SYS_SR_HEAD_WRITE (R58). -/
def execSysSrHeadWrite (h : Half) (level : Nat) (v : Nat) (s : State) : Out := act (runSrHead h level v) s
/-- RING_STOP (R59). -/
def execRingStop (h : Half) (level : Nat) (s : State) : Out := act (runRingStop h level) s
/-- STOPPED_CLEAR (R59). -/
def execStoppedClear (h : Half) (level : Nat) (s : State) : Out := act (runStoppedClear h level) s

end Sys2Proof.Machine
end

