-- ==== Sys2Proof/Machine/ExecLate.lean ====
section
/-! DEFINITION. Meanings of the commands of register writes and completions of work under way (R14, R66, R228, R291, R436–R478, R518, R538, R610). -/
namespace Sys2Proof.Machine

/-- REGISTER_WRITE (R14). -/
def execRegisterWrite (h : Half) (off : Nat) (n : Nat) (v : Nat) (s : State) : Out := act (runRegisterWrite h off n v) s
/-- PWRFAIL_WARN_RELEASE (R526). -/
def execPwrfailWarnRelease (s : State) : Out := act runPfwRelease s
/-- SUPPLY_RANGE_CHANGE (R522). -/
def execSupplyRangeChange (k : Nat) (ok : Bool) (s : State) : Out := .next (runSupplyRange k ok s)
/-- PATH_PERST_RELEASE (R610). -/
def execPathPerstRelease (pp : Nat) (s : State) : Out := act (runPerstRelease pp) s
/-- ATTACH_PERST_N (R436). -/
def execAttachPerstN (port : Nat) (low : Bool) (s : State) : Out := act (runPerst port low) s
/-- ATTACH_LINK_TRAINED (R478). -/
def execAttachLinkTrained (port : Nat) (gen : Nat) (width : Nat) (s : State) : Out := act (runLinkTrained port gen width) s
/-- MEM_TRAINING_END (R291). -/
def execMemTrainingEnd (h : Half) (c : Nat) (ok : Bool) (s : State) : Out := act (runTrainingEnd h c ok) s
/-- ASYNC_COMMAND_COMPLETE (R66). -/
def execAsyncCommandComplete (src : Src) (tag : Nat) (pass : Bool) (errs : List (Nat × Nat)) (s : State) : Out :=
  act (runAsyncComplete src tag pass errs) s
/-- POWER_STATE_REACHED (R538). -/
def execPowerStateReached (u : Nat) (s : State) : Out := act (runPowerReached u) s
/-- DEBUG_WAKE_EXPIRY (R518). -/
def execDebugWakeExpiry (u : Nat) (s : State) : Out := act (runDebugWakeExpiry u) s
/-- ATTACH_READ_COMPLETION (R449). -/
def execAttachReadCompletion (port : Nat) (tag : Nat) (status : Nat) (d : List Byte) (ep : Bool) (s : State) : Out :=
  act (runReadCompletion port tag status d ep) s
/-- MAINTENANCE_SLOT_START (R228). -/
def execMaintenanceSlotStart (h : Half) (k : Nat) (v : Nat) (s : State) : Out := act (runMntStart h k v) s
/-- VF_QUIESCE_LIMIT (R469). -/
def execVfQuiesceLimit (k : Nat) (s : State) : Out := act (runQuiesceLimit k) s

end Sys2Proof.Machine
end

