-- ==== Sys2Proof/Machine/ExecLedger.lean ====
section
/-! DEFINITION. Meanings of the commands of ledger streams (R403–R433). -/
namespace Sys2Proof.Machine

/-- APPEND_ENTRY (R448). -/
def execAppendEntry (q : Nat) (s : State) : Out := act (runAppendEntry q) s
/-- APPEND_FORMAT (R408). -/
def execAppendFormat (id : Nat) (sealFail : Bool) (s : State) : Out := act (runAppendFormat id sealFail) s
/-- APPEND_CHAIN (R408). -/
def execAppendChain (id : Nat) (s : State) : Out := act (runAppendChain id) s
/-- LEDGER_COMPLETION_POST (R419). -/
def execLedgerCompletionPost (id : Nat) (s : State) : Out := act (runLedgerPost id) s
/-- RING_SPACE_WAIT (R406). -/
def execRingSpaceWait (id : Nat) (s : State) : Out := act (runRingSpace id) s
/-- CHECKPOINT_TIMER (R420). -/
def execCheckpointTimer (id : Nat) (s : State) : Out := act (runCkptTimer id) s
/-- CHECKPOINT_SIGN (R421). -/
def execCheckpointSign (h : Half) (s : State) : Out := act (runCkptSign h) s
/-- CLOSE_TIMEOUT (R422). -/
def execCloseTimeout (id : Nat) (s : State) : Out := act (runCloseTimeout id) s
/-- SPOOL_START (R424). -/
def execSpoolStart (id : Nat) (s : State) : Out := act (runSpoolStart id) s
/-- SPOOL_FINAL_STATUS (R424). -/
def execSpoolFinalStatus (h : Half) (j : Nat) (s : State) : Out := act (runSpoolStatus h j) s
/-- LDG_ERR_CLEAR (R433). -/
def execLdgErrClear (h : Half) (s : State) : Out := act (runLdgErrClear h) s

end Sys2Proof.Machine
end

