-- ==== Sys2Proof/Machine/ExecLight.lean ====
section
/-! DEFINITION. Meanings of the commands of the Lighthouse (R484–R520). -/
namespace Sys2Proof.Machine

/-- LH_MB_DB (R484). -/
def execLhMbDb (h : Half) (mask : Nat) (s : State) : Out := act (runMbDoorbell h mask) s
/-- MAILBOX_TAKE (R484). -/
def execMailboxTake (h : Half) (s : State) : Out := act (runMailboxTake h) s
/-- LH_MB_OUTPEND_CLEAR (R484). -/
def execLhMbOutpendClear (h : Half) (mask : Nat) (s : State) : Out := act (runMbClear h mask) s
/-- DBG_CHALLENGE (R486). -/
def execDbgChallenge (h : Half) (s : State) : Out := act (runDbgChallenge h) s
/-- DBG_UNLOCK (R512). -/
def execDbgUnlock (h : Half) (s : State) : Out := act (runDbgUnlock h) s
/-- DBG_RELOCK (R513). -/
def execDbgRelock (h : Half) (s : State) : Out := act (runDbgRelock h) s
/-- LC_ADVANCE (R489). -/
def execLcAdvance (h : Half) (s : State) : Out := act (runLcAdvance h) s
/-- FW_STAGE (R495). -/
def execFwStage (h : Half) (s : State) : Out := act (runFwStage h) s
/-- GRANT_EXPIRY (R513). -/
def execGrantExpiry (s : State) : Out := act runGrantExpiry s
/-- DEFERRED_POWER_LIMIT (R520). -/
def execDeferredPowerLimit (u : Nat) (s : State) : Out := act (runDeferredLimit u) s
/-- ST64_STEER (R506). -/
def execSt64Steer (d : Nat) (s : State) : Out := act (runSt64Steer d) s

end Sys2Proof.Machine
end

