-- ==== Sys2Proof/Machine/ExecLog.lean ====
section
/-! DEFINITION. Meanings of the commands of log, counters, samples and trace (R569–R608). -/
namespace Sys2Proof.Machine

/-- LOG_REPORT (R569). -/
def execLogReport (h : Half) (r : Report) (s : State) : Out := act (runLogReport h r) s
/-- FREEZE_PULSE (R584). -/
def execFreezePulse (h : Half) (busy : Bool) (s : State) : Out := act (runFreezePulse h busy) s
/-- SAMPLE_RECORD (R591). -/
def execSampleRecord (l : Nat) (r : Option SampleOp) (s : State) : Out := act (runSampleRecord l r) s
/-- TRACE_RECORD (R608). -/
def execTraceRecord (l : Nat) (ctx : Nat) (r : TraceOp) (s : State) : Out := act (runTraceRecord l ctx r) s

end Sys2Proof.Machine
end

