-- ==== Sys2Proof/Machine/ExecMemory.lean ====
section
/-! DEFINITION. Meanings of the commands of memory channels (R264–R292). -/
namespace Sys2Proof.Machine

/-- CA_PARITY_ALERT (R273). -/
def execCaParityAlert (h : Half) (c : Nat) (outcome : Nat) (lost : List Nat) (s : State) : Out :=
  act (runCaParity h c outcome lost) s
/-- MERGE_DRAIN (R275). -/
def execMergeDrain (h : Half) (c : Nat) (j : Nat) (err : Nat) (s : State) : Out := act (runMergeDrain h c j err) s
/-- PATROL_SCRUB (R279). -/
def execPatrolScrub (h : Half) (c : Nat) (err : Nat) (s : State) : Out := act (runPatrol h c err) s
/-- RFM_ISSUE (R280). -/
def execRfmIssue (h : Half) (c : Nat) (bank : Nat) (s : State) : Out := act (runRfm h c bank) s
/-- AGGRESSOR_DETECTED (R281). -/
def execAggressorDetected (h : Half) (c : Nat) (src : Nat) (port : Nat) (s : State) : Out := act (runAggressor h c src port) s
/-- REFRESH_WINDOW_END (R281). -/
def execRefreshWindowEnd (h : Half) (c : Nat) (s : State) : Out := act (runWindowEnd h c) s
/-- PERIODIC_RETRAIN (R283). -/
def execPeriodicRetrain (h : Half) (c : Nat) (outcome : Nat) (s : State) : Out := act (runRetrain h c outcome) s
/-- SPARING_COPY_LINE (R286). -/
def execSparingCopyLine (h : Half) (errs : List Nat) (s : State) : Out := act (runCopyLine h errs) s
/-- SPARING_COPY_COMPLETE (R286). -/
def execSparingCopyComplete (h : Half) (s : State) : Out := act (runCopyComplete h) s
/-- CHANNEL_ZEROING_COMPLETE (R291). -/
def execChannelZeroingComplete (h : Half) (c : Nat) (s : State) : Out := act (runZeroed h c) s
/-- MEM_UE_CLEAR (R292). -/
def execMemUeClear (h : Half) (c : Nat) (s : State) : Out := act (runMemUeClear h c) s

end Sys2Proof.Machine
end

