-- ==== Sys2Proof/Machine/ExecMode.lean ====
section
/-! DEFINITION. Meanings of the commands of package modes and losses (R39–R49, R556–R559). -/
namespace Sys2Proof.Machine

/-- DRAIN_LIMIT_EXPIRY (R41). -/
def execDrainLimitExpiry (half : Option Half) (s : State) : Out := act (runDrainLimit half) s
/-- DRAIN_COMPLETE (R41). -/
def execDrainComplete (half : Option Half) (s : State) : Out := act (runDrainComplete half) s
/-- MODE_TRANSITION_COMPLETE (R39). -/
def execModeTransitionComplete (s : State) : Out := act runTransitionComplete s
/-- RESILVER_COMPLETE (R49). -/
def execResilverComplete (s : State) : Out := act runResilverComplete s
/-- HALF_BRINGUP_COMPLETE (R48). -/
def execHalfBringupComplete (h : Half) (s : State) : Out := act (runHalfBringup h) s
/-- HALF_LOSS (R557). -/
def execHalfLoss (h : Half) (cause : Nat) (s : State) : Out := act (runHalfLoss h cause) s
/-- BREAKWATER_LOSS (R559). -/
def execBreakwaterLoss (s : State) : Out := act runBreakwaterLoss s
/-- ALIVE_LINE_TIMEOUT (R558). -/
def execAliveLineTimeout (h : Half) (s : State) : Out := act (runAliveTimeout h) s
/-- HARBOURMASTER_WATCHDOG (R558). -/
def execHarbourmasterWatchdog (h : Half) (s : State) : Out := act (runWatchdog h) s
/-- DIE_LOST (R556). -/
def execDieLost (d : Nat) (cause : Nat) (s : State) : Out := act (runDieLost d cause) s

end Sys2Proof.Machine
end

