-- ==== Sys2Proof/Machine/ExecMover.lean ====
section
/-! DEFINITION. Meanings of the commands of movers (R387–R397). -/
namespace Sys2Proof.Machine

/-- MOV_CH_TAIL_DOORBELL (R387). -/
def execMovChTailDoorbell (h : Half) (m : Nat) (ch : Nat) (v : Nat) (s : State) : Out := act (runMovTail h m ch v) s
/-- MOVER_DESCRIPTOR_START (R391). -/
def execMoverDescriptorStart (h : Half) (m : Nat) (s : State) : Out := act (runMoverStart h m) s
/-- MOVER_BURST (R388). -/
def execMoverBurst (h : Half) (m : Nat) (s : State) : Out := act (runMoverBurst h m) s
/-- MOVER_DESCRIPTOR_COMPLETE (R392). -/
def execMoverDescriptorComplete (h : Half) (m : Nat) (s : State) : Out := act (runMoverComplete h m) s
/-- MOVER_HALT (R394). -/
def execMoverHalt (h : Half) (m : Nat) (pa : Nat) (wr : Bool) (poison : Bool) (s : State) : Out :=
  act (runMoverHalt h m pa wr poison) s
/-- RESUME (R397). -/
def execResume (h : Half) (m : Nat) (ch : Nat) (s : State) : Out := act (runMovResume h m ch) s
/-- SKIP (R397). -/
def execSkip (h : Half) (m : Nat) (ch : Nat) (s : State) : Out := act (runMovSkip h m ch) s
/-- ABORT (R397). -/
def execAbort (h : Half) (m : Nat) (ch : Nat) (s : State) : Out := act (runMovAbort h m ch) s
/-- MOVER_POWER_STOP (R393). -/
def execMoverPowerStop (h : Half) (m : Nat) (s : State) : Out := act (runMoverPowerStop h m) s

end Sys2Proof.Machine
end

