-- ==== Sys2Proof/Machine/ExecPort.lean ====
section
/-! DEFINITION. Meanings of the commands of the management port (R60, R494). -/
namespace Sys2Proof.Machine

/-- I3C_PRIVATE_WRITE (R60). -/
def execI3cPrivateWrite (h : Half) (d : List Byte) (s : State) : Out := act (runI3cWrite h d) s
/-- I3C_PRIVATE_READ (R60). -/
def execI3cPrivateRead (h : Half) (s : State) : Out := act (runI3cRead h) s
/-- ENTDAA (R60). -/
def execEntdaa (h : Half) (a : Nat) (s : State) : Out := act (runEntdaa h a) s
/-- SETDASA (R60). -/
def execSetdasa (static : Nat) (a : Nat) (s : State) : Out := act (runSetdasa static a) s
/-- RSTDAA (R60). -/
def execRstdaa (s : State) : Out := act runRstdaa s
/-- GETPID (R60). -/
def execGetpid (h : Half) (s : State) : Out := act (runI3cGet h 6) s
/-- GETBCR (R60). -/
def execGetbcr (h : Half) (s : State) : Out := act (runI3cGet h 1) s
/-- GETDCR (R60). -/
def execGetdcr (h : Half) (s : State) : Out := act (runI3cGet h 1) s
/-- GETSTATUS (R60). -/
def execGetstatus (h : Half) (s : State) : Out := act (runI3cGet h 2) s
/-- ENEC (R60). -/
def execEnec (h : Half) (ev : Nat) (s : State) : Out := act (runEnec h ev true) s
/-- DISEC (R60). -/
def execDisec (h : Half) (ev : Nat) (s : State) : Out := act (runEnec h ev false) s
/-- BUNDLE_WRITE (R494). -/
def execBundleWrite (h : Half) (d : List Byte) (s : State) : Out := act (runBundle h d) s
/-- BUNDLE_READ (R494). -/
def execBundleRead (h : Half) (s : State) : Out := act (runBundleRead h) s

end Sys2Proof.Machine
end

