-- ==== Sys2Proof/Machine/ExecPower.lean ====
section
/-! DEFINITION. Meanings of the commands of supplies, clocks, sideband inputs and bring-up (R490–R550, R618–R631). -/
namespace Sys2Proof.Machine

/-- FEED_LOSS (R522). -/
def execFeedLoss (k : Nat) (s : State) : Out := .next (runFeedLoss k s)
/-- FEED_RETURN (R522). -/
def execFeedReturn (k : Nat) (s : State) : Out := .next (runFeedReturn k s)
/-- BOTH_FEEDS_LOST (R523). -/
def execBothFeedsLost (s : State) : Out := .next (runBothLost s)
/-- VHOLD_LOSS (R523). -/
def execVholdLoss (s : State) : Out := .next (runVholdLoss s)
/-- HOLD_POWER_UP (R540). -/
def execHoldPowerUp (k : Nat) (s : State) : Out := .next (runHoldPowerUp k s)
/-- PWRFAIL_WARN (R525). -/
def execPwrfailWarn (s : State) : Out := act runPfw s
/-- RESET_N_ASSERT (R541). -/
def execResetNAssert (s : State) : Out := act runResetAssert s
/-- RESET_N_RELEASE (R541). -/
def execResetNRelease (s : State) : Out := act runResetRelease s
/-- THROTTLE_N (R535). -/
def execThrottleN (on : Bool) (s : State) : Out := act (runThrottle on) s
/-- SERVICE_N (R623). -/
def execServiceN (on : Bool) (s : State) : Out := act (runService on) s
/-- SIDEBAND_STUCK (R620). -/
def execSidebandStuck (j : Nat) (s : State) : Out := act (runStuck j) s
/-- SIDEBAND_CHATTER (R620). -/
def execSidebandChatter (j : Nat) (s : State) : Out := act (runChatter j) s
/-- SIDEBAND_MASK_END (R621). -/
def execSidebandMaskEnd (j : Nat) (s : State) : Out := act (runMaskEnd j) s
/-- PMU_SIDEBAND_SVC_CLEAR (R624). -/
def execPmuSidebandSvcClear (s : State) : Out := act runSvcClear s
/-- PMU_SUPPLY_LOST_CLEAR (R524). -/
def execPmuSupplyLostClear (v : Nat) (s : State) : Out := act (runLostClear v) s
/-- CLOCK_MONITOR_WINDOW (R529). -/
def execClockMonitorWindow (x : Nat) (j : Nat) (s : State) : Out := act (runClockWindow x j) s
/-- IRO_FAILURE (R531). -/
def execIroFailure (s : State) : Out := act runIroFailure s
/-- ALL_CLOCKS_LOST (R531). -/
def execAllClocksLost (s : State) : Out := act runAllClocksLost s
/-- DIE_TEMPERATURE_THRESHOLD (R535). -/
def execDieTemperatureThreshold (d : Nat) (t : Int) (s : State) : Out := act (runDieTemp d t) s
/-- DIE_OVERTEMPERATURE (R631). -/
def execDieOvertemperature (d : Nat) (s : State) : Out := act (runOvertemp d) s
/-- PACKAGE_RESET (R540). -/
def execPackageReset (s : State) : Out := act runPackageReset s
/-- LIGHTHOUSE_BOOT (R493). -/
def execLighthouseBoot (h : Half) (step : Nat) (s : State) : Out := act (runLighthouseBoot h step) s
/-- UNIT_READY (R542). -/
def execUnitReady (h : Half) (k : Nat) (pass : Bool) (s : State) : Out := act (runUnitReady h k pass) s
/-- CORE_SELF_TEST (R161). -/
def execCoreSelfTest (d : Nat) (bad : List Nat) (s : State) : Out := act (runSelfTest d bad) s
/-- PAIRING (R550). -/
def execPairing (s : State) : Out := act runPairing s
/-- SYS_AUTO_MODE_SET (R548). -/
def execSysAutoModeSet (waited : Bool) (s : State) : Out := act (runSysAuto waited) s

end Sys2Proof.Machine
end

