-- ==== Sys2Proof/Machine/ExecSeal.lean ====
section
/-! DEFINITION. Meanings of the commands of seal rings and engines (R357–R385). -/
namespace Sys2Proof.Machine

/-- SEAL_RING_TAIL_DOORBELL (R359). -/
def execSealRingTailDoorbell (h : Half) (r : Nat) (v : Nat) (s : State) : Out := act (runSealTail h r v) s
/-- SEAL_RING_ENABLE (R357). -/
def execSealRingEnable (h : Half) (r : Nat) (s : State) : Out := act (runSealEnable h r) s
/-- SEAL_JOB_START (R363). -/
def execSealJobStart (h : Half) (e : Nat) (s : State) : Out := act (runSealStart h e) s
/-- SEAL_JOB_COMPLETE (R366). -/
def execSealJobComplete (h : Half) (e : Nat) (arrayErr : Bool) (s : State) : Out := act (runSealComplete h e arrayErr) s
/-- SEAL_RING_CHEAD_WRITE (R366). -/
def execSealRingCheadWrite (h : Half) (r : Nat) (v : Nat) (s : State) : Out := act (runSealChead h r v) s
/-- SEAL_RING_STOP (R366). -/
def execSealRingStop (h : Half) (r : Nat) (s : State) : Out := act (runSealRingStop h r) s
/-- SEAL_POWER_PREEMPT (R382). -/
def execSealPowerPreempt (h : Half) (e : Nat) (s : State) : Out := act (runSealPreempt h e) s
/-- SEAL_ENG_ERR_CLEAR (R385). -/
def execSealEngErrClear (h : Half) (e : Nat) (s : State) : Out := act (runSealErrClear h e) s

end Sys2Proof.Machine
end

