-- ==== Sys2Proof/Machine/Dispatch.lean ====
section
/-! DEFINITION. The effect of a command on everything but the queue, arm by arm. -/
namespace Sys2Proof.Machine

def exec (i : Instr) (s : State) : Host.Outcome State Fault Refusal :=
  match i with
  | .modeGet p => Sys2Proof.Machine.execModeGet p s
  | .modeSet p => Sys2Proof.Machine.execModeSet p s
  | .drainCtlSet p => Sys2Proof.Machine.execDrainCtlSet p s
  | .clkStepSet p => Sys2Proof.Machine.execClkStepSet p s
  | .pwrStateSet p => Sys2Proof.Machine.execPwrStateSet p s
  | .pwrStateGet p => Sys2Proof.Machine.execPwrStateGet p s
  | .clkStatusGet p => Sys2Proof.Machine.execClkStatusGet p s
  | .tempRead p => Sys2Proof.Machine.execTempRead p s
  | .spareCore p => Sys2Proof.Machine.execSpareCore p s
  | .spareStateGet p => Sys2Proof.Machine.execSpareStateGet p s
  | .coreOffline p => Sys2Proof.Machine.execCoreOffline p s
  | .coreOnline p => Sys2Proof.Machine.execCoreOnline p s
  | .l3LineDelete p => Sys2Proof.Machine.execL3LineDelete p s
  | .memSpare p => Sys2Proof.Machine.execMemSpare p s
  | .pathSet p => Sys2Proof.Machine.execPathSet p s
  | .bucketSet p => Sys2Proof.Machine.execBucketSet p s
  | .homeTimerSet p => Sys2Proof.Machine.execHomeTimerSet p s
  | .poolGet p => Sys2Proof.Machine.execPoolGet p s
  | .vfCreate p => Sys2Proof.Machine.execVfCreate p s
  | .vfDestroy p => Sys2Proof.Machine.execVfDestroy p s
  | .vfQuiesce p => Sys2Proof.Machine.execVfQuiesce p s
  | .vfFreeze p => Sys2Proof.Machine.execVfFreeze p s
  | .vfRestore p => Sys2Proof.Machine.execVfRestore p s
  | .vfResume p => Sys2Proof.Machine.execVfResume p s
  | .vfReset p => Sys2Proof.Machine.execVfReset p s
  | .ldgStreamOpen p => Sys2Proof.Machine.execLdgStreamOpen p s
  | .ldgStreamClose p => Sys2Proof.Machine.execLdgStreamClose p s
  | .ldgHeadRead p => Sys2Proof.Machine.execLdgHeadRead p s
  | .ldgCheckpoint p => Sys2Proof.Machine.execLdgCheckpoint p s
  | .ldgSpoolSet p => Sys2Proof.Machine.execLdgSpoolSet p s
  | .keyLoadSlot p => Sys2Proof.Machine.execKeyLoadSlot p s
  | .keyGenerate p => Sys2Proof.Machine.execKeyGenerate p s
  | .keyErase p => Sys2Proof.Machine.execKeyErase p s
  | .keySlotInfo p => Sys2Proof.Machine.execKeySlotInfo p s
  | .keyPublicRead p => Sys2Proof.Machine.execKeyPublicRead p s
  | .logRead p => Sys2Proof.Machine.execLogRead p s
  | .logClear p => Sys2Proof.Machine.execLogClear p s
  | .logStatus p => Sys2Proof.Machine.execLogStatus p s
  | .timeGet p => Sys2Proof.Machine.execTimeGet p s
  | .timeSetOffset p => Sys2Proof.Machine.execTimeSetOffset p s
  | .timeAttest p => Sys2Proof.Machine.execTimeAttest p s
  | .pctSelect p => Sys2Proof.Machine.execPctSelect p s
  | .pctCollectSet p => Sys2Proof.Machine.execPctCollectSet p s
  | .pctFreeze p => Sys2Proof.Machine.execPctFreeze p s
  | .pctUreadSet p => Sys2Proof.Machine.execPctUreadSet p s
  | .pctSampleSet p => Sys2Proof.Machine.execPctSampleSet p s
  | .diagPing p => Sys2Proof.Machine.execDiagPing p s
  | .diagScrub p => Sys2Proof.Machine.execDiagScrub p s
  | .diagLinkRetrain p => Sys2Proof.Machine.execDiagLinkRetrain p s
  | .diagCoreTest p => Sys2Proof.Machine.execDiagCoreTest p s
  | .capGet p => Sys2Proof.Machine.execCapGet p s
  | .revGet p => Sys2Proof.Machine.execRevGet p s
  | .pairingGet p => Sys2Proof.Machine.execPairingGet p s
  | .commandTimeout src tag => Sys2Proof.Machine.execCommandTimeout src tag s
  | .statusReplyPost h level => Sys2Proof.Machine.execStatusReplyPost h level s
  | .sysCrTailDoorbell h level v => Sys2Proof.Machine.execSysCrTailDoorbell h level v s
  | .sysSrHeadWrite h level v => Sys2Proof.Machine.execSysSrHeadWrite h level v s
  | .ringStop h level => Sys2Proof.Machine.execRingStop h level s
  | .stoppedClear h level => Sys2Proof.Machine.execStoppedClear h level s
  | .i3cPrivateWrite h d => Sys2Proof.Machine.execI3cPrivateWrite h d s
  | .i3cPrivateRead h => Sys2Proof.Machine.execI3cPrivateRead h s
  | .entdaa h a => Sys2Proof.Machine.execEntdaa h a s
  | .setdasa static a => Sys2Proof.Machine.execSetdasa static a s
  | .rstdaa => Sys2Proof.Machine.execRstdaa s
  | .getpid h => Sys2Proof.Machine.execGetpid h s
  | .getbcr h => Sys2Proof.Machine.execGetbcr h s
  | .getdcr h => Sys2Proof.Machine.execGetdcr h s
  | .getstatus h => Sys2Proof.Machine.execGetstatus h s
  | .enec h ev => Sys2Proof.Machine.execEnec h ev s
  | .disec h ev => Sys2Proof.Machine.execDisec h ev s
  | .bundleWrite h d => Sys2Proof.Machine.execBundleWrite h d s
  | .bundleRead h => Sys2Proof.Machine.execBundleRead h s
  | .drainLimitExpiry half => Sys2Proof.Machine.execDrainLimitExpiry half s
  | .drainComplete half => Sys2Proof.Machine.execDrainComplete half s
  | .modeTransitionComplete => Sys2Proof.Machine.execModeTransitionComplete s
  | .resilverComplete => Sys2Proof.Machine.execResilverComplete s
  | .halfBringupComplete h => Sys2Proof.Machine.execHalfBringupComplete h s
  | .halfLoss h cause => Sys2Proof.Machine.execHalfLoss h cause s
  | .breakwaterLoss => Sys2Proof.Machine.execBreakwaterLoss s
  | .aliveLineTimeout h => Sys2Proof.Machine.execAliveLineTimeout h s
  | .harbourmasterWatchdog h => Sys2Proof.Machine.execHarbourmasterWatchdog h s
  | .dieLost d cause => Sys2Proof.Machine.execDieLost d cause s
  | .br o => Sys2Proof.Machine.execBr o s
  | .bcc o => Sys2Proof.Machine.execBcc o s
  | .call o => Sys2Proof.Machine.execCall o s
  | .ret o => Sys2Proof.Machine.execRet o s
  | .svc o => Sys2Proof.Machine.execSvc o s
  | .hvc o => Sys2Proof.Machine.execHvc o s
  | .xret o => Sys2Proof.Machine.execXret o s
  | .nop o => Sys2Proof.Machine.execNop o s
  | .wait o => Sys2Proof.Machine.execWait o s
  | .waitLimitExpiry lcn ctx => Sys2Proof.Machine.execWaitLimitExpiry lcn ctx s
  | .add o => Sys2Proof.Machine.execAdd o s
  | .sub o => Sys2Proof.Machine.execSub o s
  | .mul o => Sys2Proof.Machine.execMul o s
  | .mulu o => Sys2Proof.Machine.execMulu o s
  | .div o => Sys2Proof.Machine.execDiv o s
  | .divu o => Sys2Proof.Machine.execDivu o s
  | .rem o => Sys2Proof.Machine.execRem o s
  | .remu o => Sys2Proof.Machine.execRemu o s
  | .cmp o => Sys2Proof.Machine.execCmp o s
  | .cmpu o => Sys2Proof.Machine.execCmpu o s
  | .neg o => Sys2Proof.Machine.execNeg o s
  | .abs o => Sys2Proof.Machine.execAbs o s
  | .sqrt o => Sys2Proof.Machine.execSqrt o s
  | .min o => Sys2Proof.Machine.execMin o s
  | .max o => Sys2Proof.Machine.execMax o s
  | .mov o => Sys2Proof.Machine.execMov o s
  | .clr o => Sys2Proof.Machine.execClr o s
  | .cvt o => Sys2Proof.Machine.execCvt o s
  | .lea o => Sys2Proof.Machine.execLea o s
  | .and o => Sys2Proof.Machine.execAnd o s
  | .or o => Sys2Proof.Machine.execOr o s
  | .xor o => Sys2Proof.Machine.execXor o s
  | .not o => Sys2Proof.Machine.execNot o s
  | .shl o => Sys2Proof.Machine.execShl o s
  | .shr o => Sys2Proof.Machine.execShr o s
  | .sar o => Sys2Proof.Machine.execSar o s
  | .rot o => Sys2Proof.Machine.execRot o s
  | .test o => Sys2Proof.Machine.execTest o s
  | .movs o => Sys2Proof.Machine.execMovs o s
  | .cmps o => Sys2Proof.Machine.execCmps o s
  | .trs o => Sys2Proof.Machine.execTrs o s
  | .srch o => Sys2Proof.Machine.execSrch o s
  | .cas o => Sys2Proof.Machine.execCas o s
  | .swap o => Sys2Proof.Machine.execSwap o s
  | .fadd o => Sys2Proof.Machine.execFadd o s
  | .mfcr o => Sys2Proof.Machine.execMfcr o s
  | .mtcr o => Sys2Proof.Machine.execMtcr o s
  | .mfpsw o => Sys2Proof.Machine.execMfpsw o s
  | .mtpsw o => Sys2Proof.Machine.execMtpsw o s
  | .wrfb o => Sys2Proof.Machine.execWrfb o s
  | .rdfb o => Sys2Proof.Machine.execRdfb o s
  | .sva5 o => Sys2Proof.Machine.execSva5 o s
  | .lda5 o => Sys2Proof.Machine.execLda5 o s
  | .tlbiva o => Sys2Proof.Machine.execTlbiva o s
  | .tlbiasid o => Sys2Proof.Machine.execTlbiasid o s
  | .tlbiall o => Sys2Proof.Machine.execTlbiall o s
  | .tlbivmid o => Sys2Proof.Machine.execTlbivmid o s
  | .tlbiipa o => Sys2Proof.Machine.execTlbiipa o s
  | .tlbilck o => Sys2Proof.Machine.execTlbilck o s
  | .tlbsync o => Sys2Proof.Machine.execTlbsync o s
  | .tlbivaL o => Sys2Proof.Machine.execTlbivaL o s
  | .tlbiasidL o => Sys2Proof.Machine.execTlbiasidL o s
  | .tlbiallL o => Sys2Proof.Machine.execTlbiallL o s
  | .tlbivmidL o => Sys2Proof.Machine.execTlbivmidL o s
  | .tlbiipaL o => Sys2Proof.Machine.execTlbiipaL o s
  | .tlbilckL o => Sys2Proof.Machine.execTlbilckL o s
  | .tlbInvalidationArrival lcn => Sys2Proof.Machine.execTlbInvalidationArrival lcn s
  | .publish o => Sys2Proof.Machine.execPublish o s
  | .cstart o => Sys2Proof.Machine.execCstart o s
  | .ctest o => Sys2Proof.Machine.execCtest o s
  | .chalt o => Sys2Proof.Machine.execChalt o s
  | .cclear o => Sys2Proof.Machine.execCclear o s
  | .lappend o => Sys2Proof.Machine.execLappend o s
  | .wrpkr o => Sys2Proof.Machine.execWrpkr o s
  | .rdpkr o => Sys2Proof.Machine.execRdpkr o s
  | .tlock o => Sys2Proof.Machine.execTlock o s
  | .tunlock o => Sys2Proof.Machine.execTunlock o s
  | .rdpct o => Sys2Proof.Machine.execRdpct o s
  | .cmd o => Sys2Proof.Machine.execCmd o s
  | .a5Nop o => Sys2Proof.Machine.execA5Nop o s
  | .a5Ld o => Sys2Proof.Machine.execA5Ld o s
  | .a5St o => Sys2Proof.Machine.execA5St o s
  | .a5Lds o => Sys2Proof.Machine.execA5Lds o s
  | .a5Sts o => Sys2Proof.Machine.execA5Sts o s
  | .a5Ldb o => Sys2Proof.Machine.execA5Ldb o s
  | .a5Stb o => Sys2Proof.Machine.execA5Stb o s
  | .a5Lea o => Sys2Proof.Machine.execA5Lea o s
  | .a5Mov o => Sys2Proof.Machine.execA5Mov o s
  | .a5Ldi o => Sys2Proof.Machine.execA5Ldi o s
  | .a5Lui o => Sys2Proof.Machine.execA5Lui o s
  | .a5Add o => Sys2Proof.Machine.execA5Add o s
  | .a5Sub o => Sys2Proof.Machine.execA5Sub o s
  | .a5Addi o => Sys2Proof.Machine.execA5Addi o s
  | .a5Mul o => Sys2Proof.Machine.execA5Mul o s
  | .a5Div o => Sys2Proof.Machine.execA5Div o s
  | .a5Rem o => Sys2Proof.Machine.execA5Rem o s
  | .a5Dadd o => Sys2Proof.Machine.execA5Dadd o s
  | .a5Dsub o => Sys2Proof.Machine.execA5Dsub o s
  | .a5Dmul o => Sys2Proof.Machine.execA5Dmul o s
  | .a5Ddiv o => Sys2Proof.Machine.execA5Ddiv o s
  | .a5And o => Sys2Proof.Machine.execA5And o s
  | .a5Or o => Sys2Proof.Machine.execA5Or o s
  | .a5Xor o => Sys2Proof.Machine.execA5Xor o s
  | .a5Not o => Sys2Proof.Machine.execA5Not o s
  | .a5Shl o => Sys2Proof.Machine.execA5Shl o s
  | .a5Shr o => Sys2Proof.Machine.execA5Shr o s
  | .a5Sar o => Sys2Proof.Machine.execA5Sar o s
  | .a5Rot o => Sys2Proof.Machine.execA5Rot o s
  | .a5Cmp o => Sys2Proof.Machine.execA5Cmp o s
  | .a5Cmpu o => Sys2Proof.Machine.execA5Cmpu o s
  | .a5Cmpi o => Sys2Proof.Machine.execA5Cmpi o s
  | .a5Bc o => Sys2Proof.Machine.execA5Bc o s
  | .a5Call o => Sys2Proof.Machine.execA5Call o s
  | .a5Callr o => Sys2Proof.Machine.execA5Callr o s
  | .a5Ret o => Sys2Proof.Machine.execA5Ret o s
  | .a5Jmp o => Sys2Proof.Machine.execA5Jmp o s
  | .a5Trap o => Sys2Proof.Machine.execA5Trap o s
  | .externalInterrupt l c vector => Sys2Proof.Machine.execExternalInterrupt l c vector s
  | .modeChangeInterrupt l c => Sys2Proof.Machine.execModeChangeInterrupt l c s
  | .clockLossInterrupt l c => Sys2Proof.Machine.execClockLossInterrupt l c s
  | .debugException l c => Sys2Proof.Machine.execDebugException l c s
  | .coreErrorDetected l entry kind => Sys2Proof.Machine.execCoreErrorDetected l entry kind s
  | .retryAttemptEnd l ok => Sys2Proof.Machine.execRetryAttemptEnd l ok s
  | .correctedError u => Sys2Proof.Machine.execCorrectedError u s
  | .bucketLeak u => Sys2Proof.Machine.execBucketLeak u s
  | .coreMove l bad => Sys2Proof.Machine.execCoreMove l bad s
  | .coreMoveComplete l => Sys2Proof.Machine.execCoreMoveComplete l s
  | .contextLost l c n => Sys2Proof.Machine.execContextLost l c n s
  | .rds m err => Sys2Proof.Machine.execRds m err s
  | .rdx m => Sys2Proof.Machine.execRdx m s
  | .upg m => Sys2Proof.Machine.execUpg m s
  | .rdc m => Sys2Proof.Machine.execRdc m s
  | .wrf m => Sys2Proof.Machine.execWrf m s
  | .wrp m err => Sys2Proof.Machine.execWrp m err s
  | .atm m => Sys2Proof.Machine.execAtm m s
  | .mnt m => Sys2Proof.Machine.execMnt m s
  | .wbn m => Sys2Proof.Machine.execWbn m s
  | .snps m => Sys2Proof.Machine.execSnps m s
  | .snpx m => Sys2Proof.Machine.execSnpx m s
  | .snpc m => Sys2Proof.Machine.execSnpc m s
  | .snpk m => Sys2Proof.Machine.execSnpk m s
  | .snpi m => Sys2Proof.Machine.execSnpi m s
  | .purge die slice set way line ue stateErr => Sys2Proof.Machine.execPurge die slice set way line ue stateErr s
  | .rspI m => Sys2Proof.Machine.execRspI m s
  | .rspS m => Sys2Proof.Machine.execRspS m s
  | .rspE m => Sys2Proof.Machine.execRspE m s
  | .rspO m => Sys2Proof.Machine.execRspO m s
  | .rspM m => Sys2Proof.Machine.execRspM m s
  | .rspMiss m => Sys2Proof.Machine.execRspMiss m s
  | .rspEvicting m => Sys2Proof.Machine.execRspEvicting m s
  | .gntS m => Sys2Proof.Machine.execGntS m s
  | .gntE m => Sys2Proof.Machine.execGntE m s
  | .gntM m => Sys2Proof.Machine.execGntM m s
  | .cmpCompletion m => Sys2Proof.Machine.execCmpCompletion m s
  | .cack m => Sys2Proof.Machine.execCack m s
  | .wback m => Sys2Proof.Machine.execWback m s
  | .retry op m => Sys2Proof.Machine.execRetry op m s
  | .retryResend agent sector => Sys2Proof.Machine.execRetryResend agent sector s
  | .homeParkRelease h => Sys2Proof.Machine.execHomeParkRelease h s
  | .homeTimeout h tx => Sys2Proof.Machine.execHomeTimeout h tx s
  | .lateResponse op m => Sys2Proof.Machine.execLateResponse op m s
  | .rrd m => Sys2Proof.Machine.execRrd m s
  | .rwr m => Sys2Proof.Machine.execRwr m s
  | .ops q x => Sys2Proof.Machine.execOps q x s
  | .oneShotRelease lcn ctx rid => Sys2Proof.Machine.execOneShotRelease lcn ctx rid s
  | .int lcn vector => Sys2Proof.Machine.execInt lcn vector s
  | .domainAsleep op m unit => Sys2Proof.Machine.execDomainAsleep op m unit s
  | .domainOff op m unit => Sys2Proof.Machine.execDomainOff op m unit s
  | .aerr m => Sys2Proof.Machine.execAerr m s
  | .mirw m => Sys2Proof.Machine.execMirw m s
  | .mirack m => Sys2Proof.Machine.execMirack m s
  | .mirh h => Sys2Proof.Machine.execMirh h s
  | .tideRaise j => Sys2Proof.Machine.execTideRaise j s
  | .routeEpochChange scope => Sys2Proof.Machine.execRouteEpochChange scope s
  | .flitCheckFail k n => Sys2Proof.Machine.execFlitCheckFail k n s
  | .nak k ok => Sys2Proof.Machine.execNak k ok s
  | .rytumRetrain k => Sys2Proof.Machine.execRytumRetrain k s
  | .rytumTrainingEnd k failed spare => Sys2Proof.Machine.execRytumTrainingEnd k failed spare s
  | .heartbeatSend k => Sys2Proof.Machine.execHeartbeatSend k s
  | .heartbeat k => Sys2Proof.Machine.execHeartbeat k s
  | .forwardedClockLoss d => Sys2Proof.Machine.execForwardedClockLoss d s
  | .moduleReset k => Sys2Proof.Machine.execModuleReset k s
  | .caParityAlert h c outcome lost => Sys2Proof.Machine.execCaParityAlert h c outcome lost s
  | .mergeDrain h c j err => Sys2Proof.Machine.execMergeDrain h c j err s
  | .patrolScrub h c err => Sys2Proof.Machine.execPatrolScrub h c err s
  | .rfmIssue h c bank => Sys2Proof.Machine.execRfmIssue h c bank s
  | .aggressorDetected h c src port => Sys2Proof.Machine.execAggressorDetected h c src port s
  | .refreshWindowEnd h c => Sys2Proof.Machine.execRefreshWindowEnd h c s
  | .periodicRetrain h c outcome => Sys2Proof.Machine.execPeriodicRetrain h c outcome s
  | .sparingCopyLine h errs => Sys2Proof.Machine.execSparingCopyLine h errs s
  | .sparingCopyComplete h => Sys2Proof.Machine.execSparingCopyComplete h s
  | .channelZeroingComplete h c => Sys2Proof.Machine.execChannelZeroingComplete h c s
  | .memUeClear h c => Sys2Proof.Machine.execMemUeClear h c s
  | .cssCqHeadWrite h q v => Sys2Proof.Machine.execCssCqHeadWrite h q v s
  | .cqPost h j => Sys2Proof.Machine.execCqPost h j s
  | .attachStartEntry q => Sys2Proof.Machine.execAttachStartEntry q s
  | .operationDispatch h n => Sys2Proof.Machine.execOperationDispatch h n s
  | .operationTimeout h j => Sys2Proof.Machine.execOperationTimeout h j s
  | .pathdown h j => Sys2Proof.Machine.execPathdown h j s
  | .recoveryQueryEnd h j outcome => Sys2Proof.Machine.execRecoveryQueryEnd h j outcome s
  | .haltConfirmTimeout h j => Sys2Proof.Machine.execHaltConfirmTimeout h j s
  | .freezeTimeout h j => Sys2Proof.Machine.execFreezeTimeout h j s
  | .deviceEvent h j => Sys2Proof.Machine.execDeviceEvent h j s
  | .eventPageWrite h cpe slot => Sys2Proof.Machine.execEventPageWrite h cpe slot s
  | .pathPortFailed pp cause => Sys2Proof.Machine.execPathPortFailed pp cause s
  | .pathRecoveryCycle pp gen width switch => Sys2Proof.Machine.execPathRecoveryCycle pp gen width switch s
  | .pathTrainingTimeout pp => Sys2Proof.Machine.execPathTrainingTimeout pp s
  | .pathupEnd pp image outcome => Sys2Proof.Machine.execPathupEnd pp image outcome s
  | .pathOfflineLimit pp => Sys2Proof.Machine.execPathOfflineLimit pp s
  | .pathInboundRequest pp pa n wr => Sys2Proof.Machine.execPathInboundRequest pp pa n wr s
  | .cpeWait o => Sys2Proof.Machine.execCpeWait o s
  | .cpeAdd o => Sys2Proof.Machine.execCpeAdd o s
  | .cpeSub o => Sys2Proof.Machine.execCpeSub o s
  | .cpeAnd o => Sys2Proof.Machine.execCpeAnd o s
  | .cpeOr o => Sys2Proof.Machine.execCpeOr o s
  | .cpeXor o => Sys2Proof.Machine.execCpeXor o s
  | .cpeSll o => Sys2Proof.Machine.execCpeSll o s
  | .cpeSrl o => Sys2Proof.Machine.execCpeSrl o s
  | .cpeSra o => Sys2Proof.Machine.execCpeSra o s
  | .cpeSltu o => Sys2Proof.Machine.execCpeSltu o s
  | .cpeAddi o => Sys2Proof.Machine.execCpeAddi o s
  | .cpeAndi o => Sys2Proof.Machine.execCpeAndi o s
  | .cpeOri o => Sys2Proof.Machine.execCpeOri o s
  | .cpeLui o => Sys2Proof.Machine.execCpeLui o s
  | .cpeLw o => Sys2Proof.Machine.execCpeLw o s
  | .cpeLhu o => Sys2Proof.Machine.execCpeLhu o s
  | .cpeLbu o => Sys2Proof.Machine.execCpeLbu o s
  | .cpeSw o => Sys2Proof.Machine.execCpeSw o s
  | .cpeSh o => Sys2Proof.Machine.execCpeSh o s
  | .cpeSb o => Sys2Proof.Machine.execCpeSb o s
  | .cpeBeq o => Sys2Proof.Machine.execCpeBeq o s
  | .cpeBne o => Sys2Proof.Machine.execCpeBne o s
  | .cpeBltu o => Sys2Proof.Machine.execCpeBltu o s
  | .cpeBgeu o => Sys2Proof.Machine.execCpeBgeu o s
  | .cpeJal o => Sys2Proof.Machine.execCpeJal o s
  | .cpeJr o => Sys2Proof.Machine.execCpeJr o s
  | .nxcmd o => Sys2Proof.Machine.execNxcmd o s
  | .wset o => Sys2Proof.Machine.execWset o s
  | .cpePost o => Sys2Proof.Machine.execCpePost o s
  | .ckpt o => Sys2Proof.Machine.execCkpt o s
  | .cpeEnd o => Sys2Proof.Machine.execCpeEnd o s
  | .evaddr o => Sys2Proof.Machine.execEvaddr o s
  | .interruptedReport h q => Sys2Proof.Machine.execInterruptedReport h q s
  | .sealRingTailDoorbell h r v => Sys2Proof.Machine.execSealRingTailDoorbell h r v s
  | .sealRingEnable h r => Sys2Proof.Machine.execSealRingEnable h r s
  | .sealJobStart h e => Sys2Proof.Machine.execSealJobStart h e s
  | .sealJobComplete h e arrayErr => Sys2Proof.Machine.execSealJobComplete h e arrayErr s
  | .sealRingCheadWrite h r v => Sys2Proof.Machine.execSealRingCheadWrite h r v s
  | .sealRingStop h r => Sys2Proof.Machine.execSealRingStop h r s
  | .sealPowerPreempt h e => Sys2Proof.Machine.execSealPowerPreempt h e s
  | .sealEngErrClear h e => Sys2Proof.Machine.execSealEngErrClear h e s
  | .movChTailDoorbell h m ch v => Sys2Proof.Machine.execMovChTailDoorbell h m ch v s
  | .moverDescriptorStart h m => Sys2Proof.Machine.execMoverDescriptorStart h m s
  | .moverBurst h m => Sys2Proof.Machine.execMoverBurst h m s
  | .moverDescriptorComplete h m => Sys2Proof.Machine.execMoverDescriptorComplete h m s
  | .moverHalt h m pa wr poison => Sys2Proof.Machine.execMoverHalt h m pa wr poison s
  | .resume h m ch => Sys2Proof.Machine.execResume h m ch s
  | .skip h m ch => Sys2Proof.Machine.execSkip h m ch s
  | .abort h m ch => Sys2Proof.Machine.execAbort h m ch s
  | .moverPowerStop h m => Sys2Proof.Machine.execMoverPowerStop h m s
  | .appendEntry q => Sys2Proof.Machine.execAppendEntry q s
  | .appendFormat id sealFail => Sys2Proof.Machine.execAppendFormat id sealFail s
  | .appendChain id => Sys2Proof.Machine.execAppendChain id s
  | .ledgerCompletionPost id => Sys2Proof.Machine.execLedgerCompletionPost id s
  | .ringSpaceWait id => Sys2Proof.Machine.execRingSpaceWait id s
  | .checkpointTimer id => Sys2Proof.Machine.execCheckpointTimer id s
  | .checkpointSign h => Sys2Proof.Machine.execCheckpointSign h s
  | .closeTimeout id => Sys2Proof.Machine.execCloseTimeout id s
  | .spoolStart id => Sys2Proof.Machine.execSpoolStart id s
  | .spoolFinalStatus h j => Sys2Proof.Machine.execSpoolFinalStatus h j s
  | .ldgErrClear h => Sys2Proof.Machine.execLdgErrClear h s
  | .pcieConfigRequest port fn off tag wr => Sys2Proof.Machine.execPcieConfigRequest port fn off tag wr s
  | .inboundMemoryRequest r => Sys2Proof.Machine.execInboundMemoryRequest r s
  | .peerForward r => Sys2Proof.Machine.execPeerForward r s
  | .attQpSqtailDoorbell q v => Sys2Proof.Machine.execAttQpSqtailDoorbell q v s
  | .attQpCqheadWrite q v => Sys2Proof.Machine.execAttQpCqheadWrite q v s
  | .queuePairStop q cause => Sys2Proof.Machine.execQueuePairStop q cause s
  | .attMsgTxtailDoorbell q v => Sys2Proof.Machine.execAttMsgTxtailDoorbell q v s
  | .attMsgRxheadWrite q v => Sys2Proof.Machine.execAttMsgRxheadWrite q v s
  | .attWinCommit port v => Sys2Proof.Machine.execAttWinCommit port v s
  | .functionLevelReset k => Sys2Proof.Machine.execFunctionLevelReset k s
  | .hotReset port down => Sys2Proof.Machine.execHotReset port down s
  | .busMasterDisable k => Sys2Proof.Machine.execBusMasterDisable k s
  | .bmeLostClear k => Sys2Proof.Machine.execBmeLostClear k s
  | .attachWindowAccess lcn ctx port off n wr => Sys2Proof.Machine.execAttachWindowAccess lcn ctx port off n wr s
  | .attachCompletionTimeout port tag => Sys2Proof.Machine.execAttachCompletionTimeout port tag s
  | .ltrUpdate port => Sys2Proof.Machine.execLtrUpdate port s
  | .attFnIsrClear k v => Sys2Proof.Machine.execAttFnIsrClear k v s
  | .lhMbDb h mask => Sys2Proof.Machine.execLhMbDb h mask s
  | .mailboxTake h => Sys2Proof.Machine.execMailboxTake h s
  | .lhMbOutpendClear h mask => Sys2Proof.Machine.execLhMbOutpendClear h mask s
  | .dbgChallenge h => Sys2Proof.Machine.execDbgChallenge h s
  | .dbgUnlock h => Sys2Proof.Machine.execDbgUnlock h s
  | .dbgRelock h => Sys2Proof.Machine.execDbgRelock h s
  | .lcAdvance h => Sys2Proof.Machine.execLcAdvance h s
  | .fwStage h => Sys2Proof.Machine.execFwStage h s
  | .grantExpiry => Sys2Proof.Machine.execGrantExpiry s
  | .deferredPowerLimit u => Sys2Proof.Machine.execDeferredPowerLimit u s
  | .st64Steer d => Sys2Proof.Machine.execSt64Steer d s
  | .feedLoss k => Sys2Proof.Machine.execFeedLoss k s
  | .feedReturn k => Sys2Proof.Machine.execFeedReturn k s
  | .bothFeedsLost => Sys2Proof.Machine.execBothFeedsLost s
  | .vholdLoss => Sys2Proof.Machine.execVholdLoss s
  | .holdPowerUp k => Sys2Proof.Machine.execHoldPowerUp k s
  | .pwrfailWarn => Sys2Proof.Machine.execPwrfailWarn s
  | .resetNAssert => Sys2Proof.Machine.execResetNAssert s
  | .resetNRelease => Sys2Proof.Machine.execResetNRelease s
  | .throttleN on => Sys2Proof.Machine.execThrottleN on s
  | .serviceN on => Sys2Proof.Machine.execServiceN on s
  | .sidebandStuck j => Sys2Proof.Machine.execSidebandStuck j s
  | .sidebandChatter j => Sys2Proof.Machine.execSidebandChatter j s
  | .sidebandMaskEnd j => Sys2Proof.Machine.execSidebandMaskEnd j s
  | .pmuSidebandSvcClear => Sys2Proof.Machine.execPmuSidebandSvcClear s
  | .pmuSupplyLostClear v => Sys2Proof.Machine.execPmuSupplyLostClear v s
  | .clockMonitorWindow x j => Sys2Proof.Machine.execClockMonitorWindow x j s
  | .iroFailure => Sys2Proof.Machine.execIroFailure s
  | .allClocksLost => Sys2Proof.Machine.execAllClocksLost s
  | .dieTemperatureThreshold d t => Sys2Proof.Machine.execDieTemperatureThreshold d t s
  | .dieOvertemperature d => Sys2Proof.Machine.execDieOvertemperature d s
  | .packageReset => Sys2Proof.Machine.execPackageReset s
  | .lighthouseBoot h step => Sys2Proof.Machine.execLighthouseBoot h step s
  | .unitReady h k pass => Sys2Proof.Machine.execUnitReady h k pass s
  | .coreSelfTest d bad => Sys2Proof.Machine.execCoreSelfTest d bad s
  | .pairing => Sys2Proof.Machine.execPairing s
  | .sysAutoModeSet waited => Sys2Proof.Machine.execSysAutoModeSet waited s
  | .logReport h r => Sys2Proof.Machine.execLogReport h r s
  | .freezePulse h busy => Sys2Proof.Machine.execFreezePulse h busy s
  | .sampleRecord l r => Sys2Proof.Machine.execSampleRecord l r s
  | .traceRecord l ctx r => Sys2Proof.Machine.execTraceRecord l ctx r s
  | .trstN => Sys2Proof.Machine.execTrstN s
  | .idcode n => Sys2Proof.Machine.execIdcode n s
  | .samplePreload h v => Sys2Proof.Machine.execSamplePreload h v s
  | .extest h v => Sys2Proof.Machine.execExtest h v s
  | .clamp h => Sys2Proof.Machine.execClamp h s
  | .highz h => Sys2Proof.Machine.execHighz h s
  | .ijtag n => Sys2Proof.Machine.execIjtag n s
  | .bypass n => Sys2Proof.Machine.execBypass n s
  | .dbgap h op size addr data => Sys2Proof.Machine.execDbgap h op size addr data s
  | .dbgHalt h l mask => Sys2Proof.Machine.execDbgHalt h l mask s
  | .dbgResume h l mask => Sys2Proof.Machine.execDbgResume h l mask s
  | .dbgStep h l mask => Sys2Proof.Machine.execDbgStep h l mask s
  | .breakpointMatch l ctx b acc => Sys2Proof.Machine.execBreakpointMatch l ctx b acc s
  | .registerWrite h off n v => Sys2Proof.Machine.execRegisterWrite h off n v s
  | .pwrfailWarnRelease => Sys2Proof.Machine.execPwrfailWarnRelease s
  | .supplyRangeChange k ok => Sys2Proof.Machine.execSupplyRangeChange k ok s
  | .pathPerstRelease pp => Sys2Proof.Machine.execPathPerstRelease pp s
  | .attachPerstN port low => Sys2Proof.Machine.execAttachPerstN port low s
  | .attachLinkTrained port gen width => Sys2Proof.Machine.execAttachLinkTrained port gen width s
  | .memTrainingEnd h c ok => Sys2Proof.Machine.execMemTrainingEnd h c ok s
  | .asyncCommandComplete src tag pass errs => Sys2Proof.Machine.execAsyncCommandComplete src tag pass errs s
  | .powerStateReached u => Sys2Proof.Machine.execPowerStateReached u s
  | .debugWakeExpiry u => Sys2Proof.Machine.execDebugWakeExpiry u s
  | .attachReadCompletion port tag status d ep => Sys2Proof.Machine.execAttachReadCompletion port tag status d ep s
  | .maintenanceSlotStart h k v => Sys2Proof.Machine.execMaintenanceSlotStart h k v s
  | .vfQuiesceLimit k => Sys2Proof.Machine.execVfQuiesceLimit k s

end Sys2Proof.Machine
end

