-- ==== Sys2Proof/Machine/Tick.lean ====
section
/-! DEFINITION. What the package does by itself when no command waits: one nanosecond passes (log 16). -/
namespace Sys2Proof.Machine

/-- Hub B's ST64 runs at most 0.1 % slow: it leaves out one nanosecond in a thousand while it has any to leave out (R506). -/
def slewWaits (h : Half) (s : State) : Bool := h == .b && s.pkg.slow != 0

/-- ST64 of a hub counts (R505). -/
def countSt64 (h : Half) (s : State) : State :=
  if ¬ slewWaits h s then { s with st64 := s.st64.set h (s.st64.get h + 1) }
  else if 999 ≤ s.pkg.slowAt then updPkg (fun p => { p with slow := p.slow - 1, slowAt := 0 }) s
  else updPkg (fun p => { p with slowAt := p.slowAt + 1 }) { s with st64 := s.st64.set h (s.st64.get h + 1) }

/-- Every hub's ST64 counts and its log serves one latch (R505, R569). -/
def hubTick (s : State) : State := (halvesOf s).foldl (fun t h => logServe h (countSt64 h t)) s

/-- The pipeline of a running context goes on: the pieces of its BS instruction perform, its group retires (R136, R139), and
stores leave its store buffer (R107, R138); when they do is open, and each tick empties it but for the stores an armed
detector holds back (R201, log 7). -/
def storeTick (s : State) : State :=
  s.ctxs.foldl (fun t e =>
    let l := e.1 / 2
    let c := e.1 % 2
    if ¬ lcnRuns t l ∨ inRetry t l c then t
    else
      let t1 := betweenInsns l c t
      drainFree l c (ctxOf t1 l c).sb.length t1) s

/-- Replies the Harbourmaster holds go out as room appears, and it serves what waits (R67). -/
def ringTick (s : State) : State :=
  harbourRun ([Half.a, Half.b].foldl (fun t h =>
    (upTo 3).foldl (fun u l => postHeldN h l (ringOf u h l).held.length u) t) s)

/-- One tick. -/
def tick (s : State) : State :=
  if ¬ live s then s
  else apTick .b (apTick .a (vfTick (attTick (resilverTick (ringTick (storeTick (hubTick s)))))))

end Sys2Proof.Machine
end

