-- ==== Sys2Proof/Machine/Fetch.lean ====
section
/-! DEFINITION. An encoded instruction that a context meets: the command its opcode picks, or ILLEGAL when no instruction has the opcode
(R101, R131, R133, R191). -/
namespace Sys2Proof.Machine

/-- The parcels of an AN instruction at a context. -/
def runParcels (lcn ctx : Nat) (ps : List W16) (s : State) : Out :=
  match decodeParcels lcn ctx ps with
  | some i => exec i s
  | none => act (anIllegal ⟨lcn, ctx, 0, 0, ps⟩) s

/-- An A5 word at a context in A5 mode. -/
def runA5Word (lcn ctx w : Nat) (s : State) : Out :=
  match decodeA5 lcn ctx w with
  | some i => exec i s
  | none => act (runA5 ⟨lcn, ctx, 0, 0, 0⟩ false (fun t _ => (t, .error illegal))) s

end Sys2Proof.Machine
end

