-- ==== Sys2Proof/WellFormed.lean ====
section
/-! DEFINITION. Which commands are well formed: every operand fits the field the spec gives it. -/
namespace Sys2Proof
open Machine

/-- An operand with the check it must pass. -/
inductive Operand where
  | num (v bound : Nat)
  | each (l : List Nat) (bound : Nat)
  | bytes (d : List Byte) (most : Nat)
  | lcn (l : Nat)
  | ctx (c : Nat)
  | src (x : Src)
  | pkt (p : Pkt)
  | msg (m : Msg)
  | an (o : AnOp)
  | a5 (o : A5Op)
  | cpe (o : CpeOp)
  | inreq (r : InReq)
  | cfg (w : Option (Nat × Nat))
  | dev (q : DevReq)
  | sample (r : Option SampleOp)
  | trace (r : TraceOp)
  | report (r : Report)
deriving DecidableEq, Repr

/-- LCNs 0–1023 (R22). -/
def lcnOk (l : Nat) : Bool := decide (l < 1024)

/-- Contexts 0 and 1 of a core (R20). -/
def ctxOk (c : Nat) : Bool := decide (c < 2)

/-- Levels 0–2, attach ports 0–3, functions 0–63 (R52, R436). -/
def srcOk : Src → Bool
  | .ring _ l => decide (l < 3)
  | .admin p => decide (p < 4)
  | .func p fn q => decide (p < 4 ∧ fn < 64 ∧ q < 4096)
  | .mgmt _ => true

/-- The fields of a packet (R62). -/
def pktOk (p : Pkt) : Bool :=
  srcOk p.src && decide (p.tag < 2 ^ 16 ∧ p.flags < 2 ^ 8 ∧ p.plen < 2 ^ 8 ∧ p.iptr < 2 ^ 64 ∧ p.prm < 2 ^ 384)

/-- The fields of a message (R236, R239): a sector of 64 bytes or none. -/
def msgOk (m : Msg) : Bool :=
  lcnOk m.lcn && ctxOk m.ctx && (m.data.length == 64 || m.data == []) &&
  decide (m.sector < 2 ^ 46 ∧ m.tide < 8 ∧ m.mask < 2 ^ 64 ∧ m.rid < 256 ∧ m.opd1 < 2 ^ 64 ∧ m.opd2 < 2 ^ 64)

/-- FMT, TYPE and at most 15 further parcels (R81). -/
def anOk (o : AnOp) : Bool := lcnOk o.lcn && ctxOk o.ctx && decide (o.fmt < 4 ∧ o.ty < 16 ∧ o.rest.length < 16)

/-- RA, RB and F (R131). -/
def a5Ok (o : A5Op) : Bool := lcnOk o.lcn && ctxOk o.ctx && decide (o.ra < 16 ∧ o.rb < 16 ∧ o.f < 2 ^ 16)

/-- The fields of a CPE instruction and a 32-bit answer (R341). -/
def cpeOk (o : CpeOp) : Bool := decide (o.cpe < 32 ∧ o.x < 32 ∧ o.y < 32 ∧ o.imm < 2 ^ 16 ∧ o.dev < 2 ^ 32)

/-- A host request names a port, a function and one of its two BARs (R440). -/
def inreqOk (r : InReq) : Bool :=
  decide (r.port < 4 ∧ r.fn < 64 ∧ (r.bar = 0 ∨ r.bar = 2) ∧ r.tag < 1024) &&
  (match r.kind with
    | .wr d _ => decide (d.length ≤ 4096)
    | .rd n => decide (n ≤ 4096)
    | .atom op size a b => decide (op < 3 ∧ (size = 4 ∨ size = 8) ∧ a < 2 ^ 64 ∧ b < 2 ^ 64))

/-- Byte enables and data of a configuration write (R436). -/
def cfgOk : Option (Nat × Nat) → Bool
  | none => true
  | some (e, v) => decide (e < 16 ∧ v < 2 ^ 32)

/-- Who sends a one-shot operation (R140). -/
def devOk (q : DevReq) : Bool := lcnOk q.lcn && ctxOk q.ctx && decide (q.level < 3 ∧ q.vmid < 2 ^ 16 ∧ q.rid < 256)

/-- The 64-bit fields of a sample record (R592). -/
def sampleOk : Option SampleOp → Bool
  | none => true
  | some r => decide (r.pc < 2 ^ 64 ∧ r.dva < 2 ^ 64 ∧ r.dpa < 2 ^ 52 ∧ r.parcel < 2 ^ 16 ∧ r.ctx < 2 ∧ r.pl < 4)

/-- TYPE 1–5 of a trace record (R608). -/
def traceOk (r : TraceOp) : Bool := decide (0 < r.typ ∧ r.typ < 6 ∧ r.target < 2 ^ 64)

/-- A report: class and code of a log entry, 24 bytes of data (R565, R569). -/
def reportOk (r : Report) : Bool := decide (r.source < 2 ^ 32 ∧ r.cls < 8 ∧ r.code < 2 ^ 16 ∧ r.data < 2 ^ 192)

def Operand.ok : Operand → Bool
  | .num v bound => decide (v < bound)
  | .each l bound => l.all (fun v => decide (v < bound))
  | .bytes d most => decide (d.length ≤ most)
  | .lcn l => lcnOk l
  | .ctx c => ctxOk c
  | .src x => srcOk x
  | .pkt p => pktOk p
  | .msg m => msgOk m
  | .an o => anOk o
  | .a5 o => a5Ok o
  | .cpe o => cpeOk o
  | .inreq r => inreqOk r
  | .cfg w => cfgOk w
  | .dev q => devOk q
  | .sample r => sampleOk r
  | .trace r => traceOk r
  | .report r => reportOk r

/-- The operands of a command that its row bounds. -/
def operands : Instr → List Operand
  | .modeGet p => [.pkt p]
  | .modeSet p => [.pkt p]
  | .drainCtlSet p => [.pkt p]
  | .clkStepSet p => [.pkt p]
  | .pwrStateSet p => [.pkt p]
  | .pwrStateGet p => [.pkt p]
  | .clkStatusGet p => [.pkt p]
  | .tempRead p => [.pkt p]
  | .spareCore p => [.pkt p]
  | .spareStateGet p => [.pkt p]
  | .coreOffline p => [.pkt p]
  | .coreOnline p => [.pkt p]
  | .l3LineDelete p => [.pkt p]
  | .memSpare p => [.pkt p]
  | .pathSet p => [.pkt p]
  | .bucketSet p => [.pkt p]
  | .homeTimerSet p => [.pkt p]
  | .poolGet p => [.pkt p]
  | .vfCreate p => [.pkt p]
  | .vfDestroy p => [.pkt p]
  | .vfQuiesce p => [.pkt p]
  | .vfFreeze p => [.pkt p]
  | .vfRestore p => [.pkt p]
  | .vfResume p => [.pkt p]
  | .vfReset p => [.pkt p]
  | .ldgStreamOpen p => [.pkt p]
  | .ldgStreamClose p => [.pkt p]
  | .ldgHeadRead p => [.pkt p]
  | .ldgCheckpoint p => [.pkt p]
  | .ldgSpoolSet p => [.pkt p]
  | .keyLoadSlot p => [.pkt p]
  | .keyGenerate p => [.pkt p]
  | .keyErase p => [.pkt p]
  | .keySlotInfo p => [.pkt p]
  | .keyPublicRead p => [.pkt p]
  | .logRead p => [.pkt p]
  | .logClear p => [.pkt p]
  | .logStatus p => [.pkt p]
  | .timeGet p => [.pkt p]
  | .timeSetOffset p => [.pkt p]
  | .timeAttest p => [.pkt p]
  | .pctSelect p => [.pkt p]
  | .pctCollectSet p => [.pkt p]
  | .pctFreeze p => [.pkt p]
  | .pctUreadSet p => [.pkt p]
  | .pctSampleSet p => [.pkt p]
  | .diagPing p => [.pkt p]
  | .diagScrub p => [.pkt p]
  | .diagLinkRetrain p => [.pkt p]
  | .diagCoreTest p => [.pkt p]
  | .capGet p => [.pkt p]
  | .revGet p => [.pkt p]
  | .pairingGet p => [.pkt p]
  | .commandTimeout src tag => [.src src, .num tag 65536]
  | .statusReplyPost _ level => [.num level 3]
  | .sysCrTailDoorbell _ level v => [.num level 3, .num v (2 ^ 64)]
  | .sysSrHeadWrite _ level v => [.num level 3, .num v (2 ^ 64)]
  | .ringStop _ level => [.num level 3]
  | .stoppedClear _ level => [.num level 3]
  | .i3cPrivateWrite _ d => [.bytes d 65536]
  | .i3cPrivateRead _ => []
  | .entdaa _ a => [.num a 128]
  | .setdasa static a => [.num static 128, .num a 128]
  | .rstdaa => []
  | .getpid _ => []
  | .getbcr _ => []
  | .getdcr _ => []
  | .getstatus _ => []
  | .enec _ ev => [.num ev 256]
  | .disec _ ev => [.num ev 256]
  | .bundleWrite _ d => [.bytes d 65536]
  | .bundleRead _ => []
  | .drainLimitExpiry _ => []
  | .drainComplete _ => []
  | .modeTransitionComplete => []
  | .resilverComplete => []
  | .halfBringupComplete _ => []
  | .halfLoss _ cause => [.num cause 256]
  | .breakwaterLoss => []
  | .aliveLineTimeout _ => []
  | .harbourmasterWatchdog _ => []
  | .dieLost d cause => [.num d 16, .num cause 256]
  | .br o => [.an o]
  | .bcc o => [.an o]
  | .call o => [.an o]
  | .ret o => [.an o]
  | .svc o => [.an o]
  | .hvc o => [.an o]
  | .xret o => [.an o]
  | .nop o => [.an o]
  | .wait o => [.an o]
  | .waitLimitExpiry lcn ctx => [.lcn lcn, .ctx ctx]
  | .add o => [.an o]
  | .sub o => [.an o]
  | .mul o => [.an o]
  | .mulu o => [.an o]
  | .div o => [.an o]
  | .divu o => [.an o]
  | .rem o => [.an o]
  | .remu o => [.an o]
  | .cmp o => [.an o]
  | .cmpu o => [.an o]
  | .neg o => [.an o]
  | .abs o => [.an o]
  | .sqrt o => [.an o]
  | .min o => [.an o]
  | .max o => [.an o]
  | .mov o => [.an o]
  | .clr o => [.an o]
  | .cvt o => [.an o]
  | .lea o => [.an o]
  | .and o => [.an o]
  | .or o => [.an o]
  | .xor o => [.an o]
  | .not o => [.an o]
  | .shl o => [.an o]
  | .shr o => [.an o]
  | .sar o => [.an o]
  | .rot o => [.an o]
  | .test o => [.an o]
  | .movs o => [.an o]
  | .cmps o => [.an o]
  | .trs o => [.an o]
  | .srch o => [.an o]
  | .cas o => [.an o]
  | .swap o => [.an o]
  | .fadd o => [.an o]
  | .mfcr o => [.an o]
  | .mtcr o => [.an o]
  | .mfpsw o => [.an o]
  | .mtpsw o => [.an o]
  | .wrfb o => [.an o]
  | .rdfb o => [.an o]
  | .sva5 o => [.an o]
  | .lda5 o => [.an o]
  | .tlbiva o => [.an o]
  | .tlbiasid o => [.an o]
  | .tlbiall o => [.an o]
  | .tlbivmid o => [.an o]
  | .tlbiipa o => [.an o]
  | .tlbilck o => [.an o]
  | .tlbsync o => [.an o]
  | .tlbivaL o => [.an o]
  | .tlbiasidL o => [.an o]
  | .tlbiallL o => [.an o]
  | .tlbivmidL o => [.an o]
  | .tlbiipaL o => [.an o]
  | .tlbilckL o => [.an o]
  | .tlbInvalidationArrival lcn => [.lcn lcn]
  | .publish o => [.an o]
  | .cstart o => [.an o]
  | .ctest o => [.an o]
  | .chalt o => [.an o]
  | .cclear o => [.an o]
  | .lappend o => [.an o]
  | .wrpkr o => [.an o]
  | .rdpkr o => [.an o]
  | .tlock o => [.an o]
  | .tunlock o => [.an o]
  | .rdpct o => [.an o]
  | .cmd o => [.an o]
  | .a5Nop o => [.a5 o]
  | .a5Ld o => [.a5 o]
  | .a5St o => [.a5 o]
  | .a5Lds o => [.a5 o]
  | .a5Sts o => [.a5 o]
  | .a5Ldb o => [.a5 o]
  | .a5Stb o => [.a5 o]
  | .a5Lea o => [.a5 o]
  | .a5Mov o => [.a5 o]
  | .a5Ldi o => [.a5 o]
  | .a5Lui o => [.a5 o]
  | .a5Add o => [.a5 o]
  | .a5Sub o => [.a5 o]
  | .a5Addi o => [.a5 o]
  | .a5Mul o => [.a5 o]
  | .a5Div o => [.a5 o]
  | .a5Rem o => [.a5 o]
  | .a5Dadd o => [.a5 o]
  | .a5Dsub o => [.a5 o]
  | .a5Dmul o => [.a5 o]
  | .a5Ddiv o => [.a5 o]
  | .a5And o => [.a5 o]
  | .a5Or o => [.a5 o]
  | .a5Xor o => [.a5 o]
  | .a5Not o => [.a5 o]
  | .a5Shl o => [.a5 o]
  | .a5Shr o => [.a5 o]
  | .a5Sar o => [.a5 o]
  | .a5Rot o => [.a5 o]
  | .a5Cmp o => [.a5 o]
  | .a5Cmpu o => [.a5 o]
  | .a5Cmpi o => [.a5 o]
  | .a5Bc o => [.a5 o]
  | .a5Call o => [.a5 o]
  | .a5Callr o => [.a5 o]
  | .a5Ret o => [.a5 o]
  | .a5Jmp o => [.a5 o]
  | .a5Trap o => [.a5 o]
  | .externalInterrupt l c vector => [.lcn l, .ctx c, .num vector 256]
  | .modeChangeInterrupt l c => [.lcn l, .ctx c]
  | .clockLossInterrupt l c => [.lcn l, .ctx c]
  | .debugException l c => [.lcn l, .ctx c]
  | .coreErrorDetected l entry kind => [.lcn l, .num entry (2 ^ 32), .ctx kind.ctx, .num kind.sector (2 ^ 46)]
  | .retryAttemptEnd l _ => [.lcn l]
  | .correctedError u => [.num u (2 ^ 32)]
  | .bucketLeak u => [.num u (2 ^ 32)]
  | .coreMove l bad => [.lcn l, .each bad.spares 2048, .each bad.sectors (2 ^ 46)]
  | .coreMoveComplete l => [.lcn l]
  | .contextLost l c n => [.lcn l, .ctx c, .num n (2 ^ 32)]
  | .rds m err => [.msg m, .num err 8]
  | .rdx m => [.msg m]
  | .upg m => [.msg m]
  | .rdc m => [.msg m]
  | .wrf m => [.msg m]
  | .wrp m err => [.msg m, .num err 4]
  | .atm m => [.msg m]
  | .mnt m => [.msg m]
  | .wbn m => [.msg m]
  | .snps m => [.msg m]
  | .snpx m => [.msg m]
  | .snpc m => [.msg m]
  | .snpk m => [.msg m]
  | .snpi m => [.msg m]
  | .purge die slice set way line ue _ => [.num die 16, .num slice 17, .num set 1024, .num way 16, .num line (2 ^ 44), .each ue (2 ^ 46)]
  | .rspI m => [.msg m]
  | .rspS m => [.msg m]
  | .rspE m => [.msg m]
  | .rspO m => [.msg m]
  | .rspM m => [.msg m]
  | .rspMiss m => [.msg m]
  | .rspEvicting m => [.msg m]
  | .gntS m => [.msg m]
  | .gntE m => [.msg m]
  | .gntM m => [.msg m]
  | .cmpCompletion m => [.msg m]
  | .cack m => [.msg m]
  | .wback m => [.msg m]
  | .retry _ m => [.msg m]
  | .retryResend agent sector => [.num agent (2 ^ 16), .num sector (2 ^ 46)]
  | .homeParkRelease _ => []
  | .homeTimeout _ tx => [.num tx (2 ^ 32)]
  | .lateResponse _ m => [.msg m]
  | .rrd m => [.msg m]
  | .rwr m => [.msg m]
  | .ops q _ => [.dev q]
  | .oneShotRelease lcn ctx rid => [.lcn lcn, .ctx ctx, .num rid 256]
  | .int lcn vector => [.lcn lcn, .num vector 256]
  | .domainAsleep _ m unit => [.msg m, .num unit (2 ^ 32)]
  | .domainOff _ m unit => [.msg m, .num unit (2 ^ 32)]
  | .aerr m => [.msg m]
  | .mirw m => [.msg m]
  | .mirack m => [.msg m]
  | .mirh _ => []
  | .tideRaise j => [.num j (2 ^ 32)]
  | .routeEpochChange scope => [.num scope 256]
  | .flitCheckFail k n => [.num k 1024, .num n 65536]
  | .nak k _ => [.num k 1024]
  | .rytumRetrain k => [.num k 1024]
  | .rytumTrainingEnd k failed spare => [.num k 1024, .num failed (2 ^ 128), .num spare 16]
  | .heartbeatSend k => [.num k 1024]
  | .heartbeat k => [.num k 1024]
  | .forwardedClockLoss d => [.num d 18]
  | .moduleReset k => [.num k 1024]
  | .caParityAlert _ c outcome lost => [.num c 16, .num outcome 3, .each lost (2 ^ 46)]
  | .mergeDrain _ c j err => [.num c 32, .num j (2 ^ 16), .num err 4]
  | .patrolScrub _ c err => [.num c 16, .num err 4]
  | .rfmIssue _ c bank => [.num c 16, .num bank 4096]
  | .aggressorDetected _ c src port => [.num c 16, .num src (2 ^ 16), .num port 16]
  | .refreshWindowEnd _ c => [.num c 16]
  | .periodicRetrain _ c outcome => [.num c 16, .num outcome 3]
  | .sparingCopyLine _ errs => [.each errs 4]
  | .sparingCopyComplete _ => []
  | .channelZeroingComplete _ c => [.num c 16]
  | .memUeClear _ c => [.num c 16]
  | .cssCqHeadWrite _ q v => [.num q 1024, .num v (2 ^ 32)]
  | .cqPost _ j => [.num j 65536]
  | .attachStartEntry q => [.num q 4096]
  | .operationDispatch _ n => [.num n 4096]
  | .operationTimeout _ j => [.num j 65536]
  | .pathdown _ j => [.num j 65536]
  | .recoveryQueryEnd _ j outcome => [.num j 65536, .num outcome 3]
  | .haltConfirmTimeout _ j => [.num j 65536]
  | .freezeTimeout _ j => [.num j 65536]
  | .deviceEvent _ j => [.num j 65536]
  | .eventPageWrite _ cpe slot => [.num cpe 32, .num slot 4096]
  | .pathPortFailed pp cause => [.num pp 32, .num cause 8]
  | .pathRecoveryCycle pp gen width _ => [.num pp 32, .num gen 8, .num width 4]
  | .pathTrainingTimeout pp => [.num pp 32]
  | .pathupEnd pp image outcome => [.num pp 32, .num image 256, .num outcome 4]
  | .pathOfflineLimit pp => [.num pp 32]
  | .pathInboundRequest pp pa n wr => [.num pp 32, .num pa (2 ^ 52), .num n 4097, .bytes (wr.getD []) 4096]
  | .cpeWait o => [.cpe o]
  | .cpeAdd o => [.cpe o]
  | .cpeSub o => [.cpe o]
  | .cpeAnd o => [.cpe o]
  | .cpeOr o => [.cpe o]
  | .cpeXor o => [.cpe o]
  | .cpeSll o => [.cpe o]
  | .cpeSrl o => [.cpe o]
  | .cpeSra o => [.cpe o]
  | .cpeSltu o => [.cpe o]
  | .cpeAddi o => [.cpe o]
  | .cpeAndi o => [.cpe o]
  | .cpeOri o => [.cpe o]
  | .cpeLui o => [.cpe o]
  | .cpeLw o => [.cpe o]
  | .cpeLhu o => [.cpe o]
  | .cpeLbu o => [.cpe o]
  | .cpeSw o => [.cpe o]
  | .cpeSh o => [.cpe o]
  | .cpeSb o => [.cpe o]
  | .cpeBeq o => [.cpe o]
  | .cpeBne o => [.cpe o]
  | .cpeBltu o => [.cpe o]
  | .cpeBgeu o => [.cpe o]
  | .cpeJal o => [.cpe o]
  | .cpeJr o => [.cpe o]
  | .nxcmd o => [.cpe o]
  | .wset o => [.cpe o]
  | .cpePost o => [.cpe o]
  | .ckpt o => [.cpe o]
  | .cpeEnd o => [.cpe o]
  | .evaddr o => [.cpe o]
  | .interruptedReport _ q => [.num q 1024]
  | .sealRingTailDoorbell _ r v => [.num r 64, .num v (2 ^ 32)]
  | .sealRingEnable _ r => [.num r 64]
  | .sealJobStart _ e => [.num e 16]
  | .sealJobComplete _ e _ => [.num e 16]
  | .sealRingCheadWrite _ r v => [.num r 64, .num v (2 ^ 32)]
  | .sealRingStop _ r => [.num r 64]
  | .sealPowerPreempt _ e => [.num e 16]
  | .sealEngErrClear _ e => [.num e 16]
  | .movChTailDoorbell _ m ch v => [.num m 8, .num ch 16, .num v (2 ^ 32)]
  | .moverDescriptorStart _ m => [.num m 8]
  | .moverBurst _ m => [.num m 8]
  | .moverDescriptorComplete _ m => [.num m 8]
  | .moverHalt _ m pa _ _ => [.num m 8, .num pa (2 ^ 52)]
  | .resume _ m ch => [.num m 8, .num ch 16]
  | .skip _ m ch => [.num m 8, .num ch 16]
  | .abort _ m ch => [.num m 8, .num ch 16]
  | .moverPowerStop _ m => [.num m 8]
  | .appendEntry q => [.num q 4096]
  | .appendFormat id _ => [.num id (2 ^ 32)]
  | .appendChain id => [.num id (2 ^ 32)]
  | .ledgerCompletionPost id => [.num id (2 ^ 32)]
  | .ringSpaceWait id => [.num id (2 ^ 32)]
  | .checkpointTimer id => [.num id (2 ^ 32)]
  | .checkpointSign _ => []
  | .closeTimeout id => [.num id (2 ^ 32)]
  | .spoolStart id => [.num id (2 ^ 32)]
  | .spoolFinalStatus _ j => [.num j 65536]
  | .ldgErrClear _ => []
  | .pcieConfigRequest port fn off tag wr => [.num port 4, .num fn 64, .num off 4096, .num tag 1024, .cfg wr]
  | .inboundMemoryRequest r => [.inreq r]
  | .peerForward r => [.inreq r]
  | .attQpSqtailDoorbell q v => [.num q 4096, .num v 65536]
  | .attQpCqheadWrite q v => [.num q 4096, .num v 65536]
  | .queuePairStop q cause => [.num q 4096, .num cause 8]
  | .attMsgTxtailDoorbell q v => [.num q 4096, .num v 65536]
  | .attMsgRxheadWrite q v => [.num q 4096, .num v 65536]
  | .attWinCommit port v => [.num port 4, .num v (2 ^ 32)]
  | .functionLevelReset k => [.num k 256]
  | .hotReset port _ => [.num port 4]
  | .busMasterDisable k => [.num k 256]
  | .bmeLostClear k => [.num k 256]
  | .attachWindowAccess lcn ctx port off n wr => [.lcn lcn, .ctx ctx, .num port 4, .num off (2 ^ 40), .num n 65, .bytes (wr.getD []) 64]
  | .attachCompletionTimeout port tag => [.num port 4, .num tag 1024]
  | .ltrUpdate port => [.num port 4]
  | .attFnIsrClear k v => [.num k 256, .num v 4]
  | .lhMbDb _ mask => [.num mask 65536]
  | .mailboxTake _ => []
  | .lhMbOutpendClear _ mask => [.num mask 65536]
  | .dbgChallenge _ => []
  | .dbgUnlock _ => []
  | .dbgRelock _ => []
  | .lcAdvance _ => []
  | .fwStage _ => []
  | .grantExpiry => []
  | .deferredPowerLimit u => [.num u (2 ^ 32)]
  | .st64Steer d => [.num d (2 ^ 64)]
  | .feedLoss k => [.num k 2]
  | .feedReturn k => [.num k 2]
  | .bothFeedsLost => []
  | .vholdLoss => []
  | .holdPowerUp k => [.num k 2]
  | .pwrfailWarn => []
  | .resetNAssert => []
  | .resetNRelease => []
  | .throttleN _ => []
  | .serviceN _ => []
  | .sidebandStuck j => [.num j 4]
  | .sidebandChatter j => [.num j 4]
  | .sidebandMaskEnd j => [.num j 4]
  | .pmuSidebandSvcClear => []
  | .pmuSupplyLostClear v => [.num v 4]
  | .clockMonitorWindow x j => [.num x (2 ^ 32), .num j (2 ^ 32)]
  | .iroFailure => []
  | .allClocksLost => []
  | .dieTemperatureThreshold d _ => [.num d 16]
  | .dieOvertemperature d => [.num d 16]
  | .packageReset => []
  | .lighthouseBoot _ step => [.num step 8]
  | .unitReady _ k _ => [.num k 128]
  | .coreSelfTest d bad => [.num d 16, .each bad 68]
  | .pairing => []
  | .sysAutoModeSet _ => []
  | .logReport _ r => [.report r]
  | .freezePulse _ _ => []
  | .sampleRecord l r => [.lcn l, .sample r]
  | .traceRecord l ctx r => [.lcn l, .ctx ctx, .trace r]
  | .trstN => []
  | .idcode n => [.num n 18]
  | .samplePreload _ v => [.num v (2 ^ 2048)]
  | .extest _ v => [.num v (2 ^ 2048)]
  | .clamp _ => []
  | .highz _ => []
  | .ijtag n => [.num n 18]
  | .bypass n => [.num n 18]
  | .dbgap _ op size addr data => [.num op 4, .num size 2, .num addr (2 ^ 52), .num data (2 ^ 64)]
  | .dbgHalt _ l mask => [.lcn l, .num mask 4]
  | .dbgResume _ l mask => [.lcn l, .num mask 4]
  | .dbgStep _ l mask => [.lcn l, .num mask 4]
  | .breakpointMatch l ctx b _ => [.lcn l, .ctx ctx, .num b 4]
  | .registerWrite _ off n v => [.num off (2 ^ 32), .num n 9, .num v (2 ^ 64)]
  | .pwrfailWarnRelease => []
  | .supplyRangeChange k _ => [.num k 3]
  | .pathPerstRelease pp => [.num pp 32]
  | .attachPerstN port _ => [.num port 4]
  | .attachLinkTrained port gen width => [.num port 4, .num gen 8, .num width 64]
  | .memTrainingEnd _ c _ => [.num c 16]
  | .asyncCommandComplete src tag _ _ => [.src src, .num tag 65536]
  | .powerStateReached u => [.num u (2 ^ 32)]
  | .debugWakeExpiry u => [.num u (2 ^ 32)]
  | .attachReadCompletion port tag status d _ => [.num port 4, .num tag 1024, .num status 8, .bytes d 4096]
  | .maintenanceSlotStart _ k v => [.num k 16, .num v (2 ^ 32)]
  | .vfQuiesceLimit k => [.num k 256]

/-- Every operand passes its check. -/
def wellFormed (i : Instr) : Bool := (operands i).all Operand.ok

/-- The LCNs a command names. -/
def Operand.lcns : Operand → List Nat
  | .lcn l => [l]
  | .msg m => [m.lcn]
  | .an o => [o.lcn]
  | .a5 o => [o.lcn]
  | .dev q => [q.lcn]
  | _ => []

def lcnsOf (i : Instr) : List Nat := (operands i).flatMap Operand.lcns

end Sys2Proof
end

