-- ==== Sys2Proof/Safety.lean ====
section
/-! DEFINITION. What counts as a safe run, in the terms statements use. -/
namespace Sys2Proof.Machine

/-- The next step answers a state: it is no fault and no refusal. -/
def Answers (s : State) : Prop := ∃ t, step s = .next t

/-- The hold domain is powered (R16). -/
def powered (s : State) : Bool := s.pkg.mode != .off

/-- Nanoseconds that ST64 of a hub shows (R505). -/
def hubTime (h : Half) (s : State) : Nat := (s.st64.get h).toNat

/-- The part and its straps, and the commands that wait, are the same. -/
def SameOutside (s t : State) : Prop := t.cfg = s.cfg ∧ t.pending = s.pending

/-- DRAM of both hubs is in canonical form. -/
def MemoryOk (s : State) : Prop := Memory.wf s.mem.a = true ∧ Memory.wf s.mem.b = true

/-! ### Commands of the Harbourmaster (R52–R72) -/

/-- A packet has come from its source: the management port has acknowledged it (R60, R61). -/
def came (p : Pkt) (s : State) : State :=
  match p.src with
  | .mgmt h => i3cReply h true [] s
  | _ => s

/-- The Harbourmaster takes a packet from its source and starts it at once (R54–R61, R63, R67). -/
def takes (p : Pkt) (s : State) : Bool :=
  live s &&
  (match p.src with
    | .mgmt h => i3cOn s h && decide (progCount s p.src < 64)
    | _ => mayCome s p.src) &&
  (waiting? (came p s) p.src).isNone && mayStart (came p s) p

/-- It is taken and passes every check (R65). -/
def passes (p : Pkt) (s : State) : Bool := takes p s && (verdict (came p s) (dupTag (came p s) p) p).isNone

/-! ### Instructions (R74, R80, R119–R123) -/

/-- An instruction of `n` bytes starts at a context that runs in the given encoding (A5 or AN), in a package that is live,
and its bytes are fetched; `s1` is the state after the fetch (R80, R123). -/
def Starts (lcn ctx n : Nat) (a5 : Bool) (s s1 : State) : Prop :=
  live s = true ∧ ctxRuns s lcn ctx = true ∧ (ctxOf s lcn ctx).psw.a5 = a5 ∧
    fetchCheck s lcn (ctxOf s lcn ctx) n = (s1, .ok ())

/-- An instruction that began in `s` has completed in `t` with working registers `w` (R119). -/
def insnDone (lcn ctx : Nat) (s : State) (w : Ctx) (t : State) : State :=
  kick s (release lcn ctx (commit lcn ctx (ctxOf s lcn ctx).psw.ss w t))

/-- It ends in an exception, with its own address (R119, R122). -/
def insnFault (lcn ctx : Nat) (s : State) (x : Xf) (t : State) : State :=
  kick s (release lcn ctx (takeX lcn ctx x (ctxOf s lcn ctx).pc t))

/-- A command about to start an A5 instruction: as `Starts`, with the word fetched at its EA (R130, R131). -/
def A5Starts (o : A5Op) (s s1 : State) : Prop :=
  live s = true ∧ ctxRuns s o.lcn o.ctx = true ∧ (ctxOf s o.lcn o.ctx).psw.a5 = true ∧
    a5Fetch s o.lcn (ctxOf s o.lcn o.ctx) = (s1, .ok ())

end Sys2Proof.Machine
end

