-- ==== Sys2Proof/Certificates/Slice0/Obligations.lean ====
section
/-! DEFINITION. What is stated of the model: one obligation a group of commands, machine-wide ones first. -/
open Sys2Proof Sys2Proof.Machine

/-- The rows of R72: opcode, command, and the sources its row lists (R52: 1 U, 2 S, 3 H, 4 a port's PF0, 5 a function,
6 the management port). -/
def Sys2Proof.Machine.hmRows : List (Nat × (Pkt → Instr) × List Nat) :=
  [(0x0100, .modeGet, [1, 2, 3, 4, 5, 6]), (0x0101, .modeSet, [3, 6]), (0x0102, .drainCtlSet, [3, 6]),
   (0x0200, .clkStepSet, [2, 3]), (0x0201, .pwrStateSet, [2, 3]), (0x0202, .pwrStateGet, [2, 3, 6]),
   (0x0203, .clkStatusGet, [2, 3, 6]), (0x0204, .tempRead, [2, 3, 6]), (0x0300, .spareCore, [3]),
   (0x0301, .spareStateGet, [2, 3, 6]), (0x0302, .coreOffline, [3]), (0x0303, .coreOnline, [3]),
   (0x0304, .l3LineDelete, [3]), (0x0305, .memSpare, [3]), (0x0306, .pathSet, [2, 3]), (0x0307, .bucketSet, [3]),
   (0x0308, .homeTimerSet, [3])] ++
  [(0x0400, .poolGet, [3, 4, 6]), (0x0401, .vfCreate, [3, 4]), (0x0402, .vfDestroy, [3, 4]), (0x0403, .vfQuiesce, [3, 4]),
   (0x0404, .vfFreeze, [3, 4]), (0x0405, .vfRestore, [3, 4]), (0x0406, .vfResume, [3, 4]), (0x0407, .vfReset, [3, 4]),
   (0x0500, .ldgStreamOpen, [2, 3, 5]), (0x0501, .ldgStreamClose, [2, 3, 5]), (0x0502, .ldgHeadRead, [2, 3, 5, 6]),
   (0x0503, .ldgCheckpoint, [2, 3, 5]), (0x0504, .ldgSpoolSet, [2, 3]), (0x0600, .keyLoadSlot, [2, 3, 4, 5]),
   (0x0601, .keyGenerate, [2, 3, 4, 5]), (0x0602, .keyErase, [2, 3, 4, 5]), (0x0603, .keySlotInfo, [2, 3, 4, 5]),
   (0x0604, .keyPublicRead, [2, 3, 4, 5, 6])] ++
  [(0x0700, .logRead, [2, 3, 6]), (0x0701, .logClear, [3, 6]), (0x0702, .logStatus, [2, 3, 6]),
   (0x0800, .timeGet, [1, 2, 3, 4, 5, 6]), (0x0801, .timeSetOffset, [3, 6]), (0x0802, .timeAttest, [2, 3, 4, 5]),
   (0x0900, .pctSelect, [2, 3]), (0x0901, .pctCollectSet, [2, 3]), (0x0902, .pctFreeze, [2, 3]), (0x0903, .pctUreadSet, [2]),
   (0x0904, .pctSampleSet, [2, 3]), (0x0A00, .diagPing, [1, 2, 3, 4, 5, 6]), (0x0A01, .diagScrub, [3, 6]),
   (0x0A02, .diagLinkRetrain, [3]), (0x0A03, .diagCoreTest, [3]), (0x0B00, .capGet, [1, 2, 3, 4, 5, 6]),
   (0x0B01, .revGet, [1, 2, 3, 4, 5, 6]), (0x0B02, .pairingGet, [2, 3, 6])]

/-- The rows of value instructions with what they compute (R101). -/
def Sys2Proof.Machine.aluRows : List ((AnOp → Instr) × Alu) :=
  [(.add, .add), (.sub, .sub), (.mul, .mul), (.mulu, .mulu), (.div, .div), (.divu, .divu), (.rem, .rem), (.remu, .remu),
   (.min, .min), (.max, .max), (.and, .and), (.or, .or), (.xor, .xor), (.shl, .shl), (.shr, .shr), (.sar, .sar), (.rot, .rot)]

def Sys2Proof.Machine.unaryRows : List ((AnOp → Instr) × Alu) := [(.neg, .neg), (.abs, .abs), (.sqrt, .sqrt), (.not, .not)]

/-- How a BS instruction of `n` bytes ends that stores `x` to the parts `ks` and leaves registers `w` (R139). -/
def Sys2Proof.Machine.bsDone (o : AnOp) (s : State) (n : Nat) (ks : List Chunk) (x : List Byte) (w : Ctx) (u : State) : State :=
  match bsEnd o.lcn o.ctx n ks x w u with
  | (t, .ok k) => insnDone o.lcn o.ctx s k t
  | (t, .error f) => insnFault o.lcn o.ctx s f t

/-- The TLB invalidations with an operand: TYPE, what they select, whether they are broadcast, whether they need H. -/
def Sys2Proof.Machine.tlbiRows : List ((AnOp → Instr) × Nat × Nat × Bool × Bool) :=
  [(.tlbiva, 3, 0, true, false), (.tlbiasid, 1, 1, true, false), (.tlbivmid, 1, 3, true, true), (.tlbiipa, 3, 4, true, true),
   (.tlbilck, 3, 5, true, false), (.tlbivaL, 3, 0, false, false), (.tlbiasidL, 1, 1, false, false), (.tlbivmidL, 1, 3, false, true),
   (.tlbiipaL, 3, 4, false, true), (.tlbilckL, 3, 5, false, false)]

/-- The integer type of a register class (R134). -/
def Sys2Proof.Machine.a5Ty : A5Reg → Ty
  | .a _ => .i32
  | .d _ => .i64
  | .ac _ => .i128

/-- A5 rows on two registers of one class, and the AN computation each is (R133, R134). -/
def Sys2Proof.Machine.a5AluRows : List ((A5Op → Instr) × Alu × (A5Reg → Bool)) :=
  [(.a5Add, .add, notD), (.a5Sub, .sub, notD), (.a5Mul, .mul, A5Reg.isAc), (.a5Div, .div, A5Reg.isAc), (.a5Rem, .rem, A5Reg.isAc),
   (.a5And, .and, A5Reg.isD), (.a5Or, .or, A5Reg.isD), (.a5Xor, .xor, A5Reg.isD)]

def Sys2Proof.Machine.a5DecRows : List ((A5Op → Instr) × Alu) := [(.a5Dadd, .add), (.a5Dsub, .sub), (.a5Dmul, .mul), (.a5Ddiv, .div)]

def Sys2Proof.Machine.a5ShiftRows : List ((A5Op → Instr) × Alu) := [(.a5Shl, .shl), (.a5Shr, .shr), (.a5Sar, .sar), (.a5Rot, .rot)]

/-- A message may reach its destination now (R242, R253, R262): the modules of its path carry traffic, no packet of its flow
that was sent before it is under way, and the Breakwater carries it. -/
def Sys2Proof.Machine.arrives (op : MsgOp) (m : Msg) (s : State) : Prop := live s = true ∧ mayArrive s op m = true

/-- The requests a home orders, each with its message; reads of memory end well. -/
def Sys2Proof.Machine.homeRows : List ((Msg → Instr) × MsgOp) :=
  [(fun m => .rds m 0, .rds), (.rdx, .rdx), (.upg, .upg), (.rdc, .rdc), (.wrf, .wrf), (fun m => .wrp m 0, .wrp), (.atm, .atm), (.mnt, .mnt)]

/-- A new transaction of a home for a request. -/
def Sys2Proof.Machine.newTx (op : MsgOp) (m : Msg) (tx : Nat) (ask : List Nat) : HTrans :=
  { req := op, m := { m with txid := tx }, await := ask, evicting := [], dirty := none, poison := false, phase := 0, backInv := false }

/-- The home has no transaction of this ATM's request ID to answer from, and is one that carries an NMU (R2, R141, R223). -/
def Sys2Proof.Machine.atmNew (m : Msg) (s : State) : Prop :=
  hasNmu s = true ∧
    s.latches.find? (fun x => x.unit = 1024 + (homeFor s m.from_ m.sector).n && x.lcn == m.lcn && x.ctx == m.ctx && x.rid == m.rid) = none

/-- A request opens a transaction at its home and nobody has to be asked: its sector is not locked, `tx` is free, the line has or
gets a directory entry where the request needs one, and R215 names no agent to snoop. `o` is the state with the transaction
open. -/
def Sys2Proof.Machine.opensAlone (op : MsgOp) (m : Msg) (s : State) (h : Half) (tx : Nat) (o : State) : Prop :=
  arrives op m s ∧
  (let s1 := take op m s
   let s2 := if needsEntry op then touchEntry h (m.sector / 4) s1 else s1
   h = homeFor s1 m.from_ m.sector ∧ locked (s1.home.get h) m.sector = false ∧ freeTx (s1.home.get h) = some tx ∧
   (needsEntry op = false ∨ (dirOf s1 h (m.sector / 4)).v = true ∨ (setOf (s1.home.get h) (m.sector / 4)).length < 24) ∧
   snoopSet s2 h op m = [] ∧ o = repin h (m.sector / 4) (putTx h tx (some (newTx op m tx [])) s2))

/-- R216 as it is printed: snoop, state held, response, data with it, state left. -/
def Sys2Proof.Machine.snoopTable : List (MsgOp × Moesi × MsgOp × Bool × Moesi) :=
  [(.snps, .m, .rspO, true, .o), (.snps, .o, .rspO, true, .o), (.snps, .e, .rspS, false, .s), (.snps, .s, .rspS, false, .s),
   (.snpx, .m, .rspI, true, .i), (.snpx, .o, .rspI, true, .i), (.snpx, .e, .rspI, false, .i), (.snpx, .s, .rspI, false, .i),
   (.snpc, .m, .rspM, true, .m), (.snpc, .o, .rspO, true, .o), (.snpc, .e, .rspE, false, .e), (.snpc, .s, .rspS, false, .s),
   (.snpk, .m, .rspE, true, .e), (.snpk, .o, .rspS, true, .s), (.snpk, .e, .rspE, false, .e), (.snpk, .s, .rspS, false, .s),
   (.snpi, .m, .rspI, false, .i), (.snpi, .o, .rspI, false, .i), (.snpi, .e, .rspI, false, .i), (.snpi, .s, .rspI, false, .i)]

/-- The engine after an instruction: its results, then what the load before it brings; k0 stays 0 (R341, R343). -/
def Sys2Proof.Machine.cpeAfter (o : CpeOp) (k : Cpe) (wr loads : List (Nat × W32)) (pc : Nat) (s : State) : State :=
  updCpe o.hub o.cpe (fun _ => { k with
    k := (wr ++ k.delay).foldl (fun (t : Tab W32) e => if e.1 % 32 = 0 then t else tset 0 t (e.1 % 32) e.2) k.k
    delay := loads, pc := pc % 2 ^ 32, count := k.count + 1 }) s

/-- An engine runs an entry, from an aligned address of the image (R339–R341). -/
def Sys2Proof.Machine.cpeIn (o : CpeOp) (k : Cpe) (j : Job) (s : State) : Prop :=
  live s = true ∧ cpeOf s o.hub o.cpe = k ∧ k.cur = some j ∧ k.pc % 4 = 0 ∧ k.pc < 0x40000

/-- It has not used up its instructions either (R340). -/
def Sys2Proof.Machine.cpeRuns (o : CpeOp) (k : Cpe) (j : Job) (s : State) : Prop := cpeIn o k j s ∧ k.count < 65535

/-- A step takes the command at the front of the queue and runs it with the queue's rest; with none waiting a nanosecond passes: a
live package goes on by itself as log 16 says (ST64 of each hub counts, but for the nanoseconds Hub B leaves out while it is
slewed, R506; what waits for no command goes on), and nothing happens in one that is not live (logs 6 and 16). Every step answers
a next state: no command ends in a fault or a refusal. -/
def Obligations.Front : Prop :=
  (
  ∀ (s : State),
  (∀ c rest, s.pending = c :: rest → step s = exec c { s with pending := rest }) ∧
  (∀ c, step (s.enqueueFront c) = exec c s) ∧
  (s.pending = [] → step s = .next (tick s) ∧ (live s = false → step s = .next s))) ∧
  (
  (∀ (c : Instr) (s : State), ∃ t, exec c s = .next t) ∧ ∀ s : State, Answers s)

/-- R34, R42, R143, R540: what reset leaves. SYS_MODE reads HOLD, both halves HELD; SYS_DRAIN_CTL its shares and limits; no ring
is enabled; ST64 is 0; nothing runs and nothing waits; an engine's error register and a bucket are clear; DRAM is in canonical
form. -/
def Obligations.ResetValues : Prop :=
  let s := State.reset
  regRead s .a false 0x1000000 = 0x00110001 ∧ regRead s .b false 0x1000000 = 0x00110001 ∧
  regRead s .a false 0x1000008 = 16 * 2 ^ 26 + 10 * 2 ^ 16 + 100 ∧ s.st64 = ⟨0, 0⟩ ∧
  (∀ h l, (ringOf s h l).en = false ∧ (ringOf s h l).phase = true) ∧ (∀ h e, (sengOf s h e).errV = false ∧ (sengOf s h e).cur = none) ∧
  (∀ u, bucketOf s u = ⟨0, 32, 10000, 0⟩) ∧ (∀ l, (lcnOf s l).samp.n = 0) ∧ s.prog = [] ∧ s.pending = [] ∧ MemoryOk s

/-- R16, R531: in a package that is OFF or stopped for want of any clock, only supplies and the test access chain act; every other
command, and time, change nothing. R39, R523: the package leaves OFF only when a supply powers its hold domain, and it is in HOLD
then. -/
def Obligations.DeadPackage : Prop :=
  (
  ∀ (c : Instr) (s : State), live s = false →
  (∀ k, c ≠ .feedLoss k) → (∀ k, c ≠ .feedReturn k) → c ≠ .bothFeedsLost → c ≠ .vholdLoss → (∀ k, c ≠ .holdPowerUp k) →
  (∀ k ok, c ≠ .supplyRangeChange k ok) → c ≠ .trstN → (∀ n, c ≠ .idcode n) → (∀ h v, c ≠ .samplePreload h v) →
  (∀ h v, c ≠ .extest h v) → (∀ h, c ≠ .clamp h) → (∀ h, c ≠ .highz h) → (∀ n, c ≠ .ijtag n) → (∀ n, c ≠ .bypass n) →
  (∀ h op size addr data, c ≠ .dbgap h op size addr data) →
  exec c s = .next s ∧ (s.pending = [] → step s = .next s)) ∧
  (
  ∀ (c : Instr) (s t : State), s.pkg.mode = .off → exec c s = .next t →
  t.pkg.mode = .off ∨ ((∃ k, c = .holdPowerUp k) ∧ t.pkg.mode = .hold))

/-- R531: while every clock is lost, whatever step is taken, nothing changes but the supplies' record, the test access port and
the queue of commands: the package stays stopped, with memory, cores, engines and ports as they are, until a step takes it OFF. -/
def Obligations.StoppedPackage : Prop :=
  ∀ (s t : State), s.pkg.stopped = true → s.pkg.mode ≠ .off → step s = .next t →
  t.pkg.mode = .off ∨
    t = { s with units := { s.units with pwr := t.units.pwr, tap := t.units.tap }, nonce := t.nonce, pending := t.pending }

/-- R62: the 64 bytes of a packet and its fields are one and the same: reading back the bytes of a packet gives it, every field at
every value of its width, and the bytes of what was read are those read, but for SOURCE, which the Harbourmaster fills in. -/
def Obligations.PacketRoundTrip : Prop :=
  (∀ p : Pkt, p.op < 2 ^ 16 → p.tag < 2 ^ 16 → p.flags < 2 ^ 8 → p.plen < 2 ^ 8 → p.iptr < 2 ^ 64 → p.prm < 2 ^ 384 →
    (pktBytes p).length = 64 ∧ pktOf p.src (pktBytes p) = p) ∧
  (∀ (src : Src) (d : List Byte), d.length = 64 → pktBytes (pktOf src d) = d.take 6 ++ toBytes 2 src.code ++ d.drop 8)

/-- R81, R101, R104, R191: the parcels of every AN instruction with FMT and TYPE in their fields decode to it with every operand,
and run it; parcels that decode are those of the instruction they decode to; an OPC that no instruction has raises ILLEGAL. R131,
R133: the word of every A5 instruction with RA, RB and F in their fields decodes to it with every operand, and runs it; a word
that decodes is that of the instruction it decodes to; an OP that no instruction has raises ILLEGAL. R341, R342: two instructions
of one engine with their fields in range and the same word are the same instruction. -/
def Obligations.InstructionCodes : Prop :=
  (
  (∀ (i : Instr) (opc : Nat) (o : AnOp), anOpc i = some (opc, o) → o.fmt < 4 → o.ty < 16 →
    ∃ ps, encodeParcels i = some ps ∧ decodeParcels o.lcn o.ctx ps = some i ∧ ∀ s, runParcels o.lcn o.ctx ps s = exec i s) ∧
  (∀ (l c : Nat) (ps : List W16) (i : Instr), decodeParcels l c ps = some i → encodeParcels i = some ps) ∧
  (∀ (l c : Nat) (p : W16) (rest : List W16) (s : State), anInstr (p.toNat / 16 % 1024) = none →
    runParcels l c (p :: rest) s = act (anIllegal ⟨l, c, 0, 0, p :: rest⟩) s)) ∧
  (
  (∀ (i : Instr) (op : Nat) (o : A5Op), a5Opc i = some (op, o) → o.ra < 32 → o.rb < 32 → o.f < 2 ^ 16 →
    ∃ w < 2 ^ 32, encodeA5 i = some w ∧ decodeA5 o.lcn o.ctx w = some i ∧ ∀ s, runA5Word o.lcn o.ctx w s = exec i s) ∧
  (∀ (l c w : Nat) (i : Instr), w < 2 ^ 32 → decodeA5 l c w = some i → encodeA5 i = some w) ∧
  (∀ (l c w : Nat) (s : State), a5Instr (w / 2 ^ 26 % 64) = none →
    runA5Word l c w s = act (runA5 ⟨l, c, 0, 0, 0⟩ false (fun t _ => (t, .error illegal))) s)) ∧
  (
  ∀ (i j : Instr) (n m : Nat) (o q : CpeOp), cpeOpc i = some (n, o) → cpeOpc j = some (m, q) →
    o.x < 32 → o.y < 32 → o.imm < 2 ^ 16 → q.x < 32 → q.y < 32 → q.imm < 2 ^ 16 →
    o.hub = q.hub → o.cpe = q.cpe → o.dev = q.dev → encodeCpe i = encodeCpe j → i = j)

/-- R235–R238, R249, R250: a flit holds 88 bytes with the CRC over the first 84, whatever link and sequence numbers it crosses
with; its header gives back the message, tide level, epoch, places and address it was made from; over 64 lanes in 11 unit
intervals or 32 in 22 it arrives as it left. -/
def Obligations.FlitRoundTrip : Prop :=
  (∀ (src dst : Nat) (epoch : Bool) (op : MsgOp) (m : Msg) (payload : List Byte) (lseq lack : Nat),
    let hd := headerOf src dst epoch op m
    let f := flitBytes hd payload lseq lack
    f.length = 88 ∧ flitGood f = true ∧ flitMsg f = some op ∧ fieldAt f 0 16 = hd ∧
      f.take 0x50 = toBytes 16 hd ++ pad 64 payload ∧ fieldAt f 0x50 2 = lack % 2 ^ 16 ∧ fieldAt f 0x52 2 = lseq % 2 ^ 16 ∧
      fld hd 125 123 = m.tide % 8 ∧ fld hd 122 122 = b2n epoch ∧ fld hd 115 104 * 16 + fld hd 19 16 = dst % 2 ^ 16 ∧
      fld hd 103 92 * 16 + fld hd 15 12 = src % 2 ^ 16 ∧ fld hd 91 80 = m.txid % 2 ^ 12 ∧ fld hd 79 34 = m.sector % 2 ^ 46 ∧
      fld hd 33 31 = 0 ∧ fld hd 30 30 = b2n m.poison ∧ fld hd 11 0 = 0) ∧
  (∀ (wide : Bool) (f : List Byte), f.length = 88 →
    fromLanes wide (laneBit wide f) = f ∧ unitCount wide * perUnit wide = 88)

/-- DRAM keeps its canonical form, which reset's has (ResetValues), under the commands that write it by DMA: a mover's start,
burst, completion, skip and abort, sample and trace records, and freeze pulses. -/
def Obligations.WritersKeepMemory : Prop :=
  ∀ (h : Half) (m ch : Nat) (s t : State), MemoryOk s →
  (exec (.moverDescriptorStart h m) s = .next t ∨ exec (.moverBurst h m) s = .next t ∨
    exec (.moverDescriptorComplete h m) s = .next t ∨ exec (.skip h m ch) s = .next t ∨ exec (.abort h m ch) s = .next t ∨
    (∃ l r, exec (.sampleRecord l r) s = .next t) ∨ (∃ l c r, exec (.traceRecord l c r) s = .next t) ∨
    (∃ busy, exec (.freezePulse h busy) s = .next t)) → MemoryOk t

/-- R578: a counter that passes 2^48 - 1 wraps to 0 and sets its overflow bit on the same increment; another of the block that
selects the event adds 1 and keeps its bit; no other counter changes, no interrupt is raised, nothing else happens. While the
block's counters count nothing (it is OFF, the event is masked, or it does secure-world work that may not be observed: R553, R579,
R580) they keep their values. -/
def Obligations.CounterWrap : Prop :=
  ∀ (unit ev : Nat) (s : State), let t := bump unit ev 1 s
  { t with ctrs := s.ctrs } = s ∧ t.ctrs.length = s.ctrs.length ∧
  ∀ (i k : Nat) (c : Ctr), s.ctrs[i]? = some (k, c) →
    (ctrIdle s unit ev = false → k / 8 = unit → c.ev = ev → c.val = 2 ^ 48 - 1 → t.ctrs[i]? = some (k, ⟨0, ev, true⟩)) ∧
    (ctrIdle s unit ev = false → k / 8 = unit → c.ev = ev → c.val < 2 ^ 48 - 1 → t.ctrs[i]? = some (k, ⟨c.val + 1, ev, c.ovf⟩)) ∧
    ((k / 8 ≠ unit ∨ c.ev ≠ ev ∨ ctrIdle s unit ev = true) → t.ctrs[i]? = some (k, c))

/-- R573: LOG_CLEAR removes the live entries up to and including the named index, whatever they are, and touches no other log; an
index that is not live ends BAD_PARAM. -/
def Obligations.LogClear : Prop :=
  ∀ (p : Pkt) (s : State),
    let q := pktFit 0x0701 p
    let u := came q s
    (passes q s = true → ∃ t,
      exec (.logClear p) s = .next (harbourRun (done q 4 ((u.log.get q.half).entries.length - (t.log.get q.half).entries.length) t)) ∧
      (∃ gone last, (u.log.get q.half).entries = gone ++ last :: (t.log.get q.half).entries ∧ last.index = q.f 4 4 ∧
        ∀ e ∈ gone, e.index ≠ q.f 4 4) ∧
      t.log.get q.half.other = u.log.get q.half.other) ∧
    (takes q s = true → hmReady u q.src.half = true → q.src.kind ∈ [3, 6] → denyHalf u q = false →
      dupTag u q = false → q.f 0 1 < 2 → hubPresent u q.half = true → (∀ e ∈ (u.log.get q.half).entries, e.index ≠ q.f 4 4) →
      exec (.logClear p) s = .next (harbourRun (postReply (replyTo q 0x11 true 0 0) u)))

/-- R623: SERVICE_N becomes active and is not masked: the leading Harbourmaster sets PMU_SIDEBAND.SVC, and with in-band interrupts
enabled raises one with payload 0x03; nothing else follows, nor from any other change of the input. -/
def Obligations.ServiceRequest : Prop :=
  ∀ (s : State), live s = true → let p := s.units.pwr
  let s1 := updPwr (fun x => { x with svc := true }) (setLevel 3 true s)
  (masked s 3 = false → p.active.contains 3 = false →
    ((s.i3c.get (leader s)).ibiEn = false → exec (.serviceN true) s = .next s1) ∧
    ((s.i3c.get (leader s)).ibiEn = true → exec (.serviceN true) s = .next (updI3c (leader s) (fun i => { i with ibi := i.ibi ++ [3] }) s1))) ∧
  (∀ on, (masked s 3 = true ∨ p.active.contains 3 = true ∨ on = false) → exec (.serviceN on) s = .next (setLevel 3 on s))

/-- R65, R67, R69: a packet that fails a check gets one final reply with the status of the first check that fails, with DUP when
its tag was in use and check 3 failed, with no result but for the length a VF_FREEZE with too short a buffer needs (R72), and has
no other effect. R52, R65, R72: a source the opcode's row does not list gets DENIED, whatever else is wrong with the packet. R67:
a packet whose tag a command in progress of the same ring or queue has ends BAD_PARAM when its source is allowed and its row
denies it nothing. -/
def Obligations.HmChecks : Prop :=
  (
  ∀ r ∈ hmRows, ∀ (p : Pkt) (s : State) (st : Nat),
    let q := pktFit r.1 p
    let u := came q s
    let d := dupTag u q
    takes q s = true → verdict u d q = some st →
    exec (r.2.1 p) s = .next (harbourRun (postReply
      { src := q.src, tag := q.tag, status := st, final := true, logged := false,
        dup := d && st == 0x11, op := r.1, rlen := (failRes u d q st).1, result := (failRes u d q st).2, notify := bitOf q.flags 2 } u)) ∧
    (¬ (r.1 = 0x0404 ∧ st = 0x11) → failRes u d q st = (0, 0)) ∧
    (r.1 = 0x0404 → st = 0x11 → d = false → (∀ c, cmdOf 0x0404 = some c → badForm c q = false) → (fnOf u q.vf).created = true →
      q.bufLen < freezeNeed u q → failRes u d q st = (4, freezeNeed u q))) ∧
  (
  ∀ r ∈ hmRows, ∀ (p : Pkt) (s : State),
    let q := pktFit r.1 p
    takes q s = true → hmReady (came q s) q.src.half = true → q.src.kind ∉ r.2.2 →
    ∀ d, verdict (came q s) d q = some 0x14) ∧
  (
  ∀ r ∈ hmRows, ∀ (p : Pkt) (s : State) (c : Cmd),
    let q := pktFit r.1 p
    let u := came q s
    takes q s = true → hmReady u q.src.half = true → cmdOf r.1 = some c → q.src.kind ∈ r.2.2 → c.deny u q = false →
    dupTag u q = true →
    exec (r.2.1 p) s = .next (harbourRun (postReply { replyTo q 0x11 true 0 0 with dup := true } u)))

/-- R72: the queries answer DONE at once with the result their rows give, changing nothing but where a row returns data in its
indirect buffer. R4–R9, R72, R505, R507, R551, R552, R572: log, time, capability and diagnostic reads. -/
def Obligations.HmReads : Prop :=
  (
  (∀ (p : Pkt) (s : State), let q := pktFit 0x0100 p; let u := came q s; passes q s = true →
    exec (.modeGet p) s = .next (harbourRun (done q 5 (res [(4, sysMode u), (1, (leader u).n)]) u))) ∧
  (∀ (p : Pkt) (s : State), let q := pktFit 0x0202 p; let u := came q s; passes q s = true →
    exec (.pwrStateGet p) s = .next (harbourRun (done q 1 (pstateOf u (q.f 0 4)) u))) ∧
  (∀ (p : Pkt) (s : State), let q := pktFit 0x0203 p; let u := came q s; passes q s = true →
    exec (.clkStatusGet p) s = .next (harbourRun (done q 12
      (res [(1, b2n u.units.pwr.ref), (1, 0), (2, (u.fab.standby.filter (fun d => d < 16)).foldl (fun (n : Nat) d => n + 2 ^ d) 0),
            (4, u.units.pwr.xcnt), (4, u.units.pwr.icnt)]) u))) ∧
  (∀ (p : Pkt) (s : State), let q := pktFit 0x0204 p; let u := came q s; passes q s = true →
    exec (.tempRead p) s = .next (harbourRun (done q 2 ((BitVec.ofInt 16 (dieOf u (unitDie (q.f 0 4))).temp).toNat) u))) ∧
  (∀ (p : Pkt) (s : State), let q := pktFit 0x0301 p; let u := came q s; passes q s = true →
    let free := freeSpares u (unitDie (q.f 0 4))
    exec (.spareStateGet p) s = .next (harbourRun (done q 17
      (res [(1, free.length), (7, 0), (9, free.foldl (fun (n : Nat) m => n + 2 ^ m) 0)]) u))) ∧
  (∀ (p : Pkt) (s : State), let q := pktFit 0x0400 p; let u := came q s; passes q s = true →
    let h := portHalf (q.f 0 1)
    exec (.poolGet p) s = .next (harbourRun (done q 13
      (res [(2, 1024 - rangesTotal (qpRanges u h 4096)), (2, 2048 - rangesTotal (msixRanges u (q.f 0 1) 4096)),
            (2, freeKeys u h), (4, freeStreams u h), (2, (freeSubs u h).length),
            (1, (u.att.fns.filter (fun e => e.2.created && e.1 % 64 != 0 && e.1 / 64 == q.f 0 1)).length)]) u))) ∧
  (∀ (p : Pkt) (s : State), let q := pktFit 0x0502 p; let u := came q s; passes q s = true →
    let x := headOf u (q.f 0 4)
    exec (.ldgHeadRead p) s = .next (harbourRun (done q 16 (res [(8, x.seq), (8, x.lts)])
      (writeBuf q (slice x.chain 0 48 ++ pack [(8, x.seq), (8, x.lts)]) u)))) ∧
  (∀ (p : Pkt) (s : State), let q := pktFit 0x0603 p; let u := came q s; passes q s = true → 2 ≤ q.f 0 2 →
    let x := kslotOf u q.src.half (q.f 0 2)
    exec (.keySlotInfo p) s = .next (harbourRun (done q 7
      (res [(1, x.alg), (1, x.world), (2, x.fn), (2, x.ring), (1, x.st)]) u))) ∧
  (∀ (p : Pkt) (s : State), let q := pktFit 0x0604 p; let u := came q s; passes q s = true →
    let key := if q.f 0 2 < 2 then devKey q.src.half.n (q.f 0 2) else (kslotOf u q.src.half (q.f 0 2)).key
    exec (.keyPublicRead p) s = .next (harbourRun (done q 0 0 (writeBuf q (ecPub key) (ack q u)))))) ∧
  (
  (∀ (p : Pkt) (s : State), let q := pktFit 0x0700 p; let u := came q s; passes q s = true →
    let l := u.log.get q.half
    let es := (logFrom l (q.f 4 4)).take q.ilen
    let next := match es.getLast? with
      | some e => (match (logFrom l e.index).drop 1 with | x :: _ => x.index | [] => l.nextIdx)
      | none => l.nextIdx
    exec (.logRead p) s = .next (harbourRun (done q 12 (res [(4, es.length), (4, next), (4, l.lostTotal)])
      (writeBuf q (es.flatMap entryBytes) (ack q u))))) ∧
  (∀ (p : Pkt) (s : State), let q := pktFit 0x0702 p; let u := came q s; passes q s = true →
    let l := u.log.get q.half
    (l.entries = [] → exec (.logStatus p) s = .next (harbourRun (done q 14
      (res [(4, l.nextIdx), (4, (l.nextIdx + 2 ^ 32 - 1) % 2 ^ 32), (4, l.lostTotal), (2, 0)]) u))) ∧
    (∀ a b, l.entries.head? = some a → l.entries.getLast? = some b →
      exec (.logStatus p) s = .next (harbourRun (done q 14
        (res [(4, a.index), (4, b.index), (4, l.lostTotal), (2, (l.entries.filter (fun e => e.rsv)).length)]) u)))) ∧
  (∀ (p : Pkt) (s : State), let q := pktFit 0x0800 p; let u := came q s; passes q s = true →
    let h := q.src.half
    exec (.timeGet p) s = .next (harbourRun (done q 17
      (res [(8, (u.st64.get h).toNat), (8, (lhOf u h).utc), (1, b2n (lhOf u h).att)]) u))) ∧
  (∀ (p : Pkt) (s : State), let q := pktFit 0x0A00 p; let u := came q s; passes q s = true →
    exec (.diagPing p) s = .next (harbourRun (done q (min 24 q.plen) (q.prm % 256 ^ 24) u))) ∧
  (∀ (p : Pkt) (s : State), let q := pktFit 0x0B00 p; let u := came q s; passes q s = true →
    let h := q.half
    exec (.capGet p) s = .next (harbourRun (done q 16
      (res [(4, hubCap0 u h), (4, hubCap1 u h), (4, hubCap2 u h), (4, hubCap3 u h)]) u))) ∧
  (∀ (p : Pkt) (s : State), let q := pktFit 0x0B01 p; let u := came q s; passes q s = true →
    ∃ rom, exec (.revGet p) s = .next (harbourRun (done q 16
      (res [(4, imageVersion u q.half 1), (4, rom), (4, tget 0 (cssOf u q.half).vers 0), (4, imageVersion u q.half 3)]) u))) ∧
  (∀ (p : Pkt) (s : State), let q := pktFit 0x0B02 p; let u := came q s; passes q s = true →
    exec (.pairingGet p) s = .next (harbourRun (done q 3
      (res [(1, u.cfg.step.a), (1, if hubPresent u .b then u.cfg.step.b else 0), (1, u.units.pairing.verdict)]) u))))

/-- R38, R39, R42, R66, R72: MODE_SET, DRAIN_CTL_SET, CLK_STEP_SET and the power states. A MODE_SET of the current mode ends DONE;
a first transition out of BRINGUP or HOLD begins with ACCEPTED; a DRAIN is entered at once. R72, R143, R150, R158, R206, R218,
R286, R304: commands on cores, caches, channels, ports and buckets. -/
def Obligations.HmPackage : Prop :=
  (
  (∀ (p : Pkt) (s : State), let q := pktFit 0x0101 p; let u := came q s; passes q s = true → ∀ t, modeOf (q.f 0 1) = some t →
    ((t = u.pkg.mode ∧ q.f 1 1 = 0xFF) → exec (.modeSet p) s = .next (harbourRun (done q 4 (sysMode u) (ack q u)))) ∧
    ((u.pkg.mode = .hold ∨ u.pkg.mode = .bringup) → t ≠ u.pkg.mode → q.f 1 1 = 0xFF → t ≠ .drain →
      exec (.modeSet p) s = .next (harbourRun (ack q (updPkg (fun k => { k with
        target := t
        trans := some { source := u.pkg.mode, target := t, follow := t, half := none, cmd := some ⟨q, false⟩, abortCmd := none,
                        phase := 0, pfw := false } }) { u with prog := u.prog ++ [⟨q, false⟩] })))) ∧
    ((u.pkg.mode = .unified ∨ u.pkg.mode = .mirrored ∨ u.pkg.mode = .split) → t = .drain → q.f 1 1 = 0xFF →
      ∀ f, modeOf (q.f 2 1) = some f →
      exec (.modeSet p) s = .next (harbourRun (ack q (enterDrain f (some ⟨q, false⟩) false
        (updPkg (fun k => { k with target := .drain }) { u with prog := u.prog ++ [⟨q, false⟩] })))))) ∧
  (∀ (p : Pkt) (s : State), let q := pktFit 0x0102 p; let u := came q s; passes q s = true →
    let v := q.f 0 4
    let t := updPkg (fun k => { k with
      rshare := k.rshare.set .b (fld v 31 26), pfwLimit := k.pfwLimit.set .b (fld v 25 16), limit := k.limit.set .b (fld v 9 0) })
      (updPkg (fun k => { k with
        rshare := k.rshare.set .a (fld v 31 26), pfwLimit := k.pfwLimit.set .a (fld v 25 16), limit := k.limit.set .a (fld v 9 0) }) u)
    exec (.drainCtlSet p) s = .next (harbourRun (done q 4 (drainCtl t (leader t)) t))) ∧
  (∀ (p : Pkt) (s : State), let q := pktFit 0x0200 p; let u := came q s; passes q s = true →
    let ls := (upTo (q.f 2 2)).map (fun i => q.f 0 2 + i)
    let t := ls.foldl (fun t l => updLcn l (fun k => { k with div := q.f 4 1 }) t) u
    exec (.clkStepSet p) s = .next (harbourRun (done q 2 ((ls.filter (fun l => divInForce t l == q.f 4 1)).length) (ack q t)))) ∧
  (∀ (p : Pkt) (s : State), let q := pktFit 0x0201 p; let u := came q s; passes q s = true →
    let b := q.f 0 4
    let v := q.f 4 1
    (v = pstateOf u b → u.units.preq.any (fun r => r.unit == b) = false →
      exec (.pwrStateSet p) s = .next (harbourRun (done q 1 v (ack q u)))) ∧
    (v = 0 → pstateOf u b = 1 ∨ pstateOf u b = 2 → u.units.preq.any (fun r => r.unit == b) = false →
      exec (.pwrStateSet p) s = .next (harbourRun (done q 1 0 (setPstate b 0 (ack q u))))) ∧
    (v ≠ 0 → v ≠ pstateOf u b → powerHalted u b = true →
      exec (.pwrStateSet p) s = .next (harbourRun (postReply (replyTo q 0x15 true 0 0) u))) ∧
    (v ≠ 0 → v ≠ pstateOf u b → powerHalted u b = false → powerOpen u b v = true →
      exec (.pwrStateSet p) s = .next (harbourRun (postReply (replyTo q 0x16 true 0 0) (ack q u)))) ∧
    (v = 1 ∨ v = 2 ∨ v = 3 → v ≠ pstateOf u b → powerHalted u b = false → powerOpen u b v = false →
      let t := accept q (if unitSecure u b then 0x02 else 0x01) u
      exec (.pwrStateSet p) s = .next (harbourRun (updUnits (fun x => { x with
          preq := x.preq ++ [⟨b, v, unitSecure u b, some ⟨q, false⟩, false⟩] })
        (if unitType b = 2 then unitEmpty b v t else t)))))) ∧
  (
  (∀ (p : Pkt) (s : State), let q := pktFit 0x0300 p; let u := came q s; passes q s = true →
    exec (.spareCore p) s = .next (harbourRun (accept q 0x01 u))) ∧
  (∀ (p : Pkt) (s : State), let q := pktFit 0x0302 p; let u := came q s; passes q s = true →
    let l := q.f 0 2
    ((lcnOf u l).parked = true ∨ lcnHalted u l = true →
      exec (.coreOffline p) s = .next (harbourRun (done q 0 0 (coreOffline l (ack q u))))) ∧
    ((lcnOf u l).parked = false → lcnHalted u l = false →
      exec (.coreOffline p) s = .next (harbourRun (postReply (replyTo q 0x16 true 0 0) (ack q u))))) ∧
  (∀ (p : Pkt) (s : State), let q := pktFit 0x0303 p; let u := came q s; passes q s = true →
    let l := q.f 0 2
    let v := ack q u
    ((coreOf u l).isSome = true → exec (.coreOnline p) s = .next (harbourRun (done q 0 0 v))) ∧
    (∀ c, coreOf u l = none → chooseSpare v (lastDie v l) true = some c →
      exec (.coreOnline p) s = .next (harbourRun (done q 0 0 (coreReset l (startCtx (c / 128) true)
        (updDie (c / 128) (fun x => { x with coreReady := setIns x.coreReady (c % 128) }) (assignCore l c v)))))) ∧
    (coreOf u l = none → chooseSpare v (lastDie v l) true = none →
      exec (.coreOnline p) s = .next (harbourRun (postReply (replyTo q 0x20 true 1 0) v)))) ∧
  (∀ (p : Pkt) (s : State), let q := pktFit 0x0304 p; let u := came q s; passes q s = true →
    let b := q.f 0 4
    (tget [] u.coh.deleted (unitDie b * 17 + unitInst b)).length < 512 →
    exec (.l3LineDelete p) s = .next (harbourRun (done q 0 0 (deleteWay (unitDie b) (unitInst b) (q.f 4 2) (q.f 6 1) (ack q u))))) ∧
  (∀ (p : Pkt) (s : State), let q := pktFit 0x0305 p; let u := came q s; passes q s = true →
    let b := q.f 0 4
    (freeSpare (u.mem.get (unitHalf b)) = none →
      exec (.memSpare p) s = .next (harbourRun (postReply (replyTo q 0x20 true 1 2) (ack q u)))) ∧
    (∀ c, freeSpare (u.mem.get (unitHalf b)) = some c →
      exec (.memSpare p) s = .next (harbourRun (startCopy (unitHalf b) (unitInst b) (some ⟨q, false⟩) (accept q 0x01 u))))) ∧
  (∀ (p : Pkt) (s : State), let q := pktFit 0x0306 p; let u := came q s; passes q s = true →
    let pp := (unitHalf (q.f 0 4)).n * 16 + unitInst (q.f 0 4)
    let x := ppOf u pp
    (q.f 4 1 = 1 → x.st = 3 → exec (.pathSet p) s = .next (harbourRun (done q 2 0 (ack q u)))) ∧
    (q.f 4 1 = 1 → x.st ≠ 3 → pathNeeded u pp = true →
      exec (.pathSet p) s = .next (harbourRun (postReply (replyTo q 0x16 true 0 0) (ack q u)))) ∧
    (q.f 4 1 = 1 → x.st ≠ 3 → pathNeeded u pp = false →
      let t := updPp pp (fun y => { y with st := 3, cycle := 0, pathups := [] }) u
      let busy := [Half.a, Half.b].any (fun h => (cssOf u h).ift.any (fun e => e.2.live && e.2.pp == pp))
      exec (.pathSet p) s = .next (harbourRun (if busy then updPp pp (fun y => { y with cmd := some ⟨q, false⟩ }) (accept q 0x01 t)
        else done q 2 (subsMoved t pp) (ack q t)))) ∧
    (q.f 4 1 = 0 → x.st = 2 → exec (.pathSet p) s = .next (harbourRun (done q 2 0 (ack q u)))) ∧
    (q.f 4 1 = 0 → x.st = 3 → x.linkUp = true → exec (.pathSet p) s = .next (harbourRun (done q 2 0 (portOnline pp (ack q u))))) ∧
    (q.f 4 1 = 0 → x.st ≠ 2 → ¬ (x.st = 3 ∧ x.linkUp = true) → exec (.pathSet p) s = .next (harbourRun
      (updPp pp (fun y => { y with st := if y.st = 3 then 1 else y.st, cycle := 1, cmd := some ⟨q, false⟩ }) (accept q 0x01 u))))) ∧
  (∀ (p : Pkt) (s : State), let q := pktFit 0x0307 p; let u := came q s; passes q s = true →
    let t := updBucket (q.f 0 4) (fun b => { b with thresh := q.f 4 2, leak := q.f 6 2 }) u
    (bucketOf t (q.f 0 4)).count < bLim (bucketOf t (q.f 0 4)).thresh →
    exec (.bucketSet p) s = .next (harbourRun (done q 0 0 t))) ∧
  (∀ (p : Pkt) (s : State), let q := pktFit 0x0308 p; let u := came q s; passes q s = true →
    exec (.homeTimerSet p) s = .next (harbourRun (done q 0 0 (updHome q.half (fun h => { h with timer := q.f 4 4 }) u)))))

/-- R442, R443, R468, R469, R476: VF_CREATE gives the function its resources or names the first that is short; VF_DESTROY and
VF_RESET end NOT_QUIESCED while work is open; VF_QUIESCE stops reading; VF_RESUME lets the function run. R471–R475: a VF_FREEZE
that passes its checks has the room its image needs and a good context list in its buffer; it stops the function's queues and
freezes its operations, or ends FAILED when bus mastering was lost or more than 384 operations are open; VF_RESTORE places the
carried operations of a good image and leaves the function frozen. -/
def Obligations.HmFunctions : Prop :=
  (
  (∀ (p : Pkt) (s : State), let q := pktFit 0x0401 p; let u := came q s; passes q s = true →
    let h := portHalf (q.f 0 1)
    (∀ a m, lowestRun (qpRanges u h 4096) (q.f 2 2) = some a → lowestRunIn 2048 (msixRanges u (q.f 0 1) 4096) (q.f 4 2) = some m →
      q.f 6 2 ≤ freeKeys u h → q.f 8 4 ≤ freeStreams u h → q.f 12 2 ≤ (freeSubs u h).length →
      exec (.vfCreate p) s = .next (harbourRun (done q 4 (res [(2, a), (2, m)]) (fnEvent q.vf (ack q
        (updFn q.vf (fun f => { f with
          created := true, firstQp := a, nqp := q.f 2 2, firstMsix := m, nmsix := q.f 4 2, nkey := q.f 6 2,
          nstream := q.f 8 4, subs := (freeSubs u h).take (q.f 12 2), nwin := q.f 14 1 }) u)))))) ∧
    (lowestRun (qpRanges u h 4096) (q.f 2 2) = none →
      exec (.vfCreate p) s = .next (harbourRun (postReply (replyTo q 0x20 true 1 0x10) (ack q u))))) ∧
  (∀ (p : Pkt) (s : State), let q := pktFit 0x0402 p; let u := came q s; passes q s = true →
    (inFlight u q.vf = true → exec (.vfDestroy p) s = .next (harbourRun (postReply (replyTo q 0x16 true 0 0) (ack q u)))) ∧
    (inFlight u q.vf = false →
      let k := q.vf
      let s1 := discardFrozen k (ack q u)
      let s2 := (fnStreams u k).foldl (fun t id => closeStream id none t) s1
      let s3 := updLh (portHalf (k / 64)) (fun l => { l with slots := l.slots.filter (fun e => e.2.fn ≠ 0x100 + k) }) s2
      let s4 := (fnQps s3 k).foldl (fun t j => updQp j (fun _ => Qp.reset) t) s3
      exec (.vfDestroy p) s = .next (harbourRun (done q 0 0 (fnEvent k (updFn k (fun f => { Fn.reset with
        cfg := f.cfg, isr := f.isr, evtEn := f.evtEn, evtVec := f.evtVec, bmeLost := f.bmeLost, urcnt := f.urcnt,
        oldWork := f.oldWork, aerU := f.aerU, aerC := f.aerC }) s4)))))) ∧
  (∀ (p : Pkt) (s : State), let q := pktFit 0x0403 p; let u := came q s; passes q s = true →
    exec (.vfQuiesce p) s = .next (harbourRun (stopReading q.vf
      (updFn q.vf (fun f => { f with quiesceCmd := some ⟨q, false⟩ }) (accept q 0x01 u))))) ∧
  (∀ (p : Pkt) (s : State), let q := pktFit 0x0406 p; let u := came q s; passes q s = true →
    exec (.vfResume p) s = .next (harbourRun (done q 0 0 (fnEvent q.vf (resumeFn q.vf
      ((fnOf u q.vf).subs.foldl (fun t n => dispatchNext (portHalf (q.vf / 64)) ((portHalf (q.vf / 64)).n * 2048 + n) t)
        (unfreeze q.vf (updFn q.vf (fun f => { f with frozen := false, quiesced := false }) (ack q u))))))))) ∧
  (∀ (p : Pkt) (s : State), let q := pktFit 0x0407 p; let u := came q s; passes q s = true →
    (inFlight u q.vf = true → exec (.vfReset p) s = .next (harbourRun (postReply (replyTo q 0x16 true 0 0) (ack q u)))) ∧
    (inFlight u q.vf = false → exec (.vfReset p) s = .next (harbourRun (done q 0 0 (runFlr q.vf (ack q u))))))) ∧
  (
  (∀ (p : Pkt) (s : State), let q := pktFit 0x0404 p; let u := came q s; passes q s = true →
    let k := q.vf
    let n := freezeCount u k
    (0x2C00 + n * 128 ≤ q.bufLen ∧ ∃ d, dmaRead u q.src.half (q.buf + 0x500) 576 = some (d, false) ∧
      ctxListOk u k (d.take 64) (d.drop 64) = true) ∧
    ((fnOf u k).bmeLost = true ∨ 384 < n →
      exec (.vfFreeze p) s = .next (harbourRun (postReply (replyTo q 0x20 true 1 0) (ack q u)))) ∧
    ((fnOf u k).bmeLost = false → n ≤ 384 →
      let t := stopReading k (updFn k (fun f => { f with freezeCmd := some ⟨q, false⟩ }) (accept q 0x01 u))
      exec (.vfFreeze p) s = .next (harbourRun ((liveOps t k).foldl (fun t x => freezeEvent x.1 x.2.1 t) t)))) ∧
  (∀ (p : Pkt) (s : State), let q := pktFit 0x0405 p; let u := came q s; passes q s = true →
    let k := q.vf
    let h := portHalf (k / 64)
    ∀ d, imageOf u q = some d →
      let ops := imageOps d
      let v := ((restoreCtx u k d).getD []).foldl
        (fun t c => (match dmaWrite t h c.1 c.2 with | some (t1, _) => t1 | none => t)) (restoreFn k d (drawn (ack q u)))
      ∃ at_, exec (.vfRestore p) s = .next (harbourRun (done q 4 ops.length (fnEvent k (updFn k (fun f => { f with frozen := true })
        (placeOps k (slice d 0x800 1024) at_ ops (drawn v)))))) ∧ ∀ i ∈ at_, i ∈ freeEntries u h))

/-- R403, R420, R422, R423: LDG_STREAM_OPEN, LDG_STREAM_CLOSE, LDG_CHECKPOINT, LDG_SPOOL_SET. R499, R500, R502: a wrapped key that
verifies fills its slot with the algorithm and the binding of the packet; one that does not ends FAILED with its reason;
KEY_GENERATE reserves the slot; KEY_ERASE empties a slot no job or stream uses. -/
def Obligations.HmLedgerKeys : Prop :=
  (
  (∀ (p : Pkt) (s : State), let q := pktFit 0x0500 p; let u := came q s; passes q s = true →
    let r := openStream (q.f 0 4) (q.f 4 2) (q.f 8 4) (q.f 12 4) (q.f 16 4) (q.f 24 8) (q.f 32 4) (openOwner q).1 (openOwner q).2
      (ack q u)
    exec (.ldgStreamOpen p) s = .next (harbourRun (done q 16 (res [(8, r.2.1), (8, r.2.2)]) r.1))) ∧
  (∀ (p : Pkt) (s : State), let q := pktFit 0x0501 p; let u := came q s; passes q s = true →
    exec (.ldgStreamClose p) s = .next (harbourRun (closeStream (q.f 0 4) (some ⟨q, false⟩) (accept q 0x01 u)))) ∧
  (∀ (p : Pkt) (s : State), let q := pktFit 0x0503 p; let u := came q s; passes q s = true →
    exec (.ldgCheckpoint p) s = .next (harbourRun (askCkpt (q.f 0 4) 3
      (updStream (q.f 0 4) (fun t => { t with ckptCmd := some ⟨q, false⟩ }) (accept q 0x01 u))))) ∧
  (∀ (p : Pkt) (s : State), let q := pktFit 0x0504 p; let u := came q s; passes q s = true →
    exec (.ldgSpoolSet p) s = .next (harbourRun (done q 0 0 (applySpool (q.f 0 4)
      (updStream (q.f 0 4) (fun t => { t with spoolNext := some (if q.f 4 2 = 0xFFFF then none else some (q.f 4 2)) }) u)))))) ∧
  (
  (∀ (p : Pkt) (s : State), let q := pktFit 0x0600 p; let u := came q s; passes q s = true → ∀ d, wrappedKey u q = some d →
    (∀ key, unwrapKey u q.src.half d = .ok key → exec (.keyLoadSlot p) s = .next (harbourRun (done q 0 0
      (setSlot q.src.half (q.f 0 2)
        { st := 1, alg := fieldAt d 5 1, world := q.f 2 1, fn := q.f 4 2, ring := q.f 6 2, key := key } (ack q u))))) ∧
    (∀ r, unwrapKey u q.src.half d = .error r →
      exec (.keyLoadSlot p) s = .next (harbourRun (postReply (replyTo q 0x20 true 1 r) (ack q u))))) ∧
  (∀ (p : Pkt) (s : State), let q := pktFit 0x0601 p; let u := came q s; passes q s = true →
    exec (.keyGenerate p) s = .next (harbourRun (setSlot q.src.half (q.f 0 2)
      { st := 2, alg := q.f 8 1, world := q.f 2 1, fn := q.f 4 2, ring := q.f 6 2, key := [] } (accept q 0x01 u)))) ∧
  (∀ (p : Pkt) (s : State), let q := pktFit 0x0602 p; let u := came q s; passes q s = true →
    let h := q.src.half
    let k := q.f 0 2
    (slotInJob u h k = true ∨ slotInStream u h k = true →
      exec (.keyErase p) s = .next (harbourRun (postReply (replyTo q 0x16 true 0 0) (ack q u)))) ∧
    (slotInJob u h k = false → slotInStream u h k = false → exec (.keyErase p) s = .next (harbourRun (done q 0 0
      (setSlot h k KSlot.empty (ack q u)))))))

/-- R505, R508, R509, R577, R581–R584, R590: time commands and the counters. R72, R252, R279, R633: the diagnostics that take time
are accepted and stay in progress. -/
def Obligations.HmTimeCounters : Prop :=
  (
  (∀ (p : Pkt) (s : State), let q := pktFit 0x0801 p; let u := came q s; passes q s = true →
    let f := fun (l : Lh) => { l with utc := q.f 0 8, att := bitOf q.flags 0 }
    exec (.timeSetOffset p) s = .next (harbourRun (done q 8 (u.st64.get q.src.half).toNat
      (ack q (bothHubs (fun g t => updLh g f t) u))))) ∧
  (∀ (p : Pkt) (s : State), let q := pktFit 0x0802 p; let u := came q s; passes q s = true →
    exec (.timeAttest p) s = .next (harbourRun (done q 0 0
      (writeBuf q (statement u q.src.half (q.f 0 16)) (ack q (drawn u)))))) ∧
  (∀ (p : Pkt) (s : State), let q := pktFit 0x0900 p; let u := came q s; passes q s = true →
    exec (.pctSelect p) s = .next (harbourRun (done q 0 0
      { u with ctrs := tset Ctr.zero u.ctrs (q.f 0 4 * 8 + q.f 4 1) { val := 0, ev := q.f 6 2, ovf := false } }))) ∧
  (∀ (p : Pkt) (s : State), let q := pktFit 0x0901 p; let u := came q s; passes q s = true →
    exec (.pctCollectSet p) s = .next (harbourRun (done q 0 0 (updColl q.half (fun c =>
      if q.f 4 4 = 0 then { c with run := false, interval := 0 }
      else { c with run := true, base := q.f 8 8, size := q.f 16 4, interval := q.f 4 4, next := 0, seq := 0, missed := 0 }) u)))) ∧
  (∀ (p : Pkt) (s : State), let q := pktFit 0x0902 p; let u := came q s; passes q s = true →
    exec (.pctFreeze p) s = .next (harbourRun (done q 8 (u.st64.get q.half).toNat (pulse q.half true u)))) ∧
  (∀ (p : Pkt) (s : State), let q := pktFit 0x0903 p; let u := came q s; passes q s = true →
    exec (.pctUreadSet p) s = .next (harbourRun (done q 0 0 (updCtx (q.f 0 2) (q.f 2 1) (fun c => { c with uread := q.f 3 1 == 1 }) u)))) ∧
  (∀ (p : Pkt) (s : State), let q := pktFit 0x0904 p; let u := came q s; passes q s = true →
    let f := fun (x : Samp) => if q.f 2 1 = 0 then { x with n := 0 }
      else { x with n := q.f 2 1, base := q.f 8 8, size := q.f 16 4, off := 0, seq := 0, missed := 0 }
    exec (.pctSampleSet p) s = .next (harbourRun (done q 0 0 (updLcn (q.f 0 2) (fun k => { k with samp := f k.samp }) u))))) ∧
  (
  (∀ (p : Pkt) (s : State), let q := pktFit 0x0A01 p; let u := came q s; passes q s = true →
    exec (.diagScrub p) s = .next (harbourRun (accept q 0x01 u))) ∧
  (∀ (p : Pkt) (s : State), let q := pktFit 0x0A02 p; let u := came q s; passes q s = true →
    let k := unitRyt (q.f 0 4)
    ((rytOf u k).st = .fenced → exec (.diagLinkRetrain p) s = .next (harbourRun (done q 1 0 (ack q u)))) ∧
    ((rytOf u k).st ≠ .fenced → exec (.diagLinkRetrain p) s = .next (harbourRun (startRetrain k (accept q 0x01 u))))) ∧
  (∀ (p : Pkt) (s : State), let q := pktFit 0x0A03 p; let u := came q s; passes q s = true →
    let l := q.f 0 2
    let c := testCore u l
    ((coreOf u l).isSome = true ∨ (lcnOf u l).parked = true →
      exec (.diagCoreTest p) s = .next (harbourRun (postReply (replyTo q 0x16 true 0 0) (ack q u)))) ∧
    (coreOf u l = none → (lcnOf u l).parked = false → coreState u c ≠ 1 → coreState u c ≠ 3 →
      exec (.diagCoreTest p) s = .next (harbourRun (accept q 0x01 u)))))

/-- R54–R59, R67: the ring commands. A tail write moves the tail and the Harbourmaster fetches; a head write moves the head and
posts the replies held; a posted reply stands in the slot at the status tail; a stop clears EN, sets STOPPED, and the ring's
commands in progress go on without replies; 1 written to STOPPED clears it. R56, R58, R64, R67: posting one held reply to a ring
with room. The 32 bytes go to the slot at the status tail with the ring's PHASE, the tail advances, and PHASE turns over as it
wraps; with NOTIFY a final reply interrupts the ring's LCN. R69: a command in progress that times out ends with one TIMEOUT reply
with LOGGED, after its COMMAND entry, and is no more in progress; R59: a command of a stopped ring gets no reply. -/
def Obligations.Rings : Prop :=
  (
  (∀ (h : Half) (l v : Nat) (s : State), live s = true → halfOn s h = true →
    exec (.sysCrTailDoorbell h l v) s =
      .next (harbourRun (updRing h (l % 3) (fun r => { r with crTail := v % ringSlots r }) s))) ∧
  (∀ (h : Half) (l v : Nat) (s : State), live s = true → halfOn s h = true →
    let t := updRing h (l % 3) (fun r => { r with srHead := v % ringSlots r }) s
    exec (.sysSrHeadWrite h l v) s = .next (harbourRun (postHeldN h (l % 3) (ringOf t h (l % 3)).held.length t))) ∧
  (∀ (h : Half) (l : Nat) (s : State), live s = true →
    exec (.statusReplyPost h l) s = .next (harbourRun (postHeldN h (l % 3) (ringOf s h (l % 3)).held.length s))) ∧
  (∀ (h : Half) (l : Nat) (s : State), live s = true → (ringOf s h (l % 3)).en = true →
    ∃ t, exec (.ringStop h l) s = .next t ∧ t.rings = (updRing h (l % 3) (fun r =>
        { r with en := false, stopped := true, held := [] }) s).rings ∧
      t.prog = s.prog.map (fun g => if g.pkt.src = .ring h (l % 3) then { g with mute := true } else g) ∧
      t.waitFence = s.waitFence.filter (fun w => w.pkt.src ≠ .ring h (l % 3)) ∧ t.mem = s.mem ∧ t.ctxs = s.ctxs) ∧
  (∀ (h : Half) (l : Nat) (s : State), live s = true →
    exec (.stoppedClear h l) s = .next (updRing h (l % 3) (fun r => { r with stopped := false }) s))) ∧
  (
  ∀ (h : Half) (l : Nat) (r : Reply) (s t : State),
    let g := ringOf s h l
    let slot := g.srBase.toNat % 2 ^ 52 + g.srTail % ringSlots g * 32
    let tail := (g.srTail + 1) % ringSlots g
    dmaWrite s h slot (replyBytes r g.phase) = some (t, false) →
    let u := updRing h l (fun k => { k with srTail := tail, phase := if tail = 0 then !k.phase else k.phase }) t
    (r.final = true → r.notify = true → ringWrite h l r s = raiseExt g.lcn g.vector u) ∧
    (r.final = false ∨ r.notify = false → ringWrite h l r s = u) ∧
    (ringSlots g = 2 ^ (min g.size 8 + 4))) ∧
  (
  ∀ (src : Src) (tag : Nat) (s : State) (g : Prog), live s = true →
    s.prog.find? (fun g => g.pkt.src == src && g.pkt.tag == tag) = some g →
    (∀ op ∈ [0x0601, 0x0403, 0x0404], g.pkt.op ≠ op) →
    let t := logNow src.half (rpt (hmUnit src.half) 2 clsNote 0x0906 (ofBytes ((pktBytes g.pkt).take 24)))
      { s with prog := dropFirst (fun x => x.pkt == g.pkt) s.prog }
    (g.mute = false → exec (.commandTimeout src tag) s =
      .next (harbourRun (postReply { replyTo g.pkt 0x22 true 0 0 with logged := true } t))) ∧
    (g.mute = true → exec (.commandTimeout src tag) s = .next (harbourRun t)))

/-- R60, R61: private writes and reads of the management port. A write of 64 bytes is a packet from the port; of any other length
it is NACKed. A read gives the oldest reply and takes it away; with none it is NACKed. R60: dynamic addresses. ENTDAA and SETDASA
give an address of 7 bits to a target that has none, Hub A answering SETDASA at 0x2C and Hub B at 0x2D; RSTDAA takes both away;
ENEC and DISEC set and clear in-band interrupts by bit 0 of the event byte (the bit's place is the model's choice, log 10). R60:
GETPID, GETBCR, GETDCR and GETSTATUS are acknowledged and answer 6, 1, 1 and 2 bytes, whose values the spec does not give (log 3).
R494: while a hub's Lighthouse lacks an image, private writes of at most 256 bytes reach its bundle and private reads answer its
status byte. -/
def Obligations.ManagementPort : Prop :=
  (
  (∀ (h : Half) (d : List Byte) (s : State), live s = true → i3cOn s h = true →
    (d.length ≠ 64 → exec (.i3cPrivateWrite h d) s = .next (updI3c h (fun x => { x with ack := false, out := [] }) s)) ∧
    (d.length = 64 → progCount s (.mgmt h) < 64 →
      exec (.i3cPrivateWrite h d) s =
        .next (harbourRun (arrive (pktOf (.mgmt h) d) (updI3c h (fun x => { x with ack := true, out := [] }) s))))) ∧
  (∀ (h : Half) (s : State), live s = true → i3cOn s h = true →
    ((s.i3c.get h).fifo = [] → exec (.i3cPrivateRead h) s = .next (updI3c h (fun x => { x with ack := false, out := [] }) s)) ∧
    (∀ r t, (s.i3c.get h).fifo = r :: t →
      exec (.i3cPrivateRead h) s =
        .next (updI3c h (fun x => { x with ack := true, out := replyBytes r false }) (updI3c h (fun x => { x with fifo := t }) s))))) ∧
  (
  (∀ (h : Half) (a : Nat) (s : State), live s = true → i3cOn s h = true → (s.i3c.get h).dyn = none →
    exec (.entdaa h a) s = .next (updI3c h (fun x => { x with ack := true, out := [] })
      (updI3c h (fun x => { x with dyn := some (a % 128) }) s))) ∧
  (∀ (h : Half) (a : Nat) (s : State), live s = true → i3cOn s h = true → (s.i3c.get h).dyn = none →
    exec (.setdasa (if h = .a then 0x2C else 0x2D) a) s = .next (updI3c h (fun x => { x with ack := true, out := [] })
      (updI3c h (fun x => { x with dyn := some (a % 128) }) s))) ∧
  (∀ (s : State), live s = true → i3cOn s .a = true →
    ∃ t, exec .rstdaa s = .next t ∧ (t.i3c.get .a).dyn = none ∧ (i3cOn s .b = true → (t.i3c.get .b).dyn = none) ∧
      (t.i3c.get .a).fifo = (s.i3c.get .a).fifo ∧ t.pkg = s.pkg ∧ t.prog = s.prog) ∧
  (∀ (h : Half) (ev : Nat) (s : State), live s = true → i3cOn s h = true → ev % 2 = 1 →
    exec (.enec h ev) s = .next (updI3c h (fun x => { x with ack := true, out := [] }) (updI3c h (fun x => { x with ibiEn := true }) s)) ∧
    exec (.disec h ev) s = .next (updI3c h (fun x => { x with ack := true, out := [] }) (updI3c h (fun x => { x with ibiEn := false }) s)))) ∧
  (
  ∀ (h : Half) (s : State), live s = true → i3cOn s h = true →
    ∀ x ∈ [(Instr.getpid h, 6), (Instr.getbcr h, 1), (Instr.getdcr h, 1), (Instr.getstatus h, 2)],
      ∃ d, d.length = x.2 ∧ exec x.1 s =
        .next (updI3c h (fun y => { y with ack := true, out := d }) { s with nonce := s.nonce + 1 })) ∧
  (
  (∀ (h : Half) (d : List Byte) (s : State), live s = true → i3cOn s h = true → cacheFull s h = false → d.length ≤ 256 →
    exec (.bundleWrite h d) s = .next (runBundleWrite h d (updI3c h (fun x => { x with ack := true, out := [] }) s))) ∧
  (∀ (h : Half) (s : State), live s = true → i3cOn s h = true → cacheFull s h = false →
    exec (.bundleRead h) s = .next (updI3c h (fun x => { x with ack := true, out := [BitVec.ofNat 8 (lhOf s h).bundleAns] }) s)))

/-- R39, R41, R43, R47: how a DRAIN ends. When its in-flight work has ended the package goes to HOLD, or begins the follow-on
transition; at its limit it does so with what R41 stops, or turns back to its source mode; the end of the transition enters the
follow-on mode and re-initialises DRAM, or returns to the source mode. R39, R45, R267: transitions out of HOLD and BRINGUP reach
their targets. R39, R48, R49, R268: a half that has been brought up. In SPLIT it runs, or the units that are late are logged and
it goes back to HELD (the package to HOLD when both halves are HELD); in DEGRADED the rejoining half begins to receive its copy;
the end of the copy makes the package MIRRORED. -/
def Obligations.ModeEnds : Prop :=
  (
  (∀ (s : State) (t : Trans), live s = true → s.pkg.mode = .drain → s.pkg.trans = some t → t.phase = 1 →
    (halvesOf s).all (halfDrained s) = true →
    (t.follow = .hold → exec (.drainComplete none) s = .next (enterHold false (if t.cmd.isSome then 0x00 else 0xFF) t.cmd s)) ∧
    (t.follow ≠ .hold → reinitClear s = true →
      exec (.drainComplete none) s = .next (updPkg (fun p => { p with trans := some { t with phase := 2 } }) s))) ∧
  (∀ (s : State) (t : Trans), live s = true → s.pkg.mode = .drain → s.pkg.trans = some t → t.phase = 1 →
    let u := (halvesOf s).foldl (fun u h => limitStop h u) s
    (t.follow = .hold → exec (.drainLimitExpiry none) s = .next (enterHold false (if t.cmd.isSome then 0x00 else 0xFF) t.cmd u)) ∧
    (t.follow ≠ .hold → reinitClear u = false →
      exec (.drainLimitExpiry none) s = .next (updPkg (fun p => { p with trans := some { t with phase := 3 } }) u))) ∧
  (∀ (s : State) (t : Trans), live s = true → s.pkg.mode = .drain → s.pkg.trans = some t → t.phase = 2 →
    let u := toMode t.follow 0x00 (undrain (updPkg (fun p => { p with trans := none }) s))
    exec .modeTransitionComplete s =
      .next (modeDone t.cmd 0x00 (thawQueues (reinit (if t.follow = .mirrored then agree (leader u) u else u))))) ∧
  (∀ (s : State) (t : Trans) (g : Prog), live s = true → s.pkg.mode = .drain → s.pkg.trans = some t → t.phase = 3 →
    t.pfw = false → t.abortCmd = some g →
    exec .modeTransitionComplete s = .next (thawQueues (modeDone (some g) 0x00 (failOpt t.cmd 0 (toMode t.source 0x00 (undrain
      (updPkg (fun p => { p with trans := none }) s)))))))) ∧
  (
  (∀ (s : State) (t : Trans), live s = true → s.pkg.mode = .hold → s.pkg.trans = some t →
    exec .modeTransitionComplete s = .next (modeDone t.cmd 0x00 (goBringup 0x00 (updPkg (fun p => { p with trans := none }) s)))) ∧
  (∀ (s : State) (t : Trans), live s = true → s.pkg.mode = .bringup → s.pkg.trans = some t → t.target ≠ .hold →
    exec .modeTransitionComplete s =
      .next (modeDone t.cmd 0x00 (enterRunning t.target 0x00 (updPkg (fun p => { p with trans := none }) s)))) ∧
  (∀ (s : State) (t : Trans), live s = true → s.pkg.mode = .bringup → s.pkg.trans = some t → t.target = .hold →
    exec .modeTransitionComplete s = .next (enterHold false 0x00 t.cmd (updPkg (fun p => { p with trans := none }) s)))) ∧
  (
  (∀ (h : Half) (s : State) (t : Trans), live s = true → s.pkg.hstate.get h = .bringup → s.pkg.mode = .split →
    s.pkg.htrans.get h = some t →
    let u := updPkg (fun p => { p with htrans := p.htrans.set h none }) s
    (runReady s h = true → exec (.halfBringupComplete h) s =
      .next (finishOpt t.cmd 0x00 4 (sysMode (fixSet h (setHState h .running u))) (fixSet h (setHState h .running u)))) ∧
    (runReady s h = false →
      let v := heldHalf false h none (lateUnits h u)
      exec (.halfBringupComplete h) s =
        .next (if v.pkg.hstate.get h.other = .held then enterHold false 0xFF t.cmd v else failOpt t.cmd 0 v))) ∧
  (∀ (s : State) (t : Trans), live s = true → s.pkg.mode = .degraded → s.pkg.trans = some t →
    s.pkg.hstate.get (runHalf s).other = .resilvering →
    let r := runHalf s
    let a := resilverCopy r s.pkg.resilver (capacity s r) (cleanAll r s)
    let b := splitDir r (toMode .mirrored 0x00 (agree r (updPkg (fun p =>
      { p with hstate := p.hstate.set r.other .running, trans := none, resilver := 0 }) a)))
    exec .resilverComplete s = .next (modeDone t.cmd 0x00 (giveSpares r.other
      (((lcnsOf b r.other).filter (fun l => (lcnOf b l).lost)).foldl (fun u l => startLcn l (lcnReturn l u)) b)))))

/-- R43–R45, R556–R559: losses. In UNIFIED a lost half takes the package to HOLD with HALFLOSS entries; in MIRRORED the other half
goes on DEGRADED; a half that does not run leaves only its entry. The alive line's timeout is the loss of its half with cause 1,
and the watchdog stops the line. R556–R559: what losses come to, each from conditions on the state alone. A half that runs, no
change of mode being under way: in UNIFIED and DEGRADED the package is in HOLD, in MIRRORED it is DEGRADED with that half FENCED,
in SPLIT that half alone is HELD; the loss of a half that is HELD or FENCED changes no mode. The alive line's timeout is such a
loss. The Breakwater's loss: HOLD from UNIFIED, DEGRADED with Half B fenced from MIRRORED, no change of mode in SPLIT. The
watchdog's expiry stops the hub's alive line. A lost die is marked so, nothing of it is left in a cache, and its modules train. -/
def Obligations.Losses : Prop :=
  (
  (∀ (h : Half) (cause : Nat) (s : State), live s = true →
    (s.pkg.mode = .unified → s.pkg.hstate.get h = .running → s.pkg.trans = none →
      exec (.halfLoss h cause) s = .next (enterHold true 0xFF none (halfLostLog h cause clsUF s))) ∧
    (s.pkg.mode = .mirrored → s.pkg.hstate.get h = .running → s.pkg.trans = none →
      exec (.halfLoss h cause) s = .next (enterDegraded h 0xFF (halfLostLog h cause clsUF s))) ∧
    (s.pkg.hstate.get h = .held ∨ s.pkg.hstate.get h = .fenced →
      exec (.halfLoss h cause) s = .next (halfLostLog h cause clsUC s))) ∧
  (∀ (h : Half) (s : State), live s = true → exec (.aliveLineTimeout h) s = exec (.halfLoss h 1) s) ∧
  (∀ (s : State), live s = true → s.cfg.part ≠ .q0800a → bwaterGone s = true →
    let note := fun (g : Half) (c : Nat) (u : State) => logNow g (rpt (hmUnit g) 3 c 0x0903 0) u
    (s.pkg.mode = .unified → exec .breakwaterLoss s = .next (enterHold true 0xFF none (note (leader s) clsUF s))) ∧
    (s.pkg.mode = .split → exec .breakwaterLoss s = .next (note .b clsUC (note .a clsUC s)))) ∧
  (∀ (h : Half) (s : State), live s = true →
    exec (.harbourmasterWatchdog h) s = .next (updPkg (fun p => { p with alive := p.alive.set h false }) s)) ∧
  (∀ (d cause : Nat) (s : State), live s = true → diePresent s d = true → (dieOf s d).lost = false → s.pkg.mode ≠ .hold →
    dieCause s d cause = true →
    exec (.dieLost d cause) s =
      .next (dieLinks d .training (updDie d (fun x => { x with lost := true }) (dieReset d (dieOut d cause s)))))) ∧
  (
  (∀ (h : Half) (cause : Nat) (s : State), live s = true → s.units.pwr.resetPend = false →
    ∀ i ∈ [Instr.halfLoss h cause, Instr.aliveLineTimeout h],
    (s.pkg.mode = .unified ∨ s.pkg.mode = .degraded → s.pkg.hstate.get h = .running → s.pkg.trans = none →
      ∃ t, exec i s = .next t ∧ t.pkg.mode = .hold) ∧
    (s.pkg.mode = .mirrored → s.pkg.hstate.get h = .running → s.pkg.trans = none →
      ∃ t, exec i s = .next t ∧ t.pkg.mode = .degraded ∧ t.pkg.hstate.get h = .fenced ∧ t.pkg.hstate.get h.other = .running) ∧
    (s.pkg.mode = .split → s.pkg.hstate.get h = .running → s.pkg.hstate.get h.other = .running → s.pkg.htrans.get h = none →
      ∃ t, exec i s = .next t ∧ t.pkg.mode = .split ∧ t.pkg.hstate.get h = .held ∧ t.pkg.hstate.get h.other = .running) ∧
    (s.pkg.hstate.get h = .held ∨ s.pkg.hstate.get h = .fenced → ∃ t, exec i s = .next t ∧ t.pkg = s.pkg)) ∧
  (∀ (s : State), live s = true → s.cfg.part ≠ .q0800a → bwaterGone s = true → s.units.pwr.resetPend = false →
    (s.pkg.mode = .unified → ∃ t, exec .breakwaterLoss s = .next t ∧ t.pkg.mode = .hold) ∧
    (s.pkg.mode = .mirrored → s.pkg.trans = none →
      ∃ t, exec .breakwaterLoss s = .next t ∧ t.pkg.mode = .degraded ∧ t.pkg.hstate.get .b = .fenced) ∧
    (s.pkg.mode = .split → ∃ t, exec .breakwaterLoss s = .next t ∧ t.pkg = s.pkg)) ∧
  (∀ (h : Half) (s : State), live s = true →
    ∃ t, exec (.harbourmasterWatchdog h) s = .next t ∧ t.pkg.alive.get h = false ∧ t.pkg.alive.get h.other = s.pkg.alive.get h.other ∧
      t.pkg.mode = s.pkg.mode ∧ t.pkg.hstate = s.pkg.hstate ∧ t.mem = s.mem ∧ t.units = s.units) ∧
  (∀ (d cause : Nat) (s : State), live s = true → diePresent s d = true → (dieOf s d).lost = false → s.pkg.mode ≠ .hold →
    dieCause s d cause = true →
    ∃ t, exec (.dieLost d cause) s = .next t ∧ (dieOf t d).lost = true ∧ (dieOf t d).ready = false ∧
      (∀ e ∈ t.coh.cache, e.1 / 2 ^ 46 ≠ d) ∧ (∀ v ∈ t.coh.victim, v.agent ≠ d) ∧
      (rytOf t (rytKey d 0)).st = .training ∧ (rytOf t (rytKey d 1)).st = .training))

/-- R101, R102: transfers of control. BR and CALL go to their operand's address, BCC when the condition in TYPE holds and else to
the next instruction; CALL pushes the next PC at G15 − 8 and RET pops it; NOP goes on. A PC keeps bits 63:57 equal to bit 56.
R124: XRET restores PC and PSW from XPC and XPSW of the current level; an XPSW whose PL is 0b11 or above the current level raises
ILLEGAL, and so does XRET's use at U raise PRIVILEGED (R79). R121, R122, R182: what an exception entry leaves. XPC, XPSW, XCODE
and XADDR of the target level (XADDR of 0x07 to 0x09 is the instruction's address), PL raised, A5, IE and SS cleared, the PC at
the vector EVB + 64 × code, its bits 63:57 copies of bit 56; the registers of the other level, the general registers and the rest
of PSW stay. R102, R119, R122: SVC and HVC complete and trap with the PC of the next instruction, their number in XCODE bits 23:8;
HVC goes to H and needs at least S. R102: WAIT. With an event pending it ends at once with CC 0; else the context waits with its
limit. The limit's expiry ends it with CC 1 and the PC past it; a limit of 0 never expires. -/
def Obligations.AnControl : Prop :=
  (
  ∀ (o : AnOp) (s s1 : State), let c := ctxOf s o.lcn o.ctx
  (∀ p s2 va w, decodePlain o 2 (fun t => t == 0) = some p → Starts o.lcn o.ctx p.n false s s1 →
    addrOf o.lcn o.ctx 1 s1 c (p.sp 0) = (s2, .ok (va, w)) →
    exec (.br o) s = .next (insnDone o.lcn o.ctx s { w with pc := canonPc va } s2)) ∧
  (∀ p s2 va w, decodePlain o 2 (fun _ => true) = some p → Starts o.lcn o.ctx p.n false s s1 →
    addrOf o.lcn o.ctx 1 s1 c (p.sp 0) = (s2, .ok (va, w)) →
    exec (.bcc o) s = .next (insnDone o.lcn o.ctx s
      { w with pc := if condHolds o.ty c.psw.cc then canonPc va else canonPc (w.pc.toNat + p.n) } s2)) ∧
  (∀ p s2 va w s3 ks, decodePlain o 2 (fun t => t == 0) = some p → Starts o.lcn o.ctx p.n false s s1 →
    addrOf o.lcn o.ctx 1 s1 c (p.sp 0) = (s2, .ok (va, w)) →
    let sp := addVa (gOf w 15) (-8)
    resolve s2 o.lcn c sp 8 .write = (s3, .ok ks) →
    exec (.call o) s = .next (insnDone o.lcn o.ctx s { setG 15 sp w with pc := canonPc va }
      (storeChunks o.lcn o.ctx ks (toBytes 8 (canonPc (c.pc.toNat + p.n)).toNat) s3))) ∧
  (∀ s2 d, decodeZero o = some 0 → Starts o.lcn o.ctx 4 false s s1 →
    readVa o.lcn o.ctx c (gOf c 15) 8 s1 = (s2, .ok d) →
    exec (.ret o) s = .next (insnDone o.lcn o.ctx s { setG 15 (gOf c 15 + 8) c with pc := canonPc (ofBytes d) } s2)) ∧
  (decodeZero o = some 0 → Starts o.lcn o.ctx 4 false s s1 →
    exec (.nop o) s = .next (insnDone o.lcn o.ctx s { c with pc := canonPc (c.pc.toNat + 4) } s1))) ∧
  (
  ∀ (o : AnOp) (s s1 : State), let c := ctxOf s o.lcn o.ctx
  decodeZero o = some 0 → Starts o.lcn o.ctx 4 false s s1 →
  let r := if c.psw.pl = .h then c.xh else c.xs
  let pl := r.xpsw.toNat / 2 ^ 30 % 4
  (c.psw.pl ≠ .u → pl ≤ c.psw.pl.n → exec (.xret o) s =
    .next (insnDone o.lcn o.ctx s { c with pc := canonPc r.xpc.toNat, psw := pswOf r.xpsw.toNat, last := true } s1)) ∧
  (c.psw.pl ≠ .u → c.psw.pl.n < pl → exec (.xret o) s = .next (insnFault o.lcn o.ctx s (xf 0x07 0) s1)) ∧
  (c.psw.pl = .u → exec (.xret o) s = .next (insnFault o.lcn o.ctx s (xf 0x08 0) s1))) ∧
  (
  ∀ (ctx : Nat) (x : Xf) (pc : W64) (c : Ctx),
    let l := if x.toH = true ∨ c.psw.pl = .h then Lvl.h else Lvl.s
    let t := enterX ctx x pc c
    let old := if l = .h then c.xh else c.xs
    let new := if l = .h then t.xh else t.xs
    new.xpc = pc ∧ new.xpsw = BitVec.ofNat 64 (c.psw.toNat ctx) ∧ new.xcode = BitVec.ofNat 64 (x.code + x.sub * 256) ∧
    new.xaddr = (if 0x07 ≤ x.code ∧ x.code ≤ 0x09 then pc else BitVec.ofNat 64 x.addr) ∧ new.evb = old.evb ∧
    t.pc = canonPc (old.evb.toNat + 64 * x.code) ∧
    t.psw = { c.psw with pl := l, a5 := false, ie := false, ss := false } ∧
    (if l = .h then t.xs = c.xs else t.xh = c.xh) ∧ t.g = c.g ∧ t.sb = c.sb ∧ t.fb = c.fb) ∧
  (
  ∀ (o : AnOp) (s s1 : State) (f : Nat), let c := ctxOf s o.lcn o.ctx
  let u := updCtx o.lcn o.ctx (fun k => { k with sdRun := 0, sdBytes := 0 }) s1
  let next := canonPc (c.pc.toNat + 4)
  decodeZero o = some f → Starts o.lcn o.ctx 4 false s s1 →
  exec (.svc o) s = .next (kick s (release o.lcn o.ctx (commit o.lcn o.ctx false
    { enterX o.ctx { code := 0x16, addr := 0, sub := f, info := 0, toH := false, va := 0, ipa := 0 } next c with last := true } u))) ∧
  (c.psw.pl ≠ .u → exec (.hvc o) s = .next (kick s (release o.lcn o.ctx (commit o.lcn o.ctx false
    { enterX o.ctx { code := 0x17, addr := 0, sub := f, info := 0, toH := true, va := 0, ipa := 0 } next c with last := true } u)))) ∧
  (c.psw.pl = .u → exec (.hvc o) s = .next (kick s (release o.lcn o.ctx (takeX o.lcn o.ctx (xf 0x08 0) c.pc u))))) ∧
  (
  (∀ (o : AnOp) (s s1 : State) (f : Nat), let c := ctxOf s o.lcn o.ctx
    decodeZero o = some f → Starts o.lcn o.ctx 4 false s s1 → c.psw.pl ≠ .u →
    (eventDue s o.lcn c = true → eventDue s1 o.lcn c = true →
      exec (.wait o) s = .next (insnDone o.lcn o.ctx s (stepLast 4 (setCc Cc.zero c)) s1)) ∧
    (eventDue s o.lcn c = false →
      let u := updCtx o.lcn o.ctx (fun k => { k with sdRun := 0, sdBytes := 0 }) s1
      eventDue u o.lcn c = false →
      exec (.wait o) s = .next (kick s (release o.lcn o.ctx (commit o.lcn o.ctx false { c with wait := some f, last := true } u))))) ∧
  (∀ (l k n : Nat) (s : State), live s = true → (ctxOf s l k).wait = some (n + 1) →
    exec (.waitLimitExpiry l k) s = .next (updCtx l k (fun c =>
      { c with wait := none, pc := canonPc (c.pc.toNat + 4), psw := { c.psw with cc := ⟨false, false, false, true⟩ },
               debugDue := c.debugDue || c.psw.ss }) s)) ∧
  (∀ (l k : Nat) (s : State), live s = true → (ctxOf s l k).wait = some 0 → exec (.waitLimitExpiry l k) s = .next s))

/-- R86, R91, R95: a value instruction. In TWO form operand 2 becomes operand 2 op operand 1, in THREE form operand 3 becomes
operand 1 op operand 2; every source is read before the destination is written; CC and the sticky flags come from the computation,
and nothing else changes but what its operands' addressing changes. -/
def Obligations.AnValues : Prop :=
  (∀ r ∈ aluRows, ∀ (o : AnOp) (s s1 s2 s3 s4 : State) (d : Dec) (os : List Opd) (w : Ctx) (a b : List Byte) (v : Val),
    let l := if o.fmt = 1 then 1 else 2
    let m := if o.fmt = 1 then 2 else 1
    let dst := if o.fmt = 1 then 3 else 2
    decodeAn o [0, 1] = some d → Starts o.lcn o.ctx d.n false s s1 → (r.2.logic = true → d.t.isInt = true) → d.t ≠ .bs →
    specsOk d [dst] = true →
    evalOps o.lcn o.ctx (withRoles d 0 [dst]) s1 (ctxOf s o.lcn o.ctx) = (s2, .ok (os, w)) →
    readOp o.lcn o.ctx d.t (opSize d.t (d.dig l) 0) s2 (os.getD (l - 1) (.reg 0)) = (s3, .ok a) →
    readOp o.lcn o.ctx d.t (opSize d.t (d.dig m) 0) s3 (os.getD (m - 1) (.reg 0)) = (s4, .ok b) →
    compute r.2 d.t w.psw (freeVal s4) (d.dig l) (d.dig m) (d.dig dst) a b = .ok v →
    let x := writeOp o.lcn o.ctx (os.getD (dst - 1) (.reg 0)) v.bytes (drawn s4, w)
    exec (r.1 o) s = .next (insnDone o.lcn o.ctx s (d.step (orFf v.ff (setCc v.cc x.2))) x.1)) ∧
  (∀ r ∈ unaryRows, ∀ (o : AnOp) (s s1 s2 s3 : State) (d : Dec) (os : List Opd) (w : Ctx) (a : List Byte) (v : Val),
    decodeAn o [0] = some d → Starts o.lcn o.ctx d.n false s s1 → (r.2.logic = true → d.t.isInt = true) → d.t ≠ .bs →
    specsOk d [2] = true → o.fmt = 0 →
    evalOps o.lcn o.ctx (withRoles d 0 [2]) s1 (ctxOf s o.lcn o.ctx) = (s2, .ok (os, w)) →
    readOp o.lcn o.ctx d.t (opSize d.t d.d1 0) s2 (os.getD 0 (.reg 0)) = (s3, .ok a) →
    compute r.2 d.t w.psw (freeVal s3) d.d1 d.d1 d.d2 a a = .ok v →
    let x := writeOp o.lcn o.ctx (os.getD 1 (.reg 0)) v.bytes (drawn s3, w)
    exec (r.1 o) s = .next (insnDone o.lcn o.ctx s (d.step (orFf v.ff (setCc v.cc x.2))) x.1))

/-- R95, R101: what ADD, SUB, MUL, MULU and NEG compute on integers of any type, as bit vectors: the wrapped result, N and Z from
it, V on signed and C on unsigned overflow; under PSW.IV an overflow raises INT_OVERFLOW instead. R95, R101, R103: integer
division truncates toward zero, the remainder has the sign of the dividend, the unsigned forms divide as numbers; a zero divisor
raises DIV_ZERO; logic, minimum and maximum clear V and C. -/
def Obligations.IntegerArithmetic : Prop :=
  (
  ∀ (t : Ty) (psw : Psw) (p : Nat) (x y : BitVec (8 * t.bytes)), t.isInt = true →
    let is := fun (k : Alu) (z : BitVec (8 * t.bytes)) (v c : Bool) =>
      compute k t psw p 0 0 0 (toBytes t.bytes x.toNat) (toBytes t.bytes y.toNat) =
        if v && psw.iv then .error (xf 0x12 0) else .ok ⟨toBytes t.bytes z.toNat, ⟨z.msb, z == 0, v, c⟩, 0⟩
    is .add (x + y) (BitVec.saddOverflow x y) (BitVec.uaddOverflow x y) ∧
    is .sub (x - y) (BitVec.ssubOverflow x y) (BitVec.usubOverflow x y) ∧
    is .mul (x * y) (BitVec.smulOverflow x y) (BitVec.umulOverflow x y) ∧
    is .mulu (x * y) (BitVec.smulOverflow x y) (BitVec.umulOverflow x y) ∧
    is .neg (-x) (BitVec.negOverflow x) (x != 0)) ∧
  (
  ∀ (t : Ty) (psw : Psw) (p : Nat) (x y : BitVec (8 * t.bytes)), t.isInt = true →
    let on := fun (k : Alu) => compute k t psw p 0 0 0 (toBytes t.bytes x.toNat) (toBytes t.bytes y.toNat)
    let is := fun (k : Alu) (z : BitVec (8 * t.bytes)) => on k = .ok ⟨toBytes t.bytes z.toNat, ⟨z.msb, z == 0, false, false⟩, 0⟩
    (y = 0 → ∀ k ∈ [Alu.div, .divu, .rem, .remu], on k = .error (xf 0x11 0)) ∧
    (y ≠ 0 → (BitVec.sdivOverflow x y = false → is .div (x.sdiv y)) ∧ is .divu (x / y) ∧ is .rem (x.srem y) ∧ is .remu (x % y)) ∧
    is .and (x &&& y) ∧ is .or (x ||| y) ∧ is .xor (x ^^^ y) ∧ is .not (~~~x) ∧
    is .min (if x.sle y then x else y) ∧ is .max (if x.sle y then y else x))

/-- R103: shifts and rotates take their count modulo the width; C is the last bit out, 0 for a count of 0; V is clear. R101: the
integer square root of a number that is not negative, rounded down. -/
def Obligations.Shifts : Prop :=
  (
  ∀ (t : Ty) (psw : Psw) (p : Nat) (x : BitVec (8 * t.bytes)) (n : Nat), t.isInt = true → n < 2 ^ (8 * t.bytes) →
    let w := 8 * t.bytes
    let k := n % w
    let is := fun (f : Alu) (z : BitVec w) (c : Bool) =>
      compute f t psw p 0 0 0 (toBytes t.bytes x.toNat) (toBytes t.bytes n) = .ok ⟨toBytes t.bytes z.toNat, ⟨z.msb, z == 0, false, c⟩, 0⟩
    is .shl (x <<< k) (decide (k ≠ 0) && x.getLsbD (w - k)) ∧
    is .shr (x >>> k) (decide (k ≠ 0) && x.getLsbD (k - 1)) ∧
    is .sar (x.sshiftRight k) (decide (k ≠ 0) && x.getLsbD (k - 1)) ∧
    is .rot (x.rotateLeft k) (decide (k ≠ 0) && (x.rotateLeft k).getLsbD 0)) ∧
  (
  ∀ (t : Ty) (psw : Psw) (p : Nat) (x : BitVec (8 * t.bytes)) (b : List Byte), t.isInt = true → x.msb = false →
    ∃ r : Nat, compute .sqrt t psw p 0 0 0 (toBytes t.bytes x.toNat) b = .ok ⟨toBytes t.bytes r, ⟨false, r == 0, false, false⟩, 0⟩ ∧
      r * r ≤ x.toNat ∧ x.toNat < (r + 1) * (r + 1))

/-- R86, R95, R101: CMP and CMPU set CC as operand 2 less operand 1 and write nothing else; TEST sets N and Z from operand 1 AND
operand 2 and clears V and C. An integer compare never raises INT_OVERFLOW. R86, R90, R91, R98, R101, R103, R139: MOV copies
operand 1 to operand 2 and keeps CC (a packed decimal number is normalised, and V is set when it loses digits; a byte string goes
in pieces); CLR writes the zero of the type; LEA writes the address of operand 1 without an access; CVT writes what the table of
R103 gives. -/
def Obligations.ComparesMoves : Prop :=
  (
  (∀ (o : AnOp) (s s1 s2 s3 s4 : State) (d : Dec) (os : List Opd) (w : Ctx) (a b : List Byte),
    decodeAn o [0] = some d → Starts o.lcn o.ctx d.n false s s1 → d.t ≠ .bs → specsOk d [] = true →
    evalOps o.lcn o.ctx (withRoles d 0 []) s1 (ctxOf s o.lcn o.ctx) = (s2, .ok (os, w)) →
    readOp o.lcn o.ctx d.t (opSize d.t d.d1 0) s2 (os.getD 0 (.reg 0)) = (s3, .ok a) →
    readOp o.lcn o.ctx d.t (opSize d.t d.d2 0) s3 (os.getD 1 (.reg 0)) = (s4, .ok b) →
    (∀ r, compareCc d.t w.psw (freeVal s4) d.d2 d.d1 b a = .ok r →
      let t := insnDone o.lcn o.ctx s (d.step (orFf r.2 (setCc r.1 w))) (drawn s4)
      exec (.cmp o) s = .next t ∧ exec (.cmpu o) s = .next t) ∧
    (d.t.isInt = true →
      let z := (ofBytes a).land (ofBytes b) % 2 ^ (8 * d.t.bytes)
      exec (.test o) s = .next (insnDone o.lcn o.ctx s
        (d.step (orFf 0 (setCc ⟨bitOf z (8 * d.t.bytes - 1), z == 0, false, false⟩ w))) (drawn s4)))) ∧
  (∀ (t : Ty) (psw : Psw) (p d2 d1 : Nat) (x y : BitVec (8 * t.bytes)), t.isInt = true →
    compareCc t psw p d2 d1 (toBytes t.bytes y.toNat) (toBytes t.bytes x.toNat) =
      .ok (⟨(y - x).msb, y == x, BitVec.ssubOverflow y x, BitVec.usubOverflow y x⟩, 0))) ∧
  (
  ∀ (o : AnOp) (s s1 s2 s3 : State) (os : List Opd) (w : Ctx) (a : List Byte), let c := ctxOf s o.lcn o.ctx
  (∀ d, decodeAn o [0] = some d → Starts o.lcn o.ctx d.n false s s1 → d.t ≠ .bs → specsOk d [2] = true →
    evalOps o.lcn o.ctx (withRoles d 0 [2]) s1 c = (s2, .ok (os, w)) →
    readOp o.lcn o.ctx d.t (opSize d.t d.d1 0) s2 (os.getD 0 (.reg 0)) = (s3, .ok a) →
    (d.t ≠ .pd → let x := writeOp o.lcn o.ctx (os.getD 1 (.reg 0)) a (s3, w)
      exec (.mov o) s = .next (insnDone o.lcn o.ctx s (d.step x.2) x.1)) ∧
    (d.t = .pd → ∀ v, pdVal d.d1 a = some v → ¬ (pdOver d.d2 v = true ∧ w.psw.dv = true) →
      let x := writeOp o.lcn o.ctx (os.getD 1 (.reg 0)) (pdPut d.d2 v) (s3, w)
      exec (.mov o) s = .next (insnDone o.lcn o.ctx s
        (d.step (if pdOver d.d2 v then setCc { x.2.psw.cc with v := true } x.2 else x.2)) x.1))) ∧
  (∀ d n va ks, decodeAn o [0] = some d → Starts o.lcn o.ctx d.n false s s1 → d.t = .bs → bsLen d c = some n →
    specsOk d [2] = true → evalOps o.lcn o.ctx (withRoles d n [2]) s1 c = (s2, .ok (os, w)) →
    readOp o.lcn o.ctx d.t n s2 (os.getD 0 (.reg 0)) = (s3, .ok a) → os.getD 1 (.reg 0) = .mem va ks →
    exec (.mov o) s = .next (bsDone o s n ks a (d.step w) s3)) ∧
  (∀ d, decodeAn o [2] = some d → Starts o.lcn o.ctx d.n false s s1 → specsOk d [1] = true →
    (d.t ≠ .bs → evalOps o.lcn o.ctx (withRoles d 0 [1]) s1 c = (s2, .ok (os, w)) →
      let x := writeOp o.lcn o.ctx (os.getD 0 (.reg 0)) (zeroOf d.t d.d1 0) (s2, w)
      exec (.clr o) s = .next (insnDone o.lcn o.ctx s (d.step x.2) x.1)) ∧
    (∀ n va ks, d.t = .bs → bsLen d c = some n → evalOps o.lcn o.ctx (withRoles d n [1]) s1 c = (s2, .ok (os, w)) →
      os.getD 0 (.reg 0) = .mem va ks →
      exec (.clr o) s = .next (bsDone o s n ks (List.replicate n 0) (d.step w) s2))) ∧
  (∀ d va, decodeAn o [0] = some d → Starts o.lcn o.ctx d.n false s s1 → d.t.isInt = true →
    specOk d.t false true (d.specs.getD 0 (.reg 0)) = true → specOk d.t true false (d.specs.getD 1 (.reg 0)) = true →
    evalOps o.lcn o.ctx [(d.specs.getD 0 (.reg 0), d.t.bytes, .adr), (d.specs.getD 1 (.reg 0), d.t.bytes, .wr)] s1 c = (s2, .ok (os, w)) →
    os.getD 0 (.reg 0) = .adr va →
    let x := writeOp o.lcn o.ctx (os.getD 1 (.reg 0)) (toBytes d.t.bytes va) (s2, w)
    exec (.lea o) s = .next (insnDone o.lcn o.ctx s (d.step x.2) x.1)) ∧
  (∀ d v, decodeCvt o = some d → Starts o.lcn o.ctx d.n false s s1 → specOk d.t false false d.a = true → specOk d.u true false d.b = true →
    evalOps o.lcn o.ctx [(d.a, opSize d.t d.d1 0, .rd), (d.b, opSize d.u d.d2 0, .wr)] s1 c = (s2, .ok (os, w)) →
    readOp o.lcn o.ctx d.t (opSize d.t d.d1 0) s2 (os.getD 0 (.reg 0)) = (s3, .ok a) →
    convert d.t d.u w.psw (freeVal s3) d.d1 d.d2 a = .ok v →
    let x := writeOp o.lcn o.ctx (os.getD 1 (.reg 0)) v.bytes (drawn s3, w)
    exec (.cvt o) s = .next (insnDone o.lcn o.ctx s (d.step (orFf v.ff (setCc v.cc x.2))) x.1)))

/-- R84, R99, R139: strings of 1 to 4096 bytes. MOVS copies them; CMPS sets CC of the first unequal pair; TRS replaces each byte
by the one of the table it selects; SRCH gives the index of the first byte equal to G1 in G0, and Z when there is one. R139: a
byte string of at most 256 bytes is stored whole; of a longer one the first piece is stored, a group of its own, and the other
pieces, 256 bytes each, are left to perform in order. R99: CMPS gives CC of the compare of the first unequal pair of bytes, and of
equal ones when there is none. R92, R100, R101, R140: the atomics, each after every earlier store of its context and globally
performed at its end. CAS compares operand 3 with operand 1; SWAP and FADD give operand 2 its new value and operand 1 the old one,
and CC stays. -/
def Obligations.StringsAtomics : Prop :=
  (
  ∀ (o : AnOp) (s s1 s2 s3 : State) (d : Dec) (n va : Nat) (k1 k2 : List Chunk) (w : Ctx) (x : List Byte), let c := ctxOf s o.lcn o.ctx
  decodeAn o [0] = some d → Starts o.lcn o.ctx d.n false s s1 → bsLen d c = some n →
  (strOps o d n n true s1 c = (s2, .ok (va, k1, k2, w)) → loadChunks o.lcn o.ctx k1 s2 = (s3, .ok x) →
    exec (.movs o) s = .next (bsDone o s n k2 x (d.step w) s3)) ∧
  (∀ s4 y, strOps o d n n false s1 c = (s2, .ok (va, k1, k2, w)) → loadChunks o.lcn o.ctx k1 s2 = (s3, .ok x) →
    loadChunks o.lcn o.ctx k2 s3 = (s4, .ok y) →
    exec (.cmps o) s = .next (bsDone o s n [] [] (d.step (setCc (firstDiff x y) w)) s4)) ∧
  (∀ s4 y, strOps o d n 256 true s1 c = (s2, .ok (va, k1, k2, w)) → loadChunks o.lcn o.ctx k1 s2 = (s3, .ok x) →
    loadChunks o.lcn o.ctx k2 s3 = (s4, .ok y) →
    exec (.trs o) s = .next (bsDone o s n k2 (y.map (fun b => x.getD b.toNat 0)) (d.step w) s4)) ∧
  (strOps o d n n false s1 c = (s2, .ok (va, k1, k2, w)) → loadChunks o.lcn o.ctx k2 s2 = (s3, .ok x) →
    let i := x.findIdx (fun b => b.toNat == gOf c 1 % 256)
    exec (.srch o) s = .next (bsDone o s n [] [] (d.step (setCc { w.psw.cc with z := decide (i < x.length) } (setG 0 i w))) s3))) ∧
  (
  ∀ (o : AnOp) (s u : State) (n : Nat) (ks : List Chunk) (x : List Byte) (w : Ctx),
    (n ≤ 256 → bsDone o s n ks x w u = insnDone o.lcn o.ctx s { w with last := true } (storeChunks o.lcn o.ctx ks x u)) ∧
    (256 < n → ∃ p ps, piecesOf ((n + 255) / 256) (partsOf ks x) = p :: ps ∧ ps.length = (n + 255) / 256 - 1 ∧
      bsDone o s n ks x w u = insnDone o.lcn o.ctx s { w with last := true, pieces := ps }
        (runPiece o.lcn o.ctx p (retireGroup o.lcn o.ctx u)))) ∧
  (
  ∀ (x y : List Byte), x.length = y.length →
    (x = y → firstDiff x y = ⟨false, true, false, false⟩) ∧
    (∀ i (hx : i < x.length) (hy : i < y.length), x.take i = y.take i → x[i] ≠ y[i] →
      firstDiff x y = ⟨(y[i] - x[i]).msb, false, BitVec.ssubOverflow y[i] x[i], BitVec.usubOverflow y[i] x[i]⟩)) ∧
  (
  ∀ (o : AnOp) (s s1 s2 : State) (d : Dec) (w : Ctx), let c := ctxOf s o.lcn o.ctx
  let rd := fun u op => readOp o.lcn o.ctx d.t d.t.bytes u op
  let wr := fun op v x => writeOp o.lcn o.ctx op (toBytes d.t.bytes v) x
  let wrMem := fun op v x => atomWrite o.lcn o.ctx op (toBytes d.t.bytes v) x
  let ended := fun (x : State × Ctx) (f : Ctx → Ctx) => insnDone o.lcn o.ctx s (stepPc d.n (f x.2)) (drainAll o.lcn o.ctx x.1)
  (∀ p1 p2 p3 o1 o2 o3 u1 u2 u3 (a b m : List Byte), decodeAn o [1] = some d → Starts o.lcn o.ctx d.n false s s1 →
    atomTy d.t = true → d.specs = [p1, p2, p3] → specOk d.t true false p1 = true → specOk d.t false false p2 = true →
    specOk d.t true false p3 = true →
    atomEval o d.t.bytes [1, 3] 1 d.specs s1 c = (s2, .ok ([o1, o2, o3], w)) →
    rd (oneShot o.lcn o.ctx s2) o1 = (u1, .ok a) → rd u1 o2 = (u2, .ok b) → rd u2 o3 = (u3, .ok m) →
    (ofBytes m = ofBytes a → exec (.cas o) s =
      .next (ended (wrMem o3 (ofBytes b) (u3, w)) (fun k => setCc { k.psw.cc with z := true } k))) ∧
    (ofBytes m ≠ ofBytes a → exec (.cas o) s =
      .next (ended (wr o1 (ofBytes m) (wrMem o3 (ofBytes m) (u3, w))) (fun k => setCc { k.psw.cc with z := false } k)))) ∧
  (∀ p1 p2 o1 o2 u1 u2 (a m : List Byte), decodeAn o [0] = some d → Starts o.lcn o.ctx d.n false s s1 →
    atomTy d.t = true → d.specs = [p1, p2] → specOk d.t true false p1 = true → specOk d.t true false p2 = true →
    atomEval o d.t.bytes [1, 2] 1 d.specs s1 c = (s2, .ok ([o1, o2], w)) →
    rd (oneShot o.lcn o.ctx s2) o1 = (u1, .ok a) → rd u1 o2 = (u2, .ok m) →
    exec (.swap o) s = .next (ended (wr o1 (ofBytes m) (wrMem o2 (ofBytes a) (u2, w))) id) ∧
    exec (.fadd o) s = .next (ended (wr o1 (ofBytes m) (wrMem o2 ((ofBytes a + ofBytes m) % 256 ^ d.t.bytes) (u2, w))) id)))

/-- R77, R78, R93, R171: reads and writes of control registers, of PSW and of the frame banks. R77, R78, R79: which control
register needs which level, and what a write of PSW may change. R127, R128: SVA5 and LDA5 move the A5 registers to and from a
256-byte area aligned to 64 bytes, at S and above. -/
def Obligations.ControlRegisters : Prop :=
  (
  ∀ (o : AnOp) (s s1 s2 : State) (d : Dec) (w : Ctx), let c := ctxOf s o.lcn o.ctx
  let sp := fun i => d.specs.getD i (.reg 0)
  let dest := fun i (v : Nat) (u : State) (k : Ctx) => ∃ op s' k', evalOp o.lcn o.ctx d.t.bytes .wr u k (sp i) = (s', .ok (op, k')) ∧
    let x := writeOp o.lcn o.ctx op (toBytes d.t.bytes v) (s', k')
    s2 = x.1 ∧ w = stepPc d.n x.2
  let two := decodeAn o [0] = some d ∧ Starts o.lcn o.ctx d.n false s s1 ∧ d.t.isInt = true
  let one := decodeAn o [2] = some d ∧ Starts o.lcn o.ctx d.n false s s1 ∧ d.t.isInt = true
  (∀ k, two → specOk d.t false false (sp 0) = true → specOk d.t true false (sp 1) = true → crCheck c (crNum (sp 0)) = .ok k → dest 1 (crRead s1 o.lcn o.ctx c k) s1 c →
    exec (.mfcr o) s = .next (insnDone o.lcn o.ctx s w s2)) ∧
  (∀ k v, two → d.specs.all (specOk d.t false false) = true → crCheck c (crNum (sp 1)) = .ok k →
    ¬ (k = 0x24 ∧ bitOf v 0 = true ∧ fld v 63 52 = 0) → rdSrc o d 0 s1 c = (s2, .ok (v, w)) →
    exec (.mtcr o) s = .next (insnDone o.lcn o.ctx s (stepLast d.n (crWrite k v w)) s2)) ∧
  (one → specOk d.t true false (sp 0) = true → dest 0 (c.psw.toNat o.ctx) s1 c →
    exec (.mfpsw o) s = .next (insnDone o.lcn o.ctx s w s2)) ∧
  (∀ v, one → specOk d.t false false (sp 0) = true → rdSrc o d 0 s1 c = (s2, .ok (v, w)) →
    exec (.mtpsw o) s = .next (insnDone o.lcn o.ctx s (stepLast d.n { w with psw := pswWrite v w.psw }) s2)) ∧
  (∀ u v b k, two → d.specs.all (specOk d.t false false) = true → rdSrc o d 0 s1 c = (u, .ok (v, k)) → rdSrc o d 1 u k = (s2, .ok (b, w)) → b ≤ 3 →
    exec (.wrfb o) s = .next (insnDone o.lcn o.ctx s (stepLast d.n { w with fb := tset 0 w.fb b (bv64 (v / 4096 * 4096)) })
      (updCtx o.lcn o.ctx (fun x => { x with frame := x.frame.filter (fun l => l.1 / 64 ≠ b) }) s2))) ∧
  (∀ u b k, two → specOk d.t false false (sp 0) = true → specOk d.t true false (sp 1) = true → rdSrc o d 0 s1 c = (u, .ok (b, k)) → b ≤ 3 →
    dest 1 (tget 0 k.fb b).toNat u k → exec (.rdfb o) s = .next (insnDone o.lcn o.ctx s w s2))) ∧
  (
  (∀ (c : Ctx) (k : Nat) (l : Lvl), crLevel k = some l →
    (crCheck c (some k) = .ok k ↔ (l = .s ∧ c.psw.pl ≠ .u) ∨ (l = .h ∧ c.psw.pl = .h)) ∧
    ((l = .s → c.psw.pl = .u) → (l = .h → c.psw.pl ≠ .h) → crCheck c (some k) = .error (xf 0x08 0))) ∧
  (∀ (c : Ctx) (k : Nat), crLevel k = none → crCheck c (some k) = .error (xf 0x07 0)) ∧
  (∀ (k v : Nat) (c : Ctx), k ∈ [0x04, 0x0C, 0x12, 0x13, 0x28, 0x29, 0x2C, 0x2D, 0x2E, 0x30] → crWrite k v c = c) ∧
  (∀ (v : Nat) (p : Psw), let q := pswWrite v p
    q.pl = p.pl ∧ q.a5 = p.a5 ∧ (p.pl = .u → q.ie = p.ie ∧ q.ss = p.ss) ∧
    q.cc = ccOf (v % 16) ∧ (p.pl ≠ .u → q.ie = (pswOf v).ie ∧ q.ss = (pswOf v).ss))) ∧
  (
  ∀ (o : AnOp) (s s1 s2 : State) (d : Dec) (ks : List Chunk) (w : Ctx), let c := ctxOf s o.lcn o.ctx
  decodeAn o [2] = some d → areaOk d = true → Starts o.lcn o.ctx d.n false s s1 → c.psw.pl ≠ .u →
  (areaOf o d .write s1 c = (s2, .ok (ks, w)) →
    exec (.sva5 o) s = .next (insnDone o.lcn o.ctx s (stepPc d.n w) (storeChunks o.lcn o.ctx ks (a5Area c) s2))) ∧
  (∀ s3 x, areaOf o d .read s1 c = (s2, .ok (ks, w)) → loadChunks o.lcn o.ctx ks s2 = (s3, .ok x) →
    exec (.lda5 o) s = .next (insnDone o.lcn o.ctx s (stepLast d.n (a5Load x w)) s3)))

/-- R191–R193: an invalidation removes its entries on its own core at once; a broadcast one is under way to the other cores of the
domain, where TLB_INVALIDATION_ARRIVAL removes them; TLBSYNC ends with all of the context's own arrived. R104, R106, R114, R115:
WRPKR and RDPKR move the protection key register; PUBLISH ends once every earlier store of the context is globally performed, and
raises MACHINE_CHECK when one of them was poisoned. R105, R116, R188, R189: TLOCK walks and locks the entry of a page, CC 0, in
place of every entry of the page; the unlocked entries keep the other slots. With 64 other entries locked it locks nothing, CC 2.
TUNLOCK unlocks it, CC 0, or ends with CC 1 where none was locked. R117, R588: RDPCT reads counter 0 to 7 of its core: the count,
and the sticky overflow bit in bit 63; another number raises ILLEGAL, and at U it needs UREAD. -/
def Obligations.Translations : Prop :=
  (
  ∀ (o : AnOp) (s s1 : State), let c := ctxOf s o.lcn o.ctx
  let after := fun (bcast : Bool) (m : Tlbi) (u : State) => let t := tlbiApply m o.lcn u
    if bcast ∧ m.left ≠ [] then { t with tlbq := t.tlbq ++ [m] } else t
  let levelOk := fun (hOnly : Bool) => c.psw.pl = .h ∨ (c.psw.pl = .s ∧ hOnly = false)
  (∀ r ∈ tlbiRows, ∀ d s2 v w, o.ty = r.2.1 → decodeAn o [2] = some d → Starts o.lcn o.ctx d.n false s s1 →
    specOk d.t false false (d.specs.getD 0 (.reg 0)) = true → levelOk r.2.2.2.2 → rdSrc o d 0 s1 c = (s2, .ok (v, w)) →
    exec (r.1 o) s = .next (insnDone o.lcn o.ctx s (stepPc d.n w)
      (after r.2.2.2.1 (tlbiOf r.2.2.1 v o.lcn o.ctx w (if r.2.2.2.1 then tlbDomain s2 o.lcn else [])) s2))) ∧
  (decodeZero o = some 0 → Starts o.lcn o.ctx 4 false s s1 → levelOk false →
    exec (.tlbiall o) s = .next (insnDone o.lcn o.ctx s (stepPc 4 c) (after true (tlbiOf 2 0 o.lcn o.ctx c (tlbDomain s1 o.lcn)) s1)) ∧
    exec (.tlbiallL o) s = .next (insnDone o.lcn o.ctx s (stepPc 4 c) (after false (tlbiOf 2 0 o.lcn o.ctx c []) s1))) ∧
  (decodeZero o = some 0 → Starts o.lcn o.ctx 4 false s s1 → c.psw.pl ≠ .u →
    ∃ t, exec (.tlbsync o) s = .next (insnDone o.lcn o.ctx s (stepPc 4 c) t) ∧ t = syncAll (o.lcn * 2 + o.ctx) s1 ∧
      ∀ m ∈ t.tlbq, m.src ≠ o.lcn * 2 + o.ctx) ∧
  (∀ l m q, live s = true → tlbiArrive l s.tlbq = (some m, q) →
    exec (.tlbInvalidationArrival l) s = .next (tlbiApply m l { s with tlbq := q })) ∧
  (∀ l q, live s = true → tlbiArrive l s.tlbq = (none, q) → exec (.tlbInvalidationArrival l) s = .next s)) ∧
  (
  ∀ (o : AnOp) (s s1 s2 : State) (w : Ctx), let c := ctxOf s o.lcn o.ctx
  (∀ p v, decodeDev o 2 = some p → Starts o.lcn o.ctx p.n false s s1 → rdVal o .i64 (p.sp 0) s1 c = (s2, .ok (v, w)) →
    exec (.wrpkr o) s = .next (insnDone o.lcn o.ctx s (stepPc p.n { w with pkr := BitVec.ofNat 64 v }) s2)) ∧
  (∀ p op, decodeDev o 2 = some p → Starts o.lcn o.ctx p.n false s s1 → wrVal o (p.sp 0) s1 c = (s2, .ok (op, w)) →
    let x := writeOp o.lcn o.ctx op (toBytes 8 w.pkr.toNat) (s2, w)
    exec (.rdpkr o) s = .next (insnDone o.lcn o.ctx s (stepPc p.n x.2) x.1)) ∧
  (decodeZero o = some 0 → Starts o.lcn o.ctx 4 false s s1 → let t := drainAll o.lcn o.ctx s1
    ((ctxOf t o.lcn o.ctx).badStore = none → exec (.publish o) s = .next (insnDone o.lcn o.ctx s (stepPc 4 c) t)) ∧
    (∀ pa, (ctxOf t o.lcn o.ctx).badStore = some pa → exec (.publish o) s = .next (insnFault o.lcn o.ctx s
      { code := 1, addr := pa, sub := 2, info := 0, toH := true, va := 0, ipa := 0 }
      (updCtx o.lcn o.ctx (fun k => { k with badStore := none }) t))))) ∧
  (
  ∀ (o : AnOp) (p : Plain) (s s1 s2 : State) (va : Nat) (w : Ctx), let c := ctxOf s o.lcn o.ctx
  decodeDev o 2 = some p → Starts o.lcn o.ctx p.n false s s1 → memSpec (p.sp 0) = true → c.psw.pl ≠ .u →
  addrOf o.lcn o.ctx 1 s1 c (p.sp 0) = (s2, .ok (va, w)) →
  let locks := (lcnOf s2 o.lcn).locks
  let held := locks.any (tlbHit w va)
  let ended := fun k t => insnDone o.lcn o.ctx s (stepLast p.n (setCc (codeCc k) w)) t
  let others := fun l : List TlbEntry => l.filter (fun e => !tlbHit w va e)
  (∀ s3 t, translate s2 o.lcn w va .tlock = (s3, .ok t) →
    (held = false ∧ 64 ≤ locks.length → exec (.tlock o) s = .next (ended 2 s3)) ∧
    (held = true ∨ locks.length < 64 → exec (.tlock o) s = .next (ended 0 (updLcn o.lcn (fun k =>
      { k with locks := others k.locks ++ [t.ent], itlb := others k.itlb, dtlb := others k.dtlb, tlb := others k.tlb,
               slots := (others k.slots).take (63 - (others k.locks).length) }) s3)))) ∧
  exec (.tunlock o) s = .next (ended (if held then 0 else 1)
    (updLcn o.lcn (fun k => { k with locks := others k.locks }) s2))) ∧
  (
  (∀ (o : AnOp) (p : Plain) (s s1 s2 : State) (v : Nat) (k : Ctx), let c := ctxOf s o.lcn o.ctx
    decodeDev o 0 = some p → Starts o.lcn o.ctx p.n false s s1 →
    specOk .i16 false false (p.sp 0) = true → specOk .i64 true false (p.sp 1) = true →
    (c.psw.pl = .u → c.uread = false → exec (.rdpct o) s = .next (insnFault o.lcn o.ctx s (xf 0x08 0) s1)) ∧
    (¬ (c.psw.pl = .u ∧ c.uread = false) → rdVal o .i16 (p.sp 0) s1 c = (s2, .ok (v, k)) →
      (8 ≤ v → exec (.rdpct o) s = .next (insnFault o.lcn o.ctx s (xf 0x07 0) s2)) ∧
      (v < 8 → ∀ s3 op w, wrVal o (p.sp 1) s2 k = (s3, .ok (op, w)) →
        let x := writeOp o.lcn o.ctx op (toBytes 8 (ctrRead (ctrOf (tally s3) (coreUnit o.lcn) v))) (tally s3, w)
        exec (.rdpct o) s = .next (insnDone o.lcn o.ctx s (stepPc p.n x.2) x.1)))) ∧
  (∀ (c : Ctr), c.val < 2 ^ 48 → let v := ctrRead c
    v % 2 ^ 63 = c.val ∧ v < 2 ^ 64 ∧ (v / 2 ^ 63 = 1 ↔ c.ovf = true)))

/-- R105, R107–R113, R118: the one-shot instructions act as a PUBLISH (CSTART, LAPPEND, CMD), are performed once by their unit,
and end with its result code in CC; CSTART and LAPPEND give the number to operand 3, CTEST the record to operand 2. -/
def Obligations.OneShots : Prop :=
  ∀ (o : AnOp) (p : Plain) (s s1 s2 : State) (v : Nat) (w1 : Ctx), let c := ctxOf s o.lcn o.ctx
  let ended := fun code (x : State × Ctx) => insnDone o.lcn o.ctx s (stepPc p.n (setCc (codeCc code) x.2)) x.1
  let perform := fun u op => devPerform (devReq o u c) op u
  (∀ r ∈ [(Instr.cstart, Ty.i16, 32, startOf), (.lappend, .i32, 16, appendOf)],
    ∀ s3 ks w2 s4 dst w3 s5 s6 d, decodeDev o 1 = some p → Starts o.lcn o.ctx p.n false s s1 → c.psw.pl ≠ .u →
    specOk r.2.1 false false (p.sp 0) = true → memSpec (p.sp 1) = true → specOk .i64 true false (p.sp 2) = true →
    rdVal o r.2.1 (p.sp 0) s1 c = (s2, .ok (v, w1)) → memVal o r.2.2.1 .read (p.sp 1) s2 w1 = (s3, .ok (ks, w2)) →
    wrVal o (p.sp 2) s3 w2 = (s4, .ok (dst, w3)) → publish o.lcn o.ctx s4 = (s5, .ok ()) →
    loadChunks o.lcn o.ctx ks (oneShot o.lcn o.ctx s5) = (s6, .ok d) →
    let a := perform s6 (r.2.2.2 v d)
    exec (r.1 o) s = .next (ended a.code (writeOp o.lcn o.ctx dst (toBytes 8 a.num) (a.st, w3)))) ∧
  (∀ s3 ks w2, decodeDev o 0 = some p → Starts o.lcn o.ctx p.n false s s1 → c.psw.pl ≠ .u →
    specOk .i16 false false (p.sp 0) = true → memSpec (p.sp 1) = true →
    rdVal o .i16 (p.sp 0) s1 c = (s2, .ok (v, w1)) → memVal o 32 .write (p.sp 1) s2 w1 = (s3, .ok (ks, w2)) →
    let a := perform (oneShot o.lcn o.ctx s3) (.test v)
    (a.code = 3 → exec (.ctest o) s = .next (ended 3 (a.st, w2))) ∧
    (a.code ≠ 3 → exec (.ctest o) s = .next (ended a.code (storeChunks o.lcn o.ctx ks a.out a.st, w2)))) ∧
  (decodeDev o 2 = some p → Starts o.lcn o.ctx p.n false s s1 → c.psw.pl ≠ .u → specOk .i16 false false (p.sp 0) = true →
    rdVal o .i16 (p.sp 0) s1 c = (s2, .ok (v, w1)) →
    let u := oneShot o.lcn o.ctx s2
    exec (.chalt o) s = .next (ended (perform u (.halt v)).code ((perform u (.halt v)).st, w1)) ∧
    exec (.cclear o) s = .next (ended (perform u (.clear v)).code ((perform u (.clear v)).st, w1))) ∧
  (∀ s0 ks w0 s3 s4 d, decodeDev o 0 = some p → Starts o.lcn o.ctx p.n false s s1 →
    memSpec (p.sp 0) = true → specOk .i8 false false (p.sp 1) = true → memVal o 64 .read (p.sp 0) s1 c = (s0, .ok (ks, w0)) →
    rdVal o .i8 (p.sp 1) s0 w0 = (s2, .ok (v, w1)) → publish o.lcn o.ctx s2 = (s3, .ok ()) →
    loadChunks o.lcn o.ctx ks (oneShot o.lcn o.ctx s3) = (s4, .ok d) →
    let a := perform s4 (.cmd v d)
    exec (.cmd o) s = .next (ended a.code (a.st, w1)))

/-- R129–R133: A5 loads, stores and moves. Addresses are EAs above CBASE, modulo 2^32; LDB extends its byte with zeros; LDI and a
move from D to AC extend the sign; a return continues at the next EA. R133, R134: A5 arithmetic, logic, decimals and shifts are
the AN computations on registers of one class, with the flags in A5CC, and raise the AN exceptions. -/
def Obligations.A5Values : Prop :=
  (
  ∀ (o : A5Op) (s s1 : State), let c := ctxOf s o.lcn o.ctx
  A5Starts o s s1 →
  let ended := fun w t => Host.Outcome.next (insnDone o.lcn o.ctx s (a5Next w) t)
  let word := fun ea => (c.cbase.toNat + ea) % 2 ^ 64
  (o.ra = 0 ∧ o.rb = 0 ∧ o.f = 0 → exec (.a5Nop o) s = ended c s1) ∧
  (∀ r s2 x k, a5Reg o.ra = some r → let n := (BitVec.ofNat 32 k + BitVec.signExtend 32 (BitVec.ofNat 16 o.f)).toNat
    let short := c.bnk.toNat * 65536 + o.f % 65536
    (a5Reg o.rb = some (.a (o.rb)) → a5Get c (.a o.rb) = k → n ≤ c.clim.toNat →
      (readVa o.lcn o.ctx c (word n) r.bytes s1 = (s2, .ok x) → exec (.a5Ld o) s = ended (a5Set r (ofBytes x) c) s2) ∧
      (r.isD = true → readVa o.lcn o.ctx c (word n) 1 s1 = (s2, .ok x) → exec (.a5Ldb o) s = ended (a5Set r (ofBytes x) c) s2) ∧
      (∀ ks, resolve s1 o.lcn c (word n) r.bytes .write = (s2, .ok ks) →
        exec (.a5St o) s = ended c (storeChunks o.lcn o.ctx ks (toBytes r.bytes (a5Get c r)) s2)) ∧
      (∀ ks, r.isD = true → resolve s1 o.lcn c (word n) 1 .write = (s2, .ok ks) →
        exec (.a5Stb o) s = ended c (storeChunks o.lcn o.ctx ks (toBytes 1 (a5Get c r)) s2)) ∧
      (r.isA = true → exec (.a5Lea o) s = ended (a5Set r n c) s1)) ∧
    (o.rb = 0 → short ≤ c.clim.toNat →
      (readVa o.lcn o.ctx c (word short) r.bytes s1 = (s2, .ok x) → exec (.a5Lds o) s = ended (a5Set r (ofBytes x) c) s2) ∧
      (∀ ks, resolve s1 o.lcn c (word short) r.bytes .write = (s2, .ok ks) →
        exec (.a5Sts o) s = ended c (storeChunks o.lcn o.ctx ks (toBytes r.bytes (a5Get c r)) s2))) ∧
    (o.rb = 0 → exec (.a5Ldi o) s = ended (a5Set r (BitVec.signExtend r.bits (BitVec.ofNat 16 o.f)).toNat c) s1) ∧
    (o.rb = 0 → r.isAc = false → exec (.a5Lui o) s = ended (a5Set r (BitVec.signExtend r.bits (BitVec.ofNat 32 (o.f * 65536))).toNat c) s1) ∧
    (∀ q, o.f = 0 → a5Reg o.rb = some q → ¬ (r.isA = true ∧ q.isAc = true) → ¬ (r.isAc = true ∧ q.isA = true) →
      exec (.a5Mov o) s = ended (a5Set r (if r.isAc = true ∧ q.isD = true then (BitVec.signExtend 128 (BitVec.ofNat 64 (a5Get c q))).toNat
        else a5Get c q) c) s1))) ∧
  (
  ∀ (o : A5Op) (s s1 : State), let c := ctxOf s o.lcn o.ctx
  A5Starts o s s1 →
  let ends := fun (i : A5Op → Instr) (k : Alu) (t : Ty) (n : Nat) (r : A5Reg) (x y : List Byte) =>
    (∀ v, compute k t c.psw 0 n n n x y = .ok v →
      exec (i o) s = .next (insnDone o.lcn o.ctx s (a5Next { a5Set r (ofBytes v.bytes) c with a5cc := v.cc }) s1)) ∧
    (∀ e, compute k t c.psw 0 n n n x y = .error e → exec (i o) s = .next (insnFault o.lcn o.ctx s e s1))
  let reg := fun r => toBytes r.bytes (a5Get c r)
  (∀ r q, a5Reg o.ra = some r → a5Reg o.rb = some q → o.f = 0 → a5Ty r = a5Ty q →
    (∀ i ∈ a5AluRows, i.2.2 r = true → ends i.1 i.2.1 (a5Ty r) 0 r (reg r) (reg q)) ∧
    (r.isD = true → ends .a5Not .not .i64 0 r (reg q) (reg q)) ∧
    (∀ i ∈ a5DecRows, r.isAc = true → ends i.1 i.2 .pd 31 r (reg r) (reg q))) ∧
  (∀ r, a5Reg o.ra = some r → o.rb = 0 → r.isD = true → o.f < 64 →
    ∀ i ∈ a5ShiftRows, ends i.1 i.2 .i64 0 r (reg r) (toBytes 8 o.f)) ∧
  (∀ r, a5Reg o.ra = some r → o.rb = 0 → r.isD = false →
    ends .a5Addi .add (a5Ty r) 0 r (reg r) (toBytes r.bytes (BitVec.signExtend r.bits (BitVec.ofNat 16 o.f)).toNat)))

/-- R133, R134: A5 compares, branches, calls and TRAP. R126, R129–R132: what an A5 instruction raises by its form: ILLEGAL outside
A5 mode, A5_CLASS for registers of classes it does not take, A5_LIMIT for an EA above CLIM. -/
def Obligations.A5Control : Prop :=
  (
  ∀ (o : A5Op) (s s1 : State), let c := ctxOf s o.lcn o.ctx
  A5Starts o s s1 →
  let ended := fun w t => Host.Outcome.next (insnDone o.lcn o.ctx s w t)
  let here := (c.pc.toNat + 2 ^ 64 - c.cbase.toNat) % 2 ^ 64
  let rel := (BitVec.ofNat 32 (here + 4) + BitVec.signExtend 32 (BitVec.ofNat 16 o.f) * 4).toNat
  let at_ := fun (ea : Nat) (w : Ctx) => { w with pc := canonPc (c.cbase.toNat + ea % 2 ^ 32) }
  let sp := (BitVec.ofNat 32 (a5Get c (.a 7)) - 4).toNat
  let push := fun (i : A5Op → Instr) (ea : Nat) => ∀ s2 ks, sp ≤ c.clim.toNat →
    resolve s1 o.lcn c ((c.cbase.toNat + sp) % 2 ^ 64) 4 .write = (s2, .ok ks) →
    exec (i o) s = ended (at_ ea (a5Set (.a 7) sp c)) (storeChunks o.lcn o.ctx ks (toBytes 4 (here + 4)) s2)
  (∀ r q, a5Reg o.ra = some r → a5Reg o.rb = some q → o.f = 0 → a5Ty r = a5Ty q →
    let x := BitVec.ofNat r.bits (a5Get c r)
    let y := BitVec.ofNat r.bits (a5Get c q)
    let cc : Cc := ⟨(x - y).msb, x == y, BitVec.ssubOverflow x y, BitVec.usubOverflow x y⟩
    exec (.a5Cmp o) s = ended (a5Next { c with a5cc := cc }) s1 ∧ exec (.a5Cmpu o) s = ended (a5Next { c with a5cc := cc }) s1) ∧
  (∀ r, a5Reg o.ra = some r → o.rb = 0 →
    let x := BitVec.ofNat r.bits (a5Get c r)
    let y := BitVec.signExtend r.bits (BitVec.ofNat 16 o.f)
    exec (.a5Cmpi o) s =
      ended (a5Next { c with a5cc := ⟨(x - y).msb, x == y, BitVec.ssubOverflow x y, BitVec.usubOverflow x y⟩ }) s1) ∧
  (o.rb = 0 → (o.ra < 12 ∨ o.ra = 16) →
    exec (.a5Bc o) s = ended (if o.ra = 16 ∨ condHolds o.ra c.a5cc = true then at_ rel c else a5Next c) s1) ∧
  (o.ra = 0 → o.rb = 0 → push .a5Call rel) ∧
  (∀ n, a5Reg o.rb = some (.a n) →
    (o.ra = 0 → o.f = 0 → push .a5Callr (a5Get c (.a n))) ∧
    (o.ra = 0 → exec (.a5Jmp o) s =
      ended (at_ (BitVec.ofNat 32 (a5Get c (.a n)) + BitVec.signExtend 32 (BitVec.ofNat 16 o.f)).toNat c) s1)) ∧
  (∀ s2 x, o.ra = 0 → o.rb = 0 → o.f = 0 → a5Get c (.a 7) ≤ c.clim.toNat →
    readVa o.lcn o.ctx c ((c.cbase.toNat + a5Get c (.a 7)) % 2 ^ 64) 4 s1 = (s2, .ok x) →
    exec (.a5Ret o) s = ended (at_ (ofBytes x) (a5Set (.a 7) (a5Get c (.a 7) + 4) c)) s2) ∧
  (o.ra = 0 → o.rb = 0 → exec (.a5Trap o) s = .next (kick s (release o.lcn o.ctx (commit o.lcn o.ctx false
    { enterX o.ctx { code := 0x16, addr := 0, sub := o.f, info := 0, toH := false, va := 0, ipa := 0 } (a5Next c).pc c with last := true } s1))))) ∧
  (
  ∀ (o : A5Op) (s s1 : State), let c := ctxOf s o.lcn o.ctx
  (Starts o.lcn o.ctx 2 false s s1 →
    ∀ i ∈ [Instr.a5Nop, .a5Ld, .a5St, .a5Mov, .a5Add, .a5Dadd, .a5Shl, .a5Cmp, .a5Bc, .a5Ret, .a5Trap],
      exec (i o) s = .next (insnFault o.lcn o.ctx s (xf 0x07 0) s1)) ∧
  (A5Starts o s s1 → ∀ r q, a5Reg o.ra = some r → a5Reg o.rb = some q → o.f = 0 → a5Ty r ≠ a5Ty q →
    ∀ i ∈ a5AluRows, i.2.2 r = true → exec (i.1 o) s = .next (insnFault o.lcn o.ctx s (xf 0x09 0) s1)) ∧
  (A5Starts o s s1 → ∀ r n, a5Reg o.ra = some r → a5Reg o.rb = some (.a n) →
    let ea := (BitVec.ofNat 32 (a5Get c (.a n)) + BitVec.signExtend 32 (BitVec.ofNat 16 o.f)).toNat
    c.clim.toNat < ea →
    exec (.a5Ld o) s = .next (insnFault o.lcn o.ctx s (xf 0x0A ((c.cbase.toNat + ea) % 2 ^ 64)) s1) ∧
    exec (.a5St o) s = .next (insnFault o.lcn o.ctx s (xf 0x0A ((c.cbase.toNat + ea) % 2 ^ 64)) s1)))

/-- R24, R41, R77, R120, R123, R125, R136, R530: an asynchronous event is taken between instructions (`b`: the pieces of a BS
instruction have performed, the group in flight retires), in order of priority (machine check, clock loss, mode change, debug,
external); taking it clears what made it pending; a masked one stays pending. R142, R144–R148, R160: an error eligible for retry
rolls back the contexts that used the structure, drops what R142 drops and begins an attempt. At an entry that erred in this
sequence, or that the core has rewritten, it is persistent: an L2 line is deleted instead, at most 8 times, or the LCN needs
sparing. An error of a locked TLB entry reloads it besides; a dirty L2 sector is poisoned with no retry; one found too late is not
contained. A failed attempt is followed by the next, a failed second one by sparing; a success ends the retry and counts for the
core and its die. -/
def Obligations.CoreEvents : Prop :=
  (
  ∀ (s : State) (l c v : Nat), let b := finishPieces l c s
  let k := ctxOf b l c
  live s = true →
  let x : Nat → Nat → Bool → Xf := fun code sub h => { code := code, addr := 0, sub := sub, info := 0, toH := h, va := 0, ipa := 0 }
  let taken := fun e got => Host.Outcome.next (takeX l c e k.pc (got (retireGroup l c b)))
  ((ckOf s l c).rest = none → b = s) ∧
  (atBoundary b l c = true → k.mcheck = none →
    (k.clockLoss = true →
      exec (.clockLossInterrupt l c) s = taken (x 0x02 0 true) (updCtx l c (fun y => { y with clockLoss := false }))) ∧
    (k.clockLoss = false →
      (k.modeChange = true → k.psw.ie = true →
        exec (.modeChangeInterrupt l c) s = taken (x 0x03 0 true) (updCtx l c (fun y => { y with modeChange := false }))) ∧
      (k.debugDue = true → (k.modeChange = false ∨ k.psw.ie = false) →
        exec (.debugException l c) s = taken (x 0x04 0 false) (updCtx l c (fun y => { y with debugDue := false }))) ∧
      (k.psw.ie = true → k.modeChange = false → k.debugDue = false → (lcnOf b l).ext.contains v = true →
        exec (.externalInterrupt l c v) s = taken (x 0x20 v false) (updLcn l (fun y => { y with ext := setDel y.ext v }))))) ∧
  (k.psw.ie = false → exec (.externalInterrupt l c v) s = .next s ∧ exec (.modeChangeInterrupt l c) s = .next s)) ∧
  (
  ∀ (s : State), live s = true →
  (∀ (e : CoreErr) (core : Nat), let l := e.lcn
    let k := lcnOf s l
    k.attempt < 3 → coreOf s l = some core → lcnRuns s l = true →
    let key := e.arr.n * 2 ^ 40 + e.entry % 2 ^ 40
    let again := e.arr ≠ .arith ∧ (key ∈ k.errs ∨ key ∈ k.rewritten)
    let who := (k.rolled ++ rolledBy e).eraseDups
    let t := dropErring core e (who.foldl (fun u c => rollBack l c u) s)
    let erred := updLcn l (fun y =>
      if again then
        (if (e.arr = .l2tag ∨ e.arr = .l2data) ∧ k.l2deleted.length < 8 then
          { y with attempt := 1, rolled := who, errs := y.errs.erase key, rewritten := y.rewritten.erase key,
                   l2deleted := y.l2deleted ++ [e.entry] }
         else { y with attempt := 4, rolled := who })
      else { y with attempt := max 1 y.attempt, rolled := who, errs := y.errs ++ [key] }) t
    let did := exec (.coreErrorDetected l e.entry ⟨e.ctx, e.arr, e.sector⟩) s
    (e.arr ≠ .late → e.arr ≠ .tlbLock → ¬ (e.arr = .l2data ∧ l2Of s core e.sector = .m) → did = .next erred) ∧
    (e.arr = .tlbLock → did = .next (reloadLock e erred)) ∧
    (e.arr = .l2data → l2Of s core e.sector = .m → did = .next (poisonL2 core e.sector s)) ∧
    (e.arr = .late → e.ctx ≤ 1 → (ctxOf s l e.ctx).mcheck = none →
      let u := updCtx l e.ctx (endWait Cc.zero) (betweenInsns l e.ctx s)
      did = .next (takeX l e.ctx { code := 1, addr := 0, sub := 4, info := 0, toH := true, va := 0, ipa := 0 } (ctxOf u l e.ctx).pc
        (logNow (dieHalf (core / 128)) (rpt (pcUnit core) 1 clsUC 0x0106 (res [(2, l), (1, e.ctx)])) u)))) ∧
  (∀ l c, (lcnOf s l).attempt < 3 → coreOf s l = some c → (lcnOf s l).attempt ≠ 0 →
    exec (.retryAttemptEnd l false) s = .next (updLcn l (fun y => { y with attempt := y.attempt + 1 }) s) ∧
    (let s0 := updLcn l (fun y => { y with attempt := 0, rolled := [], rewritten := (y.rewritten ++ y.errs).eraseDups, errs := [] }) s
      let t := updDie (c / 128) (fun y => { y with retry := tmod 0 y.retry (c % 128) (fun n => sat (n + 1) 0xFFFFFFFF) }) s0
      exec (.retryAttemptEnd l true) s = .next (bucketHit (retryUnit (c / 128)) (c % 128 + tget 0 (dieOf t (c / 128)).retry (c % 128) * 256)
        (bump (dieUnit (c / 128)) 0x181 1 (bump (coreUnit l) 0xD 1 t))).1)))

/-- R143, R277: a leaky bucket. A corrected error adds 1; at the threshold, where 0 acts as 1, it overflows: the count goes to 0,
the overflow count is one more, at most 65,535, and an entry is written; a leak takes 1 away while there is one. R149–R158: a move
of an LCN goes to the spare R150 chooses, under a route change, once its contexts stand at a group boundary, the L2 it leaves is
flushed and its images are written; with none free it is parked. At its end the spare loads the images, the core it left is
FAILED, and a lost context stands at the H vector of MACHINE_CHECK. -/
def Obligations.CoreMoves : Prop :=
  (
  (∀ (b : Bucket), let r := bucketAdd b
    let full := decide (max 1 b.thresh ≤ b.count + 1)
    r.2 = full ∧ r.1.thresh = b.thresh ∧ r.1.leak = b.leak ∧ r.1.count = (if full then 0 else b.count + 1) ∧
    r.1.ovf = (if full then min (b.ovf + 1) 65535 else b.ovf)) ∧
  (∀ (u : Nat) (s : State), live s = true →
    exec (.bucketLeak u) s = .next (updBucket u (fun b => { b with count := b.count - 1 }) s) ∧
    (unitReady s u = true → unitType u ≠ 3 → unitType u ≠ 1 → let r := bucketAdd (bucketOf s u)
      exec (.correctedError u) s = .next (if r.2 then logNow (unitHalf u) (bucketReport u r.1 0) (updBucket u (fun _ => r.1) s)
        else updBucket u (fun _ => r.1) s)) ∧
    (unitReady s u = true → unitType u = 1 → exec (.correctedError u) s = .next (bucketHit u 0 (bump u 0x183 1 s)).1) ∧
    (unitReady s u = true → unitType u = 3 → exec (.correctedError u) s = .next (memCe (unitHalf u) (unitInst u) s)))) ∧
  (
  ∀ (s : State) (l : Nat), let k := lcnOf s l
  live s = true →
  (∀ c n, coreOf s l = some c → s.moves.any (fun m => m.lcn == l) = false → needsSpare k = true →
    chooseSpare s (c / 128) true = some n → ∀ ue,
    let m : Move := { lcn := l, old := c, new := n, cause := moveCause k, cmd := spareCmd s l }
    let s1 := vacate l c n ue s
    exec (.coreMove l ⟨[], ue⟩) s = .next (routeStart (moveScope m) { s1 with moves := s1.moves ++ [m] })) ∧
  (∀ c, coreOf s l = some c → s.moves.any (fun m => m.lcn == l) = false → needsSpare k = true → spareCmd s l = none →
    chooseSpare s (c / 128) true = none → ∀ ue,
    exec (.coreMove l ⟨[], ue⟩) s = .next (logNow (dieHalf (c / 128)) (rpt (pcUnit c) 2 clsUC 0x0104 (res [(2, l), (1, c / 128), (1, c % 128)]))
      (addFailed c (parkLcn l (updLcn l (fun x => { x with last := some c }) (vacate l c c ue s)))))) ∧
  (∀ m : Move, s.moves.find? (fun m => m.lcn == l) = some m → m.cmd = none →
    let s1 := { drawn s with moves := dropFirst (fun x => x.lcn == l) s.moves }
    let s2 := updCtx l 1 resumeLost (updCtx l 0 resumeLost (dropLocal l (addFailed m.old (assignCore l m.new (loadImage l s1)))))
    let s3 := countMove m.old (updDie (m.new / 128) (fun x => { x with coreReady := setIns x.coreReady (m.new % 128) }) s2)
    exec (.coreMoveComplete l) s = .next (logNow (dieHalf (m.old / 128)) (rpt (pcUnit m.old) (moveLevel m) clsCR 0x0103
      (res [(2, l), (1, m.old / 128), (1, m.old % 128), (1, m.new / 128), (1, m.new % 128), (2, freeVal s % 2 ^ 16), (1, m.cause)]))
      (runRouteEnd (moveScope m) s3))) ∧
  (∀ c n c0, lcnRuns s l = true → c ≤ 1 → coreOf s l = some c0 → let t := drainSb l c n (rollBack l c s)
    let u := updCtx l c (fun x => { x with sb := [], mcheck := some (3, 0) }) t
    exec (.contextLost l c n) s = .next (logNow (dieHalf (c0 / 128)) (rpt (pcUnit c0) 1 clsUC 0x0105 (res [(2, l), (1, c)]))
      (updLcn l (fun y => { y with attempt := 5 }) (setCk l c { Ckpt.reset with sel := (ckOf u l c).sel } u)))) ∧
  (∀ (c : Ctx) (a : Nat), c.mcheck = some (3, a) → let t := resumeLost c
    t.pc = c.xh.evb + 0x40 ∧ t.psw = Psw.reset ∧ t.mcheck = none ∧ t.xh.xpc = 0 ∧ t.xh.xpsw = 0 ∧ t.xh.xaddr = 0 ∧ t.xh.xcode = 0x301 ∧
    t.xh.evb = c.xh.evb ∧ t.xs = c.xs ∧ t.cbase = c.cbase ∧ t.ttbrH = c.ttbrH ∧ t.ttbrS = c.ttbrS ∧ t.vttbr = c.vttbr))

/-- R210, R214, R215, R221, R222: a request that reaches its home. It waits behind an open transaction of its sector; without a
free transaction entry it gets RETRY with HINT 5, or parks at tide level 7; else it opens one and snoops those R215 names, and
with nobody to ask it ends at once. A request that leaves a copy needs a directory entry: in a full set it waits for the
back-invalidation of the least recently used one, or gets RETRY with HINT 2 where all are pinned. R200, R208, R209, R214, R215:
what a request ends with when no copy is dirty. RDS is granted E with nobody else holding the sector, else S; RDX and UPG get
ownership, which in MIRRORED mode is E, UPG without data while the requester still holds the sector; RDC completes with data and
memory unchanged. What memory supplies the Stockpot may hold from then on. -/
def Obligations.HomeRequests : Prop :=
  (
  ∀ r ∈ homeRows, ∀ (m : Msg) (s : State), let s1 := take r.2 m s
  let h := homeFor s1 m.from_ m.sector
  let home := s1.home.get h
  let line := m.sector / 4
  arrives r.2 m s → (r.2 = .atm → atmNew m s) →
  let refused := fun hint => if m.tide = 7 then updHome h (fun k => { k with park := k.park ++ [{ req := r.2, m := m }] }) s1
    else bump (homeSource s1 h m.from_ m.sector) 0x203 1 (send .retry { bare m m.agent with aux := hint }
      (updCoh (fun k => { k with refused := k.refused ++ [{ req := r.2, m := m }] }) s1))
  let starts := fun tx s2 => let ask := snoopSet s2 h r.2 m
    let t := newTx r.2 m tx ask
    let s3 := repin h line (putTx h tx (some t) s2)
    if ask = [] then finishTx h tx t s3 else ask.foldl (fun u a => send (snoopOp r.2 m.aux) { bare m a with txid := tx, home := h } u) s3
  (locked home m.sector = true →
    exec (r.1 m) s = .next (updHome h (fun k => { k with waiting := k.waiting ++ [{ req := r.2, m := m }] }) s1)) ∧
  (locked home m.sector = false → freeTx home = none → exec (r.1 m) s = .next (refused 5)) ∧
  (∀ tx, locked home m.sector = false → freeTx home = some tx →
    let full := needsEntry r.2 = true ∧ (dirOf s1 h line).v = false ∧ 24 ≤ (setOf home line).length
    (¬ full → exec (r.1 m) s = .next (starts tx (if needsEntry r.2 then touchEntry h line s1 else s1))) ∧
    (full → victimEntry home line = none → exec (r.1 m) s = .next (refused 2)) ∧
    (∀ e, full → victimEntry home line = some e →
      ((listed e.2 = [] ∧ ∀ a ∈ e.2.own, a = 31) → exec (r.1 m) s = .next (starts tx (touchEntry h line
        (setDir h e.1 (fun _ => DirEnt.none) (bump (homeSource s1 h m.from_ (e.1 * 4)) 0x206 1 s1))))) ∧
      (¬ (listed e.2 = [] ∧ ∀ a ∈ e.2.own, a = 31) →
        exec (r.1 m) s = .next (backInvalidate h tx e { req := r.2, m := m } s1))))) ∧
  (
  ∀ (h : Half) (tx : Nat) (t : HTrans) (s : State), t.backInv = false → t.dirty = none →
  let m := t.m
  let v := stockRead h (m.sector / 4) s
  let grants := fun u op (x : Option (List Byte)) bad =>
    send op { bare m m.agent with txid := tx, poison := bad, hasData := x.isSome, data := x.getD [] } (putTx h tx (some { t with phase := 1 }) u)
  let mem := fun u => homeMem u m.from_ m.sector
  let own := fun u => if effMode u = .mirrored then MsgOp.gntE else .gntM
  let d := dirOf v h (m.sector / 4)
  (t.req = .rds → finishTx h tx t s =
    grants v (if ownerOf d m.sector = 31 ∧ (∀ a ∈ listed d, a = m.agent) then .gntE else .gntS) (some (mem v).1) (mem v).2) ∧
  (t.req = .rdx → finishTx h tx t s = grants v (own v) (some (mem v).1) (mem v).2) ∧
  (t.req = .upg → finishTx h tx t s =
    (if m.agent ∈ listed (dirOf s h (m.sector / 4)) ∧ (csec s m.agent m.sector).st ≠ .i then grants s (own s) none false
     else grants s (own s) (some (mem s).1) (mem s).2)) ∧
  (t.req = .rdc → finishTx h tx t s =
    repin h (m.sector / 4) (putTx h tx none (send .cmp { bare m m.agent with poison := (mem v).2, hasData := true, data := (mem v).1 } v))))

/-- R216, R224, R225: an agent's answer to a snoop, its copy left as the table says; MISS where it holds none; EVICTING while its
writeback notice is out. R211, R212, R214, R216, R219, R221, R224, R229: a home absorbs a response its transaction awaits. Dirty
data are kept for the end, or written by a back-invalidation; an agent that keeps a copy is listed, the owner of a sector is
cleared by RSP_S and RSP_I, RSP_I and RSP_MISS drop an agent that holds nothing of the line, RSP_EVICTING of the owner makes the
home await its writeback, and the last response ends the transaction. RSP_MISS of the recorded owner loses the sector. -/
def Obligations.Snoops : Prop :=
  (
  ∀ (m : Msg) (s : State),
  ∀ r ∈ [(Instr.snps, MsgOp.snps), (.snpx, .snpx), (.snpc, .snpc), (.snpk, .snpk), (.snpi, .snpi)], arrives r.2 m s →
  let s1 := take r.2 m s
  let c := csec s1 m.agent m.sector
  let out := s1.coh.victim.any (fun v => v.agent = m.agent && v.sector = m.sector)
  (out = false → ∀ e ∈ snoopTable, e.1 = r.2 → e.2.1 = c.st →
    exec (r.1 m) s = .next (send e.2.2.1
      { bare m m.agent with hasData := e.2.2.2.1, data := if e.2.2.2.1 then c.data else [], poison := e.2.2.2.1 && c.poison }
      (setCsec m.agent m.sector (if e.2.2.2.2 = .i then CSector.none else { c with st := e.2.2.2.2 }) s1))) ∧
  (out = false → c.st = .i → exec (r.1 m) s = .next (send .rspMiss (bare m m.agent) (setCsec m.agent m.sector CSector.none s1))) ∧
  (out = true → exec (r.1 m) s = .next (send .rspEvicting (bare m m.agent)
    (if r.2 = .snpx ∨ r.2 = .snpi then setCsec m.agent m.sector CSector.none s1 else s1)))) ∧
  (
  ∀ (m : Msg) (s : State) (t : HTrans),
  tget none (s.home.get m.home).trans m.txid = some t → t.await.contains m.agent = true → locks t m.sector = true →
  let a := m.agent
  let line := m.sector / 4
  let d := dirOf s m.home line
  let owns := d.v = true ∧ ownerOf d m.sector = a
  let bcast := (s.home.get m.home).bcast.contains (dirSet line)
  let gone := (upTo 4).all (fun i => (csec s a (line * 4 + i)).st == .i)
  let kept := m.hasData = true ∧ t.backInv = false
  let t1 : HTrans := { t with await := t.await.erase a, dirty := if kept then some m.data else t.dirty, poison := if kept then m.poison else t.poison }
  let goOn := fun (u : State) => if t1.await = [] ∧ t1.evicting = [] ∧ t1.phase = 0 then settle m.home (finishTx m.home m.txid t1 u)
    else putTx m.home m.txid (some t1) u
  let dir := fun f u => if d.v = true then setDir m.home line f u else u
  (∀ r ∈ [(Instr.rspE m, MsgOp.rspE), (.rspO m, .rspO), (.rspM m, .rspM)], arrives r.2 m s → exec r.1 s = .next (goOn (dir (fun e =>
    addHolder a (if bcast = true ∧ ownerOf e m.sector = 31 then setOwner m.sector a e else e)) (take r.2 m s)))) ∧
  (arrives .rspS m s → exec (.rspS m) s = .next (goOn (dir (fun e =>
    addHolder a (if owns then setOwner m.sector 31 e else e)) (take .rspS m s)))) ∧
  (arrives .rspI m s → let u := take .rspI m s
    exec (.rspI m) s = .next (goOn (dir (fun e =>
        let e1 := if gone then delHolder a e else e
        if owns then setOwner m.sector 31 e1 else e1)
      (if t.backInv = true ∧ m.hasData = true then homePut m.from_ m.sector m.data m.poison u else u)))) ∧
  (arrives .rspMiss m s → let u := take .rspMiss m s
    let logged := logNow m.home (rpt (homeSource u m.home m.from_ m.sector) 2 clsUC 0x0302 (logPa m.sector + a * 2 ^ 64)) u
    (¬ owns → exec (.rspMiss m) s = .next (goOn (if gone then dir (delHolder a) u else u))) ∧
    (owns → t.backInv = false → exec (.rspMiss m) s = .next (settle m.home (poisonTx m.home m.txid t1 logged))) ∧
    (owns → t.backInv = true → exec (.rspMiss m) s = .next (goOn (setDir m.home line (setOwner m.sector 31)
      (putSector logged m.from_ m.sector (homeMem logged m.from_ m.sector).1 true))))) ∧
  (arrives .rspEvicting m s → let u := take .rspEvicting m s
    let waits := owns ∨ (bcast = true ∧ wbnOut u a m.sector = true)
    (waits → exec (.rspEvicting m) s = .next (putTx m.home m.txid (some { t1 with evicting := t1.evicting ++ [a] }) u)) ∧
    (¬ waits → exec (.rspEvicting m) s = .next (goOn u))))

/-- R219: a response, or a writeback notice, that comes for a transaction the home has ended is discarded; the agent is sent SNPI
for the sector, and a notice is answered with WBACK. The answer to that SNPI is discarded in turn. -/
def Obligations.LateResponses : Prop :=
  ∀ (m : Msg) (s : State),
  let rest := fun op => dropFirst (fun x => x == { op := op, m := m }) s.coh.net
  let snpi : NetMsg := { op := .snpi, m := { bare m m.agent with home := m.home, txid := 4096, tide := 2 } }
  let net := fun l => Host.Outcome.next { s with coh := { s.coh with net := l } }
  (∀ op, op ≠ .wbn → arrives op m s → exec (.lateResponse op m) s = net (rest op ++ [snpi])) ∧
  (arrives .wbn m s → exec (.lateResponse .wbn m) s = net (rest .wbn ++ [snpi, { op := .wback, m := { bare m m.agent with tide := 4 } }])) ∧
  (∀ r ∈ [(Instr.rspI, MsgOp.rspI), (.rspS, .rspS), (.rspE, .rspE), (.rspO, .rspO), (.rspM, .rspM), (.rspMiss, .rspMiss), (.rspEvicting, .rspEvicting)],
    tget none (s.home.get m.home).trans m.txid = none → arrives r.2 m s →
    exec (r.1 m) s = net (rest r.2 ++ if m.txid = 4096 then [] else [snpi]))

/-- R211, R214, R218, R221, R222, R224, R225, R229: the rest of a home's work. CACK records the holder, and the owner when one was
granted, and unlocks the sector; a writeback notice of the owner goes to memory, clears the owner and is answered WBACK; a freed
entry serves the oldest parked request; an expired timer poisons the sector, logs the silent agents and ends, a grant not
acknowledged having completed its requester; PURGE gives up a line of an L3 and what the L2s of the die hold of its set. R208,
R213, R214, R222, R225, R243: what a requester does. A grant installs the sector in its state and is acknowledged; a completion
and a WBACK end what they answer; a refused request waits, and is sent again as it was at the tide level it had reached. -/
def Obligations.HomeEnds : Prop :=
  (
  ∀ (m : Msg) (s : State) (h : Half),
  (∀ t, let s1 := take .cack m s
    arrives .cack m s → tget none (s.home.get m.home).trans m.txid = some t → t.phase = 1 → t.m.agent = m.agent → t.m.sector = m.sector →
    m.agent < 18 →
    exec (.cack m) s = .next (settle m.home (endTx m.home m.txid t (setDir m.home (m.sector / 4) (fun e =>
      addHolder m.agent (if m.opd1 = 1 then setOwner m.sector m.agent e else e)) s1)))) ∧
  (let g := homeFor s m.from_ m.sector
    let s1 := take .wbn m s
    let d := dirOf s1 g (m.sector / 4)
    arrives .wbn m s →
    s1.coh.victim.any (fun v => v.agent = m.agent && v.sector = m.sector) = true → d.v = true → ownerOf d m.sector = m.agent →
    m.hasData = true →
    let put := homePut m.from_ m.sector m.data m.poison s1
    let seen := if m.poison = true then logNow g (rpt (homeSource s1 g m.from_ m.sector) 2 clsUC 0x0304 (logPa m.sector)) put else put
    let t := send .wback { bare m m.agent with home := g } (setDir g (m.sector / 4) (setOwner m.sector 31) seen)
    (∀ e ∈ (t.home.get g).trans, ∀ k, e.2 = some k → m.agent ∉ k.evicting) →
    exec (.wbn m) s = .next t) ∧
  (∀ q rest, live s = true → (s.home.get h).park = q :: rest →
    exec (.homeParkRelease h) s = .next (homeServe h q (updHome h (fun k => { k with park := rest }) s))) ∧
  (live s = true → (s.home.get h).park = [] → exec (.homeParkRelease h) s = .next s) ∧
  (∀ tx t, live s = true → tget none (s.home.get h).trans tx = some t → let f := t.m.from_
    let sec := t.m.sector
    let who := (t.await ++ t.evicting ++ if t.phase = 1 then [t.m.agent] else []).eraseDups
    let s0 := bump (homeSource s h f sec) 0x204 1 s
    let lost := let u := putSector s0 f sec (homeMem s0 f sec).1 true
                bump (homeSource u h f sec) 0x205 1 u
    let ended := if t.phase = 1 then
        endTx h tx t (if (dirOf lost h (sec / 4)).v = true then setDir h (sec / 4) (setOwner sec 31) lost else lost)
      else poisonTx h tx t s0
    let named := logNow h (rpt (homeSource s h f sec) 2 clsUC 0x0301 (ofBytes (pack ([(8, logPa sec), (2, tx)] ++ (who.take 6).map (fun a => (2, a)))))) ended
    exec (.homeTimeout h tx) s = .next (settle h ((who.filter (fun a => a < 16)).foldl (fun u d => updDie d (fun x =>
      { x with silent := ((u.st64.get h).toNat :: x.silent).take 3 }) u) named))) ∧
  (∀ die way line ue stateErr, live s = true → let slice := line % 2 ^ 36 % 17
    let set := line % 1024
    let s0 := poisonSectors die ue s
    let dirty := fun i => if stateErr = true then (csec s0 die (line * 4 + i)).st != .i else (csec s0 die (line * 4 + i)).st.dirty
    let mask := ((upTo 4).filter dirty).foldl (fun n i => n + 2 ^ i) 0
    let s1 := (upTo 4).foldl (fun t i => if l2Dirty s0 die (line * 4 + i) ∧ (csec t die (line * 4 + i)).st.dirty then evictSector die (line * 4 + i) t
      else setCsec die (line * 4 + i) CSector.none t) s0
    exec (.purge die slice set way line ue stateErr) s = .next (l3Erred die slice set way
      (logNow (dieHalf die) (rpt (srcOf (dieHalf die) die 2 slice) 1 (if mask = 0 then clsCE else clsUC) 0x0202
        (ofBytes (pack [(1, slice), (2, set), (1, way), (1, mask)]))) (purgeL2 die slice set s1))))) ∧
  (
  ∀ (m : Msg) (s : State),
  (∀ r ∈ [(Instr.gntS, MsgOp.gntS, Moesi.s), (.gntE, .gntE, .e), (.gntM, .gntM, .m)], arrives r.2.1 m s → m.agent < 18 →
    exec (r.1 m) s = .next (send .cack { bare m m.agent with opd1 := if r.2.2 = .s then 0 else 1 }
      (install m.agent m.sector r.2.2 (if m.hasData then some m.data else none) m.poison (take r.2.1 m s)))) ∧
  (arrives .cmp m s → m.agent < 18 → exec (.cmpCompletion m) s = .next (take .cmp m s)) ∧
  (arrives .wback m s → exec (.wback m) s =
    .next (updCoh (fun k => { k with victim := dropFirst (fun v => v.agent == m.agent && v.sector == m.sector) k.victim }) (take .wback m s))) ∧
  (∀ op, arrives .retry m s → let mine := fun (q : HReq) => q.req == op && q.m.agent == m.agent && q.m.sector == m.sector
    (∀ q, s.coh.refused.find? mine = some q → exec (.retry op m) s =
      .next (updCoh (fun k => { k with refused := dropFirst mine k.refused, retries := k.retries ++ [q] }) (take .retry m s))) ∧
    (s.coh.refused.find? mine = none → exec (.retry op m) s =
      .next (updCoh (fun k => { k with retries := k.retries ++ [{ req := op, m := m }] }) (take .retry m s)))) ∧
  (∀ a sec q, live s = true → s.coh.retries.find? (fun q => q.m.agent == a && q.m.sector == sec) = some q →
    exec (.retryResend a sec) s = .next (updCoh (fun k =>
      { k with retries := dropFirst (fun x => x == q) k.retries, net := k.net ++ [{ op := q.req, m := q.m }] }) s)))

/-- R242, R253, R262: a message that waits for a module of its path, or behind an earlier packet of its flow, stays under way; one
outside the Breakwater's current row is discarded, and the sender of a request learns of it by AERR. R200, R208, R209, R213–R215,
R223, R226, R236, R262, R275: each request completes, here with no agent to ask. RDS, RDX and UPG are granted the sector, which
stays locked for the acknowledgement; RDC, WRF, WRP, ATM and MNT are done: read, written whole, merged, executed by the NMU,
maintained, and completed by CMP, in MIRRORED mode once the mirror has the sector. -/
def Obligations.CoherentCompletion : Prop :=
  (
  ∀ (m : Msg) (s : State), live s = true →
  ∀ r ∈ [(Instr.rdx m, MsgOp.rdx), (.wrf m, .wrf), (.wbn m, .wbn), (.snpx m, .snpx), (.rspI m, .rspI), (.gntM m, .gntM), (.cack m, .cack),
         (.wback m, .wback), (.mirw m, .mirw)],
    (bwStops s ⟨r.2, m⟩ = false → (linksUp s ⟨r.2, m⟩ = false ∨ behind s ⟨r.2, m⟩ = true) → exec r.1 s = .next s) ∧
    (bwStops s ⟨r.2, m⟩ = true → let t := take r.2 m s
      exec r.1 s = .next (if toFar r.2 = true then updFab (fun x => { x with aerrs := x.aerrs ++ [(m.agent, m.sector)] }) t else t))) ∧
  (
  ∀ (m : Msg) (s : State) (h : Half) (tx : Nat) (o : State),
  let v := stockRead h (m.sector / 4) o
  let mem := fun u => homeMem u m.from_ m.sector
  let grants := fun u op new (x : Option (List Byte)) bad =>
    send new { bare m m.agent with txid := tx, poison := bad, hasData := x.isSome, data := x.getD [] }
      (putTx h tx (some { newTx op m tx [] with phase := 1 }) u)
  let own := fun u => if effMode u = .mirrored then MsgOp.gntE else .gntM
  let ends := fun (x : Option (List Byte)) bad u =>
    repin h (m.sector / 4) (putTx h tx none (send .cmp { bare m m.agent with txid := tx, poison := bad, hasData := x.isSome, data := x.getD [] } u))
  let ended := fun op (x : Option (List Byte)) bad u =>
    if effMode u = .mirrored then
      putTx h tx (some { newTx op m tx [] with phase := 2, dirty := x, poison := bad })
        (send .mirw { bare m m.agent with txid := tx, home := h, poison := (mem u).2, hasData := true, data := (mem u).1 } u)
    else ends x bad u
  (opensAlone .rds m s h tx o → let d := dirOf v h (m.sector / 4)
    exec (.rds m 0) s = .next (grants v .rds (if ownerOf d m.sector = 31 ∧ (∀ a ∈ listed d, a = m.agent) then .gntE else .gntS)
      (some (mem v).1) (mem v).2)) ∧
  (opensAlone .rdx m s h tx o → exec (.rdx m) s = .next (grants v .rdx (own v) (some (mem v).1) (mem v).2)) ∧
  (opensAlone .upg m s h tx o → exec (.upg m) s = .next
    (if m.agent ∈ listed (dirOf o h (m.sector / 4)) ∧ (csec o m.agent m.sector).st ≠ .i then grants o .upg (own o) none false
     else grants o .upg (own o) (some (mem o).1) (mem o).2)) ∧
  (opensAlone .rdc m s h tx o → exec (.rdc m) s = .next (ends (some (mem v).1) (mem v).2 v)) ∧
  (opensAlone .wrf m s h tx o →
    exec (.wrf m) s = .next (ended .wrf none (homeFailed o m.from_ m.sector) (homePut m.from_ m.sector m.data m.poison o))) ∧
  (opensAlone .wrp m s h tx o → let p := placeOf o m.from_ (m.sector * 64)
    let merged := updMem p.half (fun k => mergeIn k (p.l / 64) m.mask m.data) o
    let copied := effMode o = .degraded ∧ p.mirror.isSome = true
    (¬ copied → exec (.wrp m 0) s = .next (ended .wrp none (homeFailed o m.from_ m.sector)
      (if (o.home.get h).stock.contains (m.sector / 4) = true then sramPut h (chanOf (o.mem.get h) p.l % 12) (m.sector / 4) merged
       else merged))) ∧
    (copied → exec (.wrp m 0) s = .next (ended .wrp none (homeFailed o m.from_ m.sector)
      (homePut m.from_ m.sector (overlay (mem o).1 m.data m.mask) (mem o).2 o)))) ∧
  (opensAlone .atm m s h tx o → atmNew m s → let n := if m.aux / 4 % 4 = 1 then 4 else if m.aux / 4 % 4 = 2 then 8 else 16
    let old := fieldAt (mem v).1 m.mask n
    let new := if m.aux % 4 = 0 then (if old = m.opd1 % 256 ^ n then m.opd2 % 256 ^ n else old)
      else if m.aux % 4 = 1 then m.opd1 % 256 ^ n else (old + m.opd1) % 256 ^ n
    let w := homePut m.from_ m.sector (splice (mem v).1 m.mask (toBytes n new)) (mem v).2 v
    exec (.atm m) s = .next (ended .atm (some (toBytes n old)) (mem v).2
      { w with latches := w.latches.filter (fun x => ¬ (x.unit = 1024 + h.n ∧ x.lcn = m.lcn ∧ x.ctx = m.ctx)) ++
        [{ unit := 1024 + h.n, lcn := m.lcn, ctx := m.ctx, rid := m.rid, reply := toBytes n old }] })) ∧
  (opensAlone .mnt m s h tx o →
    (m.aux = 0 ∨ m.aux = 2 → exec (.mnt m) s = .next (ends none (mem o).2 o)) ∧
    (m.aux = 1 → exec (.mnt m) s = .next (ends none false o)) ∧
    (2 < m.aux → exec (.mnt m) s = .next (ended .mnt none false (homePut m.from_ m.sector (List.replicate 64 0) false o)))))

/-- R29, R31, R140, R141, R154, R237, R461: an uncached access or one-shot operation that reaches its unit is performed once for a
request ID: the reply is latched, and a repeated request is answered from the latch with no other effect; one that reaches no
register and no attach window is answered by AERR; the reply to OPS goes to the die the LCN runs on; a release frees the latch.
R24, R29, R121, R154, R243, R247, R539: an interrupt packet makes its vector pending at the LCN; a request to a seal engine or
mover whose stop is closed is answered DOMAIN_ASLEEP with HINT 1 for a block in GATED or closing towards it and 6 for one in
DROWSE, or closing towards DROWSE or OFF: the block wakes, the request is tried again, at the 16th answer given up with an address
error; one to a domain that is off is at once; an address error goes to its agent, and a core that sent a one-shot operation takes
DATA_BUS_ERROR; a packet that waits rises one tide level, at most to 7. -/
def Obligations.FabricRequests : Prop :=
  (
  ∀ (s : State),
  (∀ (m : Msg) (g : Half) (o : Nat), regTarget s m.from_ (msgPa m) m.aux = some (g, o) →
    (latched s (regUnit g o) m.lcn m.ctx m.rid = none →
      (arrives .rrd m s → let s1 := take .rrd m s
        exec (.rrd m) s = .next (answer .cmp m (regReadN s1 g false o m.aux)
          (latchReply (regUnit g o) m.lcn m.ctx m.rid (regReadN s1 g false o m.aux) s1))) ∧
      (arrives .rwr m s → let s1 := take .rwr m s
        let t := latchReply (regUnit g o) m.lcn m.ctx m.rid [] (regWriteN g false o (toBytes m.aux m.opd1) s1)
        exec (.rwr m) s = .next (kick s1 (answer .cmp m [] t)))) ∧
    (∀ l, latched s (regUnit g o) m.lcn m.ctx m.rid = some l →
      (arrives .rrd m s → exec (.rrd m) s = .next (answer .cmp m l.reply (take .rrd m s))) ∧
      (arrives .rwr m s → exec (.rwr m) s = .next (answer .cmp m [] (take .rwr m s))))) ∧
  (∀ (m : Msg), regTarget s m.from_ (msgPa m) m.aux = none →
    (∀ p off, winTarget s m.from_ (msgPa m) m.aux = some (p, off) →
      (latched s (portUnit p) m.lcn m.ctx m.rid = none →
        (arrives .rrd m s → loadOut s m.lcn m.ctx = false →
          exec (.rrd m) s = .next (attLoad m.lcn m.ctx m.rid p off m.aux (take .rrd m s))) ∧
        (arrives .rwr m s → exec (.rwr m) s = .next (answer .cmp m [] (latchReply (portUnit p) m.lcn m.ctx m.rid []
          (attStore p off (toBytes m.aux m.opd1) (take .rwr m s)))))) ∧
      (∀ l, latched s (portUnit p) m.lcn m.ctx m.rid = some l →
        (arrives .rrd m s → exec (.rrd m) s = .next (answerLatch m l.reply (take .rrd m s))) ∧
        (arrives .rwr m s → exec (.rwr m) s = .next (answer .cmp m [] (take .rwr m s))))) ∧
    (winTarget s m.from_ (msgPa m) m.aux = none →
      (arrives .rrd m s → exec (.rrd m) s = .next (answer .aerr m [] (take .rrd m s))) ∧
      (arrives .rwr m s → exec (.rwr m) s = .next (answer .aerr m [] (take .rwr m s))))) ∧
  (∀ (q : DevReq) (x : DevOp), live s = true → let u := opUnit s q x
    let reply := fun (d : List Byte) (w : State) =>
      send .cmp { agent := lcnDie w q.lcn, home := unitHalf u, from_ := lcnHalf w q.lcn, sector := 0, txid := 0, tide := 4, poison := false,
                  hasData := true, data := d, mask := 0, aux := 0, opd1 := 0, opd2 := 0, rid := q.rid, lcn := q.lcn, ctx := q.ctx } w
    (latched s u q.lcn q.ctx q.rid = none → let r := devPerform q x s
      let d := toBytes 1 r.code ++ toBytes 8 r.num ++ r.out
      exec (.ops q x) s = .next (kick s (reply d (latchReply u q.lcn q.ctx q.rid d r.st)))) ∧
    (∀ l, latched s u q.lcn q.ctx q.rid = some l → exec (.ops q x) s = .next (reply l.reply s))) ∧
  (∀ lcn ctx rid, live s = true → ∃ t, exec (.oneShotRelease lcn ctx rid) s = .next t ∧ t = { s with latches := t.latches } ∧
    (∀ l ∈ t.latches, ¬ (l.lcn = lcn ∧ l.ctx = ctx ∧ l.rid = rid)) ∧
    ∀ l ∈ s.latches, ¬ (l.lcn = lcn ∧ l.ctx = ctx ∧ l.rid = rid) → l ∈ t.latches)) ∧
  (
  ∀ (m : Msg) (s : State),
  let gone := fun op u => updCoh (fun c => { c with net := dropFirst (fun x => x.op == op && x.m == m) c.net }) u
  let err := fun u => updFab (fun x => { x with aerrs := x.aerrs ++ [(m.agent, m.sector)] }) u
  (∀ l v, live s = true → l < lcnCount s → exec (.int l v) s = .next (raiseExt l (v % 256) s)) ∧
  (∀ op u, arrives op m s → exec (.domainOff op m u) s = .next (err (gone op s))) ∧
  (∀ op u hint, arrives op m s → asleepHint s u = some hint → let same := fun (a : Asleep) => a.op == op && a.m == m
    let n := match s.fab.asleep.find? same with | some a => a.n + 1 | none => 1
    let t := updFab (fun x => { x with asleep := dropFirst same x.asleep }) (startWake u s)
    (n < 16 → exec (.domainAsleep op m u) s =
      .next (updFab (fun x => { x with asleep := x.asleep ++ [{ op := op, m := m, n := n, hint := hint }] }) t)) ∧
    (16 ≤ n → exec (.domainAsleep op m u) s = .next (err (gone op t)))) ∧
  (∀ u, unitType u = 4 ∨ unitType u = 5 → let st := pstateOf s u
    (st = 1 → asleepHint s u = some 1) ∧ (st = 2 → asleepHint s u = some 6) ∧ (st = 3 → asleepHint s u = none) ∧
    (∀ r, st = 0 → s.units.preq.find? (fun r => r.unit == u && r.target != 0) = some r →
      asleepHint s u = some (if r.target = 1 then 1 else 6)) ∧
    (st = 0 → s.units.preq.find? (fun r => r.unit == u && r.target != 0) = none → asleepHint s u = none)) ∧
  (arrives .aerr m s → let t := err (take .aerr m s)
    let k := ctxOf t m.lcn m.ctx
    (m.rid = 0 ∨ ctxRuns t m.lcn m.ctx = false → exec (.aerr m) s = .next t) ∧
    (m.rid ≠ 0 → ctxRuns t m.lcn m.ctx = true → exec (.aerr m) s = .next (takeX m.lcn m.ctx (xf 0x10 k.shotVa) k.pc t))) ∧
  (∀ i, live s = true → let up := fun (x : Msg) => { x with tide := min 7 (x.tide + 1) }
    (i < s.coh.net.length → exec (.tideRaise i) s =
      .next (updCoh (fun c => { c with net := modAt c.net i (fun x => { x with m := up x.m }) }) s)) ∧
    (s.coh.net.length ≤ i → exec (.tideRaise i) s =
      .next (updCoh (fun c => { c with retries := modAt c.retries (i - s.coh.net.length) (fun x => { x with m := up x.m }) }) s))))

/-- R49, R261, R262, R274, R329, R571: mirroring over the Breakwater. MIRW writes the sector in the other half and is
acknowledged; MIRACK lets the request that waited for it complete; MIRH stores a peer's log entry or its change. R245, R251, R252,
R255, R259, R540: a link's replay, retraining, heartbeats, standby clock and reset, and the end of a route change, once every
packet under way at its start has been delivered. R252, R253: training. With as many working spares as failed lanes it ends at 64
lanes, from the fourth attempt on at 32 of them if that is enough; else it tries again, and a module whose fourth attempt fails is
fenced. -/
def Obligations.Links : Prop :=
  (
  ∀ (m : Msg) (s : State),
  (arrives .mirw m s → let s1 := take .mirw m s
    exec (.mirw m) s = .next (send .mirack (bare m m.agent)
      (updMem m.home.other (fun k => memPut k ((placeOf s1 m.from_ (m.sector * 64)).l / 64) m.data m.poison) s1))) ∧
  (∀ t, let s1 := take .mirack m s
    arrives .mirack m s → tget none (s.home.get m.home).trans m.txid = some t → t.phase = 2 → t.m.sector = m.sector →
    exec (.mirack m) s = .next (settle m.home (endTx m.home m.txid t (complete .cmp t t.dirty t.poison s1)))) ∧
  (∀ h e rest es, live s = true → s.mirq.get h = .logNew e :: rest →
    let l := s.log.get h
    logPlace l.entries { e with index := l.nextIdx, peer := true, rsv := false, lost := l.lostSince, notice := false } = some es →
    exec (.mirh h) s = .next (updLog h (fun k => { k with entries := es, nextIdx := (k.nextIdx + 1) % 2 ^ 32, lostSince := 0 })
      { s with mirq := s.mirq.set h rest })) ∧
  (∀ h, live s = true → s.mirq.get h = [] → exec (.mirh h) s = .next s)) ∧
  (
  ∀ (k : Nat) (s : State), let r := rytOf s k
  live s = true →
  exec (.routeEpochChange k) s = .next (updRoute k (fun x =>
    if x.changing = false ∨ ∃ y ∈ x.old, s.coh.net.contains y = true then x
    else if 0 < x.queued then { x with queued := x.queued - 1, epoch := !x.epoch, changing := true, table := [],
                                       old := s.coh.net.filter (inScope s k) }
    else { x with changing := false, old := [], table := [] }) s) ∧
  (∀ n, r.st = .up → 0 < n → exec (.flitCheckFail k n) s = .next (updRyt (rytPeer k) (fun p =>
    { p with replay := (upTo (min n 256)).map (fun i => (r.rxNext + i) % 65536), nextSeq := (r.rxNext + min n 256) % 65536,
             nak := some ((r.rxNext + 65535) % 65536) }) s)) ∧
  (∀ g, r.nak = some g →
    let now := (s.st64.get (halfOf (if k / 32 < 16 then k / 32 / 8 else k / 32 - 16))).toNat
    let sent := fun (ok : Bool) => bump (rytUnit k) 0x303 1 (updRyt k (fun x =>
      { x with nak := none, replays := x.replays.filter (fun t => decide (now < t + 1000000)) ++ [now],
               fails := if ok then 0 else x.fails + 1, replay := if ok then [] else x.replay }) s)
    exec (.nak k false) s = .next (sent false) ∧
    exec (.nak k true) s = .next (updRyt (rytPeer k) (fun p => { p with rxNext := (g + 1 + r.replay.length) % 65536 }) (sent true))) ∧
  (rytPresent s k = true → (r.st = .up ∨ r.st = .hold) → wantsRetrain r = true → exec (.rytumRetrain k) s =
    .next (both k (fun x => { x with st := .training, attempt := 0, fails := 0, replays := [], nak := none, hb := none, solo := false }) s)) ∧
  ((r.st = .up ∨ r.st = .hold) → exec (.heartbeatSend k) s =
    .next (updRyt (rytPeer k) (fun p => { p with hb := some r.width }) (updRyt k (fun x => { x with missed := x.missed + 1 }) s))) ∧
  (∀ w, r.hb = some w → exec (.heartbeat k) s =
    .next (updRyt k (fun x => { x with hb := none, pwidth := w, missed := 0, st := if x.st = .up ∧ w ≠ x.width then .hold else x.st }) s)) ∧
  (k < 16 → diePresent s k = true → s.fab.standby.contains k = false → exec (.forwardedClockLoss k) s =
    .next ((nodeMods k).foldl (fun t j => if (rytOf t j).st = .down ∨ (rytOf t j).st = .fenced then t
        else both j (fun x => { x with st := if x.st = .up then .hold else x.st, clkmode := true }) t)
      (updFab (fun x => { x with standby := setIns x.standby k }) s))) ∧
  (rytPresent s k = true → r.st ≠ .fenced → r.st ≠ .down → exec (.moduleReset k) s = .next (updRyt k (fun x =>
    { x with st := .training, width := 0, pwidth := 0, spares := 0, lanes := 0, attempt := 0, replay := [], nextSeq := 0,
             rxNext := 0, fails := 0, replays := [], missed := 0, hb := none, nak := none, solo := true }) s))) ∧
  (
  ∀ (k failed spare : Nat) (s : State), let r := rytOf s k
  live s = true → r.st = .training → r.solo = false → r.width = 0 → s.prog = [] →
  let good := 4 - popBits spare 0 4
  let lo := popBits failed 0 32
  let hi := popBits failed 32 32
  let up := fun w n l (x : Ryt) => { x with
    st := .up, width := w, pwidth := w, spares := n, lanes := l, attempt := 0, missed := 0, replay := [], nak := none, solo := false }
  (r.attempt < 3 → lo + hi ≤ good → exec (.rytumTrainingEnd k failed spare) s =
    .next (rebucket k (both k (up 3 (lo + hi) (failed % 2 ^ 64)) s))) ∧
  ((3 ≤ r.attempt ∨ good < lo + hi) → lo ≤ good → exec (.rytumTrainingEnd k failed spare) s =
    .next (rebucket k (both k (up 1 lo (failed % 2 ^ 32 + (2 ^ 64 - 2 ^ 32))) s))) ∧
  ((3 ≤ r.attempt ∨ good < lo + hi) → good < lo → hi ≤ good → exec (.rytumTrainingEnd k failed spare) s =
    .next (rebucket k (both k (up 2 hi (failed % 2 ^ 64 / 2 ^ 32 * 2 ^ 32 + (2 ^ 32 - 1))) s))) ∧
  (good < lo → good < hi →
    (r.attempt < 3 → exec (.rytumTrainingEnd k failed spare) s = .next (both k (fun x => { x with attempt := r.attempt + 1 }) s)) ∧
    (3 ≤ r.attempt → exec (.rytumTrainingEnd k failed spare) s = .next (fenceLink k s))))

/-- R273, R275, R276, R279, R280, R283, R284, R291, R292: what befalls a channel. An alert that replay cures is logged; one that
does not, or a margin that is too low, is followed by a full retrain, which counts in RETRAINS or leaves the channel FAILED. A
merge entry of a channel, or of an SRAM array group, drains. R281, R282: a new aggressor's requester is throttled at level 1, in
place of the one at the lowest level when four are; a requester already throttled rises one level, at most to 8; without EN
nothing is throttled; a window without a new aggressor lowers its level by one, and level 0 ends it. R286, R287: sparing copies
the failing channel line by line, and at the end the spare takes its slot, the failed channel is FAILED and the command that
started it is DONE. -/
def Obligations.Channels : Prop :=
  (
  ∀ (h : Half) (c : Nat) (s : State), let k := chOf s h c
  live s = true →
  let full := fun (u : State) => let t := updCh h c (fun x => { x with retrains := sat (x.retrains + 1) 255 }) u
    logNow h (rpt (chUnit h c) 2 clsCE 0x0404 (chOf t h c).retrains) t
  (k.st ≠ .down → k.st ≠ .failed → k.st ≠ .training →
    exec (.periodicRetrain h c 0) s = .next s ∧ exec (.periodicRetrain h c 1) s = .next (full s) ∧
    exec (.periodicRetrain h c 2) s = .next (failChan h c s)) ∧
  (k.st ≠ .down → k.st ≠ .failed →
    exec (.caParityAlert h c 0 []) s = .next (logNow h (rpt (chUnit h c) 2 clsCE 0x0403 0) (memCe h c s)) ∧
    exec (.caParityAlert h c 1 []) s = .next (full (memUe h c 0 true (logNow h (rpt (chUnit h c) 2 clsUC 0x0403 0) s))) ∧
    exec (.caParityAlert h c 2 []) s = .next (failChan h c (memUe h c 0 true (logNow h (rpt (chUnit h c) 2 clsUC 0x0403 0) s)))) ∧
  (∀ i e, c < 16 → k.merges[i]? = some e →
    let put := fun u => updMem h (fun m => memPut m e.sector (memBytes m e.sector) (m.poison.contains e.sector)) u
    (e.mask = 2 ^ 64 - 1 → ∀ err, exec (.mergeDrain h c i err) s = .next (put s)) ∧
    (e.mask ≠ 2 ^ 64 - 1 → exec (.mergeDrain h c i 0) s = .next (put (bump (chUnit h c) 0x287 1 s)))) ∧
  (∀ g i w, (tget [] s.units.sram (h.n * 16 + g))[i]? = some w → let s1 := updSram (h.n * 16 + g) (fun l => l.eraseIdx i) s
    exec (.mergeDrain h (16 + g) i 0) s = .next s1 ∧
    (g < 12 → exec (.mergeDrain h (16 + g) i 2) s =
      .next (updHome h (fun x => { x with stock := x.stock.erase w }) (bucketHit (srcOf h 0xFF 0xB 0) 0 s1).1)) ∧
    (g = 14 → exec (.mergeDrain h (16 + g) i 2) s = .next (updLog h (fun l =>
      { l with entries := l.entries.map (fun e => if e.index = w then { e with damaged := true } else e) }) s1))) ∧
  (∀ sl err, (s.mem.get h).scrubH ≠ 0 → (k.st = .mapped ∨ k.st = .copying) → slotOf (s.mem.get h) c = some sl →
    exec (.patrolScrub h c err) s = .next (memErr h (slotLine (s.mem.get h) sl (k.scrub / 4) + k.scrub % 4 * 64) err
      (updCh h c (fun x => { x with scrub := (x.scrub + 1) % (2 ^ (s.mem.get h).kshift / 64) }) s))) ∧
  (∀ b, k.st ≠ .down → exec (.rfmIssue h c b) s = .next (updCh h c (fun x => { x with rfm := x.rfm + 1, act := tset 0 x.act b 0 }) s)) ∧
  (k.st = .zeroing → exec (.channelZeroingComplete h c) s = .next
    (if orgOk s h c then updCh h c (fun x => { x with st := .unmapped }) s
      else memConfigLog h c (updCh h c (fun x => { x with st := .unmapped }) s))) ∧
  exec (.memUeClear h c) s = .next (updCh h c (fun x => { x with ueV := false, ueMore := false }) s)) ∧
  (
  ∀ (h : Half) (c src port : Nat) (s : State), let k := chOf s h c
  live s = true → k.st ≠ .down →
  let s1 := bump (chUnit h c) 0x284 1 (updCh h c (fun x => { x with rhDetect := sat (x.rhDetect + 1) 4095, rfm := x.rfm + 1 }) s)
  let known := k.throttled.any (fun t => t.src == src && t.port == port)
  let new : Throttle := { src := src, port := port, level := 1, fresh := true }
  let add := fun u => rhLog h c 1 new (updCh h c (fun x => { x with throttled := x.throttled ++ [new], rhSrc := src, rhPort := port }) u)
  (k.rhEn = false → exec (.aggressorDetected h c src port) s = .next s1) ∧
  (k.rhEn = true → known = true → exec (.aggressorDetected h c src port) s = .next (updCh h c (fun x =>
    { x with throttled := x.throttled.map (fun t => if t.src = src ∧ t.port = port then { t with level := min 8 (t.level + 1), fresh := true } else t) }) s1)) ∧
  (k.rhEn = true → known = false → k.throttled.length < 4 → exec (.aggressorDetected h c src port) s = .next (add s1)) ∧
  (∀ o, k.rhEn = true → known = false → 4 ≤ k.throttled.length → lowestThr k.throttled = some o → exec (.aggressorDetected h c src port) s =
    .next (add (rhLog h c 0 { o with level := 0 } (updCh h c (fun x => { x with throttled := x.throttled.erase o }) s1)))) ∧
  (let ts := k.throttled.map (fun t => if t.fresh then { t with fresh := false } else { t with level := t.level - 1 })
   exec (.refreshWindowEnd h c) s = .next ((ts.filter (fun t => t.level == 0)).foldl (fun u t => rhLog h c 0 t u)
     (updCh h c (fun x => { x with throttled := ts.filter (fun t => t.level != 0), act := [] }) s))) ∧
  (∀ o, lowestThr k.throttled = some o → o ∈ k.throttled ∧ ∀ t ∈ k.throttled, o.level ≤ t.level)) ∧
  (
  ∀ (h : Half) (s : State), let m := s.mem.get h
  live s = true → m.copy = true →
  (∀ sl, slotOf m m.copySrc = some sl → m.copyPtr < 2 ^ m.kshift / 256 →
    exec (.sparingCopyLine h [0, 0, 0, 0]) s = .next (updMem h (fun k => { k with copyPtr := k.copyPtr + 1 }) s)) ∧
  (2 ^ m.kshift / 256 ≤ m.copyPtr →
    let s1 := updCh h m.copyDst (fun x => { x with st := .mapped }) (updCh h m.copySrc (fun x => { x with st := .failed }) s)
    let s2 := updMem h (fun k => { k with map := k.map.map (fun c => if c = m.copySrc then m.copyDst else c), copy := false,
                                          copyCmd := none, spareCh := 15, failedHold := setIns k.failedHold m.copySrc }) s1
    exec (.sparingCopyComplete h) s = .next (finishOpt m.copyCmd stDone 1 m.copyDst
      (logNow h (rpt (chUnit h m.copySrc) 2 clsCR 0x0406 (res [(1, m.copySrc), (1, m.copyDst)])) s2))))

/-- R305, R313, R314, R318, R324, R325: starts and statuses. A subchannel with nothing active dispatches its oldest queued start
on the online path with the fewest operations, or ends it NO_PATH; an attach START entry starts as CSTART does, of a subchannel of
its function only; a decided status goes to the tail slot of its queue; a head written no further than the tail retires the
entries of the slots it passes, another write is ignored. -/
def Obligations.ChannelQueues : Prop :=
  ∀ (h : Half) (s : State), live s = true →
  (∀ n i e, activeOf s h n = none → oldest (queuedOf s h n) = some (i, e) →
    let b := subOf s h n
    (∀ p, choosePath s b (pathsUp s h b) = some p → exec (.operationDispatch h n) s = .next (dispatchOn h i p s)) ∧
    (choosePath s b (pathsUp s h b) = none → exec (.operationDispatch h n) s = .next (decideOp h i 7 0 0 0 s))) ∧
  (∀ q d p fn, qpFront s q 1 = some d → qpOwner s q = some (p, fn) →
    let n := fieldAt d 0x20 2
    let g := subHub s n
    let mine := subReach s (portHalf p) n = true ∧ (subOf s g n).otype = 1 ∧ (subOf s g n).owner = fnKey p fn
    (mine → let r := cssStart g n (fieldAt d 0 8) (fieldAt d 8 8) (bitOf (fieldAt d 0x10 2) 0) (fieldAt d 0x14 4) false s
      exec (.attachStartEntry q) s = .next (qpResult q r.2.1 (fieldAt d 0x22 2) r.1 r.2.2)) ∧
    (¬ mine → exec (.attachStartEntry q) s = .next (qpResult q 0 (fieldAt d 0x22 2) 3 s))) ∧
  (∀ i s1, let e := iftOf s h i
    let k := cqKey s h e
    let q := cqOf s h k
    e.st = 6 → e.otype ≠ 2 → waitsBehind s h i = false → cqRoom q = true →
    dmaWrite s h (q.base + q.tail * 32) (recordBytes e e.fstat true q.phase e.reason) = some (s1, false) →
    let t := (q.tail + 1) % cqSlots q
    let s2 := updCq h k (fun x => { x with tail := t, phase := if t = 0 then !x.phase else x.phase }) s1
    let s3 := updIft h i (fun x => { x with st := 8, slot := q.tail, fstat := e.fstat, reason := e.reason }) s2
    exec (.cqPost h i) s = .next (if e.notify then cqIrq q s3 else s3)) ∧
  (∀ k v, let q := cqOf s h k
    let n := cqSlots q
    let past := fun slot => (slot + n - q.head % n) % n
    ((n ≤ v ∨ past q.tail < past v) → exec (.cssCqHeadWrite h k v) s = .next s) ∧
    (v < n → past v ≤ past q.tail → exec (.cssCqHeadWrite h k v) s = .next ((cssOf s h).ift.foldl (fun t e =>
      if e.2.st = 8 ∧ cqKey s h e.2 = k ∧ past e.2.slot < past v then updIft h e.1 (fun _ => Ift.free) t else t)
      (updCq h k (fun x => { x with head := v }) s))))

/-- R315–R317, R332, R333, R337, R342: what ends or moves an operation beside its image: a timeout, whose third in a row fails the
port; a lost path; the outcome of a recovery query (again from its command, from the last command accepted, or INDETERMINATE), at
most 3 redrives; a halt not confirmed; a freeze that waits too long; a device event, which resumes a parked operation that waits
for it. -/
def Obligations.OperationEvents : Prop :=
  ∀ (h : Half) (i : Nat) (s : State), let e := iftOf s h i
  live s = true →
  (e.live = true → e.tmo ≠ 0 → let n := (ppOf s e.pp).touts + 1
    let s1 := updPp e.pp (fun x => { x with touts := n }) s
    exec (.operationTimeout h i) s = .next (losePath h i 2 (if 3 ≤ n ∧ (ppOf s e.pp).st = 2 then failPort e.pp 4 s1 else s1))) ∧
  (e.live = true → pathUp s h (subOf s h e.sub) e.pathIdx = false → (ppOf s e.pp).st ≠ 3 → exec (.pathdown h i) s = .next (losePath h i 1 s)) ∧
  (∀ o, e.st = 5 → e.why = 6 →
    (2 ≤ o → exec (.recoveryQueryEnd h i o) s = .next (decideOp h i 8 0 (if e.timedOut then 0x12 else 0x10) e.resid s)) ∧
    (o < 2 → 3 ≤ e.redrives → exec (.recoveryQueryEnd h i o) s = .next (decideOp h i 8 0 0x16 e.resid s)) ∧
    (o < 2 → e.redrives < 3 → exec (.recoveryQueryEnd h i o) s = .next (runEntry h i 0 (updIft h i (fun x =>
      { x with st := 2, redrives := x.redrives + 1, why := 0, cmdp := if o = 1 then x.lca else x.cmdp }) s)))) ∧
  ((e.st = 3 ∨ e.st = 4) → exec (.haltConfirmTimeout h i) s = .next (decideOp h i 8 0 0x13 e.resid s)) ∧
  (e.live = true → bitOf e.evs 5 = true → devBusy e = true →
    exec (.freezeTimeout h i) s = .next (runEntry h i 2 (updIft h i (fun x => { x with why := 5 }) s))) ∧
  (e.live = true → let s1 := updIft h i (fun x => { x with evs := x.evs.lor 1 }) s
    exec (.deviceEvent h i) s = .next (if e.parked = true ∧ bitOf e.mask 0 = true then runEntry h i 1 s1 else s1)) ∧
  (∀ c k, (cssOf s h).ift.find? (fun x => x.2.live && x.2.cpe == c && x.2.park == some k && x.2.parked) = some (i, e) →
    let s1 := updIft h i (fun x => { x with evs := x.evs.lor 1 }) s
    exec (.eventPageWrite h c k) s = .next (if bitOf e.mask 0 = true then runEntry h i 1 s1 else s1))

/-- R302–R305, R345: path ports. A port that fails writes its entry once; a recovery cycle trains its link and runs PATHUP for
every image that needs it, each end with 0 leading to ONLINE, another outcome or no training to a later cycle; an endpoint reads
and writes only what its fences, data buffers and ring allow, else it gets UR, which is counted; the event pages read as zeros and
a write of a slot is its event. -/
def Obligations.PathPorts : Prop :=
  ∀ (pp : Nat) (s : State), let p := ppOf s pp
  live s = true →
  (∀ cause, (p.st = 1 ∨ p.st = 2) → exec (.pathPortFailed pp cause) s =
    .next (bump (pathUnit pp) 0x3C2 1 (logNow (portHub pp) (rpt (pathUnit pp) 2 clsCR 0x0601 (pp % 16 + cause * 256))
      (updPp pp (fun x => { x with st := 4, fails := sat (x.fails + 1) 255, cause := cause, cycle := 0, pathups := [],
                                   linkUp := x.linkUp && cause != 0,
                                   gen := if cause = 0 then 0 else x.gen, width := if cause = 0 then 0 else x.width }) s)))) ∧
  (p.st = 3 → exec (.pathPortFailed pp 0) s =
    .next (updPp pp (fun x => { x with linkUp := false, gen := 0, width := 0 }) s)) ∧
  (∀ gen width, p.perst = false → p.st = 1 →
    let s1 := updPp pp (fun x => { x with linkUp := true, gen := gen % 8, width := width % 4 }) s
    exec (.pathRecoveryCycle pp gen width true) s = .next (failPort pp 5 s1) ∧
    (pathupImages s pp = [] → exec (.pathRecoveryCycle pp gen width false) s = .next (portOnline pp s1)) ∧
    (pathupImages s pp ≠ [] → exec (.pathRecoveryCycle pp gen width false) s = .next ((pathupImages s pp).foldl
      (fun t k => pushJob (halfOf (k / 16)) (freeVal t % 32) { kind := 5, ift := 0, pp := pp, image := k % 16 } (drawn t))
      (updPp pp (fun x => { x with cycle := 3, pathups := pathupImages s pp }) s1)))) ∧
  ((p.st = 1 ∨ (p.st = 4 ∧ (p.cause ≠ 5 ∨ p.cycle ≠ 0))) → exec (.pathTrainingTimeout pp) s =
    .next (updPp pp (fun x => { x with linkUp := false, gen := 0, width := 0, cycle := 4, pathups := [] }) s)) ∧
  (∀ im, p.cycle = 3 → p.pathups.contains im = true →
    (∀ o, o ≠ 0 → exec (.pathupEnd pp im o) s = .next (updPp pp (fun x => { x with cycle := 4, pathups := [] }) s)) ∧
    (p.pathups.erase im = [] → exec (.pathupEnd pp im 0) s = .next (portOnline pp s)) ∧
    (p.pathups.erase im ≠ [] → exec (.pathupEnd pp im 0) s = .next (updPp pp (fun x => { x with pathups := p.pathups.erase im }) s))) ∧
  (p.st = 3 → (∀ g ∈ [Half.a, Half.b], ∀ e ∈ (cssOf s g).ift, ¬ (e.2.live = true ∧ e.2.pp = pp)) →
    exec (.pathOfflineLimit pp) s = .next (finishOpt p.cmd stDone 2 (subsMoved s pp) (updPp pp (fun x => { x with cmd := none }) s))) ∧
  (∀ pa n d ep, eventSlot (portHub pp) pa = none → endpointRead s pp pa n = some (d, ep) →
    exec (.pathInboundRequest pp pa n none) s = .next (pathSend pp (.cpl d ep) s)) ∧
  (∀ pa n d t bad, eventSlot (portHub pp) pa = none → endpointWrite s pp pa d = some (t, bad) →
    exec (.pathInboundRequest pp pa n (some d)) s = .next t) ∧
  (∀ pa n d c off, eventSlot (portHub pp) pa = some (c, off) →
    exec (.pathInboundRequest pp pa n none) s = .next (pathSend pp (.cpl (List.replicate n 0) false) s) ∧
    (off % 0x20 = 0 → exec (.pathInboundRequest pp pa n (some d)) s = exec (.eventPageWrite (portHub pp) c (off / 0x20)) s)) ∧
  (∀ pa n d, eventSlot (portHub pp) pa = none → let ur := pathSend pp .ur (updPp pp (fun x => { x with urs := sat (x.urs + 1) 255 }) s)
    (endpointRead s pp pa n = none → exec (.pathInboundRequest pp pa n none) s = .next (bump (pathUnit pp) 0x3C3 1 ur)) ∧
    (endpointWrite s pp pa d = none →
      exec (.pathInboundRequest pp pa n (some d)) s = .next (bump (pathUnit pp) 0x3C3 1 ur)))

/-- R340–R343: arithmetic, logic, shifts, compares, branches and jumps of an engine. A load's value is in its register for the
instruction after the next; k0 reads 0 and takes no value. An instruction runs only in an entry, from an aligned address of the
image. R339, R340, R343: loads and stores by where their local address leads, memory through the engine's cache; an address that
leads nowhere, or is misaligned, ends the entry with a fault. R329, R335, R339–R344: the instructions that concern the operation
itself. CKPT sets marks and never clears one; EVADDR gives the event slot's address; WSET sets a window the operation may have;
POST decides the status; WAIT parks it; END ends a service entry; NXCMD reads and checks the next command; the 65,536th
instruction without leaving the engine faults. -/
def Obligations.CpeInstructions : Prop :=
  (
  (∀ (o : CpeOp) (k : Cpe) (j : Job) (s : State), cpeRuns o k j s →
    let reg := fun r => if r % 32 = 0 then (0 : W32) else tget 0 k.k (r % 32)
    let off := (BitVec.ofNat 16 o.imm).signExtend 32
    let tgt := k.pc + 4 + off.toNat * 4 % 2 ^ 32
    (o.imm % 2048 = 0 → ∀ r ∈ [(Instr.cpeAdd, fun (x y : W32) => x + y), (.cpeSub, fun x y => x - y), (.cpeAnd, fun x y => x &&& y),
        (.cpeOr, fun x y => x ||| y), (.cpeXor, fun x y => x ^^^ y), (.cpeSll, fun x y => x <<< (y.toNat % 32)),
        (.cpeSrl, fun x y => x >>> (y.toNat % 32)), (.cpeSra, fun x y => x.sshiftRight (y.toNat % 32)),
        (.cpeSltu, fun x y => if x < y then 1 else 0)],
      exec (r.1 o) s = .next (cpeAfter o k [(o.x, r.2 (reg o.y) (reg (o.imm / 2048)))] [] (k.pc + 4) s)) ∧
    (∀ r ∈ [(Instr.cpeAddi, fun (x : W32) (i : BitVec 16) => x + i.signExtend 32), (.cpeAndi, fun x i => x &&& i.zeroExtend 32),
        (.cpeOri, fun x i => x ||| i.zeroExtend 32), (.cpeLui, fun _ i => i.zeroExtend 32 <<< 16)],
      exec (r.1 o) s = .next (cpeAfter o k [(o.x, r.2 (reg o.y) (BitVec.ofNat 16 o.imm))] [] (k.pc + 4) s)) ∧
    (∀ r ∈ [(Instr.cpeBeq, fun (x y : W32) => x == y), (.cpeBne, fun x y => x != y), (.cpeBltu, fun x y => x < y), (.cpeBgeu, fun x y => y ≤ x)],
      exec (r.1 o) s = .next (cpeAfter o k [] [] (if r.2 (reg o.x) (reg o.y) then tgt else k.pc + 4) s)) ∧
    (o.y % 32 = 0 → exec (.cpeJal o) s = .next (cpeAfter o k [(o.x, BitVec.ofNat 32 (k.pc + 4))] [] tgt s)) ∧
    (o.x % 32 = 0 → o.imm % 65536 = 0 → exec (.cpeJr o) s = .next (cpeAfter o k [] [] (reg o.y).toNat s))) ∧
  (∀ (o : CpeOp) (s : State), live s = true → let k := cpeOf s o.hub o.cpe
    ∀ i ∈ [Instr.cpeAdd, .cpeLw, .cpeSw, .cpeBeq, .nxcmd, .cpePost, .cpeWait, .cpeEnd],
      (k.cur = none → exec (i o) s = .next s) ∧
      (∀ j, k.cur = some j → (k.pc % 4 ≠ 0 ∨ 0x40000 ≤ k.pc) → exec (i o) s = .next (cpeFault o.hub o.cpe j k.pc s)))) ∧
  (
  ∀ (o : CpeOp) (k : Cpe) (j : Job) (s : State), cpeRuns o k j s →
  let a := (kget k o.y + (BitVec.ofNat 16 o.imm).signExtend 32).toNat
  (∀ r ∈ [(Instr.cpeLw, 4), (.cpeLhu, 2), (.cpeLbu, 1)],
    let got := fun v => [(o.x, BitVec.ofNat 32 (v % 256 ^ r.2))]
    let mem := fun pa d => Host.Outcome.next (cpeAfter o { k with stream := cpeStreamLoad pa k.stream } [] (got (ofBytes d)) (k.pc + 4)
      (cpeFill o.hub o.cpe pa s))
    let w := cpeWhere s o.hub o.cpe k j a r.2
    (∀ pa wr d bad, w = .img pa wr → dmaReadRaw s o.hub pa r.2 = some (d, bad) → exec (r.1 o) s = mem pa d) ∧
    (∀ pa d bad, w = .dram pa → dmaRead s o.hub pa r.2 = some (d, bad) → exec (r.1 o) s = mem pa d) ∧
    (∀ p off, w = .path p off → exec (r.1 o) s = .next (cpeAfter o k [] (got o.dev) (k.pc + 4) s)) ∧
    (w = .bad ∨ (∃ pa wr, w = .img pa wr ∧ dmaReadRaw s o.hub pa r.2 = none) ∨ (∃ pa, w = .dram pa ∧ dmaRead s o.hub pa r.2 = none) → exec (r.1 o) s = .next (cpeFault o.hub o.cpe j a s))) ∧
  (∀ r ∈ [(Instr.cpeSw, 4), (.cpeSh, 2), (.cpeSb, 1)],
    let d := toBytes r.2 (kget k o.x).toNat
    let mem := fun pa => Host.Outcome.next (cpeAfter o { k with stream := cpeStreamStore pa d.length k.stream } [] [] (k.pc + 4)
      (cpeWrite o.hub o.cpe pa d k.stream s))
    let w := cpeWhere s o.hub o.cpe k j a r.2
    (∀ pa, w = .img pa true → dramRaw s o.hub pa r.2 = true → exec (r.1 o) s = mem pa) ∧
    (∀ pa, w = .dram pa → dramOk s o.hub pa r.2 = true → exec (r.1 o) s = mem pa) ∧
    (∀ p off, w = .path p off → exec (r.1 o) s = .next (cpeAfter o k [] [] (k.pc + 4) (pathSend p (.write off d) s))) ∧
    (w = .bad ∨ (∃ pa, w = .img pa false) ∨ (∃ pa, w = .img pa true ∧ dramRaw s o.hub pa r.2 = false) ∨
      (∃ pa, w = .dram pa ∧ dramOk s o.hub pa r.2 = false) → exec (r.1 o) s = .next (cpeFault o.hub o.cpe j a s)))) ∧
  (
  (∀ (o : CpeOp) (k : Cpe) (j : Job) (s : State), cpeRuns o k j s → let e := iftOf s o.hub j.ift
    let next := cpeAfter o k [] [] (k.pc + 4) s
    let v := (kget k o.y).toNat
    (j.kind ≠ 5 → exec (.ckpt o) s = .next (updIft o.hub j.ift (fun x =>
      { x with touched := x.touched || bitOf v 0, nonidem := x.nonidem || bitOf v 1, sense := x.sense || bitOf v 2 }) next)) ∧
    (∀ sl, j.kind ≠ 5 → e.park = some sl → let a := eventAddr o.hub o.cpe sl
      exec (.evaddr o) s = .next (cpeAfter o k [(o.x, BitVec.ofNat 32 a), (o.x + 1, BitVec.ofNat 32 (a / 2 ^ 32))] [] (k.pc + 4) s)) ∧
    (∀ g p x, let base := ((kget k o.y).toNat * 2 ^ 32 + (kget k o.x).toNat) % 2 ^ 52 / 2 ^ 30 * 2 ^ 30
      o.imm % 65536 < 3 → regionOf base = .path g p x → (jobPorts s o.hub j).contains (g.n * 16 + p) = true →
      exec (.wset o) s = .next (updCpe o.hub o.cpe (fun y => { y with wins := (o.imm % 4, base) :: y.wins.filter (fun z => z.1 ≠ o.imm % 4) }) next)) ∧
    (pastLimit s = true → exec (.nxcmd o) s = .next s) ∧
    (pastLimit s = false → j.kind ≠ 5 → e.svc = false → (e.st ≠ 2 ∨ bitOf e.evs 5 = true) → exec (.nxcmd o) s =
      .next (cpeNext o.hub o.cpe (parkedNext o.hub j.ift (updIft o.hub j.ift (fun x => { x with mask := 0 })
        (updCpe o.hub o.cpe (fun x => { x with cur := none, delay := [] }) s))))) ∧
    (pastLimit s = false → j.kind ≠ 5 → (e.svc = true ∨ (e.st = 2 ∧ bitOf e.evs 5 = false)) → let b := subOf s o.hub e.sub
      (∀ f r l x, fetchCmd s o.hub b e.cmdp e.idle = .stop f r l x → exec (.nxcmd o) s = .next (nxStop o j.ift f r l x s)) ∧
      (∀ p d q, fetchCmd s o.hub b e.cmdp e.idle = .cmd p d q → let c := ccmdOf d
        let ext := e.link % 4 = 2 ∧ e.lca ≠ 0
        let kind := if ext then e.kind else c.kind
        (∀ f r x, checkCmd s o.hub b c kind (if ext then some e.link else none) q = some (f, r, x) →
          exec (.nxcmd o) s = .next (nxStop o j.ift f r p x s)) ∧
        (checkCmd s o.hub b c kind (if ext then some e.link else none) q = none →
          exec (.nxcmd o) s = .next (updIft o.hub j.ift (fun x => { x with
              lca := p, cmdp := p + 16, link := c.link, kind := kind,
              idle := if kind = 0x1E ∨ (kind = 0x12 ∧ c.count = 0) then q + 1 else 0, resid := c.count })
            (cpeAfter o k [] ((upTo 4).map (fun n => (24 + n, BitVec.ofNat 32 (fieldAt d (4 * n) 4)))) (k.pc + 4) s)))))) ∧
  (∀ (o : CpeOp) (k : Cpe) (j : Job) (s : State), cpeIn o k j s → let e := iftOf s o.hub j.ift
    let v := (kget k o.y).toNat
    let off := updCpe o.hub o.cpe (fun x => { x with cur := none, delay := [] }) s
    let done := updPp e.pp (fun p => { p with touts := 0 }) off
    let go := fun t => Host.Outcome.next (cpeNext o.hub o.cpe t)
    (j.kind ≠ 5 → (e.st = 3 → exec (.cpePost o) s = go (decideOp o.hub j.ift 5 0 0 (kget k o.x).toNat done)) ∧
      (e.st = 4 → e.svc = false → exec (.cpePost o) s = go (runEntry o.hub j.ift 4 done)) ∧
      (e.st ≠ 3 → (e.st ≠ 4 ∨ e.svc = true) → exec (.cpePost o) s =
        go (decideOp o.hub j.ift (v % 256) (v / 256 % 256) (v / 65536 % 256) (kget k o.x).toNat done))) ∧
    (j.kind ≠ 5 → exec (.cpeWait o) s = go (parkedNext o.hub j.ift
      (updIft o.hub j.ift (fun x => { x with parked := true, mask := o.imm % 65536 }) off))) ∧
    (j.kind ≠ 5 → e.svc = true → exec (.cpeEnd o) s = go (serviceEnd o.hub j.ift v
      (updIft o.hub j.ift (fun x => { x with svc := false }) off))) ∧
    (j.kind = 5 → exec (.cpeEnd o) s = go (runPathupEnd j.pp (o.hub.n * 16 + j.image) v off))) ∧
  (∀ (o : CpeOp) (k : Cpe) (j : Job) (s : State), cpeIn o k j s → 65535 ≤ k.count →
    ∀ i ∈ [Instr.cpeAdd, .cpeLw, .cpeSw, .cpeBeq, .cpeJal, .ckpt, .nxcmd], exec (i o) s = .next (cpeFault o.hub o.cpe j k.pc s)) ∧
  (∀ (h : Half) (q : Nat) (s : State), live s = true →
    exec (.interruptedReport h q) s = .next (reportInterrupted h q ((cssOf s h).ift.filter (fun e => e.2.st == 10)).length s)))

/-- R357, R359, R366: rings. TAIL written, EN set: the hub binds the ring as ENG says and fetches ahead, at most four jobs being
fetched and not completed; one descriptor ahead of HEAD is kept with its slot; a fetch that fails, or a stop from outside, stops
the ring with NOTE 0x0906 (what it has fetched stays: DEDUCED, log 12); CHEAD written lets the held completions out in order while
there is room. R358, R363–R366, R382, R384, R385: jobs. An engine that can serve takes the oldest descriptor of the next ring in
turn, and checks it before anything is read; a job that fails a check completes with that STATUS and REASON, nothing consumed and
nothing produced; one that passes completes as its stages say, or ENGINE_ERROR with UC 0x0701 when an array fails; power ends a
normal job PREEMPTED_BY_POWER; writing SEAL_ENG_ERR.V clears V and MORE. The bytes a preempted job has produced are open (the
model's free value). -/
def Obligations.Seal : Prop :=
  (
  ∀ (h : Half) (r v : Nat) (s : State), let g := sringOf s h r
  live s = true →
  (hubPresent s h = true →
    exec (.sealRingTailDoorbell h r v) s = .next (sealFetch h r 4 (updSring h r (fun x => { x with tail := v % slots8 x.size }) s)) ∧
    (g.en = false → let s1 := updSring h r (fun x => { x with en := true, bound := if g.eng < 8 then g.eng else bindEngine s h g.eng }) s
      exec (.sealRingEnable h r) s = .next (sealFetch h r 4 (sealDrainHeld h r (sringOf s1 h r).held.length s1)))) ∧
  (hubPresent s h = false → exec (.sealRingTailDoorbell h r v) s = .next s ∧ exec (.sealRingEnable h r) s = .next s) ∧
  (let at_ := g.head % slots8 g.size
    let pa := g.base / 128 * 128 + at_ * 128
    (∀ n, (g.en = false ∨ 4 ≤ ringJobs s h r ∨ at_ = g.tail % slots8 g.size ∨ draining s h = true ∨ g.bound = 15) → sealFetch h r (n + 1) s = s) ∧
    (∀ n, g.en = true → (g.otype = 0 ∨ g.otype = 2) → ringJobs s h r < 4 → at_ ≠ g.tail % slots8 g.size → draining s h = false → g.bound ≠ 15 →
      closing s (sealUnit h g.bound) = false →
      (∀ d, dmaRead s h pa 128 = some (d, false) → sealFetch h r (n + 1) s = sealFetch h r n (updSring h r (fun x =>
        { x with head := (at_ + 1) % slots8 x.size, fetched := x.fetched ++ [(at_, d)] }) s)) ∧
      ((∀ d, dmaRead s h pa 128 ≠ some (d, false)) → sealFetch h r (n + 1) s = sealRingStop h r s))) ∧
  (g.en = true → exec (.sealRingStop h r) s = .next (logNow h (rpt (sealUnit h (g.bound % 16)) 2 clsNote 0x0906 (freeVal s % 2 ^ 192))
    (updSring h r (fun x => { x with en := false, stopped := true }) (drawn s)))) ∧
  (∀ s1, hubPresent s h = true → s1 = updSring h r (fun x => { x with chead := v % slots8 x.size }) s →
    (∀ d nt, (sringOf s1 h r).held = [(d, nt)] → cringFull (sringOf s1 h r) = false → (sringOf s1 h r).en = true →
      exec (.sealRingCheadWrite h r v) s = .next (sealPost h r d nt (updSring h r (fun x => { x with held := [] }) s1))) ∧
    (((sringOf s1 h r).held = [] ∨ cringFull (sringOf s1 h r) = true ∨ (sringOf s1 h r).en = false) →
      exec (.sealRingCheadWrite h r v) s = .next s1))) ∧
  (
  ∀ (h : Half) (e : Nat) (s : State), let g := sengOf s h e
  let record := fun (j : SJob) (o : JobOut) => sealRecord (descOf j.desc) j e o false
  let finish := fun (j : SJob) (o : JobOut) (u : State) =>
    let sec := (sringOf s h j.ring).otype == 2
    sealComplete h j.ring (record j o) (bitOf (descOf j.desc).flags 6) (bumpFor sec (sealUnit h e) 0x401 1
      (bumpFor sec (sealUnit h e) 0x402 (o.used / 64) (bumpFor sec (sealUnit h e) 0x403 (o.made / 64) (updSeng h e (fun x => { x with cur := none }) u))))
  live s = true →
  (∀ r slot d t, s.units.rings.all (fun x => rebind h (x.1 % 256) s == s) = true →
    g.cur = none → engineUp s h e = true → closing s (sealUnit h e) = false → draining s h = false → boundRings s h e = [r] →
    let q := sringOf s h r
    q.fetched = (slot, d) :: t → q.held = [] → (q.otype = 1 ∨ cringFull q = false) →
    exec (.sealJobStart h e) s = .next (sealFetch h r 4 (updSeng h e (fun x =>
        { x with cur := some ⟨r, slot, d, sealCheck s h r d⟩, lastRing := r, secure := q.otype == 2 })
      (if (q.otype == 2) != g.secure then bumpFor (q.otype == 2) (sealUnit h e) 0x404 1 (updSring h r (fun x => { x with fetched := t }) s)
       else updSring h r (fun x => { x with fetched := t }) s)))) ∧
  (∀ err j st rs, g.cur = some j → j.verdict = some (st, rs) →
    exec (.sealJobComplete h e err) s = .next (finish j (jobFail st rs) (if st = stFailed ∧ rs ≠ 8 then
      sealErr h e j.ring false (descOf j.desc).ctx ((sringOf s h j.ring).otype == 2) s else s))) ∧
  (∀ j, g.cur = some j → j.verdict = none →
    exec (.sealJobComplete h e true) s = .next (finish j (jobFail stFailed 0x0B) (logNow h (rpt (sealUnit h e) 2 clsUC 0x0701 e) s)) ∧
    exec (.sealJobComplete h e false) s = .next (finish j (sealRun h e j s).2 (sealRun h e j s).1)) ∧
  (∀ j, g.cur = some j → closing s (sealUnit h e) = true → g.secure = false →
    exec (.sealPowerPreempt h e) s = .next (sealComplete h j.ring
      (record j { jobFail stPreempted 0 with made := (earlyBytes s j).length }) (bitOf (descOf j.desc).flags 6)
      (updSeng h e (fun x => { x with cur := none }) (earlyWrite h j s)))) ∧
  exec (.sealEngErrClear h e) s = .next (updSeng h e (fun x => { x with errV := false, errMore := false }) s))

/-- R386, R388, R391–R394, R397: movers. TAIL written; the next channel in turn starts, its descriptor read and checked; the
running one moves a burst; it completes DONE when all of it is moved; a failed access halts it with its sector, direction and
cause; a power request stops it between bursts; a halted channel resumes from DONE, or is skipped or aborted with FAILED. -/
def Obligations.Movers : Prop :=
  ∀ (h : Half) (m : Nat) (s : State), let cur := (moverOf s h m).cur
  live s = true →
  (∀ ch v, exec (.movChTailDoorbell h m ch v) s = .next (updMch h m ch (fun c => { c with tail := v % slots8 c.size }) s)) ∧
  (∀ ch d, cur = none → readyBit s h (rbMover m) = true → closing s (moverUnit h m) = false → draining s h = false →
    ((upTo 8).map (fun i => ((moverOf s h m).lastCh + 1 + i) % 8)).find? (fun k => chWaits (mchOf s h m k)) = some ch →
    let c := mchOf s h m ch
    let s1 := updMover h m (fun _ => ⟨ch, some ch⟩) s
    (c.desc ≠ [] → exec (.moverDescriptorStart h m) s = .next (updMch h m ch (fun x => { x with st := 2 }) s1)) ∧
    (c.desc = [] → dmaRead s h (c.base / 64 * 64 + c.slot * 64) 64 = some (d, false) →
      let s2 := updMch h m ch (fun x => { x with st := 2, desc := d, done := 0, buf := [] }) s1
      exec (.moverDescriptorStart h m) s = .next (match moverCheck s h c d with
        | some (st, rs) => moverFinish h m ch st rs s2
        | none => s2))) ∧
  (∀ ch, cur = some ch → let c := mchOf s h m ch
    let sec := c.otype == 2
    (∀ s1, copyAhead h m ch s = .ok s1 → let n := 256 * 2 ^ (if 4 < c.burst then 4 else c.burst)
      let s2 := burstRun h m ch n n s1
      exec (.moverBurst h m) s = .next (bumpFor sec (moverUnit h m) 0x483 1 (bumpFor sec (moverUnit h m) 0x482 (((mchOf s2 h m ch).done - c.done) / 64) s2))) ∧
    ((mdescOf c.desc).len ≤ c.done → exec (.moverDescriptorComplete h m) s = .next (moverFinish h m ch stDone 0 s)) ∧
    (closing s (moverUnit h m) = true → exec (.moverPowerStop h m) s =
      .next (updMch h m ch (fun x => { x with st := 1 }) (updMover h m (fun x => { x with cur := none }) s))) ∧
    (∀ pa wr poison, exec (.moverHalt h m pa wr poison) s =
      .next (bumpFor sec (moverUnit h m) 0x485 1 (ringIrq c.imode c.vector c.target c.otype c.owner
        (updMover h m (fun x => { x with cur := none }) (updMch h m ch (fun x =>
          { x with st := 3, errAddr := pa / 64 * 64, errV := true, errDir := wr, errCause := b2n poison, errIdx := x.slot,
                   errDone := x.done }) s)))))) ∧
  (∀ ch, (mchOf s h m ch).st = 3 →
    let skipped := moverFinish h m ch stFailed (if (mchOf s h m ch).errCause = 1 then 0x05 else 0x06)
      (updMch h m ch (fun x => { x with errV := false }) s)
    exec (.resume h m ch) s = .next (updMch h m ch (fun c => { c with st := 1, errV := false }) s) ∧
    exec (.skip h m ch) s = .next skipped ∧
    exec (.abort h m ch) s = .next (updMch h m ch (fun c => { c with en := false }) skipped))

/-- R407, R408, R417–R420, R424: appends. An attach APPEND entry is taken with a sequence number, or its result says why not; the
oldest unframed record is framed with the stamp that follows the stream's last, or becomes a VOID; the oldest framed one is
chained, placed and queued for its completion, also once the ring has room again; the oldest completion is posted while its ring
has room; T ms with frames since the last checkpoint ask for one. R420–R425, R433: checkpoints and spools. The Lighthouse signs
the oldest request of a hub, the frame is placed and its completion queued, the period starts again, and an LDG_CHECKPOINT or a
close that waited ends with DONE; a close that waits too long ends TIMEOUT; a spool operation starts as an operation of the
channel subsystem, and its end advances DSEQ or fails the spool; an interrupted one is spooled again for an adopted stream and is
logged as lost after HOLD; writing LDG_ERR.V clears V and MORE. The random number of the signature is open (the model's free
value). -/
def Obligations.Ledger : Prop :=
  (
  ∀ (id : Nat) (t : Stream) (s : State), let h := strHub s id
  live s = true → streamOf s id = some t →
  (∀ q d p fn, qpFront s q 3 = some d → qpOwner s q = some (p, fn) → fieldAt d 0 4 = id → t.otype = 1 → t.owner = fnKey p fn →
    id < 131072 → hubPresent s (halfOf (id / 65536)) = true → (effMode s ≠ .split ∨ halfOf (id / 65536) = portHalf p) →
    inTarget (fnOf s (fnKey p fn)) (fieldAt d 8 8) (max (fieldAt d 0x10 4) 1) = true →
    let a := ldgAppend id (fieldAt d 8 8) (fieldAt d 0x10 4) (fieldAt d 0x14 2) (fieldAt d 0x16 2) s
    exec (.appendEntry q) s = .next (qpResult q a.2.1 (fieldAt d 0x14 2) a.1 a.2.2)) ∧
  (∀ addr len tag flags, t.closing = false → readyBit s h rbLedger = true → 0 < len → len ≤ 65536 → flags < 4 →
    addr + len ≤ 0x100000000000 → draining s h = false → t.appends.length < 64 →
    (ldgOf s h).streams.foldl (fun (n : Nat) x => n + x.2.appends.length) 0 < 16384 →
    ldgAppend id addr len tag flags s = (0, t.nextSeq, updStream id (fun x => { x with
      appends := x.appends ++ [⟨t.nextSeq, addr, len, tag, bitOf flags 0, bitOf flags 1, false, [], [], 0⟩],
      nextSeq := x.nextSeq + 1 }) s)) ∧
  (∀ a fail, t.appends.find? (fun x => !x.framed) = some a → let ts := max (hubTime h s) (t.prevTs + 1)
    let put := fun (hdr body : List Byte) (cause : Nat) (u : State) => updStream id (fun x => { x with
      prevTs := ts,
      appends := x.appends.map (fun y => if y.seq = a.seq then { y with framed := true, hdr := hdr, body := body, cause := cause } else y) }) u
    (∀ x, dmaRead s h a.addr a.len = some (x, false) → (fail = false ∨ bitOf t.policy 29 = false ∧ bitOf t.policy 30 = false) →
      let b := sealBody id t a ts x
      exec (.appendFormat id fail) s = .next (put (frameHdr 1 b.2 id t.openId a.seq ts a.len b.1.length) b.1 0 s)) ∧
    (dmaRead s h a.addr a.len = none → exec (.appendFormat id fail) s = .next (put (frameHdr 4 0 id t.openId a.seq ts 8 8)
      (pack [(1, 1), (1, 0), (2, a.tag), (4, a.len)]) 1 (ldgErr id 0 (badSector s h a.addr a.len) false s)))) ∧
  (∀ a rest s1 off n, t.appends = a :: rest → a.framed = true → t.held = [] → a.cause = 0 → a.durable = false →
    let ts := fieldAt a.hdr 0x18 8
    chainFrame id a.seq ts a.hdr a.body s = (s1, some (off, n)) →
    let e : LComp := ⟨a.seq, a.tag, 0, bitOf (fieldAt a.hdr 5 1) 0, bitOf (fieldAt a.hdr 5 1) 1, ts, off, n, a.notify⟩
    let s2 := queueComp id e (updStream id (fun x => { x with appends := rest }) s1)
    let t2 := closeCheck id (if t.n ≤ t.since + 1 then askCkpt id 1 s2 else s2)
    exec (.appendChain id) s = .next t2 ∧ exec (.ringSpaceWait id) s = .next t2) ∧
  (∀ e rest d p s1, t.held = e :: rest → dmaRead s h (t.base + 0x14) 4 = some (d, p) → (t.ctail + 1) % 1024 ≠ ofBytes d % 1024 →
    ldgWrite id (t.base + 0x1000 + t.ctail * 32) (compBytes id e t.phase) s = (s1, true) → let n := (t.ctail + 1) % 1024
    let s2 := (ldgWrite id (t.base + 0x10) (toBytes 4 n)
      (updStream id (fun x => { x with held := rest, ctail := n, phase := if n = 0 then !x.phase else x.phase }) s1)).1
    exec (.ledgerCompletionPost id) s =
      .next (if e.notify then ringIrq (fld t.intctl 29 28) (fld t.intctl 27 20) (fld t.intctl 10 0) t.otype t.owner s2 else s2)) ∧
  (exec (.checkpointTimer id) s = .next (if 0 < t.since then askCkpt id 2 s else s))) ∧
  (
  ∀ (id : Nat) (t : Stream) (s : State), live s = true → streamOf s id = some t →
  (∀ h q s1 off, (ldgOf s h).sigq = id :: q → let hd := headOf s id
    let body0 := ckptBody s h id t (t.ckpt.getD 0)
    let body := body0 ++ ecdsaSign t.sigKey body0 (freeVal s)
    let d := frameBytes (frameHdr 5 0 id t.openId hd.seq (hubTime h s) 240 240) body (slice hd.chain 0 48)
    placeFrame id hd.seq d (drawn s) = (s1, some off) →
    let s2 := updStream id (fun x => { x with ckpt := none, since := 0, ckptCmd := none }) (updLdg h (fun l => { l with sigq := q }) s1)
    let s3 := queueComp id ⟨hd.seq, 0, 2, false, false, hubTime h s, off, d.length, false⟩ s2
    let s4 := bump (ldgUnit h) 0x503 1 (finishOpt t.ckptCmd stDone 8 hd.seq s3)
    exec (.checkpointSign h) s = .next (if t.ending ∧ t.appends = [] then finishOpt t.closeCmd stDone 8 hd.seq (dropStream id s4) else s4)) ∧
  (exec (.closeTimeout id) s = .next (finishOpt t.closeCmd stTimeout 0 0 (updStream id (fun x => { x with ending := false, closeCmd := none }) s))) ∧
  ((t.spool = none ∨ t.spoolFailed = true ∨ 2 ≤ t.ops.length ∨ t.spoolTo = t.rtail) → exec (.spoolStart id) s = .next s) ∧
  (∀ sub s1, t.spool = some sub → t.spoolFailed = false → t.ops = [] → t.spoolNext = none → t.spoolTo < t.rtail →
    let lba := 512 * 2 ^ t.spShift
    let first := t.spoolTo / lba * lba
    let stop := (t.rtail + lba - 1) / lba * lba
    let h := strHub s id
    stop ≤ first + 2 ^ 20 → stop < t.rsize →
    ldgWrite id (t.base + 0x9000) (spoolProgram (t.base + 0x9000) (t.spLba + first / lba) (stop - first) (t.base + 0x10000) first) s = (s1, true) →
    let firstSeq := match t.frames with | f :: _ => f.2.2 | [] => t.dseq + 1
    let whole := t.frames.filter (fun f => decide (t.spoolTo < f.1 + f.2.1 ∧ f.1 + f.2.1 ≤ stop))
    let q := cssStart h (id / 65536 * 2048 + sub % 2048) (t.base + 0x9000) (id % 65536 * 2 ^ 48 + firstSeq % 2 ^ 48) false 0 true s1
    (q.1 ≥ 2 → exec (.spoolStart id) s = .next q.2.2) ∧
    let mine := (cssOf q.2.2 h).ift.find? (fun e => e.2.opno == (cssOf s1 h).opCtr && e.2.otype == 2 && e.2.st != 0)
    (q.1 < 2 → ∀ i e, mine = some (i, e) → exec (.spoolStart id) s =
      .next (updStream id (fun x => { x with ops := x.ops ++ [⟨i, t.rtail, whole.foldl (fun (n : Nat) f => max n f.2.2) t.dseq, whole.length⟩],
                                             spoolTo := t.rtail }) q.2.2))) ∧
  (∀ h i o rest, let e := iftOf s h i
    e.otype = 2 → e.st = 6 → e.sub / 2048 * 65536 + e.tag / 2 ^ 48 = id → t.ops = o :: rest → o.ift = i →
    exec (.spoolFinalStatus h i) s = .next (applySpool id
      (let s1 := updIft h i (fun _ => Ift.free) s
        if t.spoolFailed then updStream id (fun x => { x with ops := x.ops.drop 1 }) s1
        else if e.fstat = 0 ∨ e.fstat = 1 then spoolDone id o s1 else failSpool id s1))) ∧
  (∀ h i, let e := iftOf s h i
    e.otype = 2 → e.st = 10 → e.halfLoss = true → spoolStream e = id → strHub s id ≠ halfOf (id / 65536 % 2) →
    exec (.spoolFinalStatus h i) s = .next (updIft h i (fun _ => Ift.free) s)) ∧
  (∀ h i, let e := iftOf s h i
    e.otype = 2 → e.st = 10 → e.halfLoss = false → spoolStream e = id → exec (.spoolFinalStatus h i) s = .next (loseSpool h id s)) ∧
  (∀ h, exec (.ldgErrClear h) s = .next (updLdg h (fun l => { l with errV := false, errMore := false }) s)))

/-- R436, R440, R455, R456, R459: host requests. A configuration request is answered CRS before readiness, UR for a function that
is not there, else with the word; a request to a function whose memory space is off gets UR; BAR0 reads and writes registers; BAR2
goes through the active window that holds its whole range, to its package address when the window and the DRAM limit allow it,
else UR; a PF0 request that matches only a peer window is issued again at the target port. -/
def Obligations.AttachRequests : Prop :=
  ∀ (s : State), live s = true →
  (∀ p fn off tag wr, portPresent s p = true → (portOf s p).perst = false → let w := off / 4 * 4
    (readyBit s (portHalf p) (rbAtt (p % 2)) = false → exec (.pcieConfigRequest p fn off tag wr) s = .next (portSend p (.cpl fn tag 2 [] false) s)) ∧
    (readyBit s (portHalf p) (rbAtt (p % 2)) = true →
      (fn ≠ 0 → numVfs s p < fn → exec (.pcieConfigRequest p fn off tag wr) s = .next (portSend p (.cpl fn tag 1 [] false) s)) ∧
      ((fn = 0 ∨ fn ≤ numVfs s p) →
        exec (.pcieConfigRequest p fn off tag none) s =
          .next (portSend p (.cpl fn tag 0 (toBytes 4 (cfgWord s (fnKey p fn) w)) false) s) ∧
        ∀ be v, exec (.pcieConfigRequest p fn off tag (some (be, v))) s =
          .next (portSend p (.cpl fn tag 0 [] false) (cfgWrite (fnKey p fn) w be v s))))) ∧
  (∀ r : InReq, portPresent s r.port = true → (portOf s r.port).perst = false →
    let k := fnKey r.port r.fn
    let u := bump (portUnit r.port) 0x581 1 s
    let n := inLen r.kind
    ((memSpaceEn u k = false ∨ inD3 u k = true ∨ fnLive u r.port r.fn = false) → exec (.inboundMemoryRequest r) s = .next (inUr r u)) ∧
    (cfgFn u r.port r.fn = true → memSpaceEn u k = true → inD3 u k = false → fnLive u r.port r.fn = true →
      (∀ d ep, r.bar = 0 → r.kind = .wr d ep → exec (.inboundMemoryRequest r) s = .next (regPut k r.off d u)) ∧
      (∀ m, r.bar = 0 → r.kind = .rd m → exec (.inboundMemoryRequest r) s =
        .next (portSend r.port (.cpl r.fn r.tag 0 (regBytes u k r.off m) false) u)) ∧
      (∀ w, r.bar ≠ 0 → winHit (fnOf u k) r.off n = some w → let pa := w.tgt + (r.off - w.off)
        (((∃ op size x y, r.kind = .atom op size x y ∧ atomOk u op size r.off = false) ∨ winAllows w r.kind = false ∨ dramOk u (portHalf r.port) pa n = false) → exec (.inboundMemoryRequest r) s = .next (inUr r u)) ∧
        ((∀ op size x y, r.kind = .atom op size x y → atomOk u op size r.off = true) → winAllows w r.kind = true → dramOk u (portHalf r.port) pa n = true →
          exec (.inboundMemoryRequest r) s = .next (inPerform r pa u))) ∧
      (r.bar ≠ 0 → winHit (fnOf u k) r.off n = none → (r.fn ≠ 0 ∨ peerHit (portOf u r.port) r.off n = none) → isPf k = decide (r.fn = 0) →
        exec (.inboundMemoryRequest r) s = .next (inUr r u)))) ∧
  (∀ (r : InReq) w d ep, r.fn = 0 → memSpaceEn s (fnKey r.port 0) = true → inD3 s (fnKey r.port 0) = false →
    winHit (fnOf s (fnKey r.port 0)) r.off (inLen r.kind) = none → peerHit (portOf s r.port) r.off (inLen r.kind) = some w →
    r.kind = .wr d ep →
    (peerUp s r.port w.tport = true → w.wr = true →
      exec (.peerForward r) s = .next (portSend w.tport (.write 0 (w.haddr + (r.off - w.off)) d ep) s)) ∧
    ((peerUp s r.port w.tport = false ∨ w.wr = false) → exec (.peerForward r) s = .next (inUr r s)))

/-- R446, R449–R451, R453: queue pairs. A doorbell records the tail and has the entries past the head read, up to 16 by one read,
which waits where no tag is free and is not made while a drain freezes the head; CQHEAD written lets held entries and replies go
out; a stop disables the queue pair with its cause and no entry kept; the package side of an MSG queue pair records its tail and
head and sends and receives. R449, R451, R461, R463, R467: what the port reads of the host. A core's load with the link up and PF0
mastering is sent and waits; else its answer is an address error; a store is queued; a completion with its data goes to what the
read was for, one with an error or no completion fails it, a timeout counted in the function's AER; an unexpected completion is an
error, a quarantined tag's is dropped. A tag that comes free goes to the oldest read that waits for one. -/
def Obligations.QueuePairs : Prop :=
  (
  ∀ (q v : Nat) (s : State), live s = true →
  exec (.attQpSqtailDoorbell q v) s = .next (qpServe q (updQp q (fun x => { x with sqTail := v % 65536 }) s)) ∧
  exec (.attQpCqheadWrite q v) s = .next (qpServe q (msgOut q (cqFlush q (updQp q (fun x => { x with cqHead := v % 65536 }) s)))) ∧
  exec (.attMsgTxtailDoorbell q v) s = .next (msgOut q (updQp q (fun x => { x with txTail := v % 65536 }) s)) ∧
  exec (.attMsgRxheadWrite q v) s = .next (qpServe q (updQp q (fun x => { x with rxHead := v % 65536 }) s)) ∧
  ((qpOf s q).en = true → exec (.queuePairStop q v) s =
    .next (dropReads q (updQp q (fun x => { x with en := false, stopped := true, cause := v % 8 }) s))) ∧
  (∀ p fn, qpOwner s q = some (p, fn) → sqMay s q = true → (qpOf s q).got = [] → sqReading s p q = false → let x := qpOf s q
    let n := qpSlots x.sqSize
    let todo := (x.sqTail % n + n - x.sqSlot) % n
    let k := min 16 (min todo (n - x.sqSlot))
    (todo = 0 → qpRead q s = s) ∧
    (∀ t, todo ≠ 0 → freeTag (portOf s p) = some t → qpRead q s =
      portSend p (.read fn (x.sqAt + x.sqSlot * sqEntry x.typ) (k * sqEntry x.typ) t)
        (updPort p (fun y => { y with reqs := y.reqs ++ [⟨t, fn, .sq q k⟩], nextTag := (t + 1) % 1024 }) s)) ∧
    (todo ≠ 0 → freeTag (portOf s p) = none → qpRead q s = updPort p (fun y => { y with
      waiting := y.waiting ++ [⟨fn, x.sqAt + x.sqSlot * sqEntry x.typ, k * sqEntry x.typ, .sq q k⟩] }) s)) ∧
  (draining s (halfOf (q / 2048)) = true → qpRead q s = s)) ∧
  (
  ∀ (p : Nat) (s : State), let x := portOf s p
  live s = true →
  (∀ lcn ctx off n, let rid := (tget Ctx.reset s.ctxs (lcn * 2 + ctx)).reqId
    (winUp s p = true → winShape off n = true →
      exec (.attachWindowAccess lcn ctx p off n none) s = .next (portRead p 0 off n (.load lcn ctx rid n) s)) ∧
    ((winUp s p = false ∨ winShape off n = false) → exec (.attachWindowAccess lcn ctx p off n none) s = .next (loadReply p lcn ctx rid 1 [] s)) ∧
    (∀ d, winUp s p = true → winShape off d.length = true →
      exec (.attachWindowAccess lcn ctx p off n (some d)) s = .next (portSend p (.write 0 off d false) s))) ∧
  (∀ tag r, x.reqs.find? (fun r => r.tag == tag) = some r → let s1 := updPort p (fun y => { y with reqs := y.reqs.filter (fun z => z.tag != tag) }) s
    (∀ d ep, exec (.attachReadCompletion p tag 0 d ep) s = .next (portPump p (reqDone p r d ep s1))) ∧
    (∀ st d ep, st ≠ 0 → exec (.attachReadCompletion p tag st d ep) s = .next (portPump p (reqFail p r s1))) ∧
    exec (.attachCompletionTimeout p tag) s = .next (portPump p (reqFail p r (aerSet (fnKey p r.fn) 14 s1)))) ∧
  (∀ tag st d ep, x.reqs.find? (fun r => r.tag == tag) = none →
    (x.quar.any (fun q => q.1 == tag) = true → exec (.attachReadCompletion p tag st d ep) s = .next s) ∧
    (x.quar.any (fun q => q.1 == tag) = false → exec (.attachReadCompletion p tag st d ep) s = .next (aerSet (p * 64) 16 s)) ∧
    exec (.attachCompletionTimeout p tag) s =
      .next (portPump p (updPort p (fun y => { y with quar := y.quar.filter (fun q => q.1 != tag) }) s))))

/-- R436, R445, R457, R462, R465–R467, R469, R478: ports and functions. GO checks a shadow set and swaps it in or sets ERR; a
function's reset, a hot reset, PERST_N; Bus Master Enable cleared stops the function's queues and marks what was lost, and writing
BME_LOST resumes; the link comes up when its training ends; a new latency state sends LTR; ATT_FN_ISR bits clear; a VF_QUIESCE
that runs out ends by what is still in flight. -/
def Obligations.AttachFunctions : Prop :=
  ∀ (p k : Nat) (s : State), live s = true →
  (∀ v, portPresent s p = true → let s1 := updPort p (fun x => { x with err := x.err && !bitOf v 30, set := v % 128 }) s
    (bitOf v 31 = false → exec (.attWinCommit p v) s = .next s1) ∧
    (bitOf v 31 = true → v % 128 < 64 → winsOk s (p * 64 + v % 128) = true →
      exec (.attWinCommit p v) s = .next (updFn (p * 64 + v % 128) (fun f => { f with active := f.shadow }) s1)) ∧
    (bitOf v 31 = true → v % 128 = 64 → peersOk s p = true →
      exec (.attWinCommit p v) s = .next (updPort p (fun x => { x with peers := x.peersS }) s1)) ∧
    (bitOf v 31 = true → (64 < v % 128 ∨ v % 128 < 64 ∧ winsOk s (p * 64 + v % 128) = false ∨ v % 128 = 64 ∧ peersOk s p = false) →
      exec (.attWinCommit p v) s = .next (updPort p (fun x => { x with err := true }) s1))) ∧
  (isPf k = false → exec (.functionLevelReset k) s = .next (flrOne k s)) ∧
  (exec (.hotReset p false) s = .next (runFlr (p * 64) s) ∧
    exec (.hotReset p true) s = .next (updPort p (fun x => { x with link := 0, gen := 0, width := 0 }) (runFlr (p * 64) s))) ∧
  (portPresent s p = true → (portOf s p).perst = true →
    exec (.attachPerstN p false) s = .next (updPort p (fun x => if x.perst then { x with perst := false, link := 1 } else x) s)) ∧
  (∀ gen width, (portOf s p).link = 1 → (portOf s p).perst = false →
    exec (.attachLinkTrained p gen width) s = .next (updPort p (fun x => { x with link := 2, gen := gen % 8, width := width % 32 }) s)) ∧
  (busMaster s k = true → exec (.busMasterDisable k) s = .next (bmeStop k (setCfg k 4 (cfgWord s k 4 - 4) s)) ∧
    ((fnOf s k).bmeLost = true → exec (.bmeLostClear k) s = .next (resumeFn k (updFn k (fun f => { f with bmeLost := false }) s)))) ∧
  (busMaster s k = false → exec (.busMasterDisable k) s = .next s ∧ exec (.bmeLostClear k) s = .next s) ∧
  ((ltrOn s p = false ∨ (portOf s p).ltr = some (ltrRow s p)) → exec (.ltrUpdate p) s = .next s) ∧
  (ltrOn s p = true → (portOf s p).ltr ≠ some (ltrRow s p) → exec (.ltrUpdate p) s =
    .next (portSend p (.ltr (ltrValue (ltrRow s p))) (updPort p (fun x => { x with ltr := some (ltrRow s p) }) s))) ∧
  (∀ v, exec (.attFnIsrClear k v) s = .next (intaUpdate (k / 64) (updFn k (fun f => { f with isr := f.isr - f.isr.land v }) s))) ∧
  (∀ g, (fnOf s k).quiesceCmd = some g → let s1 := fnEvent k (updFn k (fun f => { f with quiesced := true, quiesceCmd := none }) s)
    (inFlight s k = true → exec (.vfQuiesceLimit k) s = .next (finish g stFailed 8 (res [(4, 0x20), (4, openWork s k)]) s1)) ∧
    (inFlight s k = false → exec (.vfQuiesceLimit k) s = .next (finish g stDone 4 0 s1)))

/-- R484, R486: mailbox. A doorbell marks requests, a clear takes replies away; the next request in turn whose slot holds no reply
is taken, one of no type is answered BAD_OPCODE, one of the wrong length BAD_PARAM; DBG_CHALLENGE answers a fresh nonce, the
serial and the lifecycle, DBG_RELOCK ends a grant. The nonce is open (the model's free value). R489, R492, R495, R506, R512–R514,
R520: tokens, images, steering. A token that is malformed ends BAD_PARAM; one not signed for this part and nonce, or granting what
the lifecycle does not allow, DENIED; each uses the nonce up; one that opens the secure world waits for none of it to run and
erases every key slot; a grant lasts its duration; a lifecycle step is one of the table; an envelope not accepted is logged UC
0x0905 and DENIED; Hub B's ST64 steps or slews to Hub A's, ahead of it by leaving out one nanosecond in a thousand (DESIGN CHOICE,
log 16: at most 0.1 %); a secure job still running at its limit ends PREEMPTED_BY_POWER. -/
def Obligations.Lighthouse : Prop :=
  (
  ∀ (h : Half) (s : State), let l := lhOf s h
  live s = true →
  (∀ m, exec (.lhMbDb h m) s = .next (updLh h (fun x => { x with
    inpend := (upTo 16).foldl (fun p i => if bitOf m i then setIns p i else p) x.inpend }) s)) ∧
  (∀ m, exec (.lhMbOutpendClear h m) s = .next (updLh h (fun x => { x with outpend := x.outpend.filter (fun i => !bitOf m i) }) s)) ∧
  (∀ k, l.taken = none →
    ((upTo 16).map (fun i => (l.lastSlot + 1 + i) % 16)).find? (fun k => l.inpend.contains k && !l.outpend.contains k) = some k →
    let m := slice (tget [] l.mbIn k) 0 256
    let s1 := updLh h (fun x => { x with inpend := setDel x.inpend k, lastSlot := k, taken := some (k, m) }) s
    (fieldAt m 0 2 = 0 ∨ 6 ≤ fieldAt m 0 2 → exec (.mailboxTake h) s = .next (mbAnswer h stBadOpcode [] s1)) ∧
    (fieldAt m 0 2 = 5 → fieldAt m 4 2 ≠ 13 → exec (.mailboxTake h) s = .next (mbAnswer h stBadParam [] s1)) ∧
    (fieldAt m 0 2 = 5 → fieldAt m 4 2 = 13 → exec (.mailboxTake h) s = .next s1)) ∧
  (∀ p, mbTaken s h 1 = some p → exec (.dbgChallenge h) s = .next (mbAnswer h stDone (drbg s.nonce 16 ++ pack [(4, otpSerial), (1, l.lc)])
    (updLh h (fun x => { x with nonce := some (drbg s.nonce 16) }) (drawn s)))) ∧
  (∀ p, mbTaken s h 3 = some p → s.units.dbg.left ≠ 0 →
    exec (.dbgRelock h) s = .next (mbAnswer h stDone (pack [(4, lhDbgReg (endGrant s) h)]) (endGrant s)))) ∧
  (
  ∀ (h : Half) (s : State), live s = true → let used := updLh h (fun l => { l with nonce := none }) s
  (∀ t, mbTaken s h 2 = some t →
    let st := tokenCheck s h [0x4C, 0x44, 0x54, 0x31] t
    let g := fieldAt t 0x18 1
    let dur := fieldAt t 0x1C 4
    (st = stBadParam → exec (.dbgUnlock h) s = .next (mbAnswer h stBadParam [] used)) ∧
    (st = stDenied → g ≤ 15 → 0 < dur → dur < 2 ^ 24 → exec (.dbgUnlock h) s = .next (mbAnswer h stDenied [] used)) ∧
    (st = 0 → g ≤ 15 → 0 < dur → dur < 2 ^ 24 → g.land (15 - dbgGrantable (lcOf s)) = 0 →
      (bitOf g 1 = true → (anyStream s = true ∨ secureWork s .a = true ∨ secureWork s .b = true) →
        exec (.dbgUnlock h) s = .next (mbAnswer h stNotQuiesced [] used)) ∧
      (bitOf g 1 = false → let s1 := setDbg (fun d => { d with grant := g, left := hubTime h used + dur * 1000000000 }) used
        exec (.dbgUnlock h) s = .next (mbAnswer h stDone (pack [(4, lhDbgReg s1 h)]) s1)))) ∧
  (∀ t, mbTaken s h 4 = some t → let new := fieldAt t 0x18 1
    (tokenCheck s h [0x4C, 0x4C, 0x43, 0x31] t ≠ 0 →
      exec (.lcAdvance h) s = .next (mbAnswer h (tokenCheck s h [0x4C, 0x4C, 0x43, 0x31] t) [] used)) ∧
    (tokenCheck s h [0x4C, 0x4C, 0x43, 0x31] t = 0 → lcStep (lcOf s) new = false →
      exec (.lcAdvance h) s = .next (mbAnswer h stBadParam [] used)) ∧
    (tokenCheck s h [0x4C, 0x4C, 0x43, 0x31] t = 0 → lcStep (lcOf s) new = true → new ≠ 4 →
      exec (.lcAdvance h) s = .next (mbAnswer h stDone (pack [(1, new)])
        (bothHubs (fun g x => updLh g (fun l => { l with lc := new }) x) used)))) ∧
  (∀ p d, mbTaken s h 5 = some p → fieldAt p 12 1 ≤ 15 → 320 ≤ fieldAt p 8 4 →
    dmaRead s h (fieldAt p 0 8) (fieldAt p 8 4) = some (d, false) →
    (envelope s h none d = none → exec (.fwStage h) s = .next (mbAnswer h stDenied []
      (logNow h (rpt (lhUnit h) 2 clsUC 0x0905 (fieldAt d 4 1 * 256)) s))) ∧
    (∀ t i c, envelope s h none d = some (t, i, c) → t ≠ 4 →
      exec (.fwStage h) s = .next (mbAnswer h stDone (pack [(4, i.version)]) (cacheImage h t i c s)))) ∧
  (exec .grantExpiry s = .next (if s.units.dbg.left = 0 then s else endGrant s)) ∧
  (∀ d, hubPresent s .b = true → bwaterReady s = true → (s.pkg.mode = .unified ∨ s.pkg.mode = .mirrored ∨ s.pkg.mode = .split) →
    s.pkg.stopped = false → let a := hubTime .a s
    let b := hubTime .b s
    let slow := fun (n : Nat) (t : State) => Host.Outcome.next { t with pkg := { s.pkg with slow := n } }
    (b + 1000 < a → exec (.st64Steer d) s = slow 0 { s with st64 := { s.st64 with b := BitVec.ofNat 64 a } }) ∧
    (a - 1000 ≤ b → b ≤ a → exec (.st64Steer d) s = slow 0 { s with st64 := { s.st64 with b := BitVec.ofNat 64 (b + min (a - b) (d / 1000)) } }) ∧
    (a < b → exec (.st64Steer d) s = slow (min (b - a) (d / 1000)) s)) ∧
  (let count := { s with st64 := { s.st64 with b := s.st64.b + 1 } }
   countSt64 .a s = { s with st64 := { s.st64 with a := s.st64.a + 1 } } ∧
   (s.pkg.slow = 0 → countSt64 .b s = count) ∧
   (s.pkg.slow ≠ 0 → s.pkg.slowAt < 999 → countSt64 .b s = { count with pkg := { s.pkg with slowAt := s.pkg.slowAt + 1 } }) ∧
   (s.pkg.slow ≠ 0 → 999 ≤ s.pkg.slowAt → countSt64 .b s = { s with pkg := { s.pkg with slow := s.pkg.slow - 1, slowAt := 0 } })) ∧
  (∀ u, s.units.preq.any (fun r => r.unit == u && r.deferred) = true → unitType u = 4 →
    (sengOf s (unitHalf u) (unitInst u)).secure = true →
    exec (.deferredPowerLimit u) s = .next (updUnits (fun x => { x with preq := x.preq.map (fun r =>
      if r.unit = u then { r with deferred := false } else r) }) (sealEndEarly (unitHalf u) (unitInst u) stPreempted 0 s))))

/-- R39, R522–R524, R541: supplies. A feed's first loss is counted, kept and logged CE 0x0804; its return ends the draw on VHOLD;
both lost, the package runs on VHOLD and enters HOLD, or is OFF with VHOLD out of range; VHOLD lost while it serves is OFF; each
range bit shows its supply; hold power coming up from OFF reads OTP and makes the package HOLD; A_LOST and B_LOST clear by 1. -/
def Obligations.Supplies : Prop :=
  ∀ (s : State),
  (∀ k, s.pkg.mode ≠ .off → (feedOf s.units.pwr k).lost = false →
    let s1 := updFeed k (fun f => { f with ok := false, lost := true, sticky := true, losses := sat (f.losses + 1) 255 }) s
    exec (.feedLoss k) s =
      .next (if s.pkg.stopped then s1 else logNow (leader s) (rpt (srcOf (leader s) 0xFF 0x16 k) 3 clsCE 0x0804 k) s1)) ∧
  (∀ k, (feedOf s.units.pwr k).lost = true →
    exec (.feedReturn k) s = .next (updPwr (fun p => { p with onHold := false }) (updFeed k (fun f => { f with ok := true, lost := false }) s))) ∧
  (∀ k, (feedOf s.units.pwr k).lost = false → exec (.feedReturn k) s = .next s) ∧
  (s.pkg.mode ≠ .off → let s1 := updPwr (fun p => { p with feedA := feedGone p.feedA, feedB := feedGone p.feedB, onHold := p.hOk }) s
    (s.units.pwr.hOk = false → exec .bothFeedsLost s = .next (goOff s1)) ∧
    (s.units.pwr.hOk = true → s.pkg.stopped = false → exec .bothFeedsLost s = .next (forceHold s1))) ∧
  (s.pkg.mode ≠ .off → s.units.pwr.onHold = true →
    exec .vholdLoss s = .next (goOff (updPwr (fun p => { p with onHold := false }) (updPwr (fun p => { p with hOk := false }) s)))) ∧
  (s.units.pwr.onHold = false → exec .vholdLoss s = .next (updPwr (fun p => { p with hOk := false }) s)) ∧
  (∀ ok, exec (.supplyRangeChange 2 ok) s = .next (updPwr (fun p => { p with hOk := ok }) s)) ∧
  (∀ k ok, k ≠ 2 → s.pkg.mode ≠ .off → exec (.supplyRangeChange k ok) s =
    .next (updFeed k (fun f => if f.lost then f else { f with ok := ok }) s)) ∧
  (∀ k, s.pkg.mode = .off → ∃ t, exec (.holdPowerUp k) s = .next t ∧ t.pkg.mode = .hold ∧ (lhOf t .a).otp = true ∧
    (k = 0 → t.units.pwr.feedA.ok = true ∧ t.units.pwr.onHold = false) ∧ (k = 2 → t.units.pwr.hOk = true)) ∧
  (∀ v, live s = true → exec (.pmuSupplyLostClear v) s = .next (updPwr (fun p => { p with
    feedA := { p.feedA with sticky := p.feedA.sticky && !bitOf v 17 }
    feedB := { p.feedB with sticky := p.feedB.sticky && !bitOf v 16 } }) s))

/-- R43, R525, R526, R535, R541, R618–R625: sideband inputs. Each new level that counts acts: PWRFAIL_WARN_N starts its drain,
RESET_N forces HOLD and its release brings up, THROTTLE_N is logged THERMAL; SVC clears when written; a masked input acts no more;
stuck and chattering inputs are masked, counted and logged CE 0x0806, RESET_N never as stuck; a mask ends when a stuck input is
inactive. R541: RESET_N that counts. Asserted in HOLD it leaves the package in HOLD, in any other mode it takes it to HOLD;
released in HOLD with a main feed in range and HUB_CAP0 valid it takes it to BRINGUP. -/
def Obligations.SidebandInputs : Prop :=
  (
  ∀ (s : State), live s = true → let p := s.units.pwr
  (masked s 1 = false → p.active.contains 1 = false → exec .pwrfailWarn s = .next (powerFail (setLevel 1 true s))) ∧
  (p.active.contains 1 = true → exec .pwrfailWarnRelease s =
    .next (updPwr (fun x => { x with pfwEnd := hubTime (leader s) s }) (setLevel 1 false s))) ∧
  (masked s 0 = false → exec .resetNAssert s = .next (forceHold (setLevel 0 true s)) ∧
    exec .resetNRelease s = .next (resetRelease (setLevel 0 false s))) ∧
  (masked s 0 = true → exec .resetNAssert s = .next (setLevel 0 true s) ∧ exec .resetNRelease s = .next (setLevel 0 false s)) ∧
  (∀ on, masked s 2 = false → p.active.contains 2 = !on → exec (.throttleN on) s =
    .next (logNow (leader s) (rpt (hmUnit (leader s)) 3 clsCE 0x0805 (if on then 0 else 2)) (setLevel 2 on s))) ∧
  (exec .pmuSidebandSvcClear s = .next (updPwr (fun x => { x with svc := false }) s)) ∧
  (∀ i, (i = 1 ∨ i = 3) → masked s i = false → p.active.contains i = true → p.feedA.ok = true → p.feedB.ok = true →
    exec (.sidebandStuck i) s = .next (logNow (leader s) (rpt (srcOf (leader s) 0xFF 0x17 i) 3 clsCE 0x0806 (res [(1, i), (1, 0)]))
      (updPwr (fun x => { x with stuck := setIns x.stuck i, masks := sat (x.masks + 1) 255 }) s))) ∧
  (exec (.sidebandStuck 0) s = .next s) ∧
  (∀ i, (i = 1 ∨ i = 3 ∨ i = 0 ∧ p.active.contains 0 = true ∨ i = 2 ∧ p.active.contains 2 = false) → masked s i = false →
    exec (.sidebandChatter i) s = .next (logNow (leader s) (rpt (srcOf (leader s) 0xFF 0x17 i) 3 clsCE 0x0806 (res [(1, i), (1, 1)]))
      (updPwr (fun x => { x with chat := setIns x.chat i, masks := sat (x.masks + 1) 255 }) s))) ∧
  (∀ i, p.stuck.contains i = true →
    exec (.sidebandMaskEnd i) s = .next (if p.active.contains i then s else updPwr (fun x => { x with stuck := setDel x.stuck i }) s))) ∧
  (
  ∀ (s : State), live s = true → masked s 0 = false →
  (∃ t, exec .resetNAssert s = .next t ∧ t.pkg.mode = .hold) ∧
  (s.pkg.mode = .hold → feedIn s = true → capValid s .a = true → ∃ t, exec .resetNRelease s = .next t ∧ t.pkg.mode = .bringup))

/-- R528–R531, R535, R631: clocks and temperature. A window with both counts 248 to 252 adds to the good ones, 16 of which set
XOK; one outside it clears XOK, and while the root PLL runs on XTAL moves it to IRO, raises CLOCK_LOSS at every core in service,
drops the attested mark and is counted and logged CR 0x0801; a failed IRO is logged UC 0x0803 and gives the PLL back to XTAL; with
both lost the package stops with FAULT_N; a die at 105 °C is throttled and logged until it is under 100 °C; an overheated hub is a
lost half. -/
def Obligations.Clocks : Prop :=
  ∀ (s : State), live s = true → s.pkg.mode ≠ .off → let p := s.units.pwr
  (∀ x i, p.irok = true →
    let ok : Bool := decide (248 ≤ x ∧ x ≤ 252 ∧ 248 ≤ i ∧ i ≤ 252)
    let s1 := updPwr (fun q => { q with
      xcnt := x % 2 ^ 32, icnt := i % 2 ^ 32
      good := if ok then sat (q.good + 1) 16 else 0, xok := ok && decide (16 ≤ q.good + 1) }) s
    ((ok = true ∨ p.lock = false ∨ p.ref = true) → exec (.clockMonitorWindow x i) s = .next s1) ∧
    (ok = false → p.lock = true → p.ref = false →
      let s2 := clockLossAll (updPwr (fun q => { q with ref := true, losses := sat (q.losses + 1) 255 }) s1)
      let s3 := bothHubs (fun h t => updLh h (fun l => { l with att := false }) t) s2
      exec (.clockMonitorWindow x i) s = .next (logNow (leader s3) (rpt (srcOf (leader s3) 0xFF 0x15 0) 3 clsCR 0x0801 (res [(4, x), (4, i)])) s3))) ∧
  (p.irok = true → exec .iroFailure s = .next (logNow (leader s) (rpt (srcOf (leader s) 0xFF 0x15 0) 3 clsUC 0x0803 0)
    (updPwr (fun x => { x with irok := false, ref := if x.lock then false else x.ref }) s))) ∧
  (exec .allClocksLost s = .next { updPkg (fun x => { x with stopped := true }) s with faultN := true }) ∧
  (∀ d t, diePresent s d = true → (dieOf s d).lost = false → let s1 := updDie d (fun y => { y with temp := t }) s
    (840 ≤ t → (dieOf s d).hot = false → exec (.dieTemperatureThreshold d t) s =
      .next (logNow (leader s) (rpt (hmUnit (leader s)) 3 clsCE 0x0805 1) (updDie d (fun y => { y with hot := true }) s1))) ∧
    (t < 800 → (dieOf s d).hot = true → exec (.dieTemperatureThreshold d t) s =
      .next (logNow (leader s) (rpt (hmUnit (leader s)) 3 clsCE 0x0805 2) (updDie d (fun y => { y with hot := false }) s1))) ∧
    (((dieOf s d).hot = true ∧ 800 ≤ t ∨ (dieOf s d).hot = false ∧ t < 840) → exec (.dieTemperatureThreshold d t) s = .next s1)) ∧
  (exec (.dieOvertemperature 16) s = .next (runHalfLoss .a 0 s) ∧ exec (.dieOvertemperature 17) s = .next (runHalfLoss .b 0 s)) ∧
  (∀ d, d < 16 → diePresent s d = true → (dieOf s d).lost = false →
    exec (.dieOvertemperature d) s = .next (dieLinks d .down (setPstate (dieUnit d) 3 (runDieLost d 2 s))))

/-- R161, R247, R493, R518, R538, R540, R542–R550: bring-up and block power. A unit whose dependencies are met sets its readiness
bit when its self-test passes, a die site is lost when it fails; the package reset is done while no unit is ready; the Lighthouse
loads its images; a die's self-test gives its good cores; pairing is decided once BWATER is up; SYS_AUTO issues its MODE_SET once;
a block reaches the power state asked of it when it has emptied and is idle, with the command answered, and wakes at once where a
wake is pending; a block woken by debug drowses again. -/
def Obligations.BringUp : Prop :=
  ∀ (h : Half) (s : State), live s = true →
  (∀ k pass, (readyDeps s h k = false ∨ hubPresent s h = false ∨ bitOff s h k = true) → exec (.unitReady h k pass) s = .next s) ∧
  (∀ k, hubPresent s h = true → readyDeps s h k = true → bitOff s h k = false → readyBit s h k = false → (k < 20 ∨ 28 ≤ k) →
    let s1 := setReady h k true s
    (k = rbLedger → exec (.unitReady h k true) s = .next (updLdg h (fun l => { l with lanes := 8 }) s1)) ∧
    (k = rbStock → exec (.unitReady h k true) s = .next (if s.units.spTest.get h then
      trainAll h (updUnits (fun u => { u with spTest := u.spTest.set h false }) s1) else s1)) ∧
    exec (.unitReady h k false) s = .next s ∧
    (k ≠ rbHfab → k ≠ rbStock → k ≠ rbLedger → exec (.unitReady h k true) s = .next s1)) ∧
  (∀ k, hubPresent s h = true → readyDeps s h k = true → bitOff s h k = false → 20 ≤ k → k < 28 →
    (dieOf s (h.n * 8 + (k - 20))).ready = false →
    let s1 := fun pass => updDie (h.n * 8 + (k - 20)) (fun x => { x with ready := pass, lost := !pass }) s
    exec (.unitReady h k true) s = .next (s1 true) ∧
    exec (.unitReady h k false) s = .next (if testsDone (s1 false) h then giveSpares h (s1 false) else s1 false)) ∧
  (s.pkg.mode = .bringup → s.units.ready.a = [] → s.units.ready.b = [] → exec .packageReset s = .next (packageReset s)) ∧
  (hubPresent s h = true → (lhOf s h).otp = true → halfOn s h = true → cacheFull s h = true →
    exec (.lighthouseBoot h 3) s = .next (updLh h (fun x => { x with hmok := true }) s) ∧
    (readyBit s h rbHfab = true → exec (.lighthouseBoot h 4) s = .next (updLh h (fun x => { x with cfwok := true }) s))) ∧
  (∀ d bad, (diePresent s d = false ∨ (dieOf s d).ready = false ∨ (dieOf s d).tested = true) → exec (.coreSelfTest d bad) s = .next s) ∧
  (∀ d bad, diePresent s d = true → (dieOf s d).ready = true → (dieOf s d).lost = false → (dieOf s d).heldOut = false →
    (dieOf s d).tested = false →
    let s1 := updDie d (fun y => { y with
      tested := true
      coreReady := (upTo 68).filter (fun x => !bad.contains x && !(dieOf s d).failed.contains x)
      failed := (bad.filter (fun x => x < 68)).foldl setIns y.failed }) s
    (∀ t ∈ [s, s1], ∀ l, l < lcnCount s → ∀ c, coreOf t l = some c → c / 128 ≠ d) → exec (.coreSelfTest d bad) s = .next (if testsDone s1 (dieHalf d) then giveSpares (dieHalf d) s1 else s1)) ∧
  (s.cfg.part ≠ .q0800a → (bwaterReady s = false ∨ s.pkg.mode = .hold) → exec .pairing s = .next s) ∧
  (∀ v, s.pkg.mode ≠ .hold →
    (s.cfg.part ≠ .q0800a ∧ bwaterReady s = true ∧ v = pairVerdict s.cfg.step.a s.cfg.step.b ∨
      s.cfg.part = .q0800a ∧ readyBit s .a rbHfab = true ∧ v = pairVerdict s.cfg.step.a s.cfg.step.a) →
    let feat := (halvesOf s).all (fun g => stepFeat (s.cfg.step.get g)) &&
      (upTo 16).all (fun d => !diePresent s d || dieHeld s d || stepFeat (dieStepOf s d))
    let s1 := updUnits (fun u => { u with pairing := ⟨true, v, feat, feat⟩ }) ((upTo 16).foldl (fun t d =>
      if diePresent s d then updDie d (fun x => { x with heldOut := dieHeld s d && !x.ready }) t else t) s)
    let differ := hubPresent s .b = true ∧ (lhOf s .a).lc ≠ (lhOf s .b).lc
    (¬ differ → exec .pairing s = .next s1) ∧
    (differ → exec .pairing s = .next (logNow (leader s1) (rpt (lhUnit (leader s1)) 3 clsUC 0x0905 1) s1))) ∧
  (let a := s.units.auto.get (leader s)
   (∀ w, (s.pkg.mode ≠ .bringup ∨ a.en = false ∨ s.units.autoDone = true) → exec (.sysAutoModeSet w) s = .next s) ∧
   (∀ w m, s.pkg.mode = .bringup → a.en = true → (a.target = 3 ∨ a.target = 4 ∨ a.target = 5) → s.units.autoDone = false →
    (w = true ∨ autoReady s a.target = true) → modeOf a.target = some m → let s1 := updUnits (fun u => { u with autoDone := true }) s
    (∀ st, firstFail (modeChecks s true a.target 0xFF 0) = some st → exec (.sysAutoModeSet w) s = .next (modeLog .bringup .bringup st s1)) ∧
    (firstFail (modeChecks s true a.target 0xFF 0) = none → exec (.sysAutoModeSet w) s = .next (modeStart none m 0xFF 0 s1)))) ∧
  (∀ u r, s.units.preq.find? (fun r => r.unit == u) = some r → (r.deferred = false ∨ unitSecure s u = false) →
    (r.target = 1 ∨ r.target = 2) → ∀ s1, s1 = unitEmpty u r.target s → unitIdle s1 u = true → unitSecure s1 u = unitSecure s u →
    let s2 := finishOpt r.cmd stDone 1 r.target
      (setPstate u r.target (updUnits (fun x => { x with preq := x.preq.filter (fun q => q.unit != u) }) s1))
    exec (.powerStateReached u) s = .next (if r.wake then wakeUnit u s2 else s2)) ∧
  (∀ u, s.units.dbg.woken.contains u = true → unitIdle s u = true → exec (.debugWakeExpiry u) s = .next (setPstate u 2
    (updUnits (fun x => { x with dbg := { x.dbg with woken := setDel x.dbg.woken u } }) s)))

/-- R565–R571, R584, R590–R592, R607, R608: records. A report is written at once when the log is free, else latched, one of a
class of a source that finds its latch full is counted lost; a freeze pulse writes a record or counts one missed; a sample goes to
the LCN's buffer with its running number, a discarded one is counted; a trace event of a traced context is written, or counted
while the group buffer is busy. The unit that reports first does what its error calls for: an attach port counts and answers it, a
ledger engine takes the hash lane out of service. -/
def Obligations.Records : Prop :=
  ∀ (h : Half) (s : State), live s = true →
  (∀ r s1, reportAct h r s = s1 → hubPresent s1 h = true → s1.pkg.mode ≠ .off → let l := s1.log.get h
    let x : Latched := ⟨hubTime h s1, r⟩
    (l.latches = [] → logMay s1 h = true → exec (.logReport h r) s = .next (logWrite h x s1)) ∧
    ((l.latches ≠ [] ∨ logMay s1 h = false) → exec (.logReport h r) s = .next (updLog h (fun k =>
      if latchFull l r then logDrop k r.source else { k with latches := k.latches ++ [x] }) s1))) ∧
  (∀ r, (r.code = 0x0A01 → reportAct h r s = portError (h.n * 2 + r.source % 2) (r.data / 256 % 256) (r.cls == clsCE) s) ∧
    (r.code = 0x0701 → r.source / 256 % 256 = 6 → reportAct h r s = updLdg h (fun l => { l with lanes := l.lanes - 1 }) s) ∧
    (r.code ≠ 0x0A01 → (r.code ≠ 0x0701 ∨ r.source / 256 % 256 ≠ 6) → reportAct h r s = s)) ∧
  ((collOf s h).run = true → collects s h = true →
    exec (.freezePulse h true) s = .next (updColl h (fun x =>
      { x with miss := sat (x.miss + 1) 0xFFFFFFFF, missed := sat (x.missed + 1) 0xFFFFFFFF }) s) ∧
    exec (.freezePulse h false) s = .next (pulse h false s)) ∧
  ((collOf s h).run = false → ∀ busy, exec (.freezePulse h busy) s = .next s) ∧
  (∀ l, lcnRuns s l = true → let k := (lcnOf s l).samp
    (k.n = 0 → ∀ r, exec (.sampleRecord l r) s = .next s) ∧
    (k.n ≠ 0 → exec (.sampleRecord l none) s =
        .next (updLcn l (fun x => { x with samp := { x.samp with missed := sat (x.samp.missed + 1) 65535 } }) s) ∧
      ∀ r, exec (.sampleRecord l (some r)) s = .next (updLcn l (fun x => { x with samp := { x.samp with
          off := if k.size < k.off + 128 then 0 else k.off + 64, seq := x.samp.seq + 1, missed := 0 } })
        (recordOut (lcnHalf s l) (k.base + k.off) (sampleBytes s l r) s)))) ∧
  (∀ l ctx r, let k := lcnOf s l
    ((k.trcEn = false ∨ bitOf k.trcCtx ctx = false) → exec (.traceRecord l ctx r) s = .next s) ∧
    (k.trcEn = true → bitOf k.trcCtx ctx = true → lcnRuns s l = true → 1 ≤ r.typ → r.typ ≤ 5 →
      (r.busy = true → exec (.traceRecord l ctx r) s = .next (updLcn l (fun x => { x with trcLost := x.trcLost + 1 }) s)) ∧
      (r.busy = false → k.trcLost = 0 → exec (.traceRecord l ctx r) s = .next (updLcn l (fun x => { x with trcLost := 0, trcCount := 0 })
        (tracePut l (traceBytes r.target r.delta k.trcCount r.typ (modeByte (ctxOf s l ctx) ctx)) s)))))

/-- R595–R601: the test access chain. TRST_N puts every controller in Test-Logic-Reset; an instruction selects its register, of
the controllers in the chain only; EXTEST drives the preloaded lands while they obey it; IDCODE gives the part's and the
stepping's; the access port answers what R516 says, and an access OK there is performed and answered. What the lands and the
embedded instruments read is open (the model's free value). R602–R606: halt, resume, step and breakpoints of an LCN, when R516
lets a write to its block act; the named contexts halt with cause REQUEST, what has not retired discarded, go on, or go on to
retire one instruction; a breakpoint halts a context before the instruction at its VA, a watchpoint before an access to its word,
the group before it retired; a refused access changes nothing. -/
def Obligations.TestDebug : Prop :=
  (
  ∀ (s : State),
  exec .trstN s = .next (updTap (fun t => { t with ir := [], dr := [] }) s) ∧
  (∀ n, inChain s n = false → exec (.idcode n) s = .next s ∧ exec (.bypass n) s = .next s ∧ exec (.ijtag n) s = .next s) ∧
  (∀ n, inChain s n = true → let sel := fun (ir dr : Nat) => updTap (fun t => { t with ir := tset 1 t.ir n ir, dr := tset 0 t.dr n dr })
    exec (.idcode n) s = .next (sel 0x01 (idcode s n) s) ∧ exec (.bypass n) s = .next (sel 0xFF 0 s) ∧
    exec (.ijtag n) s = .next (sel 0x10 (freeVal s) (drawn s))) ∧
  (∀ h : Half, inChain s (16 + h.n) = true →
    let sel := fun (ir dr : Nat) => updTap (fun t => { t with ir := tset 1 t.ir (16 + h.n) ir, dr := tset 0 t.dr (16 + h.n) dr })
    exec (.clamp h) s = .next (sel 4 0 s) ∧ exec (.highz h) s = .next (sel 5 0 s) ∧
    (∀ v, exec (.samplePreload h v) s = .next (sel 2 (freeVal s) (updTap (fun t => { t with bsr := t.bsr.set h v }) (drawn s)))) ∧
    (∀ v, exec (.extest h v) s = .next (if s.pkg.mode = .bringup ∧ readyBit s h rbHm = false then
      updTap (fun t => { t with bsr := t.bsr.set h v }) (sel 3 0 s) else sel 3 0 s)) ∧
    (∀ op size addr data, s.pkg.stopped = false → let n := if size % 4 = 3 then 8 else 4
      let s1 := sel 0x20 0 s
      let t := apTarget s1 h (addr % 2 ^ 52) n (op == 2)
      ((op = 0 ∨ op = 3) → exec (.dbgap h op size addr data) s = .next s1) ∧
      ((op = 1 ∨ op = 2) → t.resp ≠ 0 → exec (.dbgap h op size addr data) s = .next (apDone h t.resp (addr % 2 ^ 52) 0 s1)) ∧
      ((op = 1 ∨ op = 2) → t.resp = 0 → apWaits s1 t.unit = false →
        let r := apAccess h (addr % 2 ^ 52) n (data % 2 ^ 64) (op == 2) t.sec (dbgWake t.unit s1)
        exec (.dbgap h op size addr data) s = .next (apDone h 0 (addr % 2 ^ 52) r.1 r.2))))) ∧
  (
  ∀ (h : Half) (l mask : Nat) (s : State), live s = true → l < 2 ^ 16 → mask < 4 → let block := 0x100000 + l * 256
  let s1 := dbgWake (some (lcnUnit s l)) s
  let cs := (if bitOf mask 0 then [0] else []) ++ (if bitOf mask 1 then [1] else [])
  (dbgBlockResp s h block true ≠ 0 →
    exec (.dbgHalt h l mask) s = .next s ∧ exec (.dbgResume h l mask) s = .next s ∧ exec (.dbgStep h l mask) s = .next s) ∧
  (dbgBlockResp s h block true = 0 →
    exec (.dbgHalt h l mask) s = .next (cs.foldl (fun (t : State) c => updCtx l c (haltCtx 1) (rollBack l c t)) s1) ∧
    exec (.dbgResume h l mask) s = .next (cs.foldl (fun (t : State) c => updCtx l c (fun x => { x with halt := 0, stepping := false }) t) s1) ∧
    exec (.dbgStep h l mask) s = .next (cs.foldl (fun (t : State) c => updCtx l c (fun x => { x with halt := 0, stepping := true }) t) s1)) ∧
  (∀ ctx b, let x := (tget 0 (lcnOf s l).bp b).toNat
    let va := x % 2 ^ 57
    ((dbgenN s = false ∨ bpOn s l ctx b = false) → ∀ acc, exec (.breakpointMatch l ctx b acc) s = .next s) ∧
    (dbgenN s = true → ctxRuns s l ctx = true → bpOn s l ctx b = true →
      (fld x 62 61 = 0 → (ctxOf s l ctx).pc.toNat % 2 ^ 57 = va →
        exec (.breakpointMatch l ctx b none) s = .next (updCtx l ctx (haltCtx 3) (retireGroup l ctx s))) ∧
      (∀ a wr, a % 2 ^ 57 / 8 = va / 8 → (if wr then bitOf x 62 else bitOf x 61) = true →
        exec (.breakpointMatch l ctx b (some (a, wr))) s = .next (updCtx l ctx (haltCtx 4) (retireGroup l ctx s))))))

/-- R14, R31, R66, R228, R291, R610: a register write of 4 or 8 aligned bytes acts word by word, another is an address error; a
key generation, a scrub or a core test ends with what it found; a maintenance slot sends its first request; a channel whose
training ends zeroes, or is DOWN when it fails; a path port's PERST releases and its link trains. -/
def Obligations.RegisterWrites : Prop :=
  ∀ (h : Half) (s : State), live s = true →
  (∀ off n v, halfOn s h = true → off % n = 0 → (n = 4 ∨ n = 8) →
    exec (.registerWrite h off n v) s = .next (kick s (regWriteN h false off (toBytes n v) s))) ∧
  (∀ off n v, (n ≠ 4 ∧ n ≠ 8 ∨ off % n ≠ 0) → exec (.registerWrite h off n v) s = .next s) ∧
  (∀ src tag pass errs g, s.prog.find? (fun x => x.pkt.src == src && x.pkt.tag == tag) = some g →
    (g.pkt.op = 0x0601 → exec (.asyncCommandComplete src tag pass errs) s = .next (harbourRun (generateEnd g s))) ∧
    (g.pkt.op = 0x0A01 → exec (.asyncCommandComplete src tag pass errs) s = .next (harbourRun (scrubEnd g errs s))) ∧
    (g.pkt.op = 0x0A03 → exec (.asyncCommandComplete src tag true errs) s = .next (harbourRun (finish g stDone 1 1 s)))) ∧
  (∀ k v, k < 16 → (maintOf s h k).busy = false →
    let s1 := updMaint h k (fun x => { x with err := x.err && !bitOf v 30, op := fld v 29 28, count := fld v 19 0 }) s
    exec (.maintenanceSlotStart h k v) s = .next (if bitOf v 31 then
      mntSend h k (updMaint h k (fun x => { x with busy := true, cur := x.addr / 64, left := fld v 19 0 + 1 }) s1) else s1)) ∧
  (∀ k v, (maintOf s h k).busy = true → exec (.maintenanceSlotStart h k v) s = .next s) ∧
  (∀ c, (chOf s h c).st = .training → (dimmOf s h c).kind = pkgKind s → let d := dimmOf s h c
    exec (.memTrainingEnd h c false) s = .next (updCh h c (fun x => { x with st := .down }) s) ∧
    exec (.memTrainingEnd h c true) s = .next (updCh h c (fun x => { x with
      st := .zeroing, speed := if d.kind = 2 then 2 else 1, kind := d.kind, dpc := d.dpc, rankb := d.rankb, row17 := d.d32 }) s)) ∧
  (∀ c ok, (chOf s h c).st ≠ .training → exec (.memTrainingEnd h c ok) s = .next s) ∧
  (∀ pp, (ppOf s pp).perst = true → (ppOf s pp).st = 0 → readyBit s (portHub pp) (rbPath (pp % 16)) = true →
    exec (.pathPerstRelease pp) s = .next (updPp pp (fun x => { x with perst := false, st := 1 }) s))
end

