-- ==== Sys2Proof/Laws/Harbour.lean ====
section
/-! SUPPORT. What the Harbourmaster does with a packet it takes, in one lemma for every opcode. -/
namespace Sys2Proof.Machine

/-- A packet that is taken is served, and the Harbourmaster goes on with what else waits. -/
theorem hmTake_takes (op : Nat) (p : Pkt) (s : State) (h : takes (pktFit op p) s = true) :
    live s = true ∧ hmTake op p s = harbourRun (serve (dupTag (came (pktFit op p) s) (pktFit op p)) (pktFit op p) (came (pktFit op p) s)) := by
  simp only [takes, Bool.and_eq_true, Option.isNone_iff_eq_none] at h
  obtain ⟨⟨⟨hl, hs⟩, hw⟩, hm⟩ := h
  refine ⟨hl, ?_⟩
  have e : (pktFit op p).src = p.src := rfl
  unfold hmTake
  split
  · rename_i x hx
    simp only [e, hx, decide_eq_true_eq, Bool.and_eq_true] at hs
    have hc : came (pktFit op p) s = i3cReply x true [] s := by simp [came, e, hx]
    rw [hc] at hw hm ⊢
    simp only [mgmtPacket, e, hx, hs.1, not_true, if_false, Nat.not_le.mpr hs.2, arrive, hm, or_false]
    rw [e, hx] at hw
    simp [hw]
  · rename_i hn
    have hc : came (pktFit op p) s = s := by
      cases hp : p.src <;> simp only [came, e, hp]
      exact absurd hp (hn _)
    rw [hc] at hw hm ⊢
    have hs2 : mayCome s p.src = true := by
      cases hp : p.src <;> simp only [e, hp] at hs <;> first | exact absurd hp (hn _) | exact hs
    simp [hs2, arrive, hw, hm]

/-- A packet that is taken and passes its checks acts. -/
theorem hmTake_passes (op : Nat) (p : Pkt) (s : State) (h : passes (pktFit op p) s = true) :
    live s = true ∧ hmTake op p s =
      harbourRun (match cmdOf op with
        | some c => c.act (pktFit op p) (came (pktFit op p) s)
        | none => came (pktFit op p) s) := by
  simp only [passes, Bool.and_eq_true, Option.isNone_iff_eq_none] at h
  obtain ⟨hl, ht⟩ := hmTake_takes op p s h.1
  refine ⟨hl, ?_⟩
  rw [ht, serve, h.2]
  rfl

end Sys2Proof.Machine
end

