-- ==== Sys2Proof/Laws/Insn.lean ====
section
/-! SUPPORT. How an instruction that starts ends: everything `runInsn` can do, by what its body answers. -/
namespace Sys2Proof.Machine

variable {lcn ctx n : Nat} {a5 : Bool} {s s1 t : State} {body : Body} {w : Ctx} {x : Xf}

/-- A step of a body that answers goes on with the answer. -/
@[simp] theorem andThen_ok {α β : Type} {a : α} {f : State → α → Res1 β} : andThen (s, .ok a) f = f s a := rfl

/-- A step that raises an exception ends the body. -/
@[simp] theorem andThen_error {α β : Type} {f : State → α → Res1 β} : andThen (s, .error x) f = (s, .error x) := rfl

/-- A context that runs is not between the pieces of a BS instruction. -/
theorem finishPieces_runs (h : ctxRuns s lcn ctx = true) : finishPieces lcn ctx s = s := by
  simp only [ctxRuns, ctxUp, Bool.and_eq_true, Option.isNone_iff_eq_none] at h
  simp [finishPieces, h.1.2]

/-- The body completes. -/
theorem runInsn_done (h : Starts lcn ctx n a5 s s1) (hb : body s1 (ctxOf s lcn ctx) = (t, .ok w)) :
    runInsn lcn ctx n a5 body s = insnDone lcn ctx s w t := by
  obtain ⟨_, hr, ha, hf⟩ := h
  simp only [runInsn, finishPieces_runs hr, hr, hf, ha, hb, endInsn, insnDone, not_true, ne_eq, if_false]

/-- The body raises an exception. -/
theorem runInsn_fault (h : Starts lcn ctx n a5 s s1) (hb : body s1 (ctxOf s lcn ctx) = (t, .error x))
    (hx : x.code ≠ stallX.code) : runInsn lcn ctx n a5 body s = insnFault lcn ctx s x t := by
  obtain ⟨_, hr, ha, hf⟩ := h
  simp only [runInsn, finishPieces_runs hr, hr, hf, ha, hb, endInsn, insnFault, hx, not_true, ne_eq, if_false]

/-- An instruction of the other encoding raises ILLEGAL (R126). -/
theorem runInsn_wrong (h : Starts lcn ctx n (!a5) s s1) :
    runInsn lcn ctx n a5 body s = takeX lcn ctx illegal (ctxOf s lcn ctx).pc s1 := by
  obtain ⟨_, hr, ha, hf⟩ := h
  simp only [runInsn, finishPieces_runs hr, hr, hf, ha, not_true, ne_eq, if_false]
  cases a5 <;> simp

/-- The body of an A5 instruction completes. -/
theorem runA5_done {o : A5Op} (h : A5Starts o s s1) (hb : body s1 (ctxOf s o.lcn o.ctx) = (t, .ok w)) :
    runA5 o false body s = insnDone o.lcn o.ctx s w t := by
  obtain ⟨_, hr, ha, hf⟩ := h
  simp only [runA5, finishPieces_runs hr, hr, hf, ha, hb, endInsn, insnDone, not_true, if_false, Bool.not_false, Bool.and_true]

/-- The body of an A5 instruction raises an exception. -/
theorem runA5_fault {o : A5Op} {trap : Bool} (h : A5Starts o s s1) (hb : body s1 (ctxOf s o.lcn o.ctx) = (t, .error x))
    (hx : x.code ≠ stallX.code) : runA5 o trap body s = insnFault o.lcn o.ctx s x t := by
  obtain ⟨_, hr, ha, hf⟩ := h
  simp only [runA5, finishPieces_runs hr, hr, hf, ha, hb, endInsn, insnFault, hx, not_true, if_false]

end Sys2Proof.Machine
end

