-- ==== Sys2Proof/Laws/Tab.lean ====
section
/-! SUPPORT. Sparse tables: reading after writing, and the canonical form kept. -/
namespace Sys2Proof.Machine

variable {α : Type}

@[simp] theorem tget_nil (d : α) (k : Nat) : tget d [] k = d := rfl

theorem tget_cons (d : α) (e : Nat × α) (t : Tab α) (k : Nat) :
    tget d (e :: t) k = if e.1 = k then e.2 else tget d t k := by
  cases e; rfl

/-- A written value is read back. -/
@[simp] theorem tget_tset_same [DecidableEq α] (d : α) (t : Tab α) (k : Nat) (v : α) (h : tabWf d t = true) :
    tget d (tset d t k v) k = v := by
  induction t with
  | nil => by_cases hv : v = d <;> simp [tset, tget, hv]
  | cons e t ih =>
    have low : ∀ (u : Tab α) (j : Nat), tabWf d u = true → (∀ x ∈ u.head?, j < x.1) → tget d u j = d := by
      intro u
      induction u with
      | nil => intros; rfl
      | cons x u ihu =>
        intro j hw hj
        have hx : j < x.1 := hj x rfl
        rw [tget_cons, if_neg (by omega)]
        cases u with
        | nil => rfl
        | cons y u =>
          obtain ⟨a, b⟩ := x
          obtain ⟨a', b'⟩ := y
          simp only [tabWf, Bool.and_eq_true, decide_eq_true_eq] at hw
          exact ihu j hw.2 (by simp; omega)
    obtain ⟨a, b⟩ := e
    have ht : tabWf d t = true := by
      cases t with
      | nil => rfl
      | cons y u => obtain ⟨a', b'⟩ := y; simp only [tabWf, Bool.and_eq_true] at h; exact h.2
    have hhd : ∀ x ∈ t.head?, a < x.1 := by
      cases t with
      | nil => simp
      | cons y u => obtain ⟨a', b'⟩ := y; simp only [tabWf, Bool.and_eq_true, decide_eq_true_eq] at h; simpa using h.1.2
    simp only [tset]
    by_cases h1 : k < a
    · by_cases hv : v = d
      · subst hv
        rw [if_pos h1, if_pos rfl]
        exact low _ k h (by simpa using h1)
      · rw [if_pos h1, if_neg hv, tget_cons, if_pos rfl]
    · by_cases h2 : k = a
      · subst h2
        by_cases hv : v = d
        · subst hv
          rw [if_neg h1, if_pos rfl, if_pos rfl]
          exact low t k ht hhd
        · rw [if_neg h1, if_pos rfl, if_neg hv, tget_cons, if_pos rfl]
      · rw [if_neg h1, if_neg h2, tget_cons, if_neg (by simpa using fun h => h2 h.symm)]
        exact ih ht

/-- Another key keeps its value. -/
@[simp] theorem tget_tset_ne [DecidableEq α] (d : α) (t : Tab α) (k j : Nat) (v : α) (h : j ≠ k) :
    tget d (tset d t k v) j = tget d t j := by
  induction t with
  | nil => by_cases hv : v = d <;> simp [tset, tget, hv]; omega
  | cons e t ih =>
    obtain ⟨a, b⟩ := e
    simp only [tset]
    split
    · split
      · rfl
      · rw [tget_cons, if_neg (by simpa using fun x => h x.symm)]
    · split
      · rename_i hk
        subst hk
        split
        · rw [tget_cons, if_neg (by simpa using fun x => h x.symm)]
        · rw [tget_cons, tget_cons, if_neg (by simpa using fun x => h x.symm), if_neg (by simpa using fun x => h x.symm)]
      · rw [tget_cons, tget_cons, ih]

/-- The first key of a table a write leaves is the written key or the first key of before. -/
theorem tset_head [DecidableEq α] (d : α) (t : Tab α) (k : Nat) (v : α) (j : Nat) (hj : j < k)
    (h : tabWf d t = true) (ht : ∀ x ∈ t.head?, j < x.1) : ∀ x ∈ (tset d t k v).head?, j < x.1 := by
  cases t with
  | nil => by_cases hv : v = d <;> simp [tset, hv]; omega
  | cons e t =>
    obtain ⟨a, b⟩ := e
    have ha : j < a := by simpa using ht
    simp only [tset]
    split
    · split <;> simp <;> omega
    · split
      · split
        · cases t with
          | nil => simp
          | cons y u => obtain ⟨a', b'⟩ := y; simp only [tabWf, Bool.and_eq_true, decide_eq_true_eq] at h; simp; omega
        · simp; omega
      · simp; omega

theorem tabWf_cons [DecidableEq α] (d : α) (a : Nat) (b : α) (t : Tab α) :
    tabWf d ((a, b) :: t) = true ↔ b ≠ d ∧ (∀ x ∈ t.head?, a < x.1) ∧ tabWf d t = true := by
  cases t with
  | nil => simp [tabWf]
  | cons y u => obtain ⟨a', b'⟩ := y; simp [tabWf, and_assoc]

/-- A write keeps the canonical form. -/
theorem tset_wf [DecidableEq α] (d : α) (t : Tab α) (k : Nat) (v : α) (h : tabWf d t = true) : tabWf d (tset d t k v) = true := by
  induction t with
  | nil => by_cases hv : v = d <;> simp [tset, tabWf, hv]
  | cons e t ih =>
    obtain ⟨a, b⟩ := e
    have h' := (tabWf_cons d a b t).1 h
    simp only [tset]
    split
    · split
      · exact h
      · rename_i hv
        exact (tabWf_cons d k v _).2 ⟨hv, by simpa, h⟩
    · split
      · rename_i hk
        subst hk
        split
        · exact h'.2.2
        · rename_i hv
          exact (tabWf_cons d k v _).2 ⟨hv, h'.2.1, h'.2.2⟩
      · rename_i h1 h2
        exact (tabWf_cons d a b _).2 ⟨h'.1, tset_head d t k v a (by omega) h'.2.2 h'.2.1, ih h'.2.2⟩

theorem tmod_wf [DecidableEq α] (d : α) (t : Tab α) (k : Nat) (f : α → α) (h : tabWf d t = true) :
    tabWf d (tmod d t k f) = true := tset_wf d t k _ h

theorem tget_tmod_same [DecidableEq α] (d : α) (t : Tab α) (k : Nat) (f : α → α) (h : tabWf d t = true) :
    tget d (tmod d t k f) k = f (tget d t k) := tget_tset_same d t k _ h

theorem tget_tmod_ne [DecidableEq α] (d : α) (t : Tab α) (k j : Nat) (f : α → α) (h : j ≠ k) :
    tget d (tmod d t k f) j = tget d t j := tget_tset_ne d t k j _ h

end Sys2Proof.Machine
end

