-- ==== Sys2Proof/Laws/Memory.lean ====
section
/-! SUPPORT. DRAM: every memory operation keeps the canonical form, and a stored byte is read back. -/
namespace Sys2Proof.Machine

theorem Pair.get_set_same {α : Type} (p : Pair α) (h : Half) (x : α) : (p.set h x).get h = x := by cases h <;> rfl
theorem Pair.get_set_ne {α : Type} (p : Pair α) (h g : Half) (x : α) (n : g ≠ h) : (p.set h x).get g = p.get g := by
  cases h <;> cases g <;> first | rfl | exact absurd rfl n

theorem storeBytes_wf (d : List Byte) : ∀ (t : Tab Byte) (a : Nat), tabWf 0 t = true → tabWf 0 (storeBytes t a d) = true := by
  induction d with
  | nil => intro t a h; exact h
  | cons b d ih => intro t a h; exact ih _ _ (tset_wf 0 t a b h)

/-- A byte outside the stored ones keeps its value. -/
theorem storeBytes_out (d : List Byte) : ∀ (t : Tab Byte) (a j : Nat), j < a ∨ a + d.length ≤ j →
    tget 0 (storeBytes t a d) j = tget 0 t j := by
  induction d with
  | nil => intros; rfl
  | cons b d ih =>
    intro t a j h
    simp only [List.length_cons] at h
    rw [storeBytes, ih _ _ _ (by omega), tget_tset_ne _ _ _ _ _ (by omega)]

/-- A stored byte is read back. -/
theorem storeBytes_in (d : List Byte) : ∀ (t : Tab Byte) (a i : Nat), tabWf 0 t = true → (h : i < d.length) →
    tget 0 (storeBytes t a d) (a + i) = d[i] := by
  induction d with
  | nil => intro t a i _ h; simp at h
  | cons b d ih =>
    intro t a i w h
    cases i with
    | zero => rw [storeBytes, storeBytes_out _ _ _ _ (by omega)]; exact tget_tset_same 0 t a b w
    | succ i =>
      rw [storeBytes, show a + (i + 1) = a + 1 + i by omega]
      exact ih _ _ i (tset_wf 0 t a b w) (by simpa using h)

theorem memPut_wf (m : Mem) (sec : Nat) (d : List Byte) (p : Bool) (h : Memory.wf m = true) : Memory.wf (memPut m sec d p) = true :=
  storeBytes_wf _ _ _ h

/-- Both hubs' DRAM is in canonical form. -/
def dramWf (s : State) : Prop := ∀ h, Memory.wf (s.mem.get h) = true

theorem updMem_wf (h : Half) (f : Mem → Mem) (s : State) (w : dramWf s) (hf : ∀ m, Memory.wf m = true → Memory.wf (f m) = true) :
    dramWf (updMem h f s) := by
  intro g
  by_cases e : g = h
  · subst e; simpa [updMem, Pair.get_set_same] using hf _ (w g)
  · simpa [updMem, Pair.get_set_ne _ _ _ _ e] using w g

theorem setCsec_wf (a n : Nat) (c : CSector) (s : State) (w : dramWf s) : dramWf (setCsec a n c s) := w
theorem setDir_wf (h : Half) (n : Nat) (f : DirEnt → DirEnt) (s : State) (w : dramWf s) : dramWf (setDir h n f s) := w

theorem foldl_wf {α : Type} (f : State → α → State) (hf : ∀ s x, dramWf s → dramWf (f s x)) (l : List α) :
    ∀ s, dramWf s → dramWf (l.foldl f s) := by
  induction l with
  | nil => intro s w; exact w
  | cons x l ih => intro s w; exact ih _ (hf s x w)

/-- What leaves DRAM alone keeps its form. -/
theorem dramWf_of_mem {s t : State} (e : t.mem = s.mem) (w : dramWf s) : dramWf t := fun h => by rw [e]; exact w h

theorem updMemPut_wf (h : Half) (n : Nat) (d : List Byte) (p : Bool) (s : State) (w : dramWf s) :
    dramWf (updMem h (fun m => memPut m n d p) s) := updMem_wf _ _ _ w (fun m => memPut_wf m n d p)

theorem markPsn_wf (h : Half) (n : Nat) (p : Bool) (s : State) (w : dramWf s) : dramWf (markPsn h n p s) := by
  unfold markPsn; split <;> exact w

theorem putSector_wf (s : State) (h : Half) (n : Nat) (d : List Byte) (p : Bool) (w : dramWf s) : dramWf (putSector s h n d p) := by
  unfold putSector
  dsimp only
  split
  · exact markPsn_wf _ _ _ _ (updMemPut_wf _ _ _ _ _ (updMemPut_wf _ _ _ _ _ w))
  · exact markPsn_wf _ _ _ _ (updMemPut_wf _ _ _ _ _ w)

theorem purgeCopies_wf (h : Half) (n : Nat) (s : State) (w : dramWf s) : dramWf (purgeCopies h n s) := by
  unfold purgeCopies
  dsimp only
  have w1 := foldl_wf (fun t a => setCsec a n CSector.none t) (fun t a => setCsec_wf a n _ t) (domain s h) s w
  split
  · exact setDir_wf _ _ _ _ w1
  · exact w1

theorem homePut_wf (f : Half) (n : Nat) (d : List Byte) (p : Bool) (s : State) (w : dramWf s) : dramWf (homePut f n d p s) := by
  unfold homePut
  dsimp only
  have w0 := updMemPut_wf (placeOf s f (n * 64)).half ((placeOf s f (n * 64)).l / 64) d p s w
  apply markPsn_wf
  split
  · split
    · exact updMemPut_wf _ _ _ _ _ w0
    · exact w0
  · exact w0

theorem mergeIn_wf (m : Mem) (n mask : Nat) (d : List Byte) (w : Memory.wf m = true) : Memory.wf (mergeIn m n mask d) = true := by
  unfold mergeIn
  dsimp only
  split
  · split
    · exact memPut_wf _ _ _ _ w
    · exact w
  · split
    · split
      · exact w
      · rename_i o _ _ _
        exact memPut_wf m o.sector _ (m.poison.contains o.sector) w
    · exact w

/-! ### A home's transactions (R214) -/

theorem stockRead_mem (h : Half) (l : Nat) (s : State) : (stockRead h l s).mem = s.mem := by
  unfold stockRead; dsimp only; split
  · rfl
  · split <;> rfl

theorem repin_mem (h : Half) (l : Nat) (s : State) : (repin h l s).mem = s.mem := by
  unfold repin; dsimp only; split <;> rfl

theorem endTx_mem (h : Half) (tx : Nat) (t : HTrans) (s : State) : (endTx h tx t s).mem = s.mem := by
  unfold endTx; rw [repin_mem]; rfl

theorem mirrorOrEnd_mem (h : Half) (tx : Nat) (t : HTrans) (d : Option (List Byte)) (p : Bool) (s : State) :
    (mirrorOrEnd h tx t d p s).mem = s.mem := by
  unfold mirrorOrEnd; dsimp only; split
  · rfl
  · rw [endTx_mem]; rfl

theorem grant_mem (h : Half) (tx : Nat) (t : HTrans) (op : MsgOp) (d : Option (List Byte)) (p : Bool) (s : State) :
    (grant h tx t op d p s).mem = s.mem := rfl

theorem finishTx_wf (h : Half) (tx : Nat) (t : HTrans) (s0 : State) (w0 : dramWf s0) : dramWf (finishTx h tx t s0) := by
  unfold finishTx
  dsimp only
  generalize hs : (if (readsMem t.req && t.dirty.isNone && !t.backInv) = true then stockRead h (t.m.sector / 4) s0 else s0) = s
  have w : dramWf s := by
    subst hs; split
    · exact dramWf_of_mem (stockRead_mem ..) w0
    · exact w0
  have e := fun (u : State) (x : dramWf u) => dramWf_of_mem (endTx_mem h tx t u) x
  have mo := fun (d : Option (List Byte)) (p : Bool) (u : State) (x : dramWf u) => dramWf_of_mem (mirrorOrEnd_mem h tx t d p u) x
  have hp := fun (d : List Byte) (p : Bool) => homePut_wf t.m.from_ t.m.sector d p s w
  split
  · exact e _ w
  · split
    · exact w
    · exact w
    · split <;> exact w
    · exact e _ w
    · exact mo _ _ _ (hp _ _)
    · apply mo
      split
      · exact hp _ _
      · split
        · exact hp _ _
        · have wm := updMem_wf (placeOf s t.m.from_ (t.m.sector * 64)).half
            (fun m => mergeIn m ((placeOf s t.m.from_ (t.m.sector * 64)).l / 64) t.m.mask t.m.data) s w (fun m => mergeIn_wf m _ _ _)
          split <;> exact wm
    · apply mo; exact hp _ _
    · split
      · split
        · exact mo _ _ _ (hp _ _)
        · exact e _ w
      · split
        · exact e _ w
        · split
          · split
            · exact mo _ _ _ (hp _ _)
            · exact e _ w
          · exact mo _ _ _ (hp _ _)
    · exact e _ w

theorem startTx_wf (h : Half) (tx : Nat) (q : HReq) (s : State) (w : dramWf s) : dramWf (startTx h tx q s) := by
  unfold startTx
  dsimp only
  have w1 := foldl_wf (fun u a => send (snoopOp q.req q.m.aux) { bare q.m a with txid := tx, home := h } u) (fun _ _ x => x)
    (snoopSet s h q.req q.m) _ (dramWf_of_mem (repin_mem h (q.m.sector / 4)
      (putTx h tx (some ⟨q.req, { q.m with txid := tx }, snoopSet s h q.req q.m, [], none, false, 0, false⟩) s)) w)
  split
  · exact finishTx_wf _ _ _ _ w1
  · exact w1

theorem refuse_wf (h : Half) (q : HReq) (n : Nat) (s : State) (w : dramWf s) : dramWf (refuse h q n s) := by
  unfold refuse; split <;> exact w

theorem backInvalidate_wf (h : Half) (tx : Nat) (e : Nat × DirEnt) (q : HReq) (s : State) (w : dramWf s) :
    dramWf (backInvalidate h tx e q s) := by
  unfold backInvalidate
  dsimp only
  refine foldl_wf _ (fun u a x => ?_) _ _ (dramWf_of_mem (repin_mem ..) w)
  exact foldl_wf (fun v i => send .snpx _ v) (fun _ _ y => y) _ u x

theorem homeServe_wf (h : Half) (q : HReq) (s : State) (w : dramWf s) : dramWf (homeServe h q s) := by
  unfold homeServe
  dsimp only
  split
  · exact w
  · split
    · exact refuse_wf _ _ _ _ w
    · split
      · split
        · exact refuse_wf _ _ _ _ w
        · split
          · exact startTx_wf _ _ _ _ w
          · exact backInvalidate_wf _ _ _ _ _ w
      · apply startTx_wf; split <;> exact w

theorem serveWaiting_wf (h : Half) (n : Nat) : ∀ s, dramWf s → dramWf (serveWaiting h n s) := by
  induction n with
  | zero => intro s w; exact w
  | succ n ih =>
    intro s w
    unfold serveWaiting
    dsimp only
    split
    · exact w
    · exact ih _ (homeServe_wf _ _ _ w)

theorem settle_wf (h : Half) (s : State) (w : dramWf s) : dramWf (settle h s) := serveWaiting_wf _ _ _ w

/-! ### Accesses that one step makes whole (R204, R214) -/

theorem absorbVictim_wf (f : Half) (n : Nat) (s : State) (w : dramWf s) : dramWf (absorbVictim f n s) := by
  unfold absorbVictim
  split
  · exact w
  · dsimp only
    rename_i v _
    have w1 : dramWf (if (wbnOut s v.agent n && v.hasData) = true then putSector s f n v.data v.poison else s) := by
      split
      · exact putSector_wf _ _ _ _ _ w
      · exact w
    generalize (if (wbnOut s v.agent n && v.hasData) = true then putSector s f n v.data v.poison else s) = s1 at w1 ⊢
    intro g
    split <;> exact w1 g

theorem dropEntry_wf (h f : Half) (line : Nat) (s : State) (w : dramWf s) : dramWf (dropEntry h f line s) := by
  unfold dropEntry
  dsimp only
  apply setDir_wf
  refine foldl_wf _ (fun t i x => ?_) _ _ w
  apply purgeCopies_wf
  split
  · exact putSector_wf _ _ _ _ _ (absorbVictim_wf _ _ _ x)
  · exact absorbVictim_wf _ _ _ x

theorem mirrorEnd_wf (h : Half) (tx : Nat) (t : HTrans) (s : State) (w : dramWf s) : dramWf (mirrorEnd h tx t s) := by
  unfold mirrorEnd
  exact dramWf_of_mem (endTx_mem ..) (putSector_wf _ _ _ _ _ w)

theorem endLock_wf (f : Half) (n : Nat) (s : State) (w : dramWf s) : dramWf (endLock f n s) := by
  unfold endLock
  dsimp only
  split
  · exact w
  · rename_i tx t _
    have wk : dramWf (match dirtyData s f n with
        | some x => putSector (updCoh (fun k => { k with net := k.net.filter (fun x => !ofTx (homeFor s f n) tx (t.m.sector / 4) x) }) s) f n x.1 x.2
        | none => updCoh (fun k => { k with net := k.net.filter (fun x => !ofTx (homeFor s f n) tx (t.m.sector / 4) x) }) s) := by
      split
      · exact putSector_wf _ _ _ _ _ w
      · exact w
    split
    · exact dramWf_of_mem (endTx_mem ..) (dropEntry_wf _ _ _ _ wk)
    · split
      · exact mirrorEnd_wf _ _ _ _ w
      · split
        · exact dramWf_of_mem (endTx_mem ..) wk
        · have w2 := finishTx_wf (homeFor s f n) tx { t with await := [], evicting := [], dirty := (dirtyData s f n).map (fun x => x.1), poison := ((dirtyData s f n).map (fun x => x.2)).getD false }
            (if (t.req == .rdc || (t.req == .mnt && t.m.aux == 0)) = true then updCoh (fun k => { k with net := k.net.filter (fun x => !ofTx (homeFor s f n) tx (t.m.sector / 4) x) }) s
              else purgeCopies f n (updCoh (fun k => { k with net := k.net.filter (fun x => !ofTx (homeFor s f n) tx (t.m.sector / 4) x) }) s))
            (by split
                · exact w
                · exact purgeCopies_wf _ _ _ w)
          split
          · exact mirrorEnd_wf _ _ _ _ w2
          · exact w2

theorem clearWay_wf (f : Half) (n : Nat) (s : State) (w : dramWf s) : dramWf (clearWay f n s) :=
  absorbVictim_wf _ _ _ (endLock_wf _ _ _ w)

theorem thenServe_wf (f : Half) (n : Nat) (was s : State) (w : dramWf s) : dramWf (thenServe f n was s) := by
  unfold thenServe
  dsimp only
  split
  · exact settle_wf _ _ w
  · exact w

theorem writeSector_wf (s : State) (h : Half) (n off : Nat) (d : List Byte) (w : dramWf s) : dramWf (writeSector s h n off d) :=
  thenServe_wf _ _ _ _ (putSector_wf _ _ _ _ _ (purgeCopies_wf _ _ _ (clearWay_wf _ _ _ w)))

theorem writePoison_wf (s : State) (h : Half) (n off : Nat) (d : List Byte) (w : dramWf s) : dramWf (writePoison s h n off d) :=
  thenServe_wf _ _ _ _ (putSector_wf _ _ _ _ _ (purgeCopies_wf _ _ _ (clearWay_wf _ _ _ w)))

/-- A coherent write of DRAM keeps the canonical form. -/
theorem writeRun_wf (h : Half) (pa : Nat) (d : List Byte) (s : State) (w : dramWf s) : dramWf (writeRun h pa d s) :=
  foldl_wf _ (fun t _ x => writeSector_wf t h _ _ _ x) _ s w

theorem dmaWrite_wf (s t : State) (h : Half) (pa : Nat) (d : List Byte) (b : Bool) (w : dramWf s)
    (e : dmaWrite s h pa d = some (t, b)) : dramWf t := by
  unfold dmaWrite at e
  split at e
  · cases e; exact writeRun_wf h pa d s w
  · cases e

theorem reset_dramWf : dramWf State.reset := by intro h; cases h <;> rfl

end Sys2Proof.Machine
end

