-- ==== Sys2Proof/Laws/PerInstr.lean ====
section
/-! SUPPORT. Per command: a well-formed command names only LCNs there can be (R22). -/
namespace Sys2Proof.Laws.Lcns
open Sys2Proof

/-- Every LCN that a well-formed command names is below 1024. -/
def Statement (i : Instr) : Prop := wellFormed i = true → ∀ l ∈ lcnsOf i, l < 1024

theorem lcnOk_lt {l : Nat} (h : lcnOk l = true) : l < 1024 := of_decide_eq_true h

/-- An operand that passes its check names only such LCNs. -/
theorem operand_lcns (x : Operand) (h : x.ok = true) : ∀ l ∈ x.lcns, l < 1024 := by
  cases x with
  | lcn l => intro k hk; cases List.mem_singleton.1 hk; exact lcnOk_lt h
  | msg m =>
    intro k hk; cases List.mem_singleton.1 hk
    simp only [Operand.ok, msgOk, Bool.and_eq_true] at h
    exact lcnOk_lt h.1.1.1
  | an o =>
    intro k hk; cases List.mem_singleton.1 hk
    simp only [Operand.ok, anOk, Bool.and_eq_true] at h
    exact lcnOk_lt h.1.1
  | a5 o =>
    intro k hk; cases List.mem_singleton.1 hk
    simp only [Operand.ok, a5Ok, Bool.and_eq_true] at h
    exact lcnOk_lt h.1.1
  | dev q =>
    intro k hk; cases List.mem_singleton.1 hk
    simp only [Operand.ok, devOk, Bool.and_eq_true] at h
    exact lcnOk_lt h.1.1
  | _ => intro k hk; cases hk

theorem all_lcns (i : Instr) : Statement i := by
  intro h l hl
  obtain ⟨x, hx, hm⟩ := List.mem_flatMap.1 hl
  exact operand_lcns x (List.all_eq_true.1 h x hx) l hm

theorem modeGet (p : Machine.Pkt) : Statement (.modeGet p) := all_lcns _
theorem modeSet (p : Machine.Pkt) : Statement (.modeSet p) := all_lcns _
theorem drainCtlSet (p : Machine.Pkt) : Statement (.drainCtlSet p) := all_lcns _
theorem clkStepSet (p : Machine.Pkt) : Statement (.clkStepSet p) := all_lcns _
theorem pwrStateSet (p : Machine.Pkt) : Statement (.pwrStateSet p) := all_lcns _
theorem pwrStateGet (p : Machine.Pkt) : Statement (.pwrStateGet p) := all_lcns _
theorem clkStatusGet (p : Machine.Pkt) : Statement (.clkStatusGet p) := all_lcns _
theorem tempRead (p : Machine.Pkt) : Statement (.tempRead p) := all_lcns _
theorem spareCore (p : Machine.Pkt) : Statement (.spareCore p) := all_lcns _
theorem spareStateGet (p : Machine.Pkt) : Statement (.spareStateGet p) := all_lcns _
theorem coreOffline (p : Machine.Pkt) : Statement (.coreOffline p) := all_lcns _
theorem coreOnline (p : Machine.Pkt) : Statement (.coreOnline p) := all_lcns _
theorem l3LineDelete (p : Machine.Pkt) : Statement (.l3LineDelete p) := all_lcns _
theorem memSpare (p : Machine.Pkt) : Statement (.memSpare p) := all_lcns _
theorem pathSet (p : Machine.Pkt) : Statement (.pathSet p) := all_lcns _
theorem bucketSet (p : Machine.Pkt) : Statement (.bucketSet p) := all_lcns _
theorem homeTimerSet (p : Machine.Pkt) : Statement (.homeTimerSet p) := all_lcns _
theorem poolGet (p : Machine.Pkt) : Statement (.poolGet p) := all_lcns _
theorem vfCreate (p : Machine.Pkt) : Statement (.vfCreate p) := all_lcns _
theorem vfDestroy (p : Machine.Pkt) : Statement (.vfDestroy p) := all_lcns _
theorem vfQuiesce (p : Machine.Pkt) : Statement (.vfQuiesce p) := all_lcns _
theorem vfFreeze (p : Machine.Pkt) : Statement (.vfFreeze p) := all_lcns _
theorem vfRestore (p : Machine.Pkt) : Statement (.vfRestore p) := all_lcns _
theorem vfResume (p : Machine.Pkt) : Statement (.vfResume p) := all_lcns _
theorem vfReset (p : Machine.Pkt) : Statement (.vfReset p) := all_lcns _
theorem ldgStreamOpen (p : Machine.Pkt) : Statement (.ldgStreamOpen p) := all_lcns _
theorem ldgStreamClose (p : Machine.Pkt) : Statement (.ldgStreamClose p) := all_lcns _
theorem ldgHeadRead (p : Machine.Pkt) : Statement (.ldgHeadRead p) := all_lcns _
theorem ldgCheckpoint (p : Machine.Pkt) : Statement (.ldgCheckpoint p) := all_lcns _
theorem ldgSpoolSet (p : Machine.Pkt) : Statement (.ldgSpoolSet p) := all_lcns _
theorem keyLoadSlot (p : Machine.Pkt) : Statement (.keyLoadSlot p) := all_lcns _
theorem keyGenerate (p : Machine.Pkt) : Statement (.keyGenerate p) := all_lcns _
theorem keyErase (p : Machine.Pkt) : Statement (.keyErase p) := all_lcns _
theorem keySlotInfo (p : Machine.Pkt) : Statement (.keySlotInfo p) := all_lcns _
theorem keyPublicRead (p : Machine.Pkt) : Statement (.keyPublicRead p) := all_lcns _
theorem logRead (p : Machine.Pkt) : Statement (.logRead p) := all_lcns _
theorem logClear (p : Machine.Pkt) : Statement (.logClear p) := all_lcns _
theorem logStatus (p : Machine.Pkt) : Statement (.logStatus p) := all_lcns _
theorem timeGet (p : Machine.Pkt) : Statement (.timeGet p) := all_lcns _
theorem timeSetOffset (p : Machine.Pkt) : Statement (.timeSetOffset p) := all_lcns _
theorem timeAttest (p : Machine.Pkt) : Statement (.timeAttest p) := all_lcns _
theorem pctSelect (p : Machine.Pkt) : Statement (.pctSelect p) := all_lcns _
theorem pctCollectSet (p : Machine.Pkt) : Statement (.pctCollectSet p) := all_lcns _
theorem pctFreeze (p : Machine.Pkt) : Statement (.pctFreeze p) := all_lcns _
theorem pctUreadSet (p : Machine.Pkt) : Statement (.pctUreadSet p) := all_lcns _
theorem pctSampleSet (p : Machine.Pkt) : Statement (.pctSampleSet p) := all_lcns _
theorem diagPing (p : Machine.Pkt) : Statement (.diagPing p) := all_lcns _
theorem diagScrub (p : Machine.Pkt) : Statement (.diagScrub p) := all_lcns _
theorem diagLinkRetrain (p : Machine.Pkt) : Statement (.diagLinkRetrain p) := all_lcns _
theorem diagCoreTest (p : Machine.Pkt) : Statement (.diagCoreTest p) := all_lcns _
theorem capGet (p : Machine.Pkt) : Statement (.capGet p) := all_lcns _
theorem revGet (p : Machine.Pkt) : Statement (.revGet p) := all_lcns _
theorem pairingGet (p : Machine.Pkt) : Statement (.pairingGet p) := all_lcns _
theorem commandTimeout (src : Machine.Src) (tag : Nat) : Statement (.commandTimeout src tag) := all_lcns _
theorem statusReplyPost (h : Half) (level : Nat) : Statement (.statusReplyPost h level) := all_lcns _
theorem sysCrTailDoorbell (h : Half) (level : Nat) (v : Nat) : Statement (.sysCrTailDoorbell h level v) := all_lcns _
theorem sysSrHeadWrite (h : Half) (level : Nat) (v : Nat) : Statement (.sysSrHeadWrite h level v) := all_lcns _
theorem ringStop (h : Half) (level : Nat) : Statement (.ringStop h level) := all_lcns _
theorem stoppedClear (h : Half) (level : Nat) : Statement (.stoppedClear h level) := all_lcns _
theorem i3cPrivateWrite (h : Half) (d : List Byte) : Statement (.i3cPrivateWrite h d) := all_lcns _
theorem i3cPrivateRead (h : Half) : Statement (.i3cPrivateRead h) := all_lcns _
theorem entdaa (h : Half) (a : Nat) : Statement (.entdaa h a) := all_lcns _
theorem setdasa (static : Nat) (a : Nat) : Statement (.setdasa static a) := all_lcns _
theorem rstdaa : Statement .rstdaa := all_lcns _
theorem getpid (h : Half) : Statement (.getpid h) := all_lcns _
theorem getbcr (h : Half) : Statement (.getbcr h) := all_lcns _
theorem getdcr (h : Half) : Statement (.getdcr h) := all_lcns _
theorem getstatus (h : Half) : Statement (.getstatus h) := all_lcns _
theorem enec (h : Half) (ev : Nat) : Statement (.enec h ev) := all_lcns _
theorem disec (h : Half) (ev : Nat) : Statement (.disec h ev) := all_lcns _
theorem bundleWrite (h : Half) (d : List Byte) : Statement (.bundleWrite h d) := all_lcns _
theorem bundleRead (h : Half) : Statement (.bundleRead h) := all_lcns _
theorem drainLimitExpiry (half : Option Half) : Statement (.drainLimitExpiry half) := all_lcns _
theorem drainComplete (half : Option Half) : Statement (.drainComplete half) := all_lcns _
theorem modeTransitionComplete : Statement .modeTransitionComplete := all_lcns _
theorem resilverComplete : Statement .resilverComplete := all_lcns _
theorem halfBringupComplete (h : Half) : Statement (.halfBringupComplete h) := all_lcns _
theorem halfLoss (h : Half) (cause : Nat) : Statement (.halfLoss h cause) := all_lcns _
theorem breakwaterLoss : Statement .breakwaterLoss := all_lcns _
theorem aliveLineTimeout (h : Half) : Statement (.aliveLineTimeout h) := all_lcns _
theorem harbourmasterWatchdog (h : Half) : Statement (.harbourmasterWatchdog h) := all_lcns _
theorem dieLost (d : Nat) (cause : Nat) : Statement (.dieLost d cause) := all_lcns _
theorem br (o : AnOp) : Statement (.br o) := all_lcns _
theorem bcc (o : AnOp) : Statement (.bcc o) := all_lcns _
theorem call (o : AnOp) : Statement (.call o) := all_lcns _
theorem ret (o : AnOp) : Statement (.ret o) := all_lcns _
theorem svc (o : AnOp) : Statement (.svc o) := all_lcns _
theorem hvc (o : AnOp) : Statement (.hvc o) := all_lcns _
theorem xret (o : AnOp) : Statement (.xret o) := all_lcns _
theorem nop (o : AnOp) : Statement (.nop o) := all_lcns _
theorem wait (o : AnOp) : Statement (.wait o) := all_lcns _
theorem waitLimitExpiry (lcn : Nat) (ctx : Nat) : Statement (.waitLimitExpiry lcn ctx) := all_lcns _
theorem add (o : AnOp) : Statement (.add o) := all_lcns _
theorem sub (o : AnOp) : Statement (.sub o) := all_lcns _
theorem mul (o : AnOp) : Statement (.mul o) := all_lcns _
theorem mulu (o : AnOp) : Statement (.mulu o) := all_lcns _
theorem div (o : AnOp) : Statement (.div o) := all_lcns _
theorem divu (o : AnOp) : Statement (.divu o) := all_lcns _
theorem rem (o : AnOp) : Statement (.rem o) := all_lcns _
theorem remu (o : AnOp) : Statement (.remu o) := all_lcns _
theorem cmp (o : AnOp) : Statement (.cmp o) := all_lcns _
theorem cmpu (o : AnOp) : Statement (.cmpu o) := all_lcns _
theorem neg (o : AnOp) : Statement (.neg o) := all_lcns _
theorem abs (o : AnOp) : Statement (.abs o) := all_lcns _
theorem sqrt (o : AnOp) : Statement (.sqrt o) := all_lcns _
theorem min (o : AnOp) : Statement (.min o) := all_lcns _
theorem max (o : AnOp) : Statement (.max o) := all_lcns _
theorem mov (o : AnOp) : Statement (.mov o) := all_lcns _
theorem clr (o : AnOp) : Statement (.clr o) := all_lcns _
theorem cvt (o : AnOp) : Statement (.cvt o) := all_lcns _
theorem lea (o : AnOp) : Statement (.lea o) := all_lcns _
theorem and (o : AnOp) : Statement (.and o) := all_lcns _
theorem or (o : AnOp) : Statement (.or o) := all_lcns _
theorem xor (o : AnOp) : Statement (.xor o) := all_lcns _
theorem not (o : AnOp) : Statement (.not o) := all_lcns _
theorem shl (o : AnOp) : Statement (.shl o) := all_lcns _
theorem shr (o : AnOp) : Statement (.shr o) := all_lcns _
theorem sar (o : AnOp) : Statement (.sar o) := all_lcns _
theorem rot (o : AnOp) : Statement (.rot o) := all_lcns _
theorem test (o : AnOp) : Statement (.test o) := all_lcns _
theorem movs (o : AnOp) : Statement (.movs o) := all_lcns _
theorem cmps (o : AnOp) : Statement (.cmps o) := all_lcns _
theorem trs (o : AnOp) : Statement (.trs o) := all_lcns _
theorem srch (o : AnOp) : Statement (.srch o) := all_lcns _
theorem cas (o : AnOp) : Statement (.cas o) := all_lcns _
theorem swap (o : AnOp) : Statement (.swap o) := all_lcns _
theorem fadd (o : AnOp) : Statement (.fadd o) := all_lcns _
theorem mfcr (o : AnOp) : Statement (.mfcr o) := all_lcns _
theorem mtcr (o : AnOp) : Statement (.mtcr o) := all_lcns _
theorem mfpsw (o : AnOp) : Statement (.mfpsw o) := all_lcns _
theorem mtpsw (o : AnOp) : Statement (.mtpsw o) := all_lcns _
theorem wrfb (o : AnOp) : Statement (.wrfb o) := all_lcns _
theorem rdfb (o : AnOp) : Statement (.rdfb o) := all_lcns _
theorem sva5 (o : AnOp) : Statement (.sva5 o) := all_lcns _
theorem lda5 (o : AnOp) : Statement (.lda5 o) := all_lcns _
theorem tlbiva (o : AnOp) : Statement (.tlbiva o) := all_lcns _
theorem tlbiasid (o : AnOp) : Statement (.tlbiasid o) := all_lcns _
theorem tlbiall (o : AnOp) : Statement (.tlbiall o) := all_lcns _
theorem tlbivmid (o : AnOp) : Statement (.tlbivmid o) := all_lcns _
theorem tlbiipa (o : AnOp) : Statement (.tlbiipa o) := all_lcns _
theorem tlbilck (o : AnOp) : Statement (.tlbilck o) := all_lcns _
theorem tlbsync (o : AnOp) : Statement (.tlbsync o) := all_lcns _
theorem tlbivaL (o : AnOp) : Statement (.tlbivaL o) := all_lcns _
theorem tlbiasidL (o : AnOp) : Statement (.tlbiasidL o) := all_lcns _
theorem tlbiallL (o : AnOp) : Statement (.tlbiallL o) := all_lcns _
theorem tlbivmidL (o : AnOp) : Statement (.tlbivmidL o) := all_lcns _
theorem tlbiipaL (o : AnOp) : Statement (.tlbiipaL o) := all_lcns _
theorem tlbilckL (o : AnOp) : Statement (.tlbilckL o) := all_lcns _
theorem tlbInvalidationArrival (lcn : Nat) : Statement (.tlbInvalidationArrival lcn) := all_lcns _
theorem publish (o : AnOp) : Statement (.publish o) := all_lcns _
theorem cstart (o : AnOp) : Statement (.cstart o) := all_lcns _
theorem ctest (o : AnOp) : Statement (.ctest o) := all_lcns _
theorem chalt (o : AnOp) : Statement (.chalt o) := all_lcns _
theorem cclear (o : AnOp) : Statement (.cclear o) := all_lcns _
theorem lappend (o : AnOp) : Statement (.lappend o) := all_lcns _
theorem wrpkr (o : AnOp) : Statement (.wrpkr o) := all_lcns _
theorem rdpkr (o : AnOp) : Statement (.rdpkr o) := all_lcns _
theorem tlock (o : AnOp) : Statement (.tlock o) := all_lcns _
theorem tunlock (o : AnOp) : Statement (.tunlock o) := all_lcns _
theorem rdpct (o : AnOp) : Statement (.rdpct o) := all_lcns _
theorem cmd (o : AnOp) : Statement (.cmd o) := all_lcns _
theorem a5Nop (o : A5Op) : Statement (.a5Nop o) := all_lcns _
theorem a5Ld (o : A5Op) : Statement (.a5Ld o) := all_lcns _
theorem a5St (o : A5Op) : Statement (.a5St o) := all_lcns _
theorem a5Lds (o : A5Op) : Statement (.a5Lds o) := all_lcns _
theorem a5Sts (o : A5Op) : Statement (.a5Sts o) := all_lcns _
theorem a5Ldb (o : A5Op) : Statement (.a5Ldb o) := all_lcns _
theorem a5Stb (o : A5Op) : Statement (.a5Stb o) := all_lcns _
theorem a5Lea (o : A5Op) : Statement (.a5Lea o) := all_lcns _
theorem a5Mov (o : A5Op) : Statement (.a5Mov o) := all_lcns _
theorem a5Ldi (o : A5Op) : Statement (.a5Ldi o) := all_lcns _
theorem a5Lui (o : A5Op) : Statement (.a5Lui o) := all_lcns _
theorem a5Add (o : A5Op) : Statement (.a5Add o) := all_lcns _
theorem a5Sub (o : A5Op) : Statement (.a5Sub o) := all_lcns _
theorem a5Addi (o : A5Op) : Statement (.a5Addi o) := all_lcns _
theorem a5Mul (o : A5Op) : Statement (.a5Mul o) := all_lcns _
theorem a5Div (o : A5Op) : Statement (.a5Div o) := all_lcns _
theorem a5Rem (o : A5Op) : Statement (.a5Rem o) := all_lcns _
theorem a5Dadd (o : A5Op) : Statement (.a5Dadd o) := all_lcns _
theorem a5Dsub (o : A5Op) : Statement (.a5Dsub o) := all_lcns _
theorem a5Dmul (o : A5Op) : Statement (.a5Dmul o) := all_lcns _
theorem a5Ddiv (o : A5Op) : Statement (.a5Ddiv o) := all_lcns _
theorem a5And (o : A5Op) : Statement (.a5And o) := all_lcns _
theorem a5Or (o : A5Op) : Statement (.a5Or o) := all_lcns _
theorem a5Xor (o : A5Op) : Statement (.a5Xor o) := all_lcns _
theorem a5Not (o : A5Op) : Statement (.a5Not o) := all_lcns _
theorem a5Shl (o : A5Op) : Statement (.a5Shl o) := all_lcns _
theorem a5Shr (o : A5Op) : Statement (.a5Shr o) := all_lcns _
theorem a5Sar (o : A5Op) : Statement (.a5Sar o) := all_lcns _
theorem a5Rot (o : A5Op) : Statement (.a5Rot o) := all_lcns _
theorem a5Cmp (o : A5Op) : Statement (.a5Cmp o) := all_lcns _
theorem a5Cmpu (o : A5Op) : Statement (.a5Cmpu o) := all_lcns _
theorem a5Cmpi (o : A5Op) : Statement (.a5Cmpi o) := all_lcns _
theorem a5Bc (o : A5Op) : Statement (.a5Bc o) := all_lcns _
theorem a5Call (o : A5Op) : Statement (.a5Call o) := all_lcns _
theorem a5Callr (o : A5Op) : Statement (.a5Callr o) := all_lcns _
theorem a5Ret (o : A5Op) : Statement (.a5Ret o) := all_lcns _
theorem a5Jmp (o : A5Op) : Statement (.a5Jmp o) := all_lcns _
theorem a5Trap (o : A5Op) : Statement (.a5Trap o) := all_lcns _
theorem externalInterrupt (l : Nat) (c : Nat) (vector : Nat) : Statement (.externalInterrupt l c vector) := all_lcns _
theorem modeChangeInterrupt (l : Nat) (c : Nat) : Statement (.modeChangeInterrupt l c) := all_lcns _
theorem clockLossInterrupt (l : Nat) (c : Nat) : Statement (.clockLossInterrupt l c) := all_lcns _
theorem debugException (l : Nat) (c : Nat) : Statement (.debugException l c) := all_lcns _
theorem coreErrorDetected (l : Nat) (entry : Nat) (kind : CoreFind) : Statement (.coreErrorDetected l entry kind) := all_lcns _
theorem retryAttemptEnd (l : Nat) (ok : Bool) : Statement (.retryAttemptEnd l ok) := all_lcns _
theorem correctedError (u : Nat) : Statement (.correctedError u) := all_lcns _
theorem bucketLeak (u : Nat) : Statement (.bucketLeak u) := all_lcns _
theorem coreMove (l : Nat) (bad : MoveErrs) : Statement (.coreMove l bad) := all_lcns _
theorem coreMoveComplete (l : Nat) : Statement (.coreMoveComplete l) := all_lcns _
theorem contextLost (l : Nat) (c : Nat) (n : Nat) : Statement (.contextLost l c n) := all_lcns _
theorem rds (m : Machine.Msg) (err : Nat) : Statement (.rds m err) := all_lcns _
theorem rdx (m : Machine.Msg) : Statement (.rdx m) := all_lcns _
theorem upg (m : Machine.Msg) : Statement (.upg m) := all_lcns _
theorem rdc (m : Machine.Msg) : Statement (.rdc m) := all_lcns _
theorem wrf (m : Machine.Msg) : Statement (.wrf m) := all_lcns _
theorem wrp (m : Machine.Msg) (err : Nat) : Statement (.wrp m err) := all_lcns _
theorem atm (m : Machine.Msg) : Statement (.atm m) := all_lcns _
theorem mnt (m : Machine.Msg) : Statement (.mnt m) := all_lcns _
theorem wbn (m : Machine.Msg) : Statement (.wbn m) := all_lcns _
theorem snps (m : Machine.Msg) : Statement (.snps m) := all_lcns _
theorem snpx (m : Machine.Msg) : Statement (.snpx m) := all_lcns _
theorem snpc (m : Machine.Msg) : Statement (.snpc m) := all_lcns _
theorem snpk (m : Machine.Msg) : Statement (.snpk m) := all_lcns _
theorem snpi (m : Machine.Msg) : Statement (.snpi m) := all_lcns _
theorem purge (die : Nat) (slice : Nat) (set : Nat) (way : Nat) (line : Nat) (ue : List Nat) (stateErr : Bool) : Statement (.purge die slice set way line ue stateErr) := all_lcns _
theorem rspI (m : Machine.Msg) : Statement (.rspI m) := all_lcns _
theorem rspS (m : Machine.Msg) : Statement (.rspS m) := all_lcns _
theorem rspE (m : Machine.Msg) : Statement (.rspE m) := all_lcns _
theorem rspO (m : Machine.Msg) : Statement (.rspO m) := all_lcns _
theorem rspM (m : Machine.Msg) : Statement (.rspM m) := all_lcns _
theorem rspMiss (m : Machine.Msg) : Statement (.rspMiss m) := all_lcns _
theorem rspEvicting (m : Machine.Msg) : Statement (.rspEvicting m) := all_lcns _
theorem gntS (m : Machine.Msg) : Statement (.gntS m) := all_lcns _
theorem gntE (m : Machine.Msg) : Statement (.gntE m) := all_lcns _
theorem gntM (m : Machine.Msg) : Statement (.gntM m) := all_lcns _
theorem cmpCompletion (m : Machine.Msg) : Statement (.cmpCompletion m) := all_lcns _
theorem cack (m : Machine.Msg) : Statement (.cack m) := all_lcns _
theorem wback (m : Machine.Msg) : Statement (.wback m) := all_lcns _
theorem retry (op : Machine.MsgOp) (m : Machine.Msg) : Statement (.retry op m) := all_lcns _
theorem retryResend (agent : Nat) (sector : Nat) : Statement (.retryResend agent sector) := all_lcns _
theorem homeParkRelease (h : Half) : Statement (.homeParkRelease h) := all_lcns _
theorem homeTimeout (h : Half) (tx : Nat) : Statement (.homeTimeout h tx) := all_lcns _
theorem lateResponse (op : Machine.MsgOp) (m : Machine.Msg) : Statement (.lateResponse op m) := all_lcns _
theorem rrd (m : Machine.Msg) : Statement (.rrd m) := all_lcns _
theorem rwr (m : Machine.Msg) : Statement (.rwr m) := all_lcns _
theorem ops (q : DevReq) (x : DevOp) : Statement (.ops q x) := all_lcns _
theorem oneShotRelease (lcn : Nat) (ctx : Nat) (rid : Nat) : Statement (.oneShotRelease lcn ctx rid) := all_lcns _
theorem int (lcn : Nat) (vector : Nat) : Statement (.int lcn vector) := all_lcns _
theorem domainAsleep (op : Machine.MsgOp) (m : Machine.Msg) (unit : Nat) : Statement (.domainAsleep op m unit) := all_lcns _
theorem domainOff (op : Machine.MsgOp) (m : Machine.Msg) (unit : Nat) : Statement (.domainOff op m unit) := all_lcns _
theorem aerr (m : Machine.Msg) : Statement (.aerr m) := all_lcns _
theorem mirw (m : Machine.Msg) : Statement (.mirw m) := all_lcns _
theorem mirack (m : Machine.Msg) : Statement (.mirack m) := all_lcns _
theorem mirh (h : Half) : Statement (.mirh h) := all_lcns _
theorem tideRaise (i : Nat) : Statement (.tideRaise i) := all_lcns _
theorem routeEpochChange (scope : Nat) : Statement (.routeEpochChange scope) := all_lcns _
theorem flitCheckFail (k : Nat) (n : Nat) : Statement (.flitCheckFail k n) := all_lcns _
theorem nak (k : Nat) (ok : Bool) : Statement (.nak k ok) := all_lcns _
theorem rytumRetrain (k : Nat) : Statement (.rytumRetrain k) := all_lcns _
theorem rytumTrainingEnd (k : Nat) (failed : Nat) (spare : Nat) : Statement (.rytumTrainingEnd k failed spare) := all_lcns _
theorem heartbeatSend (k : Nat) : Statement (.heartbeatSend k) := all_lcns _
theorem heartbeat (k : Nat) : Statement (.heartbeat k) := all_lcns _
theorem forwardedClockLoss (d : Nat) : Statement (.forwardedClockLoss d) := all_lcns _
theorem moduleReset (k : Nat) : Statement (.moduleReset k) := all_lcns _
theorem caParityAlert (h : Half) (c : Nat) (outcome : Nat) (lost : List Nat) : Statement (.caParityAlert h c outcome lost) := all_lcns _
theorem mergeDrain (h : Half) (c : Nat) (i : Nat) (err : Nat) : Statement (.mergeDrain h c i err) := all_lcns _
theorem patrolScrub (h : Half) (c : Nat) (err : Nat) : Statement (.patrolScrub h c err) := all_lcns _
theorem rfmIssue (h : Half) (c : Nat) (bank : Nat) : Statement (.rfmIssue h c bank) := all_lcns _
theorem aggressorDetected (h : Half) (c : Nat) (src : Nat) (port : Nat) : Statement (.aggressorDetected h c src port) := all_lcns _
theorem refreshWindowEnd (h : Half) (c : Nat) : Statement (.refreshWindowEnd h c) := all_lcns _
theorem periodicRetrain (h : Half) (c : Nat) (outcome : Nat) : Statement (.periodicRetrain h c outcome) := all_lcns _
theorem sparingCopyLine (h : Half) (errs : List Nat) : Statement (.sparingCopyLine h errs) := all_lcns _
theorem sparingCopyComplete (h : Half) : Statement (.sparingCopyComplete h) := all_lcns _
theorem channelZeroingComplete (h : Half) (c : Nat) : Statement (.channelZeroingComplete h c) := all_lcns _
theorem memUeClear (h : Half) (c : Nat) : Statement (.memUeClear h c) := all_lcns _
theorem cssCqHeadWrite (h : Half) (q : Nat) (v : Nat) : Statement (.cssCqHeadWrite h q v) := all_lcns _
theorem cqPost (h : Half) (i : Nat) : Statement (.cqPost h i) := all_lcns _
theorem attachStartEntry (q : Nat) : Statement (.attachStartEntry q) := all_lcns _
theorem operationDispatch (h : Half) (n : Nat) : Statement (.operationDispatch h n) := all_lcns _
theorem operationTimeout (h : Half) (i : Nat) : Statement (.operationTimeout h i) := all_lcns _
theorem pathdown (h : Half) (i : Nat) : Statement (.pathdown h i) := all_lcns _
theorem recoveryQueryEnd (h : Half) (i : Nat) (outcome : Nat) : Statement (.recoveryQueryEnd h i outcome) := all_lcns _
theorem haltConfirmTimeout (h : Half) (i : Nat) : Statement (.haltConfirmTimeout h i) := all_lcns _
theorem freezeTimeout (h : Half) (i : Nat) : Statement (.freezeTimeout h i) := all_lcns _
theorem deviceEvent (h : Half) (i : Nat) : Statement (.deviceEvent h i) := all_lcns _
theorem eventPageWrite (h : Half) (cpe : Nat) (slot : Nat) : Statement (.eventPageWrite h cpe slot) := all_lcns _
theorem pathPortFailed (pp : Nat) (cause : Nat) : Statement (.pathPortFailed pp cause) := all_lcns _
theorem pathRecoveryCycle (pp : Nat) (gen : Nat) (width : Nat) (switch : Bool) : Statement (.pathRecoveryCycle pp gen width switch) := all_lcns _
theorem pathTrainingTimeout (pp : Nat) : Statement (.pathTrainingTimeout pp) := all_lcns _
theorem pathupEnd (pp : Nat) (image : Nat) (outcome : Nat) : Statement (.pathupEnd pp image outcome) := all_lcns _
theorem pathOfflineLimit (pp : Nat) : Statement (.pathOfflineLimit pp) := all_lcns _
theorem pathInboundRequest (pp : Nat) (pa : Nat) (n : Nat) (wr : Option (List Byte)) : Statement (.pathInboundRequest pp pa n wr) := all_lcns _
theorem cpeWait (o : CpeOp) : Statement (.cpeWait o) := all_lcns _
theorem cpeAdd (o : CpeOp) : Statement (.cpeAdd o) := all_lcns _
theorem cpeSub (o : CpeOp) : Statement (.cpeSub o) := all_lcns _
theorem cpeAnd (o : CpeOp) : Statement (.cpeAnd o) := all_lcns _
theorem cpeOr (o : CpeOp) : Statement (.cpeOr o) := all_lcns _
theorem cpeXor (o : CpeOp) : Statement (.cpeXor o) := all_lcns _
theorem cpeSll (o : CpeOp) : Statement (.cpeSll o) := all_lcns _
theorem cpeSrl (o : CpeOp) : Statement (.cpeSrl o) := all_lcns _
theorem cpeSra (o : CpeOp) : Statement (.cpeSra o) := all_lcns _
theorem cpeSltu (o : CpeOp) : Statement (.cpeSltu o) := all_lcns _
theorem cpeAddi (o : CpeOp) : Statement (.cpeAddi o) := all_lcns _
theorem cpeAndi (o : CpeOp) : Statement (.cpeAndi o) := all_lcns _
theorem cpeOri (o : CpeOp) : Statement (.cpeOri o) := all_lcns _
theorem cpeLui (o : CpeOp) : Statement (.cpeLui o) := all_lcns _
theorem cpeLw (o : CpeOp) : Statement (.cpeLw o) := all_lcns _
theorem cpeLhu (o : CpeOp) : Statement (.cpeLhu o) := all_lcns _
theorem cpeLbu (o : CpeOp) : Statement (.cpeLbu o) := all_lcns _
theorem cpeSw (o : CpeOp) : Statement (.cpeSw o) := all_lcns _
theorem cpeSh (o : CpeOp) : Statement (.cpeSh o) := all_lcns _
theorem cpeSb (o : CpeOp) : Statement (.cpeSb o) := all_lcns _
theorem cpeBeq (o : CpeOp) : Statement (.cpeBeq o) := all_lcns _
theorem cpeBne (o : CpeOp) : Statement (.cpeBne o) := all_lcns _
theorem cpeBltu (o : CpeOp) : Statement (.cpeBltu o) := all_lcns _
theorem cpeBgeu (o : CpeOp) : Statement (.cpeBgeu o) := all_lcns _
theorem cpeJal (o : CpeOp) : Statement (.cpeJal o) := all_lcns _
theorem cpeJr (o : CpeOp) : Statement (.cpeJr o) := all_lcns _
theorem nxcmd (o : CpeOp) : Statement (.nxcmd o) := all_lcns _
theorem wset (o : CpeOp) : Statement (.wset o) := all_lcns _
theorem cpePost (o : CpeOp) : Statement (.cpePost o) := all_lcns _
theorem ckpt (o : CpeOp) : Statement (.ckpt o) := all_lcns _
theorem cpeEnd (o : CpeOp) : Statement (.cpeEnd o) := all_lcns _
theorem evaddr (o : CpeOp) : Statement (.evaddr o) := all_lcns _
theorem interruptedReport (h : Half) (q : Nat) : Statement (.interruptedReport h q) := all_lcns _
theorem sealRingTailDoorbell (h : Half) (r : Nat) (v : Nat) : Statement (.sealRingTailDoorbell h r v) := all_lcns _
theorem sealRingEnable (h : Half) (r : Nat) : Statement (.sealRingEnable h r) := all_lcns _
theorem sealJobStart (h : Half) (e : Nat) : Statement (.sealJobStart h e) := all_lcns _
theorem sealJobComplete (h : Half) (e : Nat) (arrayErr : Bool) : Statement (.sealJobComplete h e arrayErr) := all_lcns _
theorem sealRingCheadWrite (h : Half) (r : Nat) (v : Nat) : Statement (.sealRingCheadWrite h r v) := all_lcns _
theorem sealRingStop (h : Half) (r : Nat) : Statement (.sealRingStop h r) := all_lcns _
theorem sealPowerPreempt (h : Half) (e : Nat) : Statement (.sealPowerPreempt h e) := all_lcns _
theorem sealEngErrClear (h : Half) (e : Nat) : Statement (.sealEngErrClear h e) := all_lcns _
theorem movChTailDoorbell (h : Half) (m : Nat) (ch : Nat) (v : Nat) : Statement (.movChTailDoorbell h m ch v) := all_lcns _
theorem moverDescriptorStart (h : Half) (m : Nat) : Statement (.moverDescriptorStart h m) := all_lcns _
theorem moverBurst (h : Half) (m : Nat) : Statement (.moverBurst h m) := all_lcns _
theorem moverDescriptorComplete (h : Half) (m : Nat) : Statement (.moverDescriptorComplete h m) := all_lcns _
theorem moverHalt (h : Half) (m : Nat) (pa : Nat) (wr : Bool) (poison : Bool) : Statement (.moverHalt h m pa wr poison) := all_lcns _
theorem resume (h : Half) (m : Nat) (ch : Nat) : Statement (.resume h m ch) := all_lcns _
theorem skip (h : Half) (m : Nat) (ch : Nat) : Statement (.skip h m ch) := all_lcns _
theorem abort (h : Half) (m : Nat) (ch : Nat) : Statement (.abort h m ch) := all_lcns _
theorem moverPowerStop (h : Half) (m : Nat) : Statement (.moverPowerStop h m) := all_lcns _
theorem appendEntry (q : Nat) : Statement (.appendEntry q) := all_lcns _
theorem appendFormat (id : Nat) (sealFail : Bool) : Statement (.appendFormat id sealFail) := all_lcns _
theorem appendChain (id : Nat) : Statement (.appendChain id) := all_lcns _
theorem ledgerCompletionPost (id : Nat) : Statement (.ledgerCompletionPost id) := all_lcns _
theorem ringSpaceWait (id : Nat) : Statement (.ringSpaceWait id) := all_lcns _
theorem checkpointTimer (id : Nat) : Statement (.checkpointTimer id) := all_lcns _
theorem checkpointSign (h : Half) : Statement (.checkpointSign h) := all_lcns _
theorem closeTimeout (id : Nat) : Statement (.closeTimeout id) := all_lcns _
theorem spoolStart (id : Nat) : Statement (.spoolStart id) := all_lcns _
theorem spoolFinalStatus (h : Half) (i : Nat) : Statement (.spoolFinalStatus h i) := all_lcns _
theorem ldgErrClear (h : Half) : Statement (.ldgErrClear h) := all_lcns _
theorem pcieConfigRequest (port : Nat) (fn : Nat) (off : Nat) (tag : Nat) (wr : Option (Nat × Nat)) : Statement (.pcieConfigRequest port fn off tag wr) := all_lcns _
theorem inboundMemoryRequest (r : InReq) : Statement (.inboundMemoryRequest r) := all_lcns _
theorem peerForward (r : InReq) : Statement (.peerForward r) := all_lcns _
theorem attQpSqtailDoorbell (q : Nat) (v : Nat) : Statement (.attQpSqtailDoorbell q v) := all_lcns _
theorem attQpCqheadWrite (q : Nat) (v : Nat) : Statement (.attQpCqheadWrite q v) := all_lcns _
theorem queuePairStop (q : Nat) (cause : Nat) : Statement (.queuePairStop q cause) := all_lcns _
theorem attMsgTxtailDoorbell (q : Nat) (v : Nat) : Statement (.attMsgTxtailDoorbell q v) := all_lcns _
theorem attMsgRxheadWrite (q : Nat) (v : Nat) : Statement (.attMsgRxheadWrite q v) := all_lcns _
theorem attWinCommit (port : Nat) (v : Nat) : Statement (.attWinCommit port v) := all_lcns _
theorem functionLevelReset (k : Nat) : Statement (.functionLevelReset k) := all_lcns _
theorem hotReset (port : Nat) (down : Bool) : Statement (.hotReset port down) := all_lcns _
theorem busMasterDisable (k : Nat) : Statement (.busMasterDisable k) := all_lcns _
theorem bmeLostClear (k : Nat) : Statement (.bmeLostClear k) := all_lcns _
theorem attachWindowAccess (lcn : Nat) (ctx : Nat) (port : Nat) (off : Nat) (n : Nat) (wr : Option (List Byte)) : Statement (.attachWindowAccess lcn ctx port off n wr) := all_lcns _
theorem attachCompletionTimeout (port : Nat) (tag : Nat) : Statement (.attachCompletionTimeout port tag) := all_lcns _
theorem ltrUpdate (port : Nat) : Statement (.ltrUpdate port) := all_lcns _
theorem attFnIsrClear (k : Nat) (v : Nat) : Statement (.attFnIsrClear k v) := all_lcns _
theorem lhMbDb (h : Half) (mask : Nat) : Statement (.lhMbDb h mask) := all_lcns _
theorem mailboxTake (h : Half) : Statement (.mailboxTake h) := all_lcns _
theorem lhMbOutpendClear (h : Half) (mask : Nat) : Statement (.lhMbOutpendClear h mask) := all_lcns _
theorem dbgChallenge (h : Half) : Statement (.dbgChallenge h) := all_lcns _
theorem dbgUnlock (h : Half) : Statement (.dbgUnlock h) := all_lcns _
theorem dbgRelock (h : Half) : Statement (.dbgRelock h) := all_lcns _
theorem lcAdvance (h : Half) : Statement (.lcAdvance h) := all_lcns _
theorem fwStage (h : Half) : Statement (.fwStage h) := all_lcns _
theorem grantExpiry : Statement .grantExpiry := all_lcns _
theorem deferredPowerLimit (u : Nat) : Statement (.deferredPowerLimit u) := all_lcns _
theorem st64Steer (d : Nat) : Statement (.st64Steer d) := all_lcns _
theorem feedLoss (k : Nat) : Statement (.feedLoss k) := all_lcns _
theorem feedReturn (k : Nat) : Statement (.feedReturn k) := all_lcns _
theorem bothFeedsLost : Statement .bothFeedsLost := all_lcns _
theorem vholdLoss : Statement .vholdLoss := all_lcns _
theorem holdPowerUp (k : Nat) : Statement (.holdPowerUp k) := all_lcns _
theorem pwrfailWarn : Statement .pwrfailWarn := all_lcns _
theorem resetNAssert : Statement .resetNAssert := all_lcns _
theorem resetNRelease : Statement .resetNRelease := all_lcns _
theorem throttleN (on : Bool) : Statement (.throttleN on) := all_lcns _
theorem serviceN (on : Bool) : Statement (.serviceN on) := all_lcns _
theorem sidebandStuck (i : Nat) : Statement (.sidebandStuck i) := all_lcns _
theorem sidebandChatter (i : Nat) : Statement (.sidebandChatter i) := all_lcns _
theorem sidebandMaskEnd (i : Nat) : Statement (.sidebandMaskEnd i) := all_lcns _
theorem pmuSidebandSvcClear : Statement .pmuSidebandSvcClear := all_lcns _
theorem pmuSupplyLostClear (v : Nat) : Statement (.pmuSupplyLostClear v) := all_lcns _
theorem clockMonitorWindow (x : Nat) (i : Nat) : Statement (.clockMonitorWindow x i) := all_lcns _
theorem iroFailure : Statement .iroFailure := all_lcns _
theorem allClocksLost : Statement .allClocksLost := all_lcns _
theorem dieTemperatureThreshold (d : Nat) (t : Int) : Statement (.dieTemperatureThreshold d t) := all_lcns _
theorem dieOvertemperature (d : Nat) : Statement (.dieOvertemperature d) := all_lcns _
theorem packageReset : Statement .packageReset := all_lcns _
theorem lighthouseBoot (h : Half) (step : Nat) : Statement (.lighthouseBoot h step) := all_lcns _
theorem unitReady (h : Half) (k : Nat) (pass : Bool) : Statement (.unitReady h k pass) := all_lcns _
theorem coreSelfTest (d : Nat) (bad : List Nat) : Statement (.coreSelfTest d bad) := all_lcns _
theorem pairing : Statement .pairing := all_lcns _
theorem sysAutoModeSet (waited : Bool) : Statement (.sysAutoModeSet waited) := all_lcns _
theorem logReport (h : Half) (r : Machine.Report) : Statement (.logReport h r) := all_lcns _
theorem freezePulse (h : Half) (busy : Bool) : Statement (.freezePulse h busy) := all_lcns _
theorem sampleRecord (l : Nat) (r : Option SampleOp) : Statement (.sampleRecord l r) := all_lcns _
theorem traceRecord (l : Nat) (ctx : Nat) (r : TraceOp) : Statement (.traceRecord l ctx r) := all_lcns _
theorem trstN : Statement .trstN := all_lcns _
theorem idcode (n : Nat) : Statement (.idcode n) := all_lcns _
theorem samplePreload (h : Half) (v : Nat) : Statement (.samplePreload h v) := all_lcns _
theorem extest (h : Half) (v : Nat) : Statement (.extest h v) := all_lcns _
theorem clamp (h : Half) : Statement (.clamp h) := all_lcns _
theorem highz (h : Half) : Statement (.highz h) := all_lcns _
theorem ijtag (n : Nat) : Statement (.ijtag n) := all_lcns _
theorem bypass (n : Nat) : Statement (.bypass n) := all_lcns _
theorem dbgap (h : Half) (op : Nat) (size : Nat) (addr : Nat) (data : Nat) : Statement (.dbgap h op size addr data) := all_lcns _
theorem dbgHalt (h : Half) (l : Nat) (mask : Nat) : Statement (.dbgHalt h l mask) := all_lcns _
theorem dbgResume (h : Half) (l : Nat) (mask : Nat) : Statement (.dbgResume h l mask) := all_lcns _
theorem dbgStep (h : Half) (l : Nat) (mask : Nat) : Statement (.dbgStep h l mask) := all_lcns _
theorem breakpointMatch (l : Nat) (ctx : Nat) (b : Nat) (acc : Option (Nat × Bool)) : Statement (.breakpointMatch l ctx b acc) := all_lcns _
theorem registerWrite (h : Half) (off : Nat) (n : Nat) (v : Nat) : Statement (.registerWrite h off n v) := all_lcns _
theorem pwrfailWarnRelease : Statement .pwrfailWarnRelease := all_lcns _
theorem supplyRangeChange (k : Nat) (ok : Bool) : Statement (.supplyRangeChange k ok) := all_lcns _
theorem pathPerstRelease (pp : Nat) : Statement (.pathPerstRelease pp) := all_lcns _
theorem attachPerstN (port : Nat) (low : Bool) : Statement (.attachPerstN port low) := all_lcns _
theorem attachLinkTrained (port : Nat) (gen : Nat) (width : Nat) : Statement (.attachLinkTrained port gen width) := all_lcns _
theorem memTrainingEnd (h : Half) (c : Nat) (ok : Bool) : Statement (.memTrainingEnd h c ok) := all_lcns _
theorem asyncCommandComplete (src : Machine.Src) (tag : Nat) (pass : Bool) (errs : List (Nat × Nat)) : Statement (.asyncCommandComplete src tag pass errs) := all_lcns _
theorem powerStateReached (u : Nat) : Statement (.powerStateReached u) := all_lcns _
theorem debugWakeExpiry (u : Nat) : Statement (.debugWakeExpiry u) := all_lcns _
theorem attachReadCompletion (port : Nat) (tag : Nat) (status : Nat) (d : List Byte) (ep : Bool) : Statement (.attachReadCompletion port tag status d ep) := all_lcns _
theorem maintenanceSlotStart (h : Half) (k : Nat) (v : Nat) : Statement (.maintenanceSlotStart h k v) := all_lcns _
theorem vfQuiesceLimit (k : Nat) : Statement (.vfQuiesceLimit k) := all_lcns _

end Sys2Proof.Laws.Lcns
end

