-- ==== Sys2Proof/Laws/State.lean ====
section
/-! SUPPORT. Every update of State field by field: the field it changes, and the fields it leaves. -/
namespace Sys2Proof.Machine

variable (s : State)

/-! ### updPkg -/

@[simp] theorem updPkg_cfg (f : Pkg → Pkg) : (updPkg f s).cfg = s.cfg := rfl
@[simp] theorem updPkg_pkg (f : Pkg → Pkg) : (updPkg f s).pkg = f s.pkg := rfl
@[simp] theorem updPkg_rings (f : Pkg → Pkg) : (updPkg f s).rings = s.rings := rfl
@[simp] theorem updPkg_prog (f : Pkg → Pkg) : (updPkg f s).prog = s.prog := rfl
@[simp] theorem updPkg_waitFence (f : Pkg → Pkg) : (updPkg f s).waitFence = s.waitFence := rfl
@[simp] theorem updPkg_i3c (f : Pkg → Pkg) : (updPkg f s).i3c = s.i3c := rfl
@[simp] theorem updPkg_log (f : Pkg → Pkg) : (updPkg f s).log = s.log := rfl
@[simp] theorem updPkg_faultN (f : Pkg → Pkg) : (updPkg f s).faultN = s.faultN := rfl
@[simp] theorem updPkg_st64 (f : Pkg → Pkg) : (updPkg f s).st64 = s.st64 := rfl
@[simp] theorem updPkg_mem (f : Pkg → Pkg) : (updPkg f s).mem = s.mem := rfl
@[simp] theorem updPkg_home (f : Pkg → Pkg) : (updPkg f s).home = s.home := rfl
@[simp] theorem updPkg_coh (f : Pkg → Pkg) : (updPkg f s).coh = s.coh := rfl
@[simp] theorem updPkg_mirq (f : Pkg → Pkg) : (updPkg f s).mirq = s.mirq := rfl
@[simp] theorem updPkg_fab (f : Pkg → Pkg) : (updPkg f s).fab = s.fab := rfl
@[simp] theorem updPkg_latches (f : Pkg → Pkg) : (updPkg f s).latches = s.latches := rfl
@[simp] theorem updPkg_ctxs (f : Pkg → Pkg) : (updPkg f s).ctxs = s.ctxs := rfl
@[simp] theorem updPkg_cks (f : Pkg → Pkg) : (updPkg f s).cks = s.cks := rfl
@[simp] theorem updPkg_lcns (f : Pkg → Pkg) : (updPkg f s).lcns = s.lcns := rfl
@[simp] theorem updPkg_tlbq (f : Pkg → Pkg) : (updPkg f s).tlbq = s.tlbq := rfl
@[simp] theorem updPkg_dies (f : Pkg → Pkg) : (updPkg f s).dies = s.dies := rfl
@[simp] theorem updPkg_moves (f : Pkg → Pkg) : (updPkg f s).moves = s.moves := rfl
@[simp] theorem updPkg_images (f : Pkg → Pkg) : (updPkg f s).images = s.images := rfl
@[simp] theorem updPkg_parks (f : Pkg → Pkg) : (updPkg f s).parks = s.parks := rfl
@[simp] theorem updPkg_ctrs (f : Pkg → Pkg) : (updPkg f s).ctrs = s.ctrs := rfl
@[simp] theorem updPkg_att (f : Pkg → Pkg) : (updPkg f s).att = s.att := rfl
@[simp] theorem updPkg_css (f : Pkg → Pkg) : (updPkg f s).css = s.css := rfl
@[simp] theorem updPkg_units (f : Pkg → Pkg) : (updPkg f s).units = s.units := rfl
@[simp] theorem updPkg_nonce (f : Pkg → Pkg) : (updPkg f s).nonce = s.nonce := rfl
@[simp] theorem updPkg_pending (f : Pkg → Pkg) : (updPkg f s).pending = s.pending := rfl

/-! ### updMem -/

@[simp] theorem updMem_cfg (h : Half) (f : Mem → Mem) : (updMem h f s).cfg = s.cfg := rfl
@[simp] theorem updMem_pkg (h : Half) (f : Mem → Mem) : (updMem h f s).pkg = s.pkg := rfl
@[simp] theorem updMem_rings (h : Half) (f : Mem → Mem) : (updMem h f s).rings = s.rings := rfl
@[simp] theorem updMem_prog (h : Half) (f : Mem → Mem) : (updMem h f s).prog = s.prog := rfl
@[simp] theorem updMem_waitFence (h : Half) (f : Mem → Mem) : (updMem h f s).waitFence = s.waitFence := rfl
@[simp] theorem updMem_i3c (h : Half) (f : Mem → Mem) : (updMem h f s).i3c = s.i3c := rfl
@[simp] theorem updMem_log (h : Half) (f : Mem → Mem) : (updMem h f s).log = s.log := rfl
@[simp] theorem updMem_faultN (h : Half) (f : Mem → Mem) : (updMem h f s).faultN = s.faultN := rfl
@[simp] theorem updMem_st64 (h : Half) (f : Mem → Mem) : (updMem h f s).st64 = s.st64 := rfl
@[simp] theorem updMem_mem (h : Half) (f : Mem → Mem) : (updMem h f s).mem = s.mem.set h (f (s.mem.get h)) := rfl
@[simp] theorem updMem_home (h : Half) (f : Mem → Mem) : (updMem h f s).home = s.home := rfl
@[simp] theorem updMem_coh (h : Half) (f : Mem → Mem) : (updMem h f s).coh = s.coh := rfl
@[simp] theorem updMem_mirq (h : Half) (f : Mem → Mem) : (updMem h f s).mirq = s.mirq := rfl
@[simp] theorem updMem_fab (h : Half) (f : Mem → Mem) : (updMem h f s).fab = s.fab := rfl
@[simp] theorem updMem_latches (h : Half) (f : Mem → Mem) : (updMem h f s).latches = s.latches := rfl
@[simp] theorem updMem_ctxs (h : Half) (f : Mem → Mem) : (updMem h f s).ctxs = s.ctxs := rfl
@[simp] theorem updMem_cks (h : Half) (f : Mem → Mem) : (updMem h f s).cks = s.cks := rfl
@[simp] theorem updMem_lcns (h : Half) (f : Mem → Mem) : (updMem h f s).lcns = s.lcns := rfl
@[simp] theorem updMem_tlbq (h : Half) (f : Mem → Mem) : (updMem h f s).tlbq = s.tlbq := rfl
@[simp] theorem updMem_dies (h : Half) (f : Mem → Mem) : (updMem h f s).dies = s.dies := rfl
@[simp] theorem updMem_moves (h : Half) (f : Mem → Mem) : (updMem h f s).moves = s.moves := rfl
@[simp] theorem updMem_images (h : Half) (f : Mem → Mem) : (updMem h f s).images = s.images := rfl
@[simp] theorem updMem_parks (h : Half) (f : Mem → Mem) : (updMem h f s).parks = s.parks := rfl
@[simp] theorem updMem_ctrs (h : Half) (f : Mem → Mem) : (updMem h f s).ctrs = s.ctrs := rfl
@[simp] theorem updMem_att (h : Half) (f : Mem → Mem) : (updMem h f s).att = s.att := rfl
@[simp] theorem updMem_css (h : Half) (f : Mem → Mem) : (updMem h f s).css = s.css := rfl
@[simp] theorem updMem_units (h : Half) (f : Mem → Mem) : (updMem h f s).units = s.units := rfl
@[simp] theorem updMem_nonce (h : Half) (f : Mem → Mem) : (updMem h f s).nonce = s.nonce := rfl
@[simp] theorem updMem_pending (h : Half) (f : Mem → Mem) : (updMem h f s).pending = s.pending := rfl

/-! ### updHome -/

@[simp] theorem updHome_cfg (h : Half) (f : Home → Home) : (updHome h f s).cfg = s.cfg := rfl
@[simp] theorem updHome_pkg (h : Half) (f : Home → Home) : (updHome h f s).pkg = s.pkg := rfl
@[simp] theorem updHome_rings (h : Half) (f : Home → Home) : (updHome h f s).rings = s.rings := rfl
@[simp] theorem updHome_prog (h : Half) (f : Home → Home) : (updHome h f s).prog = s.prog := rfl
@[simp] theorem updHome_waitFence (h : Half) (f : Home → Home) : (updHome h f s).waitFence = s.waitFence := rfl
@[simp] theorem updHome_i3c (h : Half) (f : Home → Home) : (updHome h f s).i3c = s.i3c := rfl
@[simp] theorem updHome_log (h : Half) (f : Home → Home) : (updHome h f s).log = s.log := rfl
@[simp] theorem updHome_faultN (h : Half) (f : Home → Home) : (updHome h f s).faultN = s.faultN := rfl
@[simp] theorem updHome_st64 (h : Half) (f : Home → Home) : (updHome h f s).st64 = s.st64 := rfl
@[simp] theorem updHome_mem (h : Half) (f : Home → Home) : (updHome h f s).mem = s.mem := rfl
@[simp] theorem updHome_home (h : Half) (f : Home → Home) : (updHome h f s).home = s.home.set h (f (s.home.get h)) := rfl
@[simp] theorem updHome_coh (h : Half) (f : Home → Home) : (updHome h f s).coh = s.coh := rfl
@[simp] theorem updHome_mirq (h : Half) (f : Home → Home) : (updHome h f s).mirq = s.mirq := rfl
@[simp] theorem updHome_fab (h : Half) (f : Home → Home) : (updHome h f s).fab = s.fab := rfl
@[simp] theorem updHome_latches (h : Half) (f : Home → Home) : (updHome h f s).latches = s.latches := rfl
@[simp] theorem updHome_ctxs (h : Half) (f : Home → Home) : (updHome h f s).ctxs = s.ctxs := rfl
@[simp] theorem updHome_cks (h : Half) (f : Home → Home) : (updHome h f s).cks = s.cks := rfl
@[simp] theorem updHome_lcns (h : Half) (f : Home → Home) : (updHome h f s).lcns = s.lcns := rfl
@[simp] theorem updHome_tlbq (h : Half) (f : Home → Home) : (updHome h f s).tlbq = s.tlbq := rfl
@[simp] theorem updHome_dies (h : Half) (f : Home → Home) : (updHome h f s).dies = s.dies := rfl
@[simp] theorem updHome_moves (h : Half) (f : Home → Home) : (updHome h f s).moves = s.moves := rfl
@[simp] theorem updHome_images (h : Half) (f : Home → Home) : (updHome h f s).images = s.images := rfl
@[simp] theorem updHome_parks (h : Half) (f : Home → Home) : (updHome h f s).parks = s.parks := rfl
@[simp] theorem updHome_ctrs (h : Half) (f : Home → Home) : (updHome h f s).ctrs = s.ctrs := rfl
@[simp] theorem updHome_att (h : Half) (f : Home → Home) : (updHome h f s).att = s.att := rfl
@[simp] theorem updHome_css (h : Half) (f : Home → Home) : (updHome h f s).css = s.css := rfl
@[simp] theorem updHome_units (h : Half) (f : Home → Home) : (updHome h f s).units = s.units := rfl
@[simp] theorem updHome_nonce (h : Half) (f : Home → Home) : (updHome h f s).nonce = s.nonce := rfl
@[simp] theorem updHome_pending (h : Half) (f : Home → Home) : (updHome h f s).pending = s.pending := rfl

/-! ### updLog -/

@[simp] theorem updLog_cfg (h : Half) (f : Log → Log) : (updLog h f s).cfg = s.cfg := rfl
@[simp] theorem updLog_pkg (h : Half) (f : Log → Log) : (updLog h f s).pkg = s.pkg := rfl
@[simp] theorem updLog_rings (h : Half) (f : Log → Log) : (updLog h f s).rings = s.rings := rfl
@[simp] theorem updLog_prog (h : Half) (f : Log → Log) : (updLog h f s).prog = s.prog := rfl
@[simp] theorem updLog_waitFence (h : Half) (f : Log → Log) : (updLog h f s).waitFence = s.waitFence := rfl
@[simp] theorem updLog_i3c (h : Half) (f : Log → Log) : (updLog h f s).i3c = s.i3c := rfl
@[simp] theorem updLog_log (h : Half) (f : Log → Log) : (updLog h f s).log = s.log.set h (f (s.log.get h)) := rfl
@[simp] theorem updLog_faultN (h : Half) (f : Log → Log) : (updLog h f s).faultN = s.faultN := rfl
@[simp] theorem updLog_st64 (h : Half) (f : Log → Log) : (updLog h f s).st64 = s.st64 := rfl
@[simp] theorem updLog_mem (h : Half) (f : Log → Log) : (updLog h f s).mem = s.mem := rfl
@[simp] theorem updLog_home (h : Half) (f : Log → Log) : (updLog h f s).home = s.home := rfl
@[simp] theorem updLog_coh (h : Half) (f : Log → Log) : (updLog h f s).coh = s.coh := rfl
@[simp] theorem updLog_mirq (h : Half) (f : Log → Log) : (updLog h f s).mirq = s.mirq := rfl
@[simp] theorem updLog_fab (h : Half) (f : Log → Log) : (updLog h f s).fab = s.fab := rfl
@[simp] theorem updLog_latches (h : Half) (f : Log → Log) : (updLog h f s).latches = s.latches := rfl
@[simp] theorem updLog_ctxs (h : Half) (f : Log → Log) : (updLog h f s).ctxs = s.ctxs := rfl
@[simp] theorem updLog_cks (h : Half) (f : Log → Log) : (updLog h f s).cks = s.cks := rfl
@[simp] theorem updLog_lcns (h : Half) (f : Log → Log) : (updLog h f s).lcns = s.lcns := rfl
@[simp] theorem updLog_tlbq (h : Half) (f : Log → Log) : (updLog h f s).tlbq = s.tlbq := rfl
@[simp] theorem updLog_dies (h : Half) (f : Log → Log) : (updLog h f s).dies = s.dies := rfl
@[simp] theorem updLog_moves (h : Half) (f : Log → Log) : (updLog h f s).moves = s.moves := rfl
@[simp] theorem updLog_images (h : Half) (f : Log → Log) : (updLog h f s).images = s.images := rfl
@[simp] theorem updLog_parks (h : Half) (f : Log → Log) : (updLog h f s).parks = s.parks := rfl
@[simp] theorem updLog_ctrs (h : Half) (f : Log → Log) : (updLog h f s).ctrs = s.ctrs := rfl
@[simp] theorem updLog_att (h : Half) (f : Log → Log) : (updLog h f s).att = s.att := rfl
@[simp] theorem updLog_css (h : Half) (f : Log → Log) : (updLog h f s).css = s.css := rfl
@[simp] theorem updLog_units (h : Half) (f : Log → Log) : (updLog h f s).units = s.units := rfl
@[simp] theorem updLog_nonce (h : Half) (f : Log → Log) : (updLog h f s).nonce = s.nonce := rfl
@[simp] theorem updLog_pending (h : Half) (f : Log → Log) : (updLog h f s).pending = s.pending := rfl

/-! ### updI3c -/

@[simp] theorem updI3c_cfg (h : Half) (f : I3c → I3c) : (updI3c h f s).cfg = s.cfg := rfl
@[simp] theorem updI3c_pkg (h : Half) (f : I3c → I3c) : (updI3c h f s).pkg = s.pkg := rfl
@[simp] theorem updI3c_rings (h : Half) (f : I3c → I3c) : (updI3c h f s).rings = s.rings := rfl
@[simp] theorem updI3c_prog (h : Half) (f : I3c → I3c) : (updI3c h f s).prog = s.prog := rfl
@[simp] theorem updI3c_waitFence (h : Half) (f : I3c → I3c) : (updI3c h f s).waitFence = s.waitFence := rfl
@[simp] theorem updI3c_i3c (h : Half) (f : I3c → I3c) : (updI3c h f s).i3c = s.i3c.set h (f (s.i3c.get h)) := rfl
@[simp] theorem updI3c_log (h : Half) (f : I3c → I3c) : (updI3c h f s).log = s.log := rfl
@[simp] theorem updI3c_faultN (h : Half) (f : I3c → I3c) : (updI3c h f s).faultN = s.faultN := rfl
@[simp] theorem updI3c_st64 (h : Half) (f : I3c → I3c) : (updI3c h f s).st64 = s.st64 := rfl
@[simp] theorem updI3c_mem (h : Half) (f : I3c → I3c) : (updI3c h f s).mem = s.mem := rfl
@[simp] theorem updI3c_home (h : Half) (f : I3c → I3c) : (updI3c h f s).home = s.home := rfl
@[simp] theorem updI3c_coh (h : Half) (f : I3c → I3c) : (updI3c h f s).coh = s.coh := rfl
@[simp] theorem updI3c_mirq (h : Half) (f : I3c → I3c) : (updI3c h f s).mirq = s.mirq := rfl
@[simp] theorem updI3c_fab (h : Half) (f : I3c → I3c) : (updI3c h f s).fab = s.fab := rfl
@[simp] theorem updI3c_latches (h : Half) (f : I3c → I3c) : (updI3c h f s).latches = s.latches := rfl
@[simp] theorem updI3c_ctxs (h : Half) (f : I3c → I3c) : (updI3c h f s).ctxs = s.ctxs := rfl
@[simp] theorem updI3c_cks (h : Half) (f : I3c → I3c) : (updI3c h f s).cks = s.cks := rfl
@[simp] theorem updI3c_lcns (h : Half) (f : I3c → I3c) : (updI3c h f s).lcns = s.lcns := rfl
@[simp] theorem updI3c_tlbq (h : Half) (f : I3c → I3c) : (updI3c h f s).tlbq = s.tlbq := rfl
@[simp] theorem updI3c_dies (h : Half) (f : I3c → I3c) : (updI3c h f s).dies = s.dies := rfl
@[simp] theorem updI3c_moves (h : Half) (f : I3c → I3c) : (updI3c h f s).moves = s.moves := rfl
@[simp] theorem updI3c_images (h : Half) (f : I3c → I3c) : (updI3c h f s).images = s.images := rfl
@[simp] theorem updI3c_parks (h : Half) (f : I3c → I3c) : (updI3c h f s).parks = s.parks := rfl
@[simp] theorem updI3c_ctrs (h : Half) (f : I3c → I3c) : (updI3c h f s).ctrs = s.ctrs := rfl
@[simp] theorem updI3c_att (h : Half) (f : I3c → I3c) : (updI3c h f s).att = s.att := rfl
@[simp] theorem updI3c_css (h : Half) (f : I3c → I3c) : (updI3c h f s).css = s.css := rfl
@[simp] theorem updI3c_units (h : Half) (f : I3c → I3c) : (updI3c h f s).units = s.units := rfl
@[simp] theorem updI3c_nonce (h : Half) (f : I3c → I3c) : (updI3c h f s).nonce = s.nonce := rfl
@[simp] theorem updI3c_pending (h : Half) (f : I3c → I3c) : (updI3c h f s).pending = s.pending := rfl

/-! ### updCoh -/

@[simp] theorem updCoh_cfg (f : Coh → Coh) : (updCoh f s).cfg = s.cfg := rfl
@[simp] theorem updCoh_pkg (f : Coh → Coh) : (updCoh f s).pkg = s.pkg := rfl
@[simp] theorem updCoh_rings (f : Coh → Coh) : (updCoh f s).rings = s.rings := rfl
@[simp] theorem updCoh_prog (f : Coh → Coh) : (updCoh f s).prog = s.prog := rfl
@[simp] theorem updCoh_waitFence (f : Coh → Coh) : (updCoh f s).waitFence = s.waitFence := rfl
@[simp] theorem updCoh_i3c (f : Coh → Coh) : (updCoh f s).i3c = s.i3c := rfl
@[simp] theorem updCoh_log (f : Coh → Coh) : (updCoh f s).log = s.log := rfl
@[simp] theorem updCoh_faultN (f : Coh → Coh) : (updCoh f s).faultN = s.faultN := rfl
@[simp] theorem updCoh_st64 (f : Coh → Coh) : (updCoh f s).st64 = s.st64 := rfl
@[simp] theorem updCoh_mem (f : Coh → Coh) : (updCoh f s).mem = s.mem := rfl
@[simp] theorem updCoh_home (f : Coh → Coh) : (updCoh f s).home = s.home := rfl
@[simp] theorem updCoh_coh (f : Coh → Coh) : (updCoh f s).coh = f s.coh := rfl
@[simp] theorem updCoh_mirq (f : Coh → Coh) : (updCoh f s).mirq = s.mirq := rfl
@[simp] theorem updCoh_fab (f : Coh → Coh) : (updCoh f s).fab = s.fab := rfl
@[simp] theorem updCoh_latches (f : Coh → Coh) : (updCoh f s).latches = s.latches := rfl
@[simp] theorem updCoh_ctxs (f : Coh → Coh) : (updCoh f s).ctxs = s.ctxs := rfl
@[simp] theorem updCoh_cks (f : Coh → Coh) : (updCoh f s).cks = s.cks := rfl
@[simp] theorem updCoh_lcns (f : Coh → Coh) : (updCoh f s).lcns = s.lcns := rfl
@[simp] theorem updCoh_tlbq (f : Coh → Coh) : (updCoh f s).tlbq = s.tlbq := rfl
@[simp] theorem updCoh_dies (f : Coh → Coh) : (updCoh f s).dies = s.dies := rfl
@[simp] theorem updCoh_moves (f : Coh → Coh) : (updCoh f s).moves = s.moves := rfl
@[simp] theorem updCoh_images (f : Coh → Coh) : (updCoh f s).images = s.images := rfl
@[simp] theorem updCoh_parks (f : Coh → Coh) : (updCoh f s).parks = s.parks := rfl
@[simp] theorem updCoh_ctrs (f : Coh → Coh) : (updCoh f s).ctrs = s.ctrs := rfl
@[simp] theorem updCoh_att (f : Coh → Coh) : (updCoh f s).att = s.att := rfl
@[simp] theorem updCoh_css (f : Coh → Coh) : (updCoh f s).css = s.css := rfl
@[simp] theorem updCoh_units (f : Coh → Coh) : (updCoh f s).units = s.units := rfl
@[simp] theorem updCoh_nonce (f : Coh → Coh) : (updCoh f s).nonce = s.nonce := rfl
@[simp] theorem updCoh_pending (f : Coh → Coh) : (updCoh f s).pending = s.pending := rfl

/-! ### updFab -/

@[simp] theorem updFab_cfg (f : Fabric → Fabric) : (updFab f s).cfg = s.cfg := rfl
@[simp] theorem updFab_pkg (f : Fabric → Fabric) : (updFab f s).pkg = s.pkg := rfl
@[simp] theorem updFab_rings (f : Fabric → Fabric) : (updFab f s).rings = s.rings := rfl
@[simp] theorem updFab_prog (f : Fabric → Fabric) : (updFab f s).prog = s.prog := rfl
@[simp] theorem updFab_waitFence (f : Fabric → Fabric) : (updFab f s).waitFence = s.waitFence := rfl
@[simp] theorem updFab_i3c (f : Fabric → Fabric) : (updFab f s).i3c = s.i3c := rfl
@[simp] theorem updFab_log (f : Fabric → Fabric) : (updFab f s).log = s.log := rfl
@[simp] theorem updFab_faultN (f : Fabric → Fabric) : (updFab f s).faultN = s.faultN := rfl
@[simp] theorem updFab_st64 (f : Fabric → Fabric) : (updFab f s).st64 = s.st64 := rfl
@[simp] theorem updFab_mem (f : Fabric → Fabric) : (updFab f s).mem = s.mem := rfl
@[simp] theorem updFab_home (f : Fabric → Fabric) : (updFab f s).home = s.home := rfl
@[simp] theorem updFab_coh (f : Fabric → Fabric) : (updFab f s).coh = s.coh := rfl
@[simp] theorem updFab_mirq (f : Fabric → Fabric) : (updFab f s).mirq = s.mirq := rfl
@[simp] theorem updFab_fab (f : Fabric → Fabric) : (updFab f s).fab = f s.fab := rfl
@[simp] theorem updFab_latches (f : Fabric → Fabric) : (updFab f s).latches = s.latches := rfl
@[simp] theorem updFab_ctxs (f : Fabric → Fabric) : (updFab f s).ctxs = s.ctxs := rfl
@[simp] theorem updFab_cks (f : Fabric → Fabric) : (updFab f s).cks = s.cks := rfl
@[simp] theorem updFab_lcns (f : Fabric → Fabric) : (updFab f s).lcns = s.lcns := rfl
@[simp] theorem updFab_tlbq (f : Fabric → Fabric) : (updFab f s).tlbq = s.tlbq := rfl
@[simp] theorem updFab_dies (f : Fabric → Fabric) : (updFab f s).dies = s.dies := rfl
@[simp] theorem updFab_moves (f : Fabric → Fabric) : (updFab f s).moves = s.moves := rfl
@[simp] theorem updFab_images (f : Fabric → Fabric) : (updFab f s).images = s.images := rfl
@[simp] theorem updFab_parks (f : Fabric → Fabric) : (updFab f s).parks = s.parks := rfl
@[simp] theorem updFab_ctrs (f : Fabric → Fabric) : (updFab f s).ctrs = s.ctrs := rfl
@[simp] theorem updFab_att (f : Fabric → Fabric) : (updFab f s).att = s.att := rfl
@[simp] theorem updFab_css (f : Fabric → Fabric) : (updFab f s).css = s.css := rfl
@[simp] theorem updFab_units (f : Fabric → Fabric) : (updFab f s).units = s.units := rfl
@[simp] theorem updFab_nonce (f : Fabric → Fabric) : (updFab f s).nonce = s.nonce := rfl
@[simp] theorem updFab_pending (f : Fabric → Fabric) : (updFab f s).pending = s.pending := rfl

/-! ### updLcn -/

@[simp] theorem updLcn_cfg (l : Nat) (f : Lcn → Lcn) : (updLcn l f s).cfg = s.cfg := rfl
@[simp] theorem updLcn_pkg (l : Nat) (f : Lcn → Lcn) : (updLcn l f s).pkg = s.pkg := rfl
@[simp] theorem updLcn_rings (l : Nat) (f : Lcn → Lcn) : (updLcn l f s).rings = s.rings := rfl
@[simp] theorem updLcn_prog (l : Nat) (f : Lcn → Lcn) : (updLcn l f s).prog = s.prog := rfl
@[simp] theorem updLcn_waitFence (l : Nat) (f : Lcn → Lcn) : (updLcn l f s).waitFence = s.waitFence := rfl
@[simp] theorem updLcn_i3c (l : Nat) (f : Lcn → Lcn) : (updLcn l f s).i3c = s.i3c := rfl
@[simp] theorem updLcn_log (l : Nat) (f : Lcn → Lcn) : (updLcn l f s).log = s.log := rfl
@[simp] theorem updLcn_faultN (l : Nat) (f : Lcn → Lcn) : (updLcn l f s).faultN = s.faultN := rfl
@[simp] theorem updLcn_st64 (l : Nat) (f : Lcn → Lcn) : (updLcn l f s).st64 = s.st64 := rfl
@[simp] theorem updLcn_mem (l : Nat) (f : Lcn → Lcn) : (updLcn l f s).mem = s.mem := rfl
@[simp] theorem updLcn_home (l : Nat) (f : Lcn → Lcn) : (updLcn l f s).home = s.home := rfl
@[simp] theorem updLcn_coh (l : Nat) (f : Lcn → Lcn) : (updLcn l f s).coh = s.coh := rfl
@[simp] theorem updLcn_mirq (l : Nat) (f : Lcn → Lcn) : (updLcn l f s).mirq = s.mirq := rfl
@[simp] theorem updLcn_fab (l : Nat) (f : Lcn → Lcn) : (updLcn l f s).fab = s.fab := rfl
@[simp] theorem updLcn_latches (l : Nat) (f : Lcn → Lcn) : (updLcn l f s).latches = s.latches := rfl
@[simp] theorem updLcn_ctxs (l : Nat) (f : Lcn → Lcn) : (updLcn l f s).ctxs = s.ctxs := rfl
@[simp] theorem updLcn_cks (l : Nat) (f : Lcn → Lcn) : (updLcn l f s).cks = s.cks := rfl
@[simp] theorem updLcn_lcns (l : Nat) (f : Lcn → Lcn) : (updLcn l f s).lcns = tmod Lcn.reset s.lcns l f := rfl
@[simp] theorem updLcn_tlbq (l : Nat) (f : Lcn → Lcn) : (updLcn l f s).tlbq = s.tlbq := rfl
@[simp] theorem updLcn_dies (l : Nat) (f : Lcn → Lcn) : (updLcn l f s).dies = s.dies := rfl
@[simp] theorem updLcn_moves (l : Nat) (f : Lcn → Lcn) : (updLcn l f s).moves = s.moves := rfl
@[simp] theorem updLcn_images (l : Nat) (f : Lcn → Lcn) : (updLcn l f s).images = s.images := rfl
@[simp] theorem updLcn_parks (l : Nat) (f : Lcn → Lcn) : (updLcn l f s).parks = s.parks := rfl
@[simp] theorem updLcn_ctrs (l : Nat) (f : Lcn → Lcn) : (updLcn l f s).ctrs = s.ctrs := rfl
@[simp] theorem updLcn_att (l : Nat) (f : Lcn → Lcn) : (updLcn l f s).att = s.att := rfl
@[simp] theorem updLcn_css (l : Nat) (f : Lcn → Lcn) : (updLcn l f s).css = s.css := rfl
@[simp] theorem updLcn_units (l : Nat) (f : Lcn → Lcn) : (updLcn l f s).units = s.units := rfl
@[simp] theorem updLcn_nonce (l : Nat) (f : Lcn → Lcn) : (updLcn l f s).nonce = s.nonce := rfl
@[simp] theorem updLcn_pending (l : Nat) (f : Lcn → Lcn) : (updLcn l f s).pending = s.pending := rfl

/-! ### updDie -/

@[simp] theorem updDie_cfg (d : Nat) (f : Die → Die) : (updDie d f s).cfg = s.cfg := rfl
@[simp] theorem updDie_pkg (d : Nat) (f : Die → Die) : (updDie d f s).pkg = s.pkg := rfl
@[simp] theorem updDie_rings (d : Nat) (f : Die → Die) : (updDie d f s).rings = s.rings := rfl
@[simp] theorem updDie_prog (d : Nat) (f : Die → Die) : (updDie d f s).prog = s.prog := rfl
@[simp] theorem updDie_waitFence (d : Nat) (f : Die → Die) : (updDie d f s).waitFence = s.waitFence := rfl
@[simp] theorem updDie_i3c (d : Nat) (f : Die → Die) : (updDie d f s).i3c = s.i3c := rfl
@[simp] theorem updDie_log (d : Nat) (f : Die → Die) : (updDie d f s).log = s.log := rfl
@[simp] theorem updDie_faultN (d : Nat) (f : Die → Die) : (updDie d f s).faultN = s.faultN := rfl
@[simp] theorem updDie_st64 (d : Nat) (f : Die → Die) : (updDie d f s).st64 = s.st64 := rfl
@[simp] theorem updDie_mem (d : Nat) (f : Die → Die) : (updDie d f s).mem = s.mem := rfl
@[simp] theorem updDie_home (d : Nat) (f : Die → Die) : (updDie d f s).home = s.home := rfl
@[simp] theorem updDie_coh (d : Nat) (f : Die → Die) : (updDie d f s).coh = s.coh := rfl
@[simp] theorem updDie_mirq (d : Nat) (f : Die → Die) : (updDie d f s).mirq = s.mirq := rfl
@[simp] theorem updDie_fab (d : Nat) (f : Die → Die) : (updDie d f s).fab = s.fab := rfl
@[simp] theorem updDie_latches (d : Nat) (f : Die → Die) : (updDie d f s).latches = s.latches := rfl
@[simp] theorem updDie_ctxs (d : Nat) (f : Die → Die) : (updDie d f s).ctxs = s.ctxs := rfl
@[simp] theorem updDie_cks (d : Nat) (f : Die → Die) : (updDie d f s).cks = s.cks := rfl
@[simp] theorem updDie_lcns (d : Nat) (f : Die → Die) : (updDie d f s).lcns = s.lcns := rfl
@[simp] theorem updDie_tlbq (d : Nat) (f : Die → Die) : (updDie d f s).tlbq = s.tlbq := rfl
@[simp] theorem updDie_dies (d : Nat) (f : Die → Die) : (updDie d f s).dies = tmod Die.reset s.dies d f := rfl
@[simp] theorem updDie_moves (d : Nat) (f : Die → Die) : (updDie d f s).moves = s.moves := rfl
@[simp] theorem updDie_images (d : Nat) (f : Die → Die) : (updDie d f s).images = s.images := rfl
@[simp] theorem updDie_parks (d : Nat) (f : Die → Die) : (updDie d f s).parks = s.parks := rfl
@[simp] theorem updDie_ctrs (d : Nat) (f : Die → Die) : (updDie d f s).ctrs = s.ctrs := rfl
@[simp] theorem updDie_att (d : Nat) (f : Die → Die) : (updDie d f s).att = s.att := rfl
@[simp] theorem updDie_css (d : Nat) (f : Die → Die) : (updDie d f s).css = s.css := rfl
@[simp] theorem updDie_units (d : Nat) (f : Die → Die) : (updDie d f s).units = s.units := rfl
@[simp] theorem updDie_nonce (d : Nat) (f : Die → Die) : (updDie d f s).nonce = s.nonce := rfl
@[simp] theorem updDie_pending (d : Nat) (f : Die → Die) : (updDie d f s).pending = s.pending := rfl

/-! ### setCtx -/

@[simp] theorem setCtx_cfg (l c : Nat) (x : Ctx) : (setCtx l c x s).cfg = s.cfg := rfl
@[simp] theorem setCtx_pkg (l c : Nat) (x : Ctx) : (setCtx l c x s).pkg = s.pkg := rfl
@[simp] theorem setCtx_rings (l c : Nat) (x : Ctx) : (setCtx l c x s).rings = s.rings := rfl
@[simp] theorem setCtx_prog (l c : Nat) (x : Ctx) : (setCtx l c x s).prog = s.prog := rfl
@[simp] theorem setCtx_waitFence (l c : Nat) (x : Ctx) : (setCtx l c x s).waitFence = s.waitFence := rfl
@[simp] theorem setCtx_i3c (l c : Nat) (x : Ctx) : (setCtx l c x s).i3c = s.i3c := rfl
@[simp] theorem setCtx_log (l c : Nat) (x : Ctx) : (setCtx l c x s).log = s.log := rfl
@[simp] theorem setCtx_faultN (l c : Nat) (x : Ctx) : (setCtx l c x s).faultN = s.faultN := rfl
@[simp] theorem setCtx_st64 (l c : Nat) (x : Ctx) : (setCtx l c x s).st64 = s.st64 := rfl
@[simp] theorem setCtx_mem (l c : Nat) (x : Ctx) : (setCtx l c x s).mem = s.mem := rfl
@[simp] theorem setCtx_home (l c : Nat) (x : Ctx) : (setCtx l c x s).home = s.home := rfl
@[simp] theorem setCtx_coh (l c : Nat) (x : Ctx) : (setCtx l c x s).coh = s.coh := rfl
@[simp] theorem setCtx_mirq (l c : Nat) (x : Ctx) : (setCtx l c x s).mirq = s.mirq := rfl
@[simp] theorem setCtx_fab (l c : Nat) (x : Ctx) : (setCtx l c x s).fab = s.fab := rfl
@[simp] theorem setCtx_latches (l c : Nat) (x : Ctx) : (setCtx l c x s).latches = s.latches := rfl
@[simp] theorem setCtx_ctxs (l c : Nat) (x : Ctx) : (setCtx l c x s).ctxs = tset Ctx.reset s.ctxs (l * 2 + c) x := rfl
@[simp] theorem setCtx_cks (l c : Nat) (x : Ctx) : (setCtx l c x s).cks = s.cks := rfl
@[simp] theorem setCtx_lcns (l c : Nat) (x : Ctx) : (setCtx l c x s).lcns = s.lcns := rfl
@[simp] theorem setCtx_tlbq (l c : Nat) (x : Ctx) : (setCtx l c x s).tlbq = s.tlbq := rfl
@[simp] theorem setCtx_dies (l c : Nat) (x : Ctx) : (setCtx l c x s).dies = s.dies := rfl
@[simp] theorem setCtx_moves (l c : Nat) (x : Ctx) : (setCtx l c x s).moves = s.moves := rfl
@[simp] theorem setCtx_images (l c : Nat) (x : Ctx) : (setCtx l c x s).images = s.images := rfl
@[simp] theorem setCtx_parks (l c : Nat) (x : Ctx) : (setCtx l c x s).parks = s.parks := rfl
@[simp] theorem setCtx_ctrs (l c : Nat) (x : Ctx) : (setCtx l c x s).ctrs = s.ctrs := rfl
@[simp] theorem setCtx_att (l c : Nat) (x : Ctx) : (setCtx l c x s).att = s.att := rfl
@[simp] theorem setCtx_css (l c : Nat) (x : Ctx) : (setCtx l c x s).css = s.css := rfl
@[simp] theorem setCtx_units (l c : Nat) (x : Ctx) : (setCtx l c x s).units = s.units := rfl
@[simp] theorem setCtx_nonce (l c : Nat) (x : Ctx) : (setCtx l c x s).nonce = s.nonce := rfl
@[simp] theorem setCtx_pending (l c : Nat) (x : Ctx) : (setCtx l c x s).pending = s.pending := rfl

/-! ### updCtx -/

@[simp] theorem updCtx_cfg (l c : Nat) (f : Ctx → Ctx) : (updCtx l c f s).cfg = s.cfg := rfl
@[simp] theorem updCtx_pkg (l c : Nat) (f : Ctx → Ctx) : (updCtx l c f s).pkg = s.pkg := rfl
@[simp] theorem updCtx_rings (l c : Nat) (f : Ctx → Ctx) : (updCtx l c f s).rings = s.rings := rfl
@[simp] theorem updCtx_prog (l c : Nat) (f : Ctx → Ctx) : (updCtx l c f s).prog = s.prog := rfl
@[simp] theorem updCtx_waitFence (l c : Nat) (f : Ctx → Ctx) : (updCtx l c f s).waitFence = s.waitFence := rfl
@[simp] theorem updCtx_i3c (l c : Nat) (f : Ctx → Ctx) : (updCtx l c f s).i3c = s.i3c := rfl
@[simp] theorem updCtx_log (l c : Nat) (f : Ctx → Ctx) : (updCtx l c f s).log = s.log := rfl
@[simp] theorem updCtx_faultN (l c : Nat) (f : Ctx → Ctx) : (updCtx l c f s).faultN = s.faultN := rfl
@[simp] theorem updCtx_st64 (l c : Nat) (f : Ctx → Ctx) : (updCtx l c f s).st64 = s.st64 := rfl
@[simp] theorem updCtx_mem (l c : Nat) (f : Ctx → Ctx) : (updCtx l c f s).mem = s.mem := rfl
@[simp] theorem updCtx_home (l c : Nat) (f : Ctx → Ctx) : (updCtx l c f s).home = s.home := rfl
@[simp] theorem updCtx_coh (l c : Nat) (f : Ctx → Ctx) : (updCtx l c f s).coh = s.coh := rfl
@[simp] theorem updCtx_mirq (l c : Nat) (f : Ctx → Ctx) : (updCtx l c f s).mirq = s.mirq := rfl
@[simp] theorem updCtx_fab (l c : Nat) (f : Ctx → Ctx) : (updCtx l c f s).fab = s.fab := rfl
@[simp] theorem updCtx_latches (l c : Nat) (f : Ctx → Ctx) : (updCtx l c f s).latches = s.latches := rfl
@[simp] theorem updCtx_ctxs (l c : Nat) (f : Ctx → Ctx) : (updCtx l c f s).ctxs = tset Ctx.reset s.ctxs (l * 2 + c) (f (ctxOf s l c)) := rfl
@[simp] theorem updCtx_cks (l c : Nat) (f : Ctx → Ctx) : (updCtx l c f s).cks = s.cks := rfl
@[simp] theorem updCtx_lcns (l c : Nat) (f : Ctx → Ctx) : (updCtx l c f s).lcns = s.lcns := rfl
@[simp] theorem updCtx_tlbq (l c : Nat) (f : Ctx → Ctx) : (updCtx l c f s).tlbq = s.tlbq := rfl
@[simp] theorem updCtx_dies (l c : Nat) (f : Ctx → Ctx) : (updCtx l c f s).dies = s.dies := rfl
@[simp] theorem updCtx_moves (l c : Nat) (f : Ctx → Ctx) : (updCtx l c f s).moves = s.moves := rfl
@[simp] theorem updCtx_images (l c : Nat) (f : Ctx → Ctx) : (updCtx l c f s).images = s.images := rfl
@[simp] theorem updCtx_parks (l c : Nat) (f : Ctx → Ctx) : (updCtx l c f s).parks = s.parks := rfl
@[simp] theorem updCtx_ctrs (l c : Nat) (f : Ctx → Ctx) : (updCtx l c f s).ctrs = s.ctrs := rfl
@[simp] theorem updCtx_att (l c : Nat) (f : Ctx → Ctx) : (updCtx l c f s).att = s.att := rfl
@[simp] theorem updCtx_css (l c : Nat) (f : Ctx → Ctx) : (updCtx l c f s).css = s.css := rfl
@[simp] theorem updCtx_units (l c : Nat) (f : Ctx → Ctx) : (updCtx l c f s).units = s.units := rfl
@[simp] theorem updCtx_nonce (l c : Nat) (f : Ctx → Ctx) : (updCtx l c f s).nonce = s.nonce := rfl
@[simp] theorem updCtx_pending (l c : Nat) (f : Ctx → Ctx) : (updCtx l c f s).pending = s.pending := rfl

/-! ### modCtx -/

@[simp] theorem modCtx_cfg (l c : Nat) (f : Ctx → Ctx) : (modCtx l c f s).cfg = s.cfg := rfl
@[simp] theorem modCtx_pkg (l c : Nat) (f : Ctx → Ctx) : (modCtx l c f s).pkg = s.pkg := rfl
@[simp] theorem modCtx_rings (l c : Nat) (f : Ctx → Ctx) : (modCtx l c f s).rings = s.rings := rfl
@[simp] theorem modCtx_prog (l c : Nat) (f : Ctx → Ctx) : (modCtx l c f s).prog = s.prog := rfl
@[simp] theorem modCtx_waitFence (l c : Nat) (f : Ctx → Ctx) : (modCtx l c f s).waitFence = s.waitFence := rfl
@[simp] theorem modCtx_i3c (l c : Nat) (f : Ctx → Ctx) : (modCtx l c f s).i3c = s.i3c := rfl
@[simp] theorem modCtx_log (l c : Nat) (f : Ctx → Ctx) : (modCtx l c f s).log = s.log := rfl
@[simp] theorem modCtx_faultN (l c : Nat) (f : Ctx → Ctx) : (modCtx l c f s).faultN = s.faultN := rfl
@[simp] theorem modCtx_st64 (l c : Nat) (f : Ctx → Ctx) : (modCtx l c f s).st64 = s.st64 := rfl
@[simp] theorem modCtx_mem (l c : Nat) (f : Ctx → Ctx) : (modCtx l c f s).mem = s.mem := rfl
@[simp] theorem modCtx_home (l c : Nat) (f : Ctx → Ctx) : (modCtx l c f s).home = s.home := rfl
@[simp] theorem modCtx_coh (l c : Nat) (f : Ctx → Ctx) : (modCtx l c f s).coh = s.coh := rfl
@[simp] theorem modCtx_mirq (l c : Nat) (f : Ctx → Ctx) : (modCtx l c f s).mirq = s.mirq := rfl
@[simp] theorem modCtx_fab (l c : Nat) (f : Ctx → Ctx) : (modCtx l c f s).fab = s.fab := rfl
@[simp] theorem modCtx_latches (l c : Nat) (f : Ctx → Ctx) : (modCtx l c f s).latches = s.latches := rfl
@[simp] theorem modCtx_ctxs (l c : Nat) (f : Ctx → Ctx) : (modCtx l c f s).ctxs = tmod Ctx.reset s.ctxs (l * 2 + c) f := rfl
@[simp] theorem modCtx_cks (l c : Nat) (f : Ctx → Ctx) : (modCtx l c f s).cks = s.cks := rfl
@[simp] theorem modCtx_lcns (l c : Nat) (f : Ctx → Ctx) : (modCtx l c f s).lcns = s.lcns := rfl
@[simp] theorem modCtx_tlbq (l c : Nat) (f : Ctx → Ctx) : (modCtx l c f s).tlbq = s.tlbq := rfl
@[simp] theorem modCtx_dies (l c : Nat) (f : Ctx → Ctx) : (modCtx l c f s).dies = s.dies := rfl
@[simp] theorem modCtx_moves (l c : Nat) (f : Ctx → Ctx) : (modCtx l c f s).moves = s.moves := rfl
@[simp] theorem modCtx_images (l c : Nat) (f : Ctx → Ctx) : (modCtx l c f s).images = s.images := rfl
@[simp] theorem modCtx_parks (l c : Nat) (f : Ctx → Ctx) : (modCtx l c f s).parks = s.parks := rfl
@[simp] theorem modCtx_ctrs (l c : Nat) (f : Ctx → Ctx) : (modCtx l c f s).ctrs = s.ctrs := rfl
@[simp] theorem modCtx_att (l c : Nat) (f : Ctx → Ctx) : (modCtx l c f s).att = s.att := rfl
@[simp] theorem modCtx_css (l c : Nat) (f : Ctx → Ctx) : (modCtx l c f s).css = s.css := rfl
@[simp] theorem modCtx_units (l c : Nat) (f : Ctx → Ctx) : (modCtx l c f s).units = s.units := rfl
@[simp] theorem modCtx_nonce (l c : Nat) (f : Ctx → Ctx) : (modCtx l c f s).nonce = s.nonce := rfl
@[simp] theorem modCtx_pending (l c : Nat) (f : Ctx → Ctx) : (modCtx l c f s).pending = s.pending := rfl

/-! ### updCss -/

@[simp] theorem updCss_cfg (h : Half) (f : Css → Css) : (updCss h f s).cfg = s.cfg := rfl
@[simp] theorem updCss_pkg (h : Half) (f : Css → Css) : (updCss h f s).pkg = s.pkg := rfl
@[simp] theorem updCss_rings (h : Half) (f : Css → Css) : (updCss h f s).rings = s.rings := rfl
@[simp] theorem updCss_prog (h : Half) (f : Css → Css) : (updCss h f s).prog = s.prog := rfl
@[simp] theorem updCss_waitFence (h : Half) (f : Css → Css) : (updCss h f s).waitFence = s.waitFence := rfl
@[simp] theorem updCss_i3c (h : Half) (f : Css → Css) : (updCss h f s).i3c = s.i3c := rfl
@[simp] theorem updCss_log (h : Half) (f : Css → Css) : (updCss h f s).log = s.log := rfl
@[simp] theorem updCss_faultN (h : Half) (f : Css → Css) : (updCss h f s).faultN = s.faultN := rfl
@[simp] theorem updCss_st64 (h : Half) (f : Css → Css) : (updCss h f s).st64 = s.st64 := rfl
@[simp] theorem updCss_mem (h : Half) (f : Css → Css) : (updCss h f s).mem = s.mem := rfl
@[simp] theorem updCss_home (h : Half) (f : Css → Css) : (updCss h f s).home = s.home := rfl
@[simp] theorem updCss_coh (h : Half) (f : Css → Css) : (updCss h f s).coh = s.coh := rfl
@[simp] theorem updCss_mirq (h : Half) (f : Css → Css) : (updCss h f s).mirq = s.mirq := rfl
@[simp] theorem updCss_fab (h : Half) (f : Css → Css) : (updCss h f s).fab = s.fab := rfl
@[simp] theorem updCss_latches (h : Half) (f : Css → Css) : (updCss h f s).latches = s.latches := rfl
@[simp] theorem updCss_ctxs (h : Half) (f : Css → Css) : (updCss h f s).ctxs = s.ctxs := rfl
@[simp] theorem updCss_cks (h : Half) (f : Css → Css) : (updCss h f s).cks = s.cks := rfl
@[simp] theorem updCss_lcns (h : Half) (f : Css → Css) : (updCss h f s).lcns = s.lcns := rfl
@[simp] theorem updCss_tlbq (h : Half) (f : Css → Css) : (updCss h f s).tlbq = s.tlbq := rfl
@[simp] theorem updCss_dies (h : Half) (f : Css → Css) : (updCss h f s).dies = s.dies := rfl
@[simp] theorem updCss_moves (h : Half) (f : Css → Css) : (updCss h f s).moves = s.moves := rfl
@[simp] theorem updCss_images (h : Half) (f : Css → Css) : (updCss h f s).images = s.images := rfl
@[simp] theorem updCss_parks (h : Half) (f : Css → Css) : (updCss h f s).parks = s.parks := rfl
@[simp] theorem updCss_ctrs (h : Half) (f : Css → Css) : (updCss h f s).ctrs = s.ctrs := rfl
@[simp] theorem updCss_att (h : Half) (f : Css → Css) : (updCss h f s).att = s.att := rfl
@[simp] theorem updCss_css (h : Half) (f : Css → Css) : (updCss h f s).css = s.css.set h (f (s.css.get h)) := rfl
@[simp] theorem updCss_units (h : Half) (f : Css → Css) : (updCss h f s).units = s.units := rfl
@[simp] theorem updCss_nonce (h : Half) (f : Css → Css) : (updCss h f s).nonce = s.nonce := rfl
@[simp] theorem updCss_pending (h : Half) (f : Css → Css) : (updCss h f s).pending = s.pending := rfl

/-! ### updUnits -/

@[simp] theorem updUnits_cfg (f : Units → Units) : (updUnits f s).cfg = s.cfg := rfl
@[simp] theorem updUnits_pkg (f : Units → Units) : (updUnits f s).pkg = s.pkg := rfl
@[simp] theorem updUnits_rings (f : Units → Units) : (updUnits f s).rings = s.rings := rfl
@[simp] theorem updUnits_prog (f : Units → Units) : (updUnits f s).prog = s.prog := rfl
@[simp] theorem updUnits_waitFence (f : Units → Units) : (updUnits f s).waitFence = s.waitFence := rfl
@[simp] theorem updUnits_i3c (f : Units → Units) : (updUnits f s).i3c = s.i3c := rfl
@[simp] theorem updUnits_log (f : Units → Units) : (updUnits f s).log = s.log := rfl
@[simp] theorem updUnits_faultN (f : Units → Units) : (updUnits f s).faultN = s.faultN := rfl
@[simp] theorem updUnits_st64 (f : Units → Units) : (updUnits f s).st64 = s.st64 := rfl
@[simp] theorem updUnits_mem (f : Units → Units) : (updUnits f s).mem = s.mem := rfl
@[simp] theorem updUnits_home (f : Units → Units) : (updUnits f s).home = s.home := rfl
@[simp] theorem updUnits_coh (f : Units → Units) : (updUnits f s).coh = s.coh := rfl
@[simp] theorem updUnits_mirq (f : Units → Units) : (updUnits f s).mirq = s.mirq := rfl
@[simp] theorem updUnits_fab (f : Units → Units) : (updUnits f s).fab = s.fab := rfl
@[simp] theorem updUnits_latches (f : Units → Units) : (updUnits f s).latches = s.latches := rfl
@[simp] theorem updUnits_ctxs (f : Units → Units) : (updUnits f s).ctxs = s.ctxs := rfl
@[simp] theorem updUnits_cks (f : Units → Units) : (updUnits f s).cks = s.cks := rfl
@[simp] theorem updUnits_lcns (f : Units → Units) : (updUnits f s).lcns = s.lcns := rfl
@[simp] theorem updUnits_tlbq (f : Units → Units) : (updUnits f s).tlbq = s.tlbq := rfl
@[simp] theorem updUnits_dies (f : Units → Units) : (updUnits f s).dies = s.dies := rfl
@[simp] theorem updUnits_moves (f : Units → Units) : (updUnits f s).moves = s.moves := rfl
@[simp] theorem updUnits_images (f : Units → Units) : (updUnits f s).images = s.images := rfl
@[simp] theorem updUnits_parks (f : Units → Units) : (updUnits f s).parks = s.parks := rfl
@[simp] theorem updUnits_ctrs (f : Units → Units) : (updUnits f s).ctrs = s.ctrs := rfl
@[simp] theorem updUnits_att (f : Units → Units) : (updUnits f s).att = s.att := rfl
@[simp] theorem updUnits_css (f : Units → Units) : (updUnits f s).css = s.css := rfl
@[simp] theorem updUnits_units (f : Units → Units) : (updUnits f s).units = f s.units := rfl
@[simp] theorem updUnits_nonce (f : Units → Units) : (updUnits f s).nonce = s.nonce := rfl
@[simp] theorem updUnits_pending (f : Units → Units) : (updUnits f s).pending = s.pending := rfl

/-! ### updFn -/

@[simp] theorem updFn_cfg (k : Nat) (f : Fn → Fn) : (updFn k f s).cfg = s.cfg := rfl
@[simp] theorem updFn_pkg (k : Nat) (f : Fn → Fn) : (updFn k f s).pkg = s.pkg := rfl
@[simp] theorem updFn_rings (k : Nat) (f : Fn → Fn) : (updFn k f s).rings = s.rings := rfl
@[simp] theorem updFn_prog (k : Nat) (f : Fn → Fn) : (updFn k f s).prog = s.prog := rfl
@[simp] theorem updFn_waitFence (k : Nat) (f : Fn → Fn) : (updFn k f s).waitFence = s.waitFence := rfl
@[simp] theorem updFn_i3c (k : Nat) (f : Fn → Fn) : (updFn k f s).i3c = s.i3c := rfl
@[simp] theorem updFn_log (k : Nat) (f : Fn → Fn) : (updFn k f s).log = s.log := rfl
@[simp] theorem updFn_faultN (k : Nat) (f : Fn → Fn) : (updFn k f s).faultN = s.faultN := rfl
@[simp] theorem updFn_st64 (k : Nat) (f : Fn → Fn) : (updFn k f s).st64 = s.st64 := rfl
@[simp] theorem updFn_mem (k : Nat) (f : Fn → Fn) : (updFn k f s).mem = s.mem := rfl
@[simp] theorem updFn_home (k : Nat) (f : Fn → Fn) : (updFn k f s).home = s.home := rfl
@[simp] theorem updFn_coh (k : Nat) (f : Fn → Fn) : (updFn k f s).coh = s.coh := rfl
@[simp] theorem updFn_mirq (k : Nat) (f : Fn → Fn) : (updFn k f s).mirq = s.mirq := rfl
@[simp] theorem updFn_fab (k : Nat) (f : Fn → Fn) : (updFn k f s).fab = s.fab := rfl
@[simp] theorem updFn_latches (k : Nat) (f : Fn → Fn) : (updFn k f s).latches = s.latches := rfl
@[simp] theorem updFn_ctxs (k : Nat) (f : Fn → Fn) : (updFn k f s).ctxs = s.ctxs := rfl
@[simp] theorem updFn_cks (k : Nat) (f : Fn → Fn) : (updFn k f s).cks = s.cks := rfl
@[simp] theorem updFn_lcns (k : Nat) (f : Fn → Fn) : (updFn k f s).lcns = s.lcns := rfl
@[simp] theorem updFn_tlbq (k : Nat) (f : Fn → Fn) : (updFn k f s).tlbq = s.tlbq := rfl
@[simp] theorem updFn_dies (k : Nat) (f : Fn → Fn) : (updFn k f s).dies = s.dies := rfl
@[simp] theorem updFn_moves (k : Nat) (f : Fn → Fn) : (updFn k f s).moves = s.moves := rfl
@[simp] theorem updFn_images (k : Nat) (f : Fn → Fn) : (updFn k f s).images = s.images := rfl
@[simp] theorem updFn_parks (k : Nat) (f : Fn → Fn) : (updFn k f s).parks = s.parks := rfl
@[simp] theorem updFn_ctrs (k : Nat) (f : Fn → Fn) : (updFn k f s).ctrs = s.ctrs := rfl
@[simp] theorem updFn_att (k : Nat) (f : Fn → Fn) : (updFn k f s).att = { s.att with fns := tmod Fn.reset s.att.fns k f } := rfl
@[simp] theorem updFn_css (k : Nat) (f : Fn → Fn) : (updFn k f s).css = s.css := rfl
@[simp] theorem updFn_units (k : Nat) (f : Fn → Fn) : (updFn k f s).units = s.units := rfl
@[simp] theorem updFn_nonce (k : Nat) (f : Fn → Fn) : (updFn k f s).nonce = s.nonce := rfl
@[simp] theorem updFn_pending (k : Nat) (f : Fn → Fn) : (updFn k f s).pending = s.pending := rfl

/-! ### updQp -/

@[simp] theorem updQp_cfg (k : Nat) (f : Qp → Qp) : (updQp k f s).cfg = s.cfg := rfl
@[simp] theorem updQp_pkg (k : Nat) (f : Qp → Qp) : (updQp k f s).pkg = s.pkg := rfl
@[simp] theorem updQp_rings (k : Nat) (f : Qp → Qp) : (updQp k f s).rings = s.rings := rfl
@[simp] theorem updQp_prog (k : Nat) (f : Qp → Qp) : (updQp k f s).prog = s.prog := rfl
@[simp] theorem updQp_waitFence (k : Nat) (f : Qp → Qp) : (updQp k f s).waitFence = s.waitFence := rfl
@[simp] theorem updQp_i3c (k : Nat) (f : Qp → Qp) : (updQp k f s).i3c = s.i3c := rfl
@[simp] theorem updQp_log (k : Nat) (f : Qp → Qp) : (updQp k f s).log = s.log := rfl
@[simp] theorem updQp_faultN (k : Nat) (f : Qp → Qp) : (updQp k f s).faultN = s.faultN := rfl
@[simp] theorem updQp_st64 (k : Nat) (f : Qp → Qp) : (updQp k f s).st64 = s.st64 := rfl
@[simp] theorem updQp_mem (k : Nat) (f : Qp → Qp) : (updQp k f s).mem = s.mem := rfl
@[simp] theorem updQp_home (k : Nat) (f : Qp → Qp) : (updQp k f s).home = s.home := rfl
@[simp] theorem updQp_coh (k : Nat) (f : Qp → Qp) : (updQp k f s).coh = s.coh := rfl
@[simp] theorem updQp_mirq (k : Nat) (f : Qp → Qp) : (updQp k f s).mirq = s.mirq := rfl
@[simp] theorem updQp_fab (k : Nat) (f : Qp → Qp) : (updQp k f s).fab = s.fab := rfl
@[simp] theorem updQp_latches (k : Nat) (f : Qp → Qp) : (updQp k f s).latches = s.latches := rfl
@[simp] theorem updQp_ctxs (k : Nat) (f : Qp → Qp) : (updQp k f s).ctxs = s.ctxs := rfl
@[simp] theorem updQp_cks (k : Nat) (f : Qp → Qp) : (updQp k f s).cks = s.cks := rfl
@[simp] theorem updQp_lcns (k : Nat) (f : Qp → Qp) : (updQp k f s).lcns = s.lcns := rfl
@[simp] theorem updQp_tlbq (k : Nat) (f : Qp → Qp) : (updQp k f s).tlbq = s.tlbq := rfl
@[simp] theorem updQp_dies (k : Nat) (f : Qp → Qp) : (updQp k f s).dies = s.dies := rfl
@[simp] theorem updQp_moves (k : Nat) (f : Qp → Qp) : (updQp k f s).moves = s.moves := rfl
@[simp] theorem updQp_images (k : Nat) (f : Qp → Qp) : (updQp k f s).images = s.images := rfl
@[simp] theorem updQp_parks (k : Nat) (f : Qp → Qp) : (updQp k f s).parks = s.parks := rfl
@[simp] theorem updQp_ctrs (k : Nat) (f : Qp → Qp) : (updQp k f s).ctrs = s.ctrs := rfl
@[simp] theorem updQp_att (k : Nat) (f : Qp → Qp) : (updQp k f s).att = { s.att with qps := tmod Qp.reset s.att.qps k f } := rfl
@[simp] theorem updQp_css (k : Nat) (f : Qp → Qp) : (updQp k f s).css = s.css := rfl
@[simp] theorem updQp_units (k : Nat) (f : Qp → Qp) : (updQp k f s).units = s.units := rfl
@[simp] theorem updQp_nonce (k : Nat) (f : Qp → Qp) : (updQp k f s).nonce = s.nonce := rfl
@[simp] theorem updQp_pending (k : Nat) (f : Qp → Qp) : (updQp k f s).pending = s.pending := rfl

/-! ### drawn -/

@[simp] theorem drawn_cfg : (drawn s).cfg = s.cfg := rfl
@[simp] theorem drawn_pkg : (drawn s).pkg = s.pkg := rfl
@[simp] theorem drawn_rings : (drawn s).rings = s.rings := rfl
@[simp] theorem drawn_prog : (drawn s).prog = s.prog := rfl
@[simp] theorem drawn_waitFence : (drawn s).waitFence = s.waitFence := rfl
@[simp] theorem drawn_i3c : (drawn s).i3c = s.i3c := rfl
@[simp] theorem drawn_log : (drawn s).log = s.log := rfl
@[simp] theorem drawn_faultN : (drawn s).faultN = s.faultN := rfl
@[simp] theorem drawn_st64 : (drawn s).st64 = s.st64 := rfl
@[simp] theorem drawn_mem : (drawn s).mem = s.mem := rfl
@[simp] theorem drawn_home : (drawn s).home = s.home := rfl
@[simp] theorem drawn_coh : (drawn s).coh = s.coh := rfl
@[simp] theorem drawn_mirq : (drawn s).mirq = s.mirq := rfl
@[simp] theorem drawn_fab : (drawn s).fab = s.fab := rfl
@[simp] theorem drawn_latches : (drawn s).latches = s.latches := rfl
@[simp] theorem drawn_ctxs : (drawn s).ctxs = s.ctxs := rfl
@[simp] theorem drawn_cks : (drawn s).cks = s.cks := rfl
@[simp] theorem drawn_lcns : (drawn s).lcns = s.lcns := rfl
@[simp] theorem drawn_tlbq : (drawn s).tlbq = s.tlbq := rfl
@[simp] theorem drawn_dies : (drawn s).dies = s.dies := rfl
@[simp] theorem drawn_moves : (drawn s).moves = s.moves := rfl
@[simp] theorem drawn_images : (drawn s).images = s.images := rfl
@[simp] theorem drawn_parks : (drawn s).parks = s.parks := rfl
@[simp] theorem drawn_ctrs : (drawn s).ctrs = s.ctrs := rfl
@[simp] theorem drawn_att : (drawn s).att = s.att := rfl
@[simp] theorem drawn_css : (drawn s).css = s.css := rfl
@[simp] theorem drawn_units : (drawn s).units = s.units := rfl
@[simp] theorem drawn_nonce : (drawn s).nonce = s.nonce + 1 := rfl
@[simp] theorem drawn_pending : (drawn s).pending = s.pending := rfl

/-! ### setCk -/

@[simp] theorem setCk_cfg (l c : Nat) (k : Ckpt) : (setCk l c k s).cfg = s.cfg := rfl
@[simp] theorem setCk_pkg (l c : Nat) (k : Ckpt) : (setCk l c k s).pkg = s.pkg := rfl
@[simp] theorem setCk_rings (l c : Nat) (k : Ckpt) : (setCk l c k s).rings = s.rings := rfl
@[simp] theorem setCk_prog (l c : Nat) (k : Ckpt) : (setCk l c k s).prog = s.prog := rfl
@[simp] theorem setCk_waitFence (l c : Nat) (k : Ckpt) : (setCk l c k s).waitFence = s.waitFence := rfl
@[simp] theorem setCk_i3c (l c : Nat) (k : Ckpt) : (setCk l c k s).i3c = s.i3c := rfl
@[simp] theorem setCk_log (l c : Nat) (k : Ckpt) : (setCk l c k s).log = s.log := rfl
@[simp] theorem setCk_faultN (l c : Nat) (k : Ckpt) : (setCk l c k s).faultN = s.faultN := rfl
@[simp] theorem setCk_st64 (l c : Nat) (k : Ckpt) : (setCk l c k s).st64 = s.st64 := rfl
@[simp] theorem setCk_mem (l c : Nat) (k : Ckpt) : (setCk l c k s).mem = s.mem := rfl
@[simp] theorem setCk_home (l c : Nat) (k : Ckpt) : (setCk l c k s).home = s.home := rfl
@[simp] theorem setCk_coh (l c : Nat) (k : Ckpt) : (setCk l c k s).coh = s.coh := rfl
@[simp] theorem setCk_mirq (l c : Nat) (k : Ckpt) : (setCk l c k s).mirq = s.mirq := rfl
@[simp] theorem setCk_fab (l c : Nat) (k : Ckpt) : (setCk l c k s).fab = s.fab := rfl
@[simp] theorem setCk_latches (l c : Nat) (k : Ckpt) : (setCk l c k s).latches = s.latches := rfl
@[simp] theorem setCk_ctxs (l c : Nat) (k : Ckpt) : (setCk l c k s).ctxs = s.ctxs := rfl
@[simp] theorem setCk_cks (l c : Nat) (k : Ckpt) : (setCk l c k s).cks = tset Ckpt.reset s.cks (l * 2 + c) k := rfl
@[simp] theorem setCk_lcns (l c : Nat) (k : Ckpt) : (setCk l c k s).lcns = s.lcns := rfl
@[simp] theorem setCk_tlbq (l c : Nat) (k : Ckpt) : (setCk l c k s).tlbq = s.tlbq := rfl
@[simp] theorem setCk_dies (l c : Nat) (k : Ckpt) : (setCk l c k s).dies = s.dies := rfl
@[simp] theorem setCk_moves (l c : Nat) (k : Ckpt) : (setCk l c k s).moves = s.moves := rfl
@[simp] theorem setCk_images (l c : Nat) (k : Ckpt) : (setCk l c k s).images = s.images := rfl
@[simp] theorem setCk_parks (l c : Nat) (k : Ckpt) : (setCk l c k s).parks = s.parks := rfl
@[simp] theorem setCk_ctrs (l c : Nat) (k : Ckpt) : (setCk l c k s).ctrs = s.ctrs := rfl
@[simp] theorem setCk_att (l c : Nat) (k : Ckpt) : (setCk l c k s).att = s.att := rfl
@[simp] theorem setCk_css (l c : Nat) (k : Ckpt) : (setCk l c k s).css = s.css := rfl
@[simp] theorem setCk_units (l c : Nat) (k : Ckpt) : (setCk l c k s).units = s.units := rfl
@[simp] theorem setCk_nonce (l c : Nat) (k : Ckpt) : (setCk l c k s).nonce = s.nonce := rfl
@[simp] theorem setCk_pending (l c : Nat) (k : Ckpt) : (setCk l c k s).pending = s.pending := rfl

/-! ### updPort -/

@[simp] theorem updPort_cfg (p : Nat) (f : Port → Port) : (updPort p f s).cfg = s.cfg := rfl
@[simp] theorem updPort_pkg (p : Nat) (f : Port → Port) : (updPort p f s).pkg = s.pkg := rfl
@[simp] theorem updPort_rings (p : Nat) (f : Port → Port) : (updPort p f s).rings = s.rings := rfl
@[simp] theorem updPort_prog (p : Nat) (f : Port → Port) : (updPort p f s).prog = s.prog := rfl
@[simp] theorem updPort_waitFence (p : Nat) (f : Port → Port) : (updPort p f s).waitFence = s.waitFence := rfl
@[simp] theorem updPort_i3c (p : Nat) (f : Port → Port) : (updPort p f s).i3c = s.i3c := rfl
@[simp] theorem updPort_log (p : Nat) (f : Port → Port) : (updPort p f s).log = s.log := rfl
@[simp] theorem updPort_faultN (p : Nat) (f : Port → Port) : (updPort p f s).faultN = s.faultN := rfl
@[simp] theorem updPort_st64 (p : Nat) (f : Port → Port) : (updPort p f s).st64 = s.st64 := rfl
@[simp] theorem updPort_mem (p : Nat) (f : Port → Port) : (updPort p f s).mem = s.mem := rfl
@[simp] theorem updPort_home (p : Nat) (f : Port → Port) : (updPort p f s).home = s.home := rfl
@[simp] theorem updPort_coh (p : Nat) (f : Port → Port) : (updPort p f s).coh = s.coh := rfl
@[simp] theorem updPort_mirq (p : Nat) (f : Port → Port) : (updPort p f s).mirq = s.mirq := rfl
@[simp] theorem updPort_fab (p : Nat) (f : Port → Port) : (updPort p f s).fab = s.fab := rfl
@[simp] theorem updPort_latches (p : Nat) (f : Port → Port) : (updPort p f s).latches = s.latches := rfl
@[simp] theorem updPort_ctxs (p : Nat) (f : Port → Port) : (updPort p f s).ctxs = s.ctxs := rfl
@[simp] theorem updPort_cks (p : Nat) (f : Port → Port) : (updPort p f s).cks = s.cks := rfl
@[simp] theorem updPort_lcns (p : Nat) (f : Port → Port) : (updPort p f s).lcns = s.lcns := rfl
@[simp] theorem updPort_tlbq (p : Nat) (f : Port → Port) : (updPort p f s).tlbq = s.tlbq := rfl
@[simp] theorem updPort_dies (p : Nat) (f : Port → Port) : (updPort p f s).dies = s.dies := rfl
@[simp] theorem updPort_moves (p : Nat) (f : Port → Port) : (updPort p f s).moves = s.moves := rfl
@[simp] theorem updPort_images (p : Nat) (f : Port → Port) : (updPort p f s).images = s.images := rfl
@[simp] theorem updPort_parks (p : Nat) (f : Port → Port) : (updPort p f s).parks = s.parks := rfl
@[simp] theorem updPort_ctrs (p : Nat) (f : Port → Port) : (updPort p f s).ctrs = s.ctrs := rfl
@[simp] theorem updPort_att (p : Nat) (f : Port → Port) : (updPort p f s).att = { s.att with ports := tmod Port.reset s.att.ports p f } := rfl
@[simp] theorem updPort_css (p : Nat) (f : Port → Port) : (updPort p f s).css = s.css := rfl
@[simp] theorem updPort_units (p : Nat) (f : Port → Port) : (updPort p f s).units = s.units := rfl
@[simp] theorem updPort_nonce (p : Nat) (f : Port → Port) : (updPort p f s).nonce = s.nonce := rfl
@[simp] theorem updPort_pending (p : Nat) (f : Port → Port) : (updPort p f s).pending = s.pending := rfl

/-! ### updSram -/

@[simp] theorem updSram_cfg (k : Nat) (f : List Nat → List Nat) : (updSram k f s).cfg = s.cfg := rfl
@[simp] theorem updSram_pkg (k : Nat) (f : List Nat → List Nat) : (updSram k f s).pkg = s.pkg := rfl
@[simp] theorem updSram_rings (k : Nat) (f : List Nat → List Nat) : (updSram k f s).rings = s.rings := rfl
@[simp] theorem updSram_prog (k : Nat) (f : List Nat → List Nat) : (updSram k f s).prog = s.prog := rfl
@[simp] theorem updSram_waitFence (k : Nat) (f : List Nat → List Nat) : (updSram k f s).waitFence = s.waitFence := rfl
@[simp] theorem updSram_i3c (k : Nat) (f : List Nat → List Nat) : (updSram k f s).i3c = s.i3c := rfl
@[simp] theorem updSram_log (k : Nat) (f : List Nat → List Nat) : (updSram k f s).log = s.log := rfl
@[simp] theorem updSram_faultN (k : Nat) (f : List Nat → List Nat) : (updSram k f s).faultN = s.faultN := rfl
@[simp] theorem updSram_st64 (k : Nat) (f : List Nat → List Nat) : (updSram k f s).st64 = s.st64 := rfl
@[simp] theorem updSram_mem (k : Nat) (f : List Nat → List Nat) : (updSram k f s).mem = s.mem := rfl
@[simp] theorem updSram_home (k : Nat) (f : List Nat → List Nat) : (updSram k f s).home = s.home := rfl
@[simp] theorem updSram_coh (k : Nat) (f : List Nat → List Nat) : (updSram k f s).coh = s.coh := rfl
@[simp] theorem updSram_mirq (k : Nat) (f : List Nat → List Nat) : (updSram k f s).mirq = s.mirq := rfl
@[simp] theorem updSram_fab (k : Nat) (f : List Nat → List Nat) : (updSram k f s).fab = s.fab := rfl
@[simp] theorem updSram_latches (k : Nat) (f : List Nat → List Nat) : (updSram k f s).latches = s.latches := rfl
@[simp] theorem updSram_ctxs (k : Nat) (f : List Nat → List Nat) : (updSram k f s).ctxs = s.ctxs := rfl
@[simp] theorem updSram_cks (k : Nat) (f : List Nat → List Nat) : (updSram k f s).cks = s.cks := rfl
@[simp] theorem updSram_lcns (k : Nat) (f : List Nat → List Nat) : (updSram k f s).lcns = s.lcns := rfl
@[simp] theorem updSram_tlbq (k : Nat) (f : List Nat → List Nat) : (updSram k f s).tlbq = s.tlbq := rfl
@[simp] theorem updSram_dies (k : Nat) (f : List Nat → List Nat) : (updSram k f s).dies = s.dies := rfl
@[simp] theorem updSram_moves (k : Nat) (f : List Nat → List Nat) : (updSram k f s).moves = s.moves := rfl
@[simp] theorem updSram_images (k : Nat) (f : List Nat → List Nat) : (updSram k f s).images = s.images := rfl
@[simp] theorem updSram_parks (k : Nat) (f : List Nat → List Nat) : (updSram k f s).parks = s.parks := rfl
@[simp] theorem updSram_ctrs (k : Nat) (f : List Nat → List Nat) : (updSram k f s).ctrs = s.ctrs := rfl
@[simp] theorem updSram_att (k : Nat) (f : List Nat → List Nat) : (updSram k f s).att = s.att := rfl
@[simp] theorem updSram_css (k : Nat) (f : List Nat → List Nat) : (updSram k f s).css = s.css := rfl
@[simp] theorem updSram_units (k : Nat) (f : List Nat → List Nat) : (updSram k f s).units = { s.units with sram := tmod [] s.units.sram k f } := rfl
@[simp] theorem updSram_nonce (k : Nat) (f : List Nat → List Nat) : (updSram k f s).nonce = s.nonce := rfl
@[simp] theorem updSram_pending (k : Nat) (f : List Nat → List Nat) : (updSram k f s).pending = s.pending := rfl

end Sys2Proof.Machine
end

