-- ==== Sys2Proof/Tests/Slice0.lean ====
section
/-! SUPPORT. Small states that meet the hypotheses of every statement (wit_<statement>), ill-formed commands that each check
refuses (test_wf_<check>), and single steps with values worked out by hand or taken from the spec's examples (test_<what>). -/
namespace Sys2Proof.Tests.Slice0
open Sys2Proof Sys2Proof.Machine
set_option Elab.async false

/-! ### Small states the tests start from -/

/-- Every readiness bit of a hub. -/
def wBits : List Nat := upTo 128

/-- A SPLIT package with both halves running, DRAM of 2^36 bytes on channel 0 and two good cores on die 0. -/
def wDark : State :=
  { State.reset with
    pkg := { Pkg.reset with mode := .split, hstate := ⟨.running, .running⟩ }
    mem := ⟨{ Mem.reset with fixed := true, map := [0], kshift := 36 }, { Mem.reset with fixed := true, map := [0], kshift := 36 }⟩
    dies := [(0, { Die.reset with ready := true, coreReady := [0, 64] })]
    units := { Units.reset with ready := ⟨wBits, wBits⟩ } }
/-- The Rytum modules between die 0 and Hub A carry traffic. -/
def wUp : State := (nodeMods 0).foldl (fun s k => both k (fun x => { x with st := .up }) s) wDark

/-- Its LCN 0 context 0 holds `c`. -/
def wCtx (c : Ctx) : State := { wUp with ctxs := [(0, c)] }

/-- A context at H and one that runs A5. -/
def cH : Ctx := { Ctx.reset with pc := 0x1000, psw := { Ctx.reset.psw with pl := .h } }
def cA5 : Ctx :=
  { cH with
    pc := 0x10100, cbase := 0x10000, clim := 0xFFFFFF, psw := { cH.psw with a5 := true }, bnk := 1
    a5a := [(1, 0x2000), (2, 0xFFFFFFFE), (7, 0x3000)], a5d := [(0, 0x8000000000000001), (1, 5)], a5ac := [(0, 0x1C), (1, 0x2D)] }

/-- Its command rings of Hub A are enabled. -/
def wRing : State := (upTo 3).foldl (fun s l => updRing .a l (fun r => { r with en := true, srBase := 0x100000 }) s) wUp

/-- A packet of Hub A's ring of a level: its parameter bytes and their number, its indirect buffer word. -/
def wPkt (level plen prm iptr : Nat) : Pkt := { src := .ring .a level, op := 0, tag := 7, flags := 0, plen := plen, iptr := iptr, prm := prm }

/-! ### Witnesses: commands of the Harbourmaster -/

/-- Parameter bytes from (offset, value). -/
def wPrm (l : List (Nat × Nat)) : Nat := l.foldl (fun (n : Nat) e => n + e.2 * 256 ^ e.1) 0

/-- A packet of an opcode passes every check. -/
def wPass (op level plen : Nat) (l : List (Nat × Nat)) (s : State) : Bool := passes (pktFit op (wPkt level plen (wPrm l) 0)) s
def wPassI (op level plen : Nat) (l : List (Nat × Nat)) (buf ilen : Nat) (s : State) : Bool :=
  passes (pktFit op { wPkt level plen (wPrm l) (ilen * 2 ^ 52 + buf) with flags := 1 }) s

/-- UNIT numbers of Hub A. -/
def wHub (t i : Nat) : Nat := 0xFF0000 + t * 256 + i
def wCh (st : ChState) (s : State) : State := updCh .a 0 (fun c => { c with st := st }) s
/-- Function 1 of port 0 exists, with a queue pair, a key slot, a subchannel and a window. -/
def wFn : State := updFn 1 (fun f => { f with created := true, firstQp := 40, nqp := 1, nkey := 1, nstream := 1, subs := [3], nwin := 1 }) wRing
/-- Stream 5 is open; key slots 2 (ECDSA) and 3 (AES-256). -/
def wStream : Stream :=
  { base := 0x200000, size := 0x40000, policy := 0, otype := 0, owner := 0, n := 1, t := 1, sigSlot := 2, openId := 1, keyId := []
    sigKey := [], encKey := [], rtail := 0, ctail := 0, phase := true, intctl := 0, spShift := 0, spLba := 0, prevTs := 0, nextSeq := 1
    appends := [], held := [], since := 0, ckpt := none, closing := false, ending := false, closeCmd := none, ckptCmd := none
    spool := none, spoolNext := none, spoolFailed := false, spoolPos := 0, spoolTo := 0, dseq := 0, ops := [], want := [], frames := [] }
def wKey (k alg : Nat) (s : State) : State := setSlot .a k { KSlot.empty with st := 1, alg := alg, ring := 0xFFFF, fn := 0 } s
def wStr : State := updUnits (fun u => { u with ldg := u.ldg.set .a { Ldg.reset with streams := [(5, wStream)], lanes := 4 } }) (wKey 3 3 (wKey 2 6 wRing))
/-- Bytes of DRAM at an address of Hub A. -/
def wPut (a : Nat) (d : List Nat) (s : State) : State :=
  updMem .a (fun m => { m with dram := m.dram ++ ((upTo d.length).map (fun i => (a + i, BitVec.ofNat 8 (d.getD i 0)))).filter (fun e => e.2 ≠ 0) }) s
/-- A wrapped AES-256 key at 0x1000, and an empty migration image there. -/
def wWrapped : State := wPut 0x1000 ([0x4C, 0x57, 0x4B, 0x31, 0, 3, 0, 0, 32]) wRing
def wImage : State := wPut 0x1000 ([0x41, 0x54, 0x49, 0x31, 1, 0, 0, 0, 0, 0x2C, 0, 0, 0x3f, 0x40, 0xb4, 0x8d] ++ List.replicate 20 0 ++ [0xB1]) wFn
/-- Two live entries of the log, the newer with index 9. -/
def wEntry (i : Nat) : LogEntry := LogEntry.mk 0 i 0 0 0 0 0 0 false false false false false 0 0 0
def wLog : State := updLog .a (fun l => { l with entries := [wEntry 8, wEntry 9], nextIdx := 10 }) wRing

theorem wit_HmChecks :
    (let q := pktFit 0x0101 (wPkt 2 1 5 0)
     takes q wRing = true ∧ dupTag (came q wRing) q = false ∧ verdict (came q wRing) false q = some 0x11) ∧
    (let q := pktFit 0x0101 (wPkt 1 1 5 0)
     takes q wRing = true ∧ hmReady (came q wRing) .a = true ∧ q.src.kind ∉ [3, 6]) ∧
    (let s := { wRing with prog := [⟨wPkt 2 1 0 0, false⟩] }
     let q := pktFit 0x0308 (wPkt 2 8 0 0)
     takes q s = true ∧ hmReady (came q s) .a = true ∧ q.src.kind ∈ [3] ∧ dupTag (came q s) q = true ∧
       ((cmdOf 0x0308).map (fun c => c.deny (came q s) q)) = some false) ∧
    (let q := pktFit 0x0404 { wPkt 2 2 (wPrm [(1, 1)]) (175 * 2 ^ 52 + 0x1000) with flags := 1 }
     takes q wFn = true ∧ dupTag (came q wFn) q = false ∧ verdict (came q wFn) false q = some 0x11 ∧ q.bufLen < freezeNeed (came q wFn) q ∧
       (cmdOf 0x0404).map (fun c => badForm c q) = some false ∧ (fnOf (came q wFn) q.vf).created = true) := by
  decide +kernel

theorem wit_HmReads :
    [wPass 0x0100 2 0 [] wRing, wPass 0x0202 2 4 [(0, wHub 3 0)] wRing, wPass 0x0203 2 0 [] wRing, wPass 0x0204 2 4 [(0, 0x100)] wRing,
      wPass 0x0301 2 4 [(0, 0x100)] wRing, wPass 0x0400 2 1 [] wRing, wPassI 0x0502 2 4 [(0, 5)] 0x1000 1 wStr,
      wPass 0x0603 2 2 [(0, 2)] wStr, wPassI 0x0604 2 2 [(0, 2)] 0x1000 2 wStr, wPassI 0x0700 2 8 [] 0x1000 1 wRing,
      wPass 0x0702 2 1 [] wRing, wPass 0x0702 2 1 [] wLog, wPass 0x0800 2 0 [] wRing, wPass 0x0A00 2 48 [(47, 255)] wRing,
      wPass 0x0B00 2 1 [] wRing, wPass 0x0B01 2 1 [] wRing, wPass 0x0B02 2 0 [] wRing].all id = true ∧
    wLog.log.a.entries.head? = some (wEntry 8) ∧ wLog.log.a.entries.getLast? = some (wEntry 9) ∧ wRing.log.a.entries = [] := by
  decide +kernel

def wMode (m : Mode) (s : State) : State := updPkg (fun p => { p with mode := m }) s
/-- HOLD with the OTP read and a feed in range. -/
def wHold : State :=
  { State.reset with
    units := { State.reset.units with
      lh := ⟨{ State.reset.units.lh.a with otp := true }, { State.reset.units.lh.b with otp := true }⟩
      pwr := { State.reset.units.pwr with feedA := { State.reset.units.pwr.feedA with ok := true } } } }
def wPs (u v : Nat) (s : State) : State := setPstate u v s
def wOff (s : State) : State := updLcn 0 (fun k => { k with off := true }) s
/-- No core of Hub A's dies is spare. -/
def wFull : State := (upTo 8).foldl (fun s d => updDie d (fun x => { x with failed := upTo 68 }) s) (wOff wRing)
def wSpare : State := updMem .a (fun m => { m with spareCh := 1, spareEn := true }) (updCh .a 1 (fun c => { c with st := .spare }) (wCh .mapped wRing))
def wPp (st : Nat) (up : Bool) (s : State) : State := updPp 0 (fun x => { x with st := st, linkUp := up }) s
/-- An operation runs on path port 0, the only one of its subchannel. -/
def wOnPath : State :=
  updCss .a (fun c => { c with
    subs := [(0, { Sub.reset with v := true, en := true, path := 0x8000 })], ift := [(0, { Ift.free with st := 2, sub := 0 })] }) (wPp 2 true wRing)
def wNoQp : State := updFn 2 (fun f => { f with created := true, firstQp := 32, nqp := 992 }) wRing
/-- The function has an operation in progress. -/
def wBusyFn : State :=
  updCss .a (fun c => { c with
    subs := [(3, { Sub.reset with v := true, en := true, otype := 1, owner := 1 })], ift := [(0, { Ift.free with st := 2, sub := 3, otype := 1, owner := 1 })] }) wFn
def wRyt (k : Nat) (st : RytState) (s : State) : State := updRyt k (fun r => { r with st := st }) s

theorem wit_HmPackage_mode :
    wPass 0x0101 2 2 [(0, 5), (1, 255)] wRing = true ∧ wRing.pkg.mode = .split ∧
    passes (pktFit 0x0101 { wPkt 2 2 0xFF02 0 with src := .mgmt .a }) wHold = true ∧ wHold.pkg.mode = .hold ∧
    wPass 0x0101 2 2 [(0, 1), (1, 255)] (wMode .bringup wRing) = true ∧
    wPass 0x0101 2 3 [(0, 7), (1, 255), (2, 1)] (wMode .unified wRing) = true ∧ wPass 0x0102 2 4 [(0, 100)] wRing = true ∧
    wPass 0x0200 2 5 [(0, 1023), (2, 0), (4, 3)] wRing = true ∧ wPass 0x0200 2 5 [(0, 1), (2, 1), (4, 12)] wRing = true := by
  decide +kernel

theorem wit_HmPackage_power :
    let die := 0x100
    let q := fun (u v : Nat) (s : State) => (wPass 0x0201 2 5 [(0, u), (4, v)] s, pstateOf s u, powerHalted s u, powerOpen s u v)
    let halted := { wRing with ctxs := [(0, { Ctx.reset with halt := 1 })] }
    q (wHub 6 0) 0 wRing = (true, 0, false, false) ∧ (q (wHub 11 0) 0 (wPs (wHub 11 0) 2 wRing)).1 = true ∧
    pstateOf (wPs (wHub 11 0) 2 wRing) (wHub 11 0) = 2 ∧ wRing.units.preq = [] ∧
    (q die 3 halted).1 = true ∧ powerHalted halted die = true ∧
    q die 3 wRing = (true, 0, false, true) ∧ q (wHub 6 0) 3 wRing = (true, 0, false, false) := by
  decide +kernel

theorem wit_HmPackage_cores :
    let spare := fun (s : State) => chooseSpare (ack (pktFit 0x303 (wPkt 2 2 0 0)) s) 0 true
    wPass 0x0300 2 3 [] wRing = true ∧
    wPass 0x0302 2 2 [] wRing = true ∧ lcnHalted wRing 0 = false ∧ (lcnOf wRing 0).parked = false ∧
    wPass 0x0302 2 2 [] (updLcn 0 (fun k => { k with parked := true }) wRing) = true ∧
    wPass 0x0303 2 2 [] wRing = true ∧ (coreOf wRing 0).isSome = true ∧
    wPass 0x0303 2 2 [] (wOff wRing) = true ∧ coreOf (wOff wRing) 0 = none ∧ homeCore wRing 0 / 128 = 0 ∧ spare (wOff wRing) = some 0 ∧
    wPass 0x0303 2 2 [] wFull = true ∧ spare wFull = none ∧
    wPass 0x0304 2 7 [(0, 0x200), (4, 1023), (6, 15)] wRing = true ∧ wRing.coh.deleted = [] := by
  decide +kernel

theorem wit_HmPackage_units :
    let path := fun (v : Nat) (s : State) => (wPass 0x0306 2 5 [(0, wHub 8 0), (4, v)] s, pathNeeded s 0)
    wPass 0x0305 2 4 [(0, wHub 3 0)] wSpare = true ∧ freeSpare (wSpare.mem.get .a) = some 1 ∧
    wPass 0x0305 2 4 [(0, wHub 3 0)] (wCh .mapped wRing) = true ∧ freeSpare ((wCh .mapped wRing).mem.get .a) = none ∧
    path 1 (wPp 3 true wRing) = (true, false) ∧ path 1 wOnPath = (true, true) ∧ path 1 (wPp 2 true wRing) = (true, false) ∧
    path 0 (wPp 2 true wRing) = (true, false) ∧ path 0 (wPp 3 true wRing) = (true, false) ∧ path 0 (wPp 3 false wRing) = (true, false) ∧
    path 0 (wPp 4 true wRing) = (true, false) ∧
    wPass 0x0307 2 8 [(0, 0x100), (4, 1), (6, 9)] wRing = true ∧ (bucketOf wRing 0x100).count < bLim 1 ∧
    wPass 0x0308 2 8 [(4, 10)] wRing = true ∧ wPass 0x0308 2 8 [(4, 10000)] wRing = true := by
  decide +kernel

/-- VF_RESTORE's hypotheses need an image of 11,264 bytes with its CRC, which is too long for the kernel: `wImage` is one. -/
theorem wit_HmFunctions :
    wPass 0x0401 2 15 [(1, 1), (2, 1), (4, 1)] wRing = true ∧ lowestRun (qpRanges wRing .a 4096) 1 = some 32 ∧
    lowestRunIn 2048 (msixRanges wRing 0 4096) 1 = some 32 ∧
    wPass 0x0401 2 15 [(1, 1), (2, 1), (4, 1)] wNoQp = true ∧ lowestRun (qpRanges wNoQp .a 4096) 1 = none ∧
    wPass 0x0402 2 2 [(1, 1)] wFn = true ∧ inFlight wFn 1 = false ∧ wPass 0x0402 2 2 [(1, 1)] wBusyFn = true ∧ inFlight wBusyFn 1 = true ∧
    wPass 0x0403 2 4 [(1, 1)] wFn = true ∧ wPass 0x0406 2 2 [(1, 1)] (updFn 1 (fun f => { f with quiesced := true }) wFn) = true ∧
    wPass 0x0407 2 2 [(1, 1)] wFn = true ∧ wPass 0x0407 2 2 [(1, 1)] wBusyFn = true ∧
    wPassI 0x0404 2 2 [(1, 1)] 0x1000 176 wFn = true ∧ freezeCount wFn 1 = 0 ∧
    ((dmaRead wFn .a 0x1500 576).map (fun x => (x.2, ctxListOk wFn 1 (x.1.take 64) (x.1.drop 64)))) = some (false, true) := by
  decide +kernel

/-- Whether a wrapped key verifies is decided outside the model; either way one of the two clauses applies. -/
theorem wit_HmLedgerKeys :
    ([wPass 0x0500 2 36 [(0, 6), (4, 2), (12, 1), (16, 1), (24, 0x400000), (32, 0x40000)] wStr, wPass 0x0501 2 4 [(0, 5)] wStr,
      wPass 0x0503 2 4 [(0, 5)] wStr, wPass 0x0504 2 6 [(0, 5), (4, 0xFFFF)] wStr, wPassI 0x0600 2 8 [(0, 4), (6, 0xFFFF)] 0x1000 3 wWrapped,
      wPass 0x0601 2 9 [(0, 4), (6, 0xFFFF), (8, 3)] wRing, wPass 0x0602 2 2 [(0, 2)] wStr, wPass 0x0602 2 2 [(0, 3)] wStr,
      slotInStream wStr .a 2, !slotInJob wStr .a 3, !slotInStream wStr .a 3]).all id = true ∧
    (wrappedKey wWrapped (pktFit 0x0600 { wPkt 2 8 (wPrm [(0, 4), (6, 0xFFFF)]) (3 * 2 ^ 52 + 0x1000) with flags := 1 })).isSome = true ∧
    ∀ d, (∃ key, unwrapKey wWrapped .a d = .ok key) ∨ (∃ r, unwrapKey wWrapped .a d = .error r) := by
  refine ⟨by decide +kernel, by decide +kernel, fun d => ?_⟩
  cases h : unwrapKey wWrapped .a d with
  | ok k => exact .inl ⟨k, rfl⟩
  | error r => exact .inr ⟨r, rfl⟩

theorem wit_HmTimeCounters :
    let k := unitRyt (wHub 10 0)
    [wPass 0x0801 2 8 [(0, 5)] wRing, wPassI 0x0802 2 16 [] 0x1000 3 wRing, wPass 0x0900 2 8 [(0, 0xFF000000), (4, 7), (6, 1)] wRing,
      wPass 0x0901 2 20 [] wRing, wPass 0x0901 2 20 [(4, 1), (16, 42496)] wRing, wPass 0x0902 2 1 [] (updColl .a (fun c => { c with size := 64 }) wRing),
      wPass 0x0903 1 4 [(2, 1), (3, 1)] wRing, wPass 0x0904 2 20 [] wRing, wPass 0x0904 2 20 [(2, 8), (16, 4096)] wRing,
      wPass 0x0A01 2 4 [(0, wHub 3 0)] (wCh .mapped wRing), wPass 0x0A02 2 4 [(0, wHub 10 0)] (wRyt k .up wRing),
      wPass 0x0A02 2 4 [(0, wHub 10 0)] (wRyt k .fenced wRing), wPass 0x0A03 2 2 [] wRing, wPass 0x0A03 2 2 [] (wOff wRing)].all id = true ∧
    (coreOf wRing 0).isSome = true ∧ coreOf (wOff wRing) 0 = none ∧ (lcnOf (wOff wRing) 0).parked = false ∧
    coreState (wOff wRing) (testCore (wOff wRing) 0) = 2 := by
  decide +kernel

theorem wit_LogClear :
    wPass 0x0701 2 8 [(4, 9)] wLog = true ∧
    (let q := pktFit 0x0701 (wPkt 2 8 (wPrm [(4, 7)]) 0)
     takes q wLog = true ∧ hmReady (came q wLog) .a = true ∧ denyHalf (came q wLog) q = false ∧ dupTag (came q wLog) q = false ∧
       q.f 0 1 < 2 ∧ hubPresent wLog .a = true ∧ ∀ e ∈ (came q wLog).log.a.entries, e.index ≠ q.f 4 4) := by
  decide +kernel

theorem wit_Rings :
    live wUp = true ∧ halfOn wUp .a = true ∧ (ringOf wRing .a 2).en = true ∧
    (let r : Reply := { src := .ring .a 2, tag := 1, status := 0, final := true, logged := false, dup := false, op := 0x100, rlen := 0, result := 0, notify := true }
     (dmaWrite wRing .a 0x100000 (replyBytes r true)).map (fun x => x.2) = some false ∧
     (dmaWrite wRing .a 0x100000 (replyBytes { r with notify := false } true)).map (fun x => x.2) = some false) ∧
    (let g : Prog := ⟨wPkt 2 3 0 0, true⟩
     let s := { wRing with prog := [{ g with pkt := { g.pkt with op := 0x0300 } }] }
     s.prog.find? (fun g => g.pkt.src == .ring .a 2 && g.pkt.tag == 7) = some { g with pkt := { g.pkt with op := 0x0300 } }) := by
  decide +kernel

/-! ### Witnesses: the machine, modes and losses -/

theorem wit_Front :
    ({ wUp with pending := [.rstdaa] }).pending = .rstdaa :: [] ∧ wUp.pending = [] ∧ live (wMode .off wUp) = false := by
  decide +kernel

theorem wit_DeadPackage : live (wMode .off wUp) = false ∧ live (updPkg (fun p => { p with stopped := true }) wUp) = false ∧ (wMode .off wUp).pkg.mode = .off := by
  decide +kernel

def wStopped : State := { updPkg (fun p => { p with stopped := true }) wUp with pending := [.rstdaa] }
theorem wit_StoppedPackage : wStopped.pkg.stopped = true ∧ wStopped.pkg.mode ≠ .off ∧ step wStopped = .next { wStopped with pending := [] } := by
  refine ⟨by decide +kernel, by decide +kernel, by rfl⟩

/-- The largest packet. -/
theorem wit_PacketRoundTrip :
    (let p : Pkt := { src := .mgmt .b, op := 2 ^ 16 - 1, tag := 2 ^ 16 - 1, flags := 255, plen := 255, iptr := 2 ^ 64 - 1, prm := 2 ^ 384 - 1 }
     p.op < 2 ^ 16 ∧ p.tag < 2 ^ 16 ∧ p.flags < 2 ^ 8 ∧ p.plen < 2 ^ 8 ∧ p.iptr < 2 ^ 64 ∧ p.prm < 2 ^ 384) ∧
    (List.replicate 64 (0xFF : Byte)).length = 64 := by
  decide +kernel

theorem wit_WritersKeepMemory : MemoryOk wUp ∧ ∃ t, exec (.freezePulse .a false) wUp = .next t := by
  refine ⟨⟨by decide +kernel, by decide +kernel⟩, _, rfl⟩

/-- One counter of a unit wraps, one counts, one counts something else. -/
theorem wit_CounterWrap :
    let s := { wUp with ctrs := [(8, ⟨2 ^ 48 - 1, 5, false⟩), (9, ⟨2 ^ 48 - 2, 5, true⟩), (10, ⟨1, 6, false⟩), (16, ⟨1, 5, false⟩)] }
    ctrIdle s 1 5 = false ∧ s.ctrs[0]? = some (8, ⟨2 ^ 48 - 1, 5, false⟩) ∧ 8 / 8 = 1 ∧ s.ctrs[1]? = some (9, ⟨2 ^ 48 - 2, 5, true⟩) ∧ 9 / 8 = 1 ∧
    s.ctrs[2]? = some (10, ⟨1, 6, false⟩) ∧ s.ctrs[3]? = some (16, ⟨1, 5, false⟩) ∧ 16 / 8 ≠ 1 := by
  decide +kernel

def wNoIbi : State := updI3c .a (fun i => { i with ibiEn := false }) wUp
def wMasked : State := updPwr (fun x => { x with chat := [3] }) wUp
theorem wit_ServiceRequest :
    live wUp = true ∧ masked wUp 3 = false ∧ wUp.units.pwr.active = [] ∧ leader wUp = .a ∧ wUp.i3c.a.ibiEn = true ∧
    wNoIbi.i3c.a.ibiEn = false ∧ masked wNoIbi 3 = false ∧ masked wMasked 3 = true := by
  decide +kernel

theorem wit_ManagementPort :
    live wUp = true ∧ i3cOn wUp .a = true ∧ i3cOn wUp .b = true ∧ progCount wUp (.mgmt .a) < 64 ∧ (List.replicate 64 (0 : Byte)).length = 64 ∧
    (List.replicate 63 (0 : Byte)).length ≠ 64 ∧ wUp.i3c.a.fifo = [] ∧ wUp.i3c.a.dyn = none ∧ cacheFull wUp .a = false ∧
    (let r : Reply := { src := .mgmt .a, tag := 1, status := 0, final := true, logged := false, dup := false, op := 0x100, rlen := 0, result := 0, notify := true }
     ((updI3c .a (fun x => { x with fifo := [r] }) wUp).i3c.get .a).fifo = r :: []) := by
  decide +kernel

/-- A drain of SPLIT in a phase, to a follow-on mode. -/
def wTrans (follow : Mode) (phase : Nat) : Trans :=
  { source := .split, target := .drain, follow := follow, half := none, cmd := none, abortCmd := none, phase := phase, pfw := false }
def wDrain (follow : Mode) (phase : Nat) : State := updPkg (fun p => { p with mode := .drain, trans := some (wTrans follow phase) }) wUp
/-- A queued operation keeps the drain to another mode from clearing. -/
def wKept : State := updCss .a (fun c => { c with subs := [(0, { Sub.reset with v := true, en := true })], ift := [(0, { Ift.free with st := 7, sub := 0 })] }) (wDrain .unified 1)
def wFrom (m : Mode) (t : Mode) : State := updPkg (fun p => { p with mode := m, trans := some { wTrans t 0 with source := m, target := t } }) wUp
def wHalfUp (m : Mode) (ready : Bool) : State :=
  updPkg (fun p => { p with mode := m, hstate := ⟨.running, .bringup⟩, htrans := ⟨none, some (wTrans .split 0)⟩ })
    (if ready then updCh .b 0 (fun c => { c with st := .mapped }) wUp else wUp)
def wResilver : State :=
  updPkg (fun p => { p with mode := .degraded, hstate := ⟨.running, .resilvering⟩, trans := some { wTrans .mirrored 0 with source := .degraded, target := .mirrored } }) wUp
def wAbort : State := updPkg (fun p => { p with mode := .drain, trans := some { wTrans .hold 3 with abortCmd := some ⟨wPkt 2 2 0 0, false⟩ } }) wUp

theorem wit_ModeEnds :
    live (wDrain .hold 1) = true ∧ (wDrain .hold 1).pkg.mode = .drain ∧ (wDrain .hold 1).pkg.trans = some (wTrans .hold 1) ∧
    (halvesOf (wDrain .hold 1)).all (halfDrained (wDrain .hold 1)) = true ∧ (wTrans .hold 1).follow = .hold ∧
    (halvesOf (wDrain .unified 1)).all (halfDrained (wDrain .unified 1)) = true ∧ reinitClear (wDrain .unified 1) = true ∧
    reinitClear ((halvesOf wKept).foldl (fun u h => limitStop h u) wKept) = false ∧ wKept.pkg.trans = some (wTrans .unified 1) ∧
    (wTrans .unified 2).phase = 2 ∧ wAbort.pkg.mode = .drain ∧ (wTrans .hold 3).phase = 3 ∧ (wTrans .hold 3).pfw = false ∧
    (wFrom .hold .bringup).pkg.mode = .hold ∧ live (wFrom .hold .bringup) = true ∧ (wFrom .bringup .split).pkg.mode = .bringup ∧
    live (wFrom .bringup .split) = true ∧ (wHalfUp .split true).pkg.hstate.b = .bringup ∧
    runReady (wHalfUp .split true) .b = true ∧ runReady (wHalfUp .split false) .b = false ∧ live (wHalfUp .split true) = true ∧
    live wResilver = true ∧ wResilver.pkg.mode = .degraded ∧ runHalf wResilver = .a ∧ wResilver.pkg.hstate.b = .resilvering := by
  decide +kernel

/-- Both alive lines toggle, and every Breakwater module of Hub A (node 16) is fenced. -/
def wNoBw (m : Mode) : State :=
  updPkg (fun p => { p with mode := m, alive := ⟨true, true⟩ }) ((nodeMods 16).foldl (fun s k => updRyt k (fun r => { r with st := .fenced }) s) wUp)
/-- Both modules of die 0 are fenced; home timeouts named it three times within 10 ms. -/
def wNoDie : State := updDie 0 (fun d => { d with silent := [10000007, 5000000, 7] }) ((nodeMods 0).foldl (fun s k => updRyt k (fun r => { r with st := .fenced }) s) wUp)

theorem wit_Losses :
    (∀ m ∈ [Mode.unified, .mirrored, .degraded], live (wMode m wUp) = true ∧ (wMode m wUp).pkg.hstate.a = .running ∧ (wMode m wUp).pkg.trans = none) ∧
    (wMode .unified wUp).units.pwr.resetPend = false ∧ wUp.pkg.mode = .split ∧ wUp.pkg.hstate = ⟨.running, .running⟩ ∧ wUp.pkg.htrans.a = none ∧
    (let s := updPkg (fun p => { p with hstate := ⟨.running, .held⟩ }) wUp
     live s = true ∧ s.pkg.hstate.get .b = .held) ∧
    (∀ m ∈ [Mode.unified, .mirrored, .split], let s := wNoBw m
     live s = true ∧ s.cfg.part ≠ .q0800a ∧ bwaterGone s = true ∧ s.units.pwr.resetPend = false ∧ s.pkg.trans = none) ∧
    live wNoDie = true ∧ diePresent wNoDie 0 = true ∧ (dieOf wNoDie 0).lost = false ∧ wNoDie.pkg.mode ≠ .hold ∧
    (∀ c ∈ [0, 1, 2], dieCause wNoDie 0 c = true) := by
  decide +kernel

/-! ### Witnesses: AN instructions, each from a small context at H -/

/-- The result is a state with a value that meets `f`. -/
def thenOk {α : Type} (x : Res1 α) (f : State → α → Bool) : Bool :=
  match x with
  | (s, .ok a) => f s a
  | _ => false

/-- What `thenOk` says: the equations of a statement's hypotheses have a solution. -/
theorem thenOk_iff {α : Type} (x : Res1 α) (f : State → α → Bool) : thenOk x f = true ↔ ∃ s a, x = (s, .ok a) ∧ f s a = true := by
  obtain ⟨s, r⟩ := x
  cases r with
  | ok a => exact ⟨fun h => ⟨s, a, rfl, h⟩, by rintro ⟨_, _, h, hf⟩; cases h; exact hf⟩
  | error e => exact ⟨fun h => (by cases h), by rintro ⟨_, _, h, _⟩; cases h⟩

/-- `Starts` of context 0 of LCN 0. -/
def wStarts (n : Nat) (a5 : Bool) (s : State) (f : State → Bool) : Bool :=
  live s && ctxRuns s 0 0 && (ctxOf s 0 0).psw.a5 == a5 && thenOk (fetchCheck s 0 (ctxOf s 0 0) n) (fun s1 _ => f s1)

theorem wStarts_iff (n : Nat) (a5 : Bool) (s : State) (f : State → Bool) :
    wStarts n a5 s f = true ↔ ∃ s1, Starts 0 0 n a5 s s1 ∧ f s1 = true := by
  simp only [wStarts, Bool.and_eq_true, thenOk_iff, beq_iff_eq, Starts]
  constructor
  · rintro ⟨⟨⟨h1, h2⟩, h3⟩, s1, _, h4, h5⟩; exact ⟨s1, ⟨h1, h2, h3, h4⟩, h5⟩
  · rintro ⟨s1, ⟨h1, h2, h3, h4⟩, h5⟩; exact ⟨⟨⟨h1, h2⟩, h3⟩, s1, (), h4, h5⟩

def wSome {α : Type} (x : Option α) (f : α → Bool) : Bool :=
  match x with
  | some a => f a
  | none => false

def wS : State := wCtx { cH with g := [(1, 7), (2, 0x2000), (3, 9), (15, 0x4000)] }
def wAt (pl : Lvl) : State := wCtx { cH with psw := { cH.psw with pl := pl }, g := [(1, 7), (2, 0x2000), (15, 0x4000)] }
/-- Format, TYPE and the following parcels. -/
def wAn (fmt ty : Nat) (ps : List Nat) : AnOp := ⟨0, 0, fmt, ty, ps.map (fun p => BitVec.ofNat 16 p)⟩
def wZero : AnOp := wAn 3 0 [5]
def wC : Ctx := ctxOf wS 0 0

/-- XPSW names a level above its own; an event is pending. -/
def wXret : State := wCtx { cH with psw := { cH.psw with pl := .s }, xs := { XRegs.zero with xpsw := 0x80000000 } }
def wDue : State := updLcn 0 (fun k => { k with ext := [5] }) (wCtx cH)

theorem wit_AnControl :
    (let o := wAn 2 0 [0x5200]
     wSome (decodePlain o 2 (fun t => t == 0)) (fun p => wStarts p.n false wS (fun s1 => thenOk (addrOf 0 0 1 s1 wC (p.sp 0)) (fun s2 r =>
       thenOk (resolve s2 0 wC (addVa (gOf r.2 15) (-8)) 8 .write) (fun _ _ => true)))) = true ∧
     wSome (decodePlain (wAn 2 15 [0x5200]) 2 (fun _ => true)) (fun p => wStarts p.n false wS (fun s1 => thenOk (addrOf 0 0 1 s1 wC (p.sp 0)) (fun _ _ => true))) = true) ∧
    decodeZero (wAn 3 0 [0]) = some 0 ∧ wStarts 4 false wS (fun s1 => thenOk (readVa 0 0 wC (gOf wC 15) 8 s1) (fun _ _ => true)) = true ∧
    wStarts 4 false (wAt .u) (fun _ => true) = true ∧ wStarts 4 false (wAt .s) (fun _ => true) = true ∧ decodeZero wZero = some 5 ∧
    (ctxOf wXret 0 0).psw.pl = .s ∧ (ctxOf wXret 0 0).xs.xpsw.toNat / 2 ^ 30 % 4 = 2 ∧ wStarts 4 false wXret (fun _ => true) = true ∧
    eventDue wS 0 wC = false ∧ wStarts 4 false wS (fun s1 =>
      !eventDue (updCtx 0 0 (fun k => { k with sdRun := 0, sdBytes := 0 }) s1) 0 wC) = true ∧
    (let c := ctxOf wDue 0 0
     eventDue wDue 0 c = true ∧ wStarts 4 false wDue (fun s1 => eventDue s1 0 c) = true) ∧
    (ctxOf (wCtx { cH with wait := some 1 }) 0 0).wait = some (0 + 1) ∧ (ctxOf (wCtx { cH with wait := some 0 }) 0 0).wait = some 0 := by
  decide +kernel

/-- A value instruction of two or three operands reads and computes. -/
def wValue (o : AnOp) (k : Alu) (s : State) : Bool :=
  let c := ctxOf s 0 0
  let l := if o.fmt = 1 then 1 else 2
  let m := if o.fmt = 1 then 2 else 1
  let dst := if o.fmt = 1 then 3 else 2
  wSome (decodeAn o [0, 1]) (fun d => (!k.logic || d.t.isInt) && d.t != .bs && specsOk d [dst] && wStarts d.n false s (fun s1 =>
    thenOk (evalOps 0 0 (withRoles d 0 [dst]) s1 c) (fun s2 r =>
      thenOk (readOp 0 0 d.t (opSize d.t (d.dig l) 0) s2 (r.1.getD (l - 1) (.reg 0))) (fun s3 a =>
        thenOk (readOp 0 0 d.t (opSize d.t (d.dig m) 0) s3 (r.1.getD (m - 1) (.reg 0))) (fun s4 b =>
          (compute k d.t r.2.psw (freeVal s4) (d.dig l) (d.dig m) (d.dig dst) a b).toOption.isSome)))))

theorem wit_AnValues :
    (aluRows.all (fun r => wValue (wAn 0 2 [0x4100, 0x4300]) r.2 wS && wValue (wAn 1 3 [0x4100, 0x4300, 0x4400]) r.2 wS)) = true ∧
    (unaryRows.all (fun r => wSome (decodeAn (wAn 0 3 [0x4100, 0x4300]) [0]) (fun d => d.t.isInt && specsOk d [2] &&
      wStarts d.n false wS (fun s1 => thenOk (evalOps 0 0 (withRoles d 0 [2]) s1 wC) (fun s2 q =>
        thenOk (readOp 0 0 d.t (opSize d.t d.d1 0) s2 (q.1.getD 0 (.reg 0))) (fun s3 a =>
          (compute r.2 d.t q.2.psw (freeVal s3) d.d1 d.d1 d.d2 a a).toOption.isSome)))))) = true := by
  decide +kernel

theorem wit_IntegerArithmetic :
    Ty.i8.isInt = true ∧ Ty.i128.isInt = true ∧ (0 : BitVec (8 * Ty.i32.bytes)) = 0 ∧ (1 : BitVec (8 * Ty.i32.bytes)) ≠ 0 ∧
    BitVec.sdivOverflow (0x80000000 : BitVec (8 * Ty.i32.bytes)) 1 = false ∧ BitVec.sdivOverflow (0x80000000 : BitVec (8 * Ty.i32.bytes)) (-1) = true := by
  decide +kernel

theorem wit_Shifts : Ty.i8.isInt = true ∧ 255 < 2 ^ (8 * Ty.i8.bytes) ∧ (0x7F : BitVec (8 * Ty.i8.bytes)).msb = false := by decide +kernel

/-- CMP, TEST: two operands read. -/
def wTwo (o : AnOp) (wr : List Nat) (s : State) (f : Dec → State → List Opd × Ctx → Bool) : Bool :=
  wSome (decodeAn o [0]) (fun d => d.t != .bs && specsOk d wr && wStarts d.n false s (fun s1 =>
    thenOk (evalOps 0 0 (withRoles d 0 wr) s1 (ctxOf s 0 0)) (fun s2 r => f d s2 r)))

def wStr32 : State := wPut 0x2000 [0x1C] (wCtx { cH with g := [(1, 7), (2, 0x2000), (3, 9)] })

theorem wit_ComparesMoves :
    (wTwo (wAn 0 3 [0x4100, 0x4300]) [] wS (fun d s2 r => thenOk (readOp 0 0 d.t (opSize d.t d.d1 0) s2 (r.1.getD 0 (.reg 0))) (fun s3 a =>
      thenOk (readOp 0 0 d.t (opSize d.t d.d2 0) s3 (r.1.getD 1 (.reg 0))) (fun s4 b => d.t.isInt && (compareCc d.t r.2.psw (freeVal s4) d.d2 d.d1 b a).toOption.isSome)))) = true ∧
    (wTwo (wAn 0 3 [0x4100, 0x4300]) [2] wS (fun d s2 r => d.t != .pd && thenOk (readOp 0 0 d.t (opSize d.t d.d1 0) s2 (r.1.getD 0 (.reg 0))) (fun _ _ => true))) = true ∧
    (wTwo (wAn 0 10 [33, 0x5200, 0x5200]) [2] wStr32 (fun d s2 r => d.t == .pd && thenOk (readOp 0 0 d.t (opSize d.t d.d1 0) s2 (r.1.getD 0 (.reg 0))) (fun _ a =>
      wSome (pdVal d.d1 a) (fun v => !(pdOver d.d2 v && r.2.psw.dv))))) = true ∧
    (wSome (decodeAn (wAn 2 3 [0x4100]) [2]) (fun d => specsOk d [1] && wSome (bsLen d wC) (fun n => wStarts d.n false wS (fun s1 =>
      thenOk (evalOps 0 0 (withRoles d n [1]) s1 wC) (fun _ _ => true))))) = true ∧
    (wSome (decodeAn (wAn 0 3 [0x5200, 0x4300]) [0]) (fun d => d.t.isInt && specOk d.t false true (d.specs.getD 0 (.reg 0)) && specOk d.t true false (d.specs.getD 1 (.reg 0)) &&
      wStarts d.n false wS (fun s1 => thenOk (evalOps 0 0 [(d.specs.getD 0 (.reg 0), d.t.bytes, .adr), (d.specs.getD 1 (.reg 0), d.t.bytes, .wr)] s1 wC) (fun _ r =>
        r.1.getD 0 (.reg 0) == .adr 0x2000)))) = true ∧
    (wSome (decodeCvt (wAn 0 2 [3, 0x4100, 0x4300])) (fun d => specOk d.t false false d.a && specOk d.u true false d.b && wStarts d.n false wS (fun s1 =>
      thenOk (evalOps 0 0 [(d.a, opSize d.t d.d1 0, .rd), (d.b, opSize d.u d.d2 0, .wr)] s1 wC) (fun s2 r =>
        thenOk (readOp 0 0 d.t (opSize d.t d.d1 0) s2 (r.1.getD 0 (.reg 0))) (fun s3 a => (convert d.t d.u r.2.psw (freeVal s3) d.d1 d.d2 a).toOption.isSome))))) = true ∧
    (wSome (decodeAn (wAn 0 11 [4095, 0x5200, 0x5F00]) [0]) (fun d => d.t == .bs && specsOk d [2] && wSome (bsLen d wC) (fun n => n == 4096 && wStarts d.n false wS (fun s1 =>
      thenOk (evalOps 0 0 (withRoles d n [2]) s1 wC) (fun _ r => match r.1.getD 1 (.reg 0) with | .mem _ _ => true | _ => false))))) = true ∧
    (wSome (decodeAn (wAn 0 11 [1, 0x5200, 0x5F00]) [0]) (fun d => wSome (bsLen d wC) (fun n => wStarts d.n false wS (fun s1 =>
      thenOk (evalOps 0 0 (withRoles d n [2]) s1 wC) (fun s2 r => thenOk (readOp 0 0 d.t n s2 (r.1.getD 0 (.reg 0))) (fun _ _ => true)))))) = true := by
  decide +kernel

/-- A string instruction of one byte up to the chunks of its operands. -/
def wStrOps (n1 : Nat) (wr2 : Bool) (f : State → List Chunk → List Chunk → Bool) : Bool :=
  wSome (decodeAn (wAn 0 11 [1, 0x5200, 0x5F00]) [0]) (fun d => wSome (bsLen d wC) (fun n => wStarts d.n false wS (fun s1 =>
    thenOk (strOps (wAn 0 11 [1, 0x5200, 0x5F00]) d n (if n1 = 0 then n else n1) wr2 s1 wC) (fun s2 r => f s2 r.2.1 r.2.2.1))))
def wLoads (s : State) (ks : List Chunk) : Bool := thenOk (loadChunks 0 0 ks s) (fun _ _ => true)

/-- An atomic on G1 (operand 1), [G2] (its memory operand). -/
def wAtom (o : AnOp) (fmt k : Nat) (wr : List Nat) (f : Nat → Nat → Bool) : Bool :=
  wSome (decodeAn o [fmt]) (fun d => atomTy d.t && d.specs.length == k &&
    ((upTo k).all fun i => specOk d.t (wr.contains (i + 1)) false (d.specs.getD i (.reg 0))) && wStarts d.n false wS (fun s1 =>
    thenOk (atomEval o d.t.bytes wr 1 d.specs s1 wC) (fun s2 r =>
      thenOk (readOp 0 0 d.t d.t.bytes (oneShot 0 0 s2) (r.1.getD 0 (.reg 0))) (fun u1 a =>
        thenOk (readOp 0 0 d.t d.t.bytes u1 (r.1.getD (k - 1) (.reg 0))) (fun _ m =>
          r.1.length == k && r.1.all (fun op => thenOk (readOp 0 0 d.t d.t.bytes u1 op) (fun _ _ => true)) && f (ofBytes a) (ofBytes m))))))

theorem wit_StringsAtomics :
    wStrOps 0 true (fun s k1 _ => wLoads s k1) = true ∧ wStrOps 0 false (fun s k1 k2 => wLoads s k1 && wLoads s k2) = true ∧
    wStrOps 256 true (fun s k1 k2 => wLoads s k1 && wLoads s k2) = true ∧
    ([1, 2, 3] : List Byte).length = ([1, 2, 4] : List Byte).length ∧ ([1, 2, 3] : List Byte).take 2 = ([1, 2, 4] : List Byte).take 2 ∧
    wAtom (wAn 1 2 [0x4100, 0x4300, 0x5200]) 1 3 [1, 3] (fun a m => a != m) = true ∧
    wAtom (wAn 1 2 [0x4600, 0x4300, 0x5200]) 1 3 [1, 3] (fun a m => a == m) = true ∧
    wAtom (wAn 0 3 [0x4100, 0x5200]) 0 2 [1, 2] (fun _ _ => true) = true ∧ (256 : Nat) ≤ 256 ∧ (256 : Nat) < 257 := by
  decide +kernel

/-- A system instruction's decoding and start. -/
def wDec (o : AnOp) (fmt : Nat) (s : State) (f : Dec → State → Bool) : Bool :=
  wSome (decodeAn o [fmt]) (fun d => d.t.isInt && wStarts d.n false s (fun s1 => f d s1))
def wSp (d : Dec) (i : Nat) : Spec := d.specs.getD i (.reg 0)
def wDest (d : Dec) (i : Nat) (s1 : State) (w : Ctx) : Bool :=
  specOk d.t true false (wSp d i) && thenOk (evalOp 0 0 d.t.bytes .wr s1 w (wSp d i)) (fun _ _ => true)
def wCrOk (c : Ctx) (sp : Spec) : Bool := (crCheck c (crNum sp)).toOption.isSome

theorem wit_ControlRegisters :
    wDec (wAn 0 3 [0xB028, 0x4100]) 0 wS (fun d s1 => specOk d.t false false (wSp d 0) && wCrOk wC (wSp d 0) && wDest d 1 s1 wC) = true ∧
    wDec (wAn 0 3 [0x4100, 0xB002]) 0 wS (fun d s1 => d.specs.all (specOk d.t false false) && wCrOk wC (wSp d 1) &&
      thenOk (rdSrc (wAn 0 3 [0x4100, 0xB028]) d 0 s1 wC) (fun _ r => r.1 == 7)) = true ∧
    wDec (wAn 2 3 [0x4100]) 2 wS (fun d s1 => wDest d 0 s1 wC && specOk d.t false false (wSp d 0) && thenOk (rdSrc (wAn 2 3 [0x4100]) d 0 s1 wC) (fun _ _ => true)) = true ∧
    wDec (wAn 0 3 [0x4100, 0xB003]) 0 wS (fun d s1 => d.specs.all (specOk d.t false false) && thenOk (rdSrc (wAn 0 3 []) d 0 s1 wC) (fun u r =>
      thenOk (rdSrc (wAn 0 3 []) d 1 u r.2) (fun _ b => decide (b.1 ≤ 3)))) = true ∧
    wDec (wAn 0 3 [0xB003, 0x4100]) 0 wS (fun d s1 => specOk d.t false false (wSp d 0) && thenOk (rdSrc (wAn 0 3 []) d 0 s1 wC) (fun u b => decide (b.1 ≤ 3) && wDest d 1 u b.2)) = true ∧
    crLevel 0x01 = some .s ∧ crLevel 0x30 = some .s ∧ crLevel 0x2E = some .h ∧ crLevel 0x3F = none ∧ (ctxOf (wAt .u) 0 0).psw.pl = .u ∧
    wDec (wAn 2 3 [0x5200]) 2 wS (fun d s1 => areaOk d && thenOk (areaOf (wAn 2 3 []) d .write s1 wC) (fun _ _ => true) &&
      thenOk (areaOf (wAn 2 3 []) d .read s1 wC) (fun s2 r => wLoads s2 r.1)) = true ∧ wC.psw.pl ≠ .u := by
  decide +kernel

def wTlbq : State := { wUp with tlbq := [tlbiOf 2 0 0 0 cH [3]] }
def wBadStore : State := wCtx { cH with badStore := some 0x40 }
/-- The page of G2 is locked; 64 other entries are. -/
def wTlb (va : Nat) : TlbEntry := TlbEntry.mk true 0 0 true va 0x1000 va 0 false false true true true true true none 1 1
def wLocked (n va : Nat) : State := updLcn 0 (fun k => { k with locks := (upTo n).map (fun i => wTlb (va + i * 0x1000)) }) wS

theorem wit_Translations :
    (tlbiRows.all (fun r => (wDec (wAn 2 r.2.1 [0x4100]) 2 wS (fun d s1 => specOk d.t false false (wSp d 0) && thenOk (rdSrc (wAn 2 3 []) d 0 s1 wC) (fun _ _ => true))))) = true ∧
    decodeZero (wAn 3 0 [0]) = some 0 ∧ wC.psw.pl = .h ∧ (tlbiArrive 3 wTlbq.tlbq).1.isSome = true ∧ (tlbiArrive 4 wTlbq.tlbq).1 = none ∧ live wTlbq = true ∧
    wSome (decodeDev (wAn 2 0 [0x4100]) 2) (fun p => wStarts p.n false wS (fun s1 => thenOk (rdVal (wAn 2 0 []) .i64 (p.sp 0) s1 wC) (fun _ _ => true) &&
      thenOk (wrVal (wAn 2 0 []) (p.sp 0) s1 wC) (fun _ _ => true))) = true ∧
    wStarts 4 false wS (fun s1 => (ctxOf (drainAll 0 0 s1) 0 0).badStore == none) = true ∧
    wStarts 4 false wBadStore (fun s1 => (ctxOf (drainAll 0 0 s1) 0 0).badStore == some 0x40) = true := by
  decide +kernel

def wLock (s : State) (f : Bool → Nat → Bool → Bool) : Bool :=
  let c := ctxOf s 0 0
  wSome (decodeDev (wAn 2 0 [0x5200]) 2) (fun p => memSpec (p.sp 0) && wStarts p.n false s (fun s1 => thenOk (addrOf 0 0 1 s1 c (p.sp 0)) (fun s2 r =>
    f ((lcnOf s2 0).locks.any (tlbHit r.2 r.1)) (lcnOf s2 0).locks.length (thenOk (translate s2 0 r.2 r.1 .tlock) (fun _ _ => true)))))

theorem wit_Translations_locks :
    wLock wS (fun held n t => !held && n == 0 && t) = true ∧ wLock (wLocked 64 0x100000) (fun held n t => !held && n == 64 && t) = true ∧
    wLock (wLocked 64 0x2000) (fun held _ t => held && t) = true ∧
    (let o := wAn 0 0 [0xB007, 0x4100]
     let go := fun (o : AnOp) (f : Nat → Bool) => wSome (decodeDev o 0) (fun p => wStarts p.n false wS (fun s1 =>
       thenOk (rdVal o .i16 (p.sp 0) s1 wC) (fun s2 r => f r.1 && thenOk (wrVal o (p.sp 1) s2 r.2) (fun _ _ => true))))
     go o (fun v => v == 7) = true ∧ go (wAn 0 0 [0xB008, 0x4100]) (fun v => v == 8) = true) ∧
    (ctxOf (wAt .u) 0 0).uread = false ∧ (⟨2 ^ 48 - 1, 2, true⟩ : Ctr).val < 2 ^ 48 ∧ 2 ∉ openEvents := by
  decide +kernel

theorem wit_OneShots :
    (let go := fun (t : Ty) (n : Nat) =>
       let o := wAn 1 0 [0x4300, 0x5200, 0x4100]
       wSome (decodeDev o 1) (fun p => wStarts p.n false wS (fun s1 => thenOk (rdVal o t (p.sp 0) s1 wC) (fun s2 r =>
         thenOk (memVal o n .read (p.sp 1) s2 r.2) (fun s3 k => thenOk (wrVal o (p.sp 2) s3 k.2) (fun s4 _ =>
           thenOk (publish 0 0 s4) (fun s5 _ => wLoads (oneShot 0 0 s5) k.1))))))
     go .i16 32 = true ∧ go .i32 16 = true) ∧
    (let o := wAn 0 0 [0x4300, 0x5200]
     wSome (decodeDev o 0) (fun p => wStarts p.n false wS (fun s1 => thenOk (rdVal o .i16 (p.sp 0) s1 wC) (fun s2 r =>
       thenOk (memVal o 32 .write (p.sp 1) s2 r.2) (fun s3 _ => (devPerform (devReq o (oneShot 0 0 s3) wC) (.test r.1) (oneShot 0 0 s3)).code == 3)))) = true) ∧
    (let o := wAn 2 0 [0x4300]
     wSome (decodeDev o 2) (fun p => wStarts p.n false wS (fun s1 => thenOk (rdVal o .i16 (p.sp 0) s1 wC) (fun _ _ => true))) = true) ∧
    (let o := wAn 0 0 [0x5200, 0xB001]
     wSome (decodeDev o 0) (fun p => wStarts p.n false wS (fun s1 => thenOk (memVal o 64 .read (p.sp 0) s1 wC) (fun s0 r =>
       thenOk (rdVal o .i8 (p.sp 1) s0 r.2) (fun s2 _ => thenOk (publish 0 0 s2) (fun s3 _ => wLoads (oneShot 0 0 s3) r.1))))) = true) := by
  decide +kernel

/-! ### Witnesses: A5 instructions, events and moves of a core -/

def wA : State := wCtx cA5
def wAc : Ctx := ctxOf wA 0 0
def wA5 (ra rb f : Nat) (g : A5Op → State → Bool) : Bool :=
  let o : A5Op := ⟨0, 0, ra, rb, f⟩
  live wA && ctxRuns wA 0 0 && wAc.psw.a5 && thenOk (a5Fetch wA 0 wAc) (fun s1 _ => g o s1)
/-- The EA of a load or store of A[rb] + F, below CLIM, read and written. -/
def wA5Mem (ra rb f : Nat) : Bool :=
  wA5 ra rb f (fun _ s1 => let n := (BitVec.ofNat 32 (a5Get wAc (.a rb)) + BitVec.signExtend 32 (BitVec.ofNat 16 f)).toNat
    a5Reg rb == some (.a rb) && decide (n ≤ wAc.clim.toNat) && wSome (a5Reg ra) (fun r =>
      thenOk (readVa 0 0 wAc ((wAc.cbase.toNat + n) % 2 ^ 64) r.bytes s1) (fun _ _ => true) &&
      thenOk (resolve s1 0 wAc ((wAc.cbase.toNat + n) % 2 ^ 64) r.bytes .write) (fun _ _ => true)))

theorem wit_A5Values :
    wA5 0 0 0 (fun _ _ => true) = true ∧ wA5Mem 1 1 4 = true ∧ wA5Mem 8 2 0xFFFF = false ∧ wA5Mem 8 1 0xFFFC = true ∧ wA5Mem 0x18 1 0 = true ∧
    (a5Reg 8).map A5Reg.isD = some true ∧ (a5Reg 1).map A5Reg.isA = some true ∧ (a5Reg 0x18).map A5Reg.isAc = some true ∧
    wA5 8 0 0 (fun _ s1 => thenOk (readVa 0 0 wAc (wAc.cbase.toNat + 65536) 8 s1) (fun _ _ => true)) = true ∧
    wAc.bnk.toNat * 65536 + 0 % 65536 = 65536 ∧ 65536 ≤ wAc.clim.toNat ∧ a5Ty (.d 0) = a5Ty (.d 1) ∧ a5Reg 9 = some (.d 1) ∧
    (a5AluRows.all (fun i => (compute i.2.1 .i128 wAc.psw 0 0 0 0 (toBytes 16 28) (toBytes 16 45)).toOption.isSome)) = true ∧
    (match compute .div .i128 wAc.psw 0 0 0 0 (toBytes 16 28) (toBytes 16 0) with | .error _ => true | .ok _ => false) = true := by
  decide +kernel

theorem wit_A5Control :
    (let sp := (BitVec.ofNat 32 (a5Get wAc (.a 7)) - 4).toNat
     decide (sp ≤ wAc.clim.toNat) && decide (a5Get wAc (.a 7) ≤ wAc.clim.toNat) &&
     wA5 0 0 0 (fun _ s1 => thenOk (resolve s1 0 wAc ((wAc.cbase.toNat + sp) % 2 ^ 64) 4 .write) (fun _ _ => true) &&
       thenOk (readVa 0 0 wAc ((wAc.cbase.toNat + a5Get wAc (.a 7)) % 2 ^ 64) 4 s1) (fun _ _ => true))) = true ∧
    wA5 11 0 0 (fun _ _ => true) = true ∧ wA5 16 0 0 (fun _ _ => true) = true ∧ wA5 12 0 0 (fun o _ => !(decide (o.ra < 12))) = true ∧
    a5Ty (.a 1) ≠ a5Ty (.d 0) ∧ (ctxOf wS 0 0).psw.a5 = false ∧ ctxRuns wS 0 0 = true ∧
    wAc.clim.toNat < (BitVec.ofNat 32 (a5Get wAc (.a 2)) + BitVec.signExtend 32 (BitVec.ofNat 16 1)).toNat ∧
    wA5 1 2 1 (fun _ _ => true) = true := by
  decide +kernel

def wEv (f : Ctx → Ctx) (ext : List Nat) : State := updLcn 0 (fun k => { k with ext := ext }) (wCtx (f { cH with psw := { cH.psw with ie := true } }))
def wErr (a : Nat) (errs del : List Nat) : State := updLcn 0 (fun k => { k with attempt := a, errs := errs, l2deleted := del }) (wCtx cH)

/-- Entry 5 of the L2 data array of core 0, as `errs` holds it. -/
def wKeyE : Nat := 7 * 2 ^ 40 + 5

theorem wit_CoreEvents :
    (∀ s ∈ [wEv (fun c => { c with clockLoss := true }) [], wEv (fun c => { c with modeChange := true }) [],
        wEv (fun c => { c with debugDue := true }) [], wEv id [255], wEv (fun c => { c with clockLoss := true, modeChange := true, debugDue := true }) [0]],
      live s = true ∧ (ckOf s 0 0).rest = none ∧ atBoundary s 0 0 = true ∧ (ctxOf s 0 0).mcheck = none ∧ (ctxOf s 0 0).psw.ie = true) ∧
    (lcnOf (wEv id [255]) 0).ext.contains 255 = true ∧ (ctxOf wS 0 0).psw.ie = false ∧
    (∀ s ∈ [wErr 0 [] [], wErr 1 [wKeyE] [1, 2, 3, 4, 5, 6, 7], wErr 1 [wKeyE] [1, 2, 3, 4, 5, 6, 7, 8], wErr 2 [4] []],
      live s = true ∧ lcnRuns s 0 = true ∧ coreOf s 0 = some 0 ∧ (lcnOf s 0).attempt < 3 ∧ l2Of s 0 0x40 ≠ .m ∧ (ctxOf s 0 1).mcheck = none) ∧
    wKeyE ∈ (lcnOf (wErr 1 [wKeyE] []) 0).errs ∧ CoreArr.l2data.n * 2 ^ 40 + 5 % 2 ^ 40 = wKeyE ∧
    l2Of (updCoh (fun k => { k with l2 := [(ckey 0 0x40, .m)] }) wUp) 0 0x40 = .m ∧
    (lcnOf (wErr 1 [] []) 0).attempt ≠ 0 ∧ (lcnOf (wErr 2 [] []) 0).attempt ≠ 0 := by
  decide +kernel

/-- LCN 0 needs a spare; no core is free; its move runs. -/
def wNeeds : State := updLcn 0 (fun k => { k with attempt := 4 }) wUp
def wNone : State := (upTo 8).foldl (fun s d => updDie d (fun x => { x with failed := upTo 68 }) s) wNeeds
def wMove : Move := { lcn := 0, old := 0, new := 64, cause := 0, cmd := none }
def wMoving : State := { wUp with moves := [wMove] }

theorem wit_CoreMoves :
    live wUp = true ∧ unitReady wUp (wHub 11 0) = true ∧ unitType (wHub 11 0) ≠ 3 ∧ unitType (wHub 11 0) ≠ 1 ∧ unitReady wUp 0x100 = true ∧
    unitType 0x100 = 1 ∧ unitReady (wCh .mapped wUp) (wHub 3 0) = true ∧ unitType (wHub 3 0) = 3 ∧
    coreOf wNeeds 0 = some 0 ∧ wNeeds.moves.any (fun m => m.lcn == 0) = false ∧ needsSpare (lcnOf wNeeds 0) = true ∧
    chooseSpare wNeeds 0 true = some 64 ∧ coreOf wNone 0 = some 0 ∧ spareCmd wNone 0 = none ∧ chooseSpare wNone 0 true = none ∧ live wNone = true ∧
    wMoving.moves.find? (fun m => m.lcn == 0) = some wMove ∧ wMove.cmd = none ∧ lcnRuns wUp 0 = true ∧ coreOf wUp 0 = some 0 ∧
    (ctxOf (wCtx { cH with mcheck := some (3, 0) }) 0 0).mcheck = some (3, 0) := by
  decide +kernel

/-! ### Witnesses: coherence and the fabric -/

/-- A message of agent 0 about sector 0x40 of Hub A. -/
def wMsg : Msg := Msg.mk 0 .a .a 0x40 0 0 false false [] 0 0 0 0 0 0 0
def wTx (op : MsgOp) (phase : Nat) : HTrans := HTrans.mk op wMsg [0] [] none false phase false
def wHome (f : Home → Home) : State := updHome .a f wUp
def wOpen (op : MsgOp) (phase : Nat) : State := wHome (fun h => { h with trans := [(0, some (wTx op phase))] })
def wFullTx : State := wHome (fun h => { h with trans := (upTo 4096).map (fun i => (i, some { wTx .rds 0 with m := { wMsg with sector := 0x80 } })) })
def wDir (a own : Nat) (s : State) : State :=
  setDir .a 0x10 (fun _ => addHolder a (setOwner 0x40 own { DirEnt.none with v := true })) s
def wHas (st : Moesi) : State := setCsec 0 0x40 ⟨st, [], false⟩ wUp
def wVict : State := updCoh (fun k => { k with victim := [⟨0, 0x40, true, [], false⟩] }) wUp

/-- 24 other lines of the directory set of line 0x10 have entries. -/
def wFullSet (f : DirEnt) : State := wHome (fun h => { h with dir := (upTo 24).map (fun k => (0x10 + (k + 1) * 2 ^ 36, f)) })

/-- Every message may arrive; over modules that do not carry traffic, behind an earlier packet of its flow, or outside the
Breakwater's row, it may not. -/
theorem wit_MessageArrival :
    (∀ op ∈ allOps, live wUp = true ∧ mayArrive wUp op wMsg = (op != .mirw && op != .mirack && op != .mirh)) ∧
    (∀ op ∈ [MsgOp.mirw, .mirack], bwStops wUp ⟨op, wMsg⟩ = true) ∧
    (∀ op ∈ [MsgOp.rdx, .wrf, .wbn, .snpx, .rspI, .gntM, .cack, .wback],
      bwStops wDark ⟨op, wMsg⟩ = false ∧ linksUp wDark ⟨op, wMsg⟩ = false ∧
      behind (updCoh (fun k => { k with net := [⟨op, { wMsg with txid := 9 }⟩, ⟨op, wMsg⟩] }) wUp) ⟨op, wMsg⟩ = true) := by
  decide +kernel

theorem wit_HomeRequests :
    homeFor wUp .a 0x40 = .a ∧ locked wUp.home.a 0x40 = false ∧ freeTx wUp.home.a = some 0 ∧ (setOf wUp.home.a 0x10).length < 24 ∧
    hasNmu wUp = true ∧ wUp.latches = [] ∧ locked (wOpen .rds 0).home.a 0x40 = true ∧ locked wFullTx.home.a 0x40 = false ∧ freeTx wFullTx.home.a = none ∧
    (∀ op ∈ [MsgOp.rds, .rdx, .upg, .rdc, .wrf, .wrp, .atm, .mnt], mayArrive (wOpen .rds 0) op wMsg = true ∧ mayArrive wFullTx op wMsg = true) ∧
    (∀ e ∈ [(⟨true, true, 0, 0, 0, [31, 31, 31, 31], 0⟩ : DirEnt), ⟨true, false, 0, 0, 0, [31, 31, 31, 31], 0⟩, ⟨true, false, 0, 1, 0, [31, 31, 31, 31], 0⟩],
      let s := wFullSet e
      mayArrive s .rds wMsg = true ∧ (dirOf s .a 0x10).v = false ∧ (setOf s.home.a 0x10).length = 24 ∧
        (victimEntry s.home.a 0x10).map (fun x => (x.1, listed x.2)) = if e.pin then none else some (0x10 + 2 ^ 36, if e.pv = 0 then [] else [0])) ∧
    (wTx .rds 0).backInv = false ∧ (wTx .rds 0).dirty = none := by
  decide +kernel

/-- A request opens its transaction alone. -/
def wAlone (op : MsgOp) (s : State) : Bool :=
  let s1 := if needsEntry op then touchEntry .a 0x10 s else s
  mayArrive s op wMsg && !locked s.home.a 0x40 && freeTx s.home.a == some 0 && decide ((setOf s.home.a 0x10).length < 24) && snoopSet s1 .a op wMsg == []

theorem wit_RequestsComplete :
    live wUp = true ∧ homeFor wUp .a 0x40 = .a ∧ (∀ op ∈ [MsgOp.rds, .rdx, .upg, .rdc, .wrf, .wrp, .atm, .mnt], take op wMsg wUp = wUp ∧ wAlone op wUp = true) ∧
    atmNew wMsg wUp ∧ effMode wUp ≠ .degraded := by
  refine ⟨by decide +kernel, by decide +kernel, by decide +kernel, ⟨by decide +kernel, by decide +kernel⟩, by decide +kernel⟩

theorem wit_Snoops :
    (∀ op ∈ [MsgOp.snps, .snpx, .snpc, .snpk, .snpi], mayArrive wVict op wMsg = true) ∧ (∀ st ∈ [Moesi.i, .s, .e, .m, .o], (csec (wHas st) 0 0x40).st = st ∧ live (wHas st) = true) ∧ wUp.coh.victim = [] ∧
    wVict.coh.victim.any (fun v => v.agent = 0 && v.sector = 0x40) = true ∧
    (wOpen .rds 0).coh.net = [] ∧ tget none (wOpen .rds 0).home.a.trans 0 = some (wTx .rds 0) ∧ (wTx .rds 0).await.contains 0 = true ∧
    locks (wTx .rds 0) 0x40 = true ∧
    (∀ op ∈ [MsgOp.rspI, .rspS, .rspE, .rspO, .rspM, .rspMiss, .rspEvicting], mayArrive (wDir 0 0 (wOpen .rds 0)) op wMsg = true) ∧
    (let s := wDir 0 0 (wOpen .rds 0)
     (dirOf s .a (0x40 / 4)).v = true ∧ ownerOf (dirOf s .a (0x40 / 4)) 0x40 = 0) ∧
    (let s := wDir 0 31 (wOpen .rds 0)
     (dirOf s .a (0x40 / 4)).v = true ∧ ownerOf (dirOf s .a (0x40 / 4)) 0x40 ≠ 0) := by
  decide +kernel

theorem wit_LateResponses : live wUp = true ∧ mayArrive wUp .rspI wMsg = true ∧ mayArrive wUp .wbn wMsg = true ∧ tget none wUp.home.a.trans 0 = none ∧ MsgOp.rspI ≠ .wbn := by decide +kernel

theorem wit_HomeEnds :
    live (wOpen .rds 1) = true ∧ tget none (wOpen .rds 1).home.a.trans 0 = some (wTx .rds 1) ∧ (wTx .rds 1).phase = 1 ∧ wMsg.agent < 18 ∧
    (∀ op ∈ [MsgOp.cack, .wbn, .gntS, .gntE, .gntM, .cmp, .wback, .retry], mayArrive (wOpen .rds 1) op wMsg = true ∧ mayArrive (wDir 0 0 wVict) op wMsg = true) ∧
    (updCoh (fun k => { k with refused := [⟨.rds, wMsg⟩] }) wUp).coh.refused.find? (fun q => q.req == .rds && q.m.agent == 0 && q.m.sector == 0x40) = some ⟨.rds, wMsg⟩ ∧
    (let s := wDir 0 0 wVict
     s.coh.victim.any (fun v => v.agent = 0 && v.sector = 0x40) = true ∧ (dirOf s .a 0x10).v = true ∧ ownerOf (dirOf s .a 0x10) 0x40 = 0 ∧
       homeFor s .a 0x40 = .a ∧ s.home.a.trans = []) ∧
    ((wHome (fun h => { h with park := [⟨.rds, wMsg⟩] })).home.get .a).park = ⟨.rds, wMsg⟩ :: [] ∧ (wUp.home.get .a).park = [] ∧
    (updCoh (fun k => { k with retries := [⟨.rds, wMsg⟩] }) wUp).coh.retries.find? (fun q => q.m.agent == 0 && q.m.sector == 0x40) = some ⟨.rds, wMsg⟩ := by
  decide +kernel

/-- A read of SYS_MODE by LCN 0, and one of its load from the window of port 0. -/
def wReg : Msg := { wMsg with sector := 0xFFF0001000000 / 64, aux := 4, rid := 1 }
def wLatch (u : Nat) : State := { wUp with latches := [⟨u, 0, 0, 1, []⟩] }
def wAsleep (n : Nat) : State := setPstate (sealUnit .a 0) 1 (updFab (fun x => { x with asleep := [⟨.rrd, wMsg, n, 1⟩] }) wUp)

theorem wit_FabricRequests :
    live wUp = true ∧ (∀ op ∈ [MsgOp.rrd, .rwr], mayArrive wUp op wReg = true ∧ mayArrive (wLatch (regUnit .a 0x1000000)) op wReg = true) ∧
    regTarget wUp .a (msgPa wReg) 4 = some (.a, 0x1000000) ∧ latched wUp (regUnit .a 0x1000000) 0 0 1 = none ∧
    (latched (wLatch (regUnit .a 0x1000000)) (regUnit .a 0x1000000) 0 0 1).isSome = true ∧
    regTarget wUp .a (msgPa wMsg) 4 = none ∧ winTarget wUp .a (msgPa wMsg) 4 = none ∧
    latched wUp (opUnit wUp ⟨0, 0, 2, 0, 1⟩ (.test 0)) 0 0 1 = none ∧ (latched (wLatch (cssUnit .a)) (opUnit wUp ⟨0, 0, 2, 0, 1⟩ (.test 0)) 0 0 1).isSome = true ∧
    lcnCount wUp = 1024 ∧ wMsg.rid = 0 ∧ wReg.rid ≠ 0 ∧ mayArrive (wCtx cH) .aerr wReg = true ∧ ctxRuns (take .aerr wReg (wCtx cH)) 0 0 = true ∧
    mayArrive (wAsleep 15) .rrd wMsg = true ∧ asleepHint (wAsleep 15) (sealUnit .a 0) = some 1 ∧
    (wAsleep 15).fab.asleep.find? (fun a => a.op == .rrd && a.m == wMsg) = some ⟨.rrd, wMsg, 15, 1⟩ ∧
    (wAsleep 14).fab.asleep.find? (fun a => a.op == .rrd && a.m == wMsg) = some ⟨.rrd, wMsg, 14, 1⟩ ∧ mayArrive wUp .domainOff wMsg = true ∧
    (∀ st ∈ [1, 2, 3], pstateOf (setPstate (sealUnit .a 0) st wUp) (sealUnit .a 0) = st) ∧ unitType (sealUnit .a 0) = 4 ∧ pstateOf wUp (sealUnit .a 0) = 0 ∧
    0 < (updCoh (fun c => { c with net := [⟨.rds, wMsg⟩] }) wUp).coh.net.length := by
  decide +kernel

def wMir : State := updPkg (fun p => { p with mode := .mirrored }) wUp
def wModule (f : Ryt → Ryt) : State := updRyt 0 f wUp

theorem wit_Links :
    bwCarries wMir true = true ∧ bwCarries wUp true = false ∧
    tget none (wOpen .wrf 2).home.a.trans 0 = some (wTx .wrf 2) ∧ (wTx .wrf 2).phase = 2 ∧ live (wOpen .wrf 2) = true ∧ mayArrive (wMode .mirrored (wOpen .wrf 2)) .mirack wMsg = true ∧
    (({ wUp with mirq := ⟨[.logNew (wEntry 3)], []⟩ }).mirq.get .a) = .logNew (wEntry 3) :: [] ∧ (wUp.mirq.get .a) = [] ∧
    (logPlace wUp.log.a.entries { wEntry 3 with index := 0, peer := true }).isSome = true ∧
    (∀ op ∈ [MsgOp.mirw, .mirack], live wMir = true ∧ mayArrive wMir op wMsg = true) ∧
    (rytOf wUp 0).st = .up ∧ (rytOf (wModule (fun r => { r with nak := some 65535 })) 0).nak = some 65535 ∧
    (rytOf (wModule (fun r => { r with hb := some 1 })) 0).hb = some 1 ∧
    rytPresent wUp 0 = true ∧ (∀ r ∈ [{ Ryt.reset with st := .up, fails := 8 }, { Ryt.reset with st := .hold }], wantsRetrain r = true) ∧
    wantsRetrain { Ryt.reset with st := .up, fails := 7 } = false ∧ diePresent wUp 0 = true ∧ wUp.fab.standby.contains 0 = false ∧
    (let k := { Ryt.reset with st := .training, attempt := 3 }
     k.solo = false ∧ k.width = 0 ∧ wUp.prog = [] ∧ 3 ≤ k.attempt) ∧
    popBits 0xF 0 4 = 4 ∧ popBits 1 0 4 = 1 ∧ popBits 0xF00000000 0 32 = 0 ∧ popBits 0xF00000000 32 32 = 4 := by
  decide +kernel

def wChan (f : Chan → Chan) : State := updCh .a 0 f wUp
def wThr (l : Nat) : Throttle := ⟨l, 0, l, false⟩
def wCopy (ptr : Nat) : State :=
  updMem .a (fun m => { m with copy := true, copySrc := 0, copyDst := 1, copyPtr := ptr }) (wCh .mapped wUp)

theorem wit_Channels :
    live wUp = true ∧ (chOf (wCh .mapped wUp) .a 0).st = .mapped ∧ (chOf (wCh .zeroing wUp) .a 0).st = .zeroing ∧
    (chOf (wChan (fun c => { c with merges := [⟨0, 2 ^ 64 - 1, []⟩, ⟨1, 1, []⟩] })) .a 0).merges[0]? = some ⟨0, 2 ^ 64 - 1, []⟩ ∧
    (chOf (wChan (fun c => { c with merges := [⟨0, 2 ^ 64 - 1, []⟩, ⟨1, 1, []⟩] })) .a 0).merges[1]? = some ⟨1, 1, []⟩ ∧
    (wUp.mem.get .a).scrubH ≠ 0 ∧ slotOf (wUp.mem.get .a) 0 = some 0 ∧ Chan.reset.rhEn = true ∧
    lowestThr [wThr 3, wThr 2, wThr 1, wThr 4] = some (wThr 1) ∧ [wThr 3, wThr 2, wThr 1, wThr 4].length = 4 ∧
    ((wCopy 0).mem.get .a).copy = true ∧ ((wCopy 0).mem.get .a).copyPtr < 2 ^ 36 / 256 ∧ 2 ^ 36 / 256 ≤ ((wCopy (2 ^ 28)).mem.get .a).copyPtr := by
  decide +kernel

/-! ### Witnesses: the channel subsystem and its engines -/

/-- Subchannel 0 of Hub A on path port 0, with entries of the IFT; everything is inside its fence. -/
def wSub : Sub := { Sub.reset with v := true, en := true, path := 0x8000, fence := 0xFFFF * 2 ^ 32 }
def wIft (es : List (Nat × Ift)) (s : State) : State := updCss .a (fun c => { c with subs := [(0, wSub)], ift := es, imgLock := true, imgBase := 0x10 }) s
def wEntryAt (st : Nat) : Ift := { Ift.free with st := st, cmdp := 0x2000, tmo := 5, cq := 1 }
def wOp (e : Ift) : State := wIft [(0, e)] (wPp 2 true wUp)
def wCq (f : Cq → Cq) (s : State) : State := updCq .a 1 (fun q => f { q with en := true, base := 0x100000 }) s
def wQ (typ : Nat) (d : List Nat) : State :=
  updFn 0 (fun f => { f with active := [{ Win.zero with en := true, rd := true, wr := true, log2 := 40 }] })
    (updQp 0 (fun x => { x with en := true, typ := typ, got := [(upTo 64).map (fun i => BitVec.ofNat 8 (d.getD i 0))], cqTail := 0 }) wUp)
def wQMine : State := updCss .a (fun c => { c with subs := [(0, { wSub with otype := 1, owner := 0 })] }) (wQ 1 [])
/-- Three entries of a completion queue are occupied. -/
def wCq3 : State := wIft [(0, wEntryAt 8)] (wCq (fun q => { q with tail := 3 }) wUp)

theorem wit_ChannelQueues :
    (let s := wOp (wEntryAt 1)
     activeOf s .a 0 = none ∧ (oldest (queuedOf s .a 0)).isSome = true ∧ choosePath s (subOf s .a 0) (pathsUp s .a (subOf s .a 0)) = some 0) ∧
    (let s := wIft [(0, wEntryAt 1)] wUp
     activeOf s .a 0 = none ∧ (oldest (queuedOf s .a 0)).isSome = true ∧ choosePath s (subOf s .a 0) (pathsUp s .a (subOf s .a 0)) = none) ∧
    (qpFront (wQ 1 []) 0 1).isSome = true ∧ qpOwner (wQ 1 []) 0 = some (0, 0) ∧ subReach wQMine .a 0 = true ∧ (subOf wQMine .a 0).otype = 1 ∧
    (subOf (wQ 1 []) .a 0).otype = 0 ∧
    (let s := wCq id (wOp (wEntryAt 6))
     waitsBehind s .a 0 = false ∧ cqRoom (cqOf s .a 1) = true ∧ cqKey s .a (iftOf s .a 0) = 1 ∧
       (dmaWrite s .a 0x100000 (recordBytes (wEntryAt 6) 0xFF true true 0)).map (fun x => x.2) = some false) ∧
    (let q := cqOf wCq3 .a 1
     cqSlots q ≤ cqSlots q ∧ (3 + cqSlots q - q.head % cqSlots q) % cqSlots q = 3 ∧ 3 < cqSlots q ∧ q.tail = 3 ∧ 4 < cqSlots q) := by
  decide +kernel

theorem wit_OperationEvents :
    (let s := wOp (wEntryAt 2)
     live s = true ∧ (iftOf s .a 0).live = true ∧ (iftOf s .a 0).tmo ≠ 0) ∧
    (let s := wIft [(0, wEntryAt 2)] (wPp 4 false wUp)
     pathUp s .a (subOf s .a 0) 0 = false ∧ (ppOf s 0).st ≠ 3 ∧ (iftOf s .a 0).live = true) ∧
    (iftOf (wOp { wEntryAt 5 with why := 6, redrives := 3 }) .a 0).redrives = 3 ∧ (iftOf (wOp { wEntryAt 5 with why := 6, redrives := 2 }) .a 0).redrives < 3 ∧
    (iftOf (wOp { wEntryAt 5 with why := 6 }) .a 0).why = 6 ∧ (iftOf (wOp (wEntryAt 3)) .a 0).st = 3 ∧ (iftOf (wOp (wEntryAt 4)) .a 0).st = 4 ∧
    (let e := iftOf (wOp { wEntryAt 2 with evs := 32, parked := true, touched := true, mask := 1, park := some 2 }) .a 0
     e.live = true ∧ bitOf e.evs 5 = true ∧ devBusy e = true) ∧
    ((cssOf (wOp { wEntryAt 2 with parked := true, mask := 1, park := some 2 }) .a).ift.find? (fun x => x.2.live && x.2.cpe == 0 && x.2.park == some 2 && x.2.parked)).isSome = true := by
  decide +kernel

theorem wit_PathPorts :
    live wUp = true ∧ (ppOf (wPp 1 true wUp) 0).st = 1 ∧ (ppOf (wPp 2 true wUp) 0).st = 2 ∧ pathupImages (wPp 1 true wUp) 0 = [] ∧
    pathupImages (wIft [] (wPp 1 true wUp)) 0 = [0] ∧ (updPp 0 (fun x => { x with perst := false, st := 1 }) wUp).css.a.pps.length = 1 ∧
    (let p := { PathPort.reset with cycle := 3, pathups := [0, 1] }
     p.pathups.contains 0 = true ∧ p.pathups.erase 0 = [1] ∧ [0].erase 0 = []) ∧
    (ppOf (wPp 3 true wUp) 0).st = 3 ∧ wUp.css.a.ift = [] ∧ wUp.css.b.ift = [] ∧
    (let s := wIft [] (wPp 2 true wUp)
     (endpointRead s 0 0x2000 64).isSome = true ∧ eventSlot .a 0x2000 = none ∧ (endpointWrite s 0 0x2000 [1]).isSome = true) ∧
    endpointRead wUp 0 0x2000 64 = none ∧ endpointWrite wUp 0 0x2000 [1] = none ∧ eventSlot .a 0xFFF0012001020 = some (1, 0x20) := by
  decide +kernel

def wJob (kind : Nat) : Job := ⟨kind, 0, 0, 0⟩
/-- CPE 0 of Hub A runs an entry. -/
def wCpe (kind : Nat) (f : Cpe → Cpe) (e : Ift) : State :=
  updCpe .a 0 (fun k => f { k with cur := some (wJob kind), k := [(2, 0x40000), (3, 0x50000), (4, 0x30000), (5, 0x80000000), (6, 0x1000)] }) (wOp e)
def wCpeOp (y imm : Nat) : CpeOp := { hub := .a, cpe := 0, x := 1, y := y, imm := imm, dev := 0 }
def wRuns (s : State) (f : Cpe → Bool) : Bool :=
  let k := cpeOf s .a 0
  live s && k.cur == some (wJob 0) && k.pc % 4 == 0 && decide (k.pc < 0x40000) && decide (k.count < 65535) && f k

theorem wit_CpeInstructions :
    (let s := wCpe 0 id (wEntryAt 2)
     let at_ := fun (y imm : Nat) => wRuns s (fun k => (match cpeWhere s .a 0 k (wJob 0) (kget k y + (BitVec.ofNat 16 imm).signExtend 32).toNat 4 with
       | .img pa wr => (dmaReadRaw s .a pa 4).isSome && wr && dramRaw s .a pa 4
       | _ => false))
     let is := fun (y imm : Nat) (w : CpeWhere) => wRuns s (fun k => cpeWhere s .a 0 k (wJob 0) (kget k y + (BitVec.ofNat 16 imm).signExtend 32).toNat 4 == w)
     at_ 2 0 = true ∧ at_ 3 0xFC = true ∧ is 3 0x100 .bad = true ∧ is 2 1 .bad = true ∧ is 5 0 .bad = true ∧
       (cpeOf (wOp (wEntryAt 2)) .a 0).cur = none) ∧
    (wCpeOp 0 0x1800).imm % 2048 = 0 ∧ (wCpeOp 0 0).y % 32 = 0 ∧
    (let s := wCpe 0 (fun k => { k with wins := [(1, 0)] }) (wEntryAt 2)
     wRuns s (fun k => match cpeWhere s .a 0 k (wJob 0) (kget k 5).toNat 4 with | .dram pa => dramOk s .a pa 4 | _ => false)) = true ∧
    (let s := wCpe 0 (fun k => { k with wins := [(1, 0xFE00000000000)] }) (wEntryAt 2)
     wRuns s (fun k => match cpeWhere s .a 0 k (wJob 0) (kget k 5).toNat 4 with | .path _ _ => true | _ => false)) = true ∧
    (wJob 0).kind ≠ 5 ∧ (iftOf (wCpe 0 id { wEntryAt 2 with park := some 3 }) .a 0).park = some 3 ∧
    (match regionOf (0xFE00000000000 % 2 ^ 52 / 2 ^ 30 * 2 ^ 30) with | .path g p _ => (jobPorts (wCpe 0 id (wEntryAt 2)) .a (wJob 0)).contains (g.n * 16 + p) | _ => false) = true ∧
    (iftOf (wCpe 0 id { wEntryAt 2 with svc := true }) .a 0).svc = true ∧ 65535 ≤ (cpeOf (wCpe 0 (fun k => { k with count := 65535 }) (wEntryAt 2)) .a 0).count := by
  decide +kernel

/-- A command block of KIND at 0x2000. -/
def wCmdAt (kind count link : Nat) : State := wPut 0x2000 [0, 0x30, 0, 0, 0, 0, 0, 0, count, 0, 0, 0, kind, link] (wCpe 0 id (wEntryAt 2))
def wFetch (s : State) (prev : Option Nat) : Option (Option (Nat × Nat × Nat)) :=
  match fetchCmd s .a (subOf s .a 0) 0x2000 0 with
  | .stop _ _ _ _ => none
  | .cmd _ d q => some (checkCmd s .a (subOf s .a 0) (ccmdOf d) (ccmdOf d).kind prev q)

theorem wit_CpeInstructions_next :
    pastLimit wUp = false ∧ wRuns (wCmdAt 0x10 4 0) (fun _ => true) = true ∧
    wFetch (wCmdAt 0x10 4 0) none = some none ∧ (wFetch (wCmdAt 0x1D 4 0) none).map Option.isSome = some true ∧
    wFetch (wCmdAt 0x1F 4 0) none = none ∧ (iftOf (wCmdAt 0x10 4 0) .a 0).st = 2 ∧ bitOf (iftOf (wCmdAt 0x10 4 0) .a 0).evs 5 = false := by
  decide +kernel

/-! ### Witnesses: seal engines, movers, ledger -/

/-- Ring 0 of Hub A is enabled on engine 0 with a descriptor waiting at its base. -/
def wRingS (f : SRing → SRing) : State :=
  updSring .a 0 (fun g => f { g with en := true, otype := 0, eng := 0, bound := 0, base := 0x100000, tail := 1 }) wUp
def wGot : List Byte := List.replicate 128 0
def wSJob (v : Option (Nat × Nat)) : SJob := ⟨0, 0, wGot, v⟩
def wSeng (f : SEng → SEng) : State := updSeng .a 0 f wUp

theorem wit_Seal :
    live wUp = true ∧ (sringOf wUp .a 0).en = false ∧ (sringOf (wRingS id) .a 0).en = true ∧
    (let g := sringOf (wRingS id) .a 0
     g.otype = 0 ∧ g.fetched.length < 4 ∧ g.head ≠ g.tail ∧ g.bound ≠ 15 ∧ closing (wRingS id) (sealUnit .a 0) = false ∧ (wRingS id).pkg.mode ≠ .drain) ∧
    (dmaRead (wRingS id) .a 0x100000 128).map (fun x => x.2) = some false ∧
    dmaRead (wRingS (fun g => { g with base := 0x100000000000 })) .a 0x100000000000 128 = none ∧
    (let s := wRingS (fun g => { g with held := [(wGot, true)] })
     cringFull (sringOf s .a 0) = false ∧ (sringOf s .a 0).stopped = false ∧ (sringOf s .a 0).held = [(wGot, true)]) ∧
    cringFull { SRing.reset with ctail := 15 } = true ∧
    (let s := wRingS (fun g => { g with fetched := [(0, wGot)] })
     s.units.rings.all (fun x => rebind .a (x.1 % 256) s == s) = true ∧ (sengOf s .a 0).cur = none ∧ engineUp s .a 0 = true ∧
       boundRings s .a 0 = [0] ∧ (sringOf s .a 0).held = [] ∧ cringFull (sringOf s .a 0) = false) ∧
    (sengOf (wSeng (fun e => { e with cur := some (wSJob (some (3, 1))) })) .a 0).cur = some (wSJob (some (3, 1))) ∧
    closing (wPs (sealUnit .a 0) 3 wUp) (sealUnit .a 0) = true ∧ (sengOf (wSeng (fun e => { e with cur := some (wSJob none) })) .a 0).secure = false := by
  decide +kernel

/-- Channel 0 of mover 0 has work: a FILL or COPY of 256 bytes, or one descriptor to read. -/
def wCopyDesc : List Byte := toBytes 8 0x10000 ++ toBytes 8 0x20000 ++ toBytes 4 256 ++ List.replicate 44 0
def wMch (f : MCh → MCh) : State := updMch .a 0 0 (fun c => f { c with en := true, otype := 0, base := 0x100000, tail := 1 }) wUp
def wMoves (f : MCh → MCh) : State := updMover .a 0 (fun m => { m with cur := some 0 }) (wMch f)

theorem wit_Movers :
    (let s := wMch id
     (moverOf s .a 0).cur = none ∧ readyBit s .a (rbMover 0) = true ∧ closing s (moverUnit .a 0) = false ∧ s.pkg.mode ≠ .drain ∧
       ((upTo 8).map (fun i => ((moverOf s .a 0).lastCh + 1 + i) % 8)).find? (fun k => chWaits (mchOf s .a 0 k)) = some 0 ∧
       (mchOf s .a 0 0).desc = [] ∧ (dmaRead s .a 0x100000 64).map (fun x => x.2) = some false) ∧
    (mchOf (wMch (fun c => { c with desc := wCopyDesc })) .a 0 0).desc ≠ [] ∧
    (let s := wMoves (fun c => { c with desc := wCopyDesc, st := 2 })
     (moverOf s .a 0).cur = some 0 ∧ (match copyAhead .a 0 0 s with | .ok t => t == s | .error _ => false) = true ∧
       (mdescOf (mchOf s .a 0 0).desc).len = 256 ∧ (256 : Nat) ≤ 256) ∧
    closing (wPs (moverUnit .a 0) 3 wUp) (moverUnit .a 0) = true ∧ (mchOf (wMch (fun c => { c with st := 3 })) .a 0 0).st = 3 := by
  decide +kernel

/-- The open stream with changes to it. -/
def wStream5 (f : Stream → Stream) : State := updStream 5 f wStr
def wApp (framed : Bool) : Append := ⟨1, 0x3000, 8, 0, false, false, framed, frameHdr 1 0 5 1 1 10 8 8, List.replicate 8 0, 0⟩
def wLComp : LComp := ⟨1, 0, 0, false, false, 0, 0, 64, true⟩
/-- An APPEND entry of PF0 of port 0, whose window holds the record. -/
def wAppendEntry : State :=
  updFn 0 (fun f => { f with active := [{ Win.zero with en := true, rd := true, wr := true, log2 := 40 }] })
    (updQp 0 (fun x => { x with en := true, typ := 3, got := [toBytes 4 5 ++ List.replicate 4 0 ++ toBytes 8 0x3000 ++ toBytes 4 8 ++ List.replicate 44 0] })
      (wStream5 (fun t => { t with otype := 1, owner := 0 })))

theorem secPart_len {d d' : List Byte} (hd : d.length = d'.length) (pa i : Nat) : (secPart pa d i).2.length = (secPart pa d' i).2.length := by
  unfold secPart; split <;> simp [hd]
theorem ldgWrite_len {d d' : List Byte} (hd : d.length = d'.length) (id pa : Nat) (s : State) : (ldgWrite id pa d s).2 = (ldgWrite id pa d' s).2 := by
  have hb : writeBad s (strHub s id) pa d = writeBad s (strHub s id) pa d' := by
    simp only [writeBad, hd, secPart_len hd]
  unfold ldgWrite dmaWrite
  rw [hd, hb]
  cases dramOk s (strHub s id) pa d'.length <;> cases writeBad s (strHub s id) pa d' <;> rfl
theorem putFrame_some (id : Nat) (t : Stream) (d : List Byte) (s : State) : (putFrame id t d s).2.isSome =
    (if padFor t d.length = 0 then (ldgWrite id (ringArea t + t.rtail) d s).2
     else (ldgWrite id (ringArea t + t.rtail) (padBytes id t.openId (padFor t d.length)) s).2 &&
       (ldgWrite id (ringArea t) d (ldgWrite id (ringArea t + t.rtail) (padBytes id t.openId (padFor t d.length)) s).1).2) := by
  unfold putFrame
  split
  · split <;> rename_i h <;> simp only [h, Option.isSome]
  · split <;> rename_i h
    · simp only [h, Option.isSome, Bool.false_and]
    · split <;> rename_i h' <;> simp only [h, h', Option.isSome, Bool.true_and]
theorem placeFrame_of_some (id seq : Nat) (d : List Byte) (s : State) (t : Stream) (h : streamOf s id = some t) : (placeFrame id seq d s).2.isSome = (frameFits s id t d.length && (putFrame id t d s).2.isSome) := by
  simp only [placeFrame, h]
  generalize putFrame id t d s = r
  obtain ⟨u, o⟩ := r
  cases frameFits s id t d.length
  · rfl
  · cases o <;> rfl
theorem placeFrame_of_none (id seq : Nat) (d : List Byte) (s : State) (h : streamOf s id = none) : placeFrame id seq d s = (s, none) := by
  simp only [placeFrame, h]
/-- Whether a frame finds its place depends on its length alone. -/
theorem placeFrame_len {d d' : List Byte} (hd : d.length = d'.length) (id seq : Nat) (s : State) :
    (placeFrame id seq d s).2.isSome = (placeFrame id seq d' s).2.isSome := by
  cases h : streamOf s id with
  | none => rw [placeFrame_of_none id seq d s h, placeFrame_of_none id seq d' s h]
  | some t => rw [placeFrame_of_some id seq d s t h, placeFrame_of_some id seq d' s t h, putFrame_some, putFrame_some, hd, ldgWrite_len hd, ldgWrite_len hd]
theorem chainFrame_len {d : List Byte} (id seq ts : Nat) (hdr body : List Byte) (s : State)
    (hd : (hdr ++ body).length + 48 + (64 - ((hdr ++ body).length + 48) % 64) % 64 = d.length) :
    (chainFrame id seq ts hdr body s).2.isSome = (placeFrame id seq d s).2.isSome := by
  have hl : (frameBytes hdr body (chainStep (headOf s id).chain hdr body)).length = d.length := by
    simp only [frameBytes, chainStep, sha384, slice, List.length_append, List.length_replicate, List.length_take] at hd ⊢
    omega
  rw [← placeFrame_len hl]
  simp only [chainFrame]
  split <;> rename_i h <;> simp only [h, Option.isSome]

theorem wit_Ledger_appends :
    (streamOf wStr 5).isSome = true ∧ strHub wStr 5 = .a ∧ live wStr = true ∧
    (wSome (qpFront wAppendEntry 0 3) (fun d => fieldAt d 0 4 == 5 && inTarget (fnOf wAppendEntry 0) (fieldAt d 8 8) (max (fieldAt d 0x10 4) 1))) = true ∧
    qpOwner wAppendEntry 0 = some (0, 0) ∧ (streamOf wAppendEntry 5).map (fun t => (t.otype, t.owner)) = some (1, 0) ∧ hubPresent wAppendEntry .a = true ∧
    portHalf 0 = .a ∧ readyBit wStr .a rbLedger = true ∧ draining wStr .a = false ∧ wStream.closing = false ∧ wStream.appends.length < 64 ∧
    (ldgOf wStr .a).streams.foldl (fun (n : Nat) x => n + x.2.appends.length) 0 = 0 ∧
    ((streamOf (wStream5 (fun t => { t with appends := [wApp false] })) 5).bind (fun t => t.appends.find? (fun x => !x.framed))) = some (wApp false) ∧
    (dmaRead wStr .a 0x3000 8).map (fun x => x.2) = some false ∧ dmaRead wStr .a 0x100000000000 8 = none ∧ bitOf wStream.policy 29 = false ∧ bitOf wStream.policy 30 = false ∧
    (let s := wStream5 (fun t => { t with appends := [wApp true] })
     (streamOf s 5).map (fun t => (t.held.length, t.appends.map (fun a => (a.framed, a.cause, a.durable)))) = some (0, [(true, 0, false)]) ∧
       (placeFrame 5 1 (List.replicate 128 0) s).2.isSome = true) ∧
    (let s := wStream5 (fun t => { t with held := [wLComp] })
     (wSome (dmaRead s .a (0x200000 + 0x14) 4) (fun d => (0 + 1) % 1024 != ofBytes d.1 % 1024)) = true ∧
       (ldgWrite 5 (0x200000 + 0x1000) (compBytes 5 wLComp true) s).2 = true) := by
  decide +kernel

/-- So its framed append is chained and placed. -/
theorem wit_Ledger_chain : (chainFrame 5 1 (fieldAt (wApp true).hdr 0x18 8) (wApp true).hdr (wApp true).body
    (wStream5 (fun t => { t with appends := [wApp true] }))).2.isSome = true := by
  rw [chainFrame_len (d := List.replicate 128 0) (hd := by decide +kernel)]
  decide +kernel

/-- It asks for a checkpoint; it has a spool subchannel with 512 bytes to write. -/
def wSign : State := updLdg .a (fun l => { l with sigq := [5] }) wStr
def wSpool : State :=
  updCss .a (fun c => { c with subs := [(0, { wSub with otype := 2, owner := 0 })] }) (wPp 2 true (wStream5 (fun t => { t with spool := some 0, rtail := 512, size := 0x800000 })))
def wSpoolEnd (fs : Nat) : State :=
  wIft [(0, { wEntryAt 6 with otype := 2, tag := 5 * 2 ^ 48, fstat := fs })] (wStream5 (fun t => { t with ops := [⟨0, 512, 1, 1⟩] }))

/-- Hub B holds stream 5 of the lost Hub A, whose spool was interrupted. -/
def wAdopted : State :=
  let s := wIft [(0, { wEntryAt 10 with otype := 2, tag := 5 * 2 ^ 48, halfLoss := true })] wStr
  updLdg .b (fun _ => ldgOf s .a) (updCss .b (fun c => { c with adopted := true }) s)

theorem wit_Ledger_checkpoints :
    live wSign = true ∧ (ldgOf wSign .a).sigq = 5 :: [] ∧
    wStream.spool = none ∧ (let t := { wStream with spool := some 0, rtail := 512, size := 0x800000 }
      t.spoolFailed = false ∧ t.ops = [] ∧ t.spoolNext = none ∧ t.spoolTo < t.rtail ∧ (512 + 511) / 512 * 512 ≤ 0 + 2 ^ 20 ∧ 512 < t.rsize) ∧
    streamOf wSpool 5 = some { wStream with spool := some 0, rtail := 512, size := 0x800000 } ∧
    (let r := ldgWrite 5 0x209000 (spoolProgram 0x209000 0 512 0x210000 0) wSpool
     r.2 = true ∧ (cssStart .a 0 0x209000 (5 * 2 ^ 48 + 1) false 0 true r.1).1 < 2) ∧
    (let r := ldgWrite 5 0x209000 (spoolProgram 0x209000 0 512 0x210000 0) (wStream5 (fun t => { t with spool := some 0, rtail := 512, size := 0x800000 }))
     r.2 = true ∧ 2 ≤ (cssStart .a 0 0x209000 (5 * 2 ^ 48 + 1) false 0 true r.1).1) ∧
    (∀ f ∈ [0, 2], let s := wSpoolEnd f
     let e := iftOf s .a 0
     e.otype = 2 ∧ e.st = 6 ∧ e.sub / 2048 * 65536 + e.tag / 2 ^ 48 = 5 ∧ (streamOf s 5).map (fun t => t.ops) = some [⟨0, 512, 1, 1⟩]) ∧
    (let s := wIft [(0, { wEntryAt 10 with otype := 2, tag := 5 * 2 ^ 48 })] wStr
     let e := iftOf s .a 0
     e.otype = 2 ∧ e.st = 10 ∧ e.halfLoss = false ∧ spoolStream e = 5 ∧ (streamOf s 5).isSome = true) ∧
    (let s := wAdopted
     let e := iftOf s .a 0
     e.otype = 2 ∧ e.st = 10 ∧ e.halfLoss = true ∧ spoolStream e = 5 ∧ strHub s 5 = .b ∧ (streamOf s 5).isSome = true) := by
  decide +kernel

/-- The checkpoint's frame finds room, whatever the signature. -/
theorem wit_Ledger_checkpoint_frame (b : List Byte) (h : b.length = 448) : (placeFrame 5 0 b (drawn wSign)).2.isSome = true := by
  rw [placeFrame_len (d' := List.replicate 448 0) (by rw [h, List.length_replicate])]
  decide +kernel

/-! ### Witnesses: attach ports -/

/-- Port 0 is up, PF0 masters and answers memory requests (configuration words set as the host would). -/
def wCfg (k off v : Nat) (s : State) : State := setCfg k off v s
def wLink (f : Machine.Port → Machine.Port) (s : State) : State := updPort 0 (fun x => f { x with perst := false, link := 2 }) s
def wOnline : State := wCfg 0 4 6 (wLink id wUp)
/-- BAR2 of PF0: a window of 4 KiB at 0 to 0x20000, a peer window of 4 KiB at 0x10000 to port 1. -/
def wWin (wr : Bool) : Win := { Win.zero with en := true, rd := true, wr := wr, tgt := 0x20000, log2 := 12 }
def wPeer (wr : Bool) : Peer := { Peer.zero with en := true, rd := true, wr := wr, off := 0x10000, haddr := 0x900000, log2 := 12, tport := 1 }
def wWins (wr : Bool) : State :=
  updFn 0 (fun f => { f with active := [wWin wr] }) (updPort 0 (fun x => { x with peers := [wPeer wr] }) wOnline)
/-- Its port 1 is up as well and PF0 there masters. -/
def wPeers (wr : Bool) : State := wCfg 64 4 6 (updPort 1 (fun x => { x with perst := false, link := 2 }) (wWins wr))
def wIn (off : Nat) (k : InKind) : InReq := ⟨0, 0, 2, off, 9, k⟩

theorem wit_AttachRequests :
    live wOnline = true ∧ portPresent wOnline 0 = true ∧ (portOf wOnline 0).perst = false ∧ readyBit wOnline .a (rbAtt 0) = true ∧
    numVfs wOnline 0 < 1 ∧
    readyBit (updUnits (fun u => { u with ready := ⟨[], []⟩ }) wOnline) .a (rbAtt 0) = false ∧
    (let u := bump (portUnit 0) 0x581 1 (wWins true)
     (cfgFn u 0 0, memSpaceEn u 0, inD3 u 0, fnLive u 0 0, isPf 0) = (true, true, false, true, true) ∧
       winHit (fnOf u 0) 8 4 = some (wWin true) ∧ dramOk u .a 0x20008 4 = true ∧ winAllows (wWin true) (.wr [1, 2, 3, 4] false) = true ∧
       winAllows (wWin false) (.wr [1, 2, 3, 4] false) = false ∧
       winHit (fnOf u 0) 0x5000 4 = none ∧ peerHit (portOf u 0) 0x5000 4 = none) ∧
    memSpaceEn (bump (portUnit 0) 0x581 1 (wLink id wUp)) 0 = false ∧
    (∀ b ∈ [true, false], let s := wPeers b
     memSpaceEn s 0 = true ∧ inD3 s 0 = false ∧ winHit (fnOf s 0) 0x10010 4 = none ∧ peerHit (portOf s 0) 0x10010 4 = some (wPeer b) ∧
       peerUp s 0 1 = true) ∧
    peerUp (wWins true) 0 1 = false := by
  decide +kernel

/-- Queue pair 0 belongs to PF0 and has three entries to read. -/
def wSq : State := updQp 0 (fun x => { x with en := true, typ := 1, sqTail := 3 }) wOnline
def wReq : HostReq := ⟨7, 0, .load 0 0 0 8⟩
def wReqs : State := wLink (fun x => { x with reqs := [wReq], quar := [(8, 0)] }) wOnline

theorem wit_QueuePairs :
    sqReading wSq 0 0 = false ∧ draining wSq .a = false ∧ draining (updPkg (fun p => { p with mode := .drain }) wSq) .a = true ∧
    freeTag { portOf wSq 0 with reqs := (upTo 512).map (fun i => ⟨i, 0, .load 0 0 0 8⟩) } = none ∧
    live wSq = true ∧ (qpOf wSq 0).en = true ∧ qpOwner wSq 0 = some (0, 0) ∧ sqMay wSq 0 = true ∧ (qpOf wSq 0).got = [] ∧ (portOf wSq 0).reqs = [] ∧
    freeTag (portOf wSq 0) = some 0 ∧
    (let x := qpOf wSq 0
     let n := qpSlots x.sqSize
     (x.sqTail % n + n - x.sqSlot) % n = 3) ∧
    (let x := qpOf (updQp 0 (fun x => { x with sqTail := 0 }) wSq) 0
     let n := qpSlots x.sqSize
     (x.sqTail % n + n - x.sqSlot) % n = 0) ∧
    winUp wOnline 0 = true ∧ winUp wUp 0 = false ∧ winShape 8 8 = true ∧ winShape 4 8 = false ∧
    (portOf wReqs 0).reqs.find? (fun r => r.tag == 7) = some wReq ∧ (portOf wReqs 0).reqs.find? (fun r => r.tag == 8) = none ∧
    (portOf wReqs 0).quar.any (fun q => q.1 == 8) = true ∧ (portOf wReqs 0).quar.any (fun q => q.1 == 9) = false := by
  decide +kernel

def wLtr (r : Option Nat) : State := wCfg 0 0xA8 0x400 (wLink (fun x => { x with ltr := r }) wUp)
def wQuiesce (s : State) : State := updFn 1 (fun f => { f with quiesceCmd := some ⟨wPkt 2 2 0 0, false⟩ }) s

theorem wit_AttachFunctions :
    portPresent wUp 0 = true ∧ (portOf wUp 0).perst = true ∧ (∃ v : Nat, bitOf v 31 = false ∧ v = 5) ∧ (∃ v : Nat, bitOf v 31 = true ∧ v % 128 = 64 ∧ v = 0x80000040) ∧
    winsOk wUp 0 = true ∧ peersOk wUp 0 = true ∧
    winsOk (updFn 0 (fun f => { f with shadow := [{ wWin true with off := 8 }] }) wUp) 0 = false ∧
    peersOk (updPort 0 (fun x => { x with peersS := [{ wPeer true with tport := 0 }] }) wUp) 0 = false ∧
    isPf 1 = false ∧ (portOf (updPort 0 (fun x => { x with perst := false, link := 1 }) wUp) 0).link = 1 ∧
    busMaster wOnline 0 = true ∧ busMaster wUp 0 = false ∧ (fnOf (updFn 0 (fun f => { f with bmeLost := true }) wOnline) 0).bmeLost = true ∧
    ltrOn wUp 0 = false ∧ ltrOn (wLtr none) 0 = true ∧ (portOf (wLtr none) 0).ltr ≠ some (ltrRow (wLtr none) 0) ∧
    (portOf (wLtr (some 0)) 0).ltr = some (ltrRow (wLtr (some 0)) 0) ∧
    (fnOf (wQuiesce wBusyFn) 1).quiesceCmd = some ⟨wPkt 2 2 0 0, false⟩ ∧ inFlight (wQuiesce wBusyFn) 1 = true ∧ inFlight (wQuiesce wFn) 1 = false := by
  refine ⟨by decide +kernel, by decide +kernel, ⟨5, by decide +kernel⟩, ⟨0x80000040, by decide +kernel⟩, ?_⟩
  decide +kernel

/-! ### Witnesses: the Lighthouse, power, sideband, bring-up, records, test and debug -/

/-- The Lighthouse of Hub A holds a request of a type, taken from slot 0; its nonce is 16 zero bytes. -/
def wLh (f : Lh → Lh) (s : State) : State := updLh .a f s
def wMail (typ : Nat) (d : List Byte) : List Byte := toBytes 2 typ ++ List.replicate 14 0 ++ d
def wTaken (typ : Nat) (d : List Byte) : State := wLh (fun l => { l with taken := some (0, wMail typ d), nonce := some (List.replicate 16 0) }) wUp
/-- A token of a magic with a grant or new state and 100 seconds. -/
def wToken (magic : List Byte) (g : Nat) : List Byte :=
  magic ++ toBytes 4 otpSerial ++ List.replicate 16 0 ++ [BitVec.ofNat 8 g, 0, 0, 0] ++ toBytes 4 100 ++ List.replicate 193 0
def wUnlock (g : Nat) : State := wTaken 2 (wToken [0x4C, 0x44, 0x54, 0x31] g)
def wAdvance (g : Nat) : State := wTaken 4 (wToken [0x4C, 0x4C, 0x43, 0x31] g)
/-- A message of FW_STAGE: an envelope of 320 bytes at 0x1000. -/
def wStage : State := wTaken 5 (toBytes 8 0x1000 ++ toBytes 4 320 ++ [0, 0, 0, 0])

theorem wit_Lighthouse_mailbox :
    live wUp = true ∧ (lhOf wUp .a).taken = none ∧
    (∀ d ∈ [wMail 9 [], wMail 5 [], [5, 0, 0, 0, 13, 0]],
      let l := lhOf (wLh (fun l => { l with inpend := [3], mbIn := [(3, d)] }) wUp) .a
      l.taken = none ∧ ((upTo 16).map (fun i => (l.lastSlot + 1 + i) % 16)).find? (fun k => l.inpend.contains k && !l.outpend.contains k) = some 3) ∧
    6 ≤ fieldAt (slice (wMail 9 []) 0 256) 0 2 ∧ fieldAt (slice (wMail 5 []) 0 256) 0 2 = 5 ∧ fieldAt (slice (wMail 5 []) 0 256) 4 2 ≠ 13 ∧
    fieldAt (slice [5, 0, 0, 0, 13, 0] 0 256) 4 2 = 13 ∧
    (mbTaken (wTaken 1 []) .a 1).isSome = true ∧ (mbTaken (setDbg (fun d => { d with left := 5 }) (wTaken 3 [])) .a 3).isSome = true := by
  decide +kernel

theorem wit_Lighthouse_grants :
    (let t := [(0 : Byte)]
     mbTaken (wTaken 2 t) .a 2 = some t ∧ tokenCheck (wTaken 2 t) .a [0x4C, 0x44, 0x54, 0x31] t = stBadParam ∧
       mbTaken (wTaken 4 t) .a 4 = some t ∧ tokenCheck (wTaken 4 t) .a [0x4C, 0x4C, 0x43, 0x31] t ≠ 0) ∧
    lcOf wUp = 3 ∧ dbgGrantable 3 = 15 ∧ lcStep 3 4 = true ∧ lcStep 3 1 = false ∧
    lcOf (wLh (fun l => { l with lc := 2 }) (updLh .b (fun l => { l with lc := 2 }) wUp)) = 2 ∧ anyStream wStr = true ∧ anyStream wUp = false ∧ secureWork wUp .a = false ∧ secureWork wUp .b = false ∧
    lcStep 2 3 = true ∧
    (let d := slice (toBytes 8 0x1000 ++ toBytes 4 320 ++ [0, 0, 0, 0]) 0 16
     (fieldAt d 0 8, fieldAt d 8 4) = (0x1000, 320)) ∧ (mbTaken wStage .a 5).isSome = true ∧
    (dmaRead wStage .a 0x1000 320).map (fun x => (x.2, (envelope wStage .a none x.1).isNone)) = some (false, true) := by
  decide +kernel

/-- A well-formed token is taken or denied by its signature alone, which is decided outside the model. -/
theorem wit_Lighthouse_token (magic t : List Byte) (s : State) (h : t.take 4 = magic) (hz : (slice t 0x19 3).all (· == 0) = true) :
    tokenCheck s .a magic t = stDenied ∨ tokenCheck s .a magic t = 0 := by
  unfold tokenCheck
  rw [if_neg (by rw [h, hz]; simp)]
  split
  · exact .inl rfl
  · exact .inr rfl

def wBwater (s : State) : State := { s with fab := { s.fab with modules := (upTo 8).map (fun i => (16 * 32 + 16 + i, { Ryt.reset with st := .up })) } }
def wTime (a b : Nat) : State := { wBwater wUp with st64 := ⟨BitVec.ofNat 64 a, BitVec.ofNat 64 b⟩ }
def wDefer : State :=
  updUnits (fun u => { u with preq := [⟨sealUnit .a 0, 3, true, none, false⟩] }) (wSeng (fun e => { e with cur := some (wSJob none), secure := true }))

theorem wit_Lighthouse_time :
    hubPresent wUp .b = true ∧ bwaterReady (wTime 0 0) = true ∧ (wTime 0 0).pkg.mode = .split ∧ (wTime 0 0).pkg.stopped = false ∧
    (∀ x ∈ [(5000, 10), (5000, 4500), (5, 10)], hubTime .a (wTime x.1 x.2) = x.1 ∧ hubTime .b (wTime x.1 x.2) = x.2) ∧
    wDefer.units.preq.any (fun r => r.unit == sealUnit .a 0 && r.deferred) = true ∧ unitType (sealUnit .a 0) = 4 ∧
    (sengOf wDefer (unitHalf (sealUnit .a 0)) (unitInst (sealUnit .a 0))).secure = true := by
  decide +kernel

def wPwr (f : Pwr → Pwr) (s : State) : State := updPwr f s

theorem wit_Supplies :
    wUp.pkg.mode ≠ .off ∧ (feedOf wUp.units.pwr 0).lost = false ∧ (feedOf (wPwr (fun p => { p with feedA := feedGone p.feedA }) wUp).units.pwr 0).lost = true ∧
    wUp.pkg.stopped = false ∧ (wPwr (fun p => { p with hOk := true }) wUp).units.pwr.hOk = true ∧ (wPwr (fun p => { p with hOk := false }) wUp).units.pwr.hOk = false ∧
    (wPwr (fun p => { p with onHold := true }) wUp).units.pwr.onHold = true ∧ wUp.units.pwr.onHold = false ∧
    (goOff wUp).pkg.mode = .off ∧ live wUp = true := by
  decide +kernel

theorem wit_SidebandInputs :
    (∀ i ∈ [0, 1, 2, 3], masked wUp i = false) ∧ wUp.units.pwr.active.contains 1 = false ∧
    (setLevel 1 true wUp).units.pwr.active.contains 1 = true ∧ masked (wPwr (fun p => { p with chat := [0] }) wUp) 0 = true ∧
    wUp.units.pwr.active.contains 2 = !true ∧ (setLevel 2 true wUp).units.pwr.active.contains 2 = !false ∧
    (let s := wPwr (fun p => { p with feedA := { p.feedA with ok := true }, feedB := { p.feedB with ok := true }, active := [0, 1, 3] }) wUp
     live s = true ∧ masked s 1 = false ∧ s.units.pwr.active.contains 1 = true ∧ s.units.pwr.feedA.ok = true ∧ s.units.pwr.feedB.ok = true ∧
       s.units.pwr.active.contains 0 = true ∧ s.units.pwr.active.contains 2 = false) ∧
    (wPwr (fun p => { p with stuck := [1] }) wUp).units.pwr.stuck.contains 1 = true ∧
    (live wHold = true ∧ wHold.pkg.mode = .hold ∧ feedIn wHold = true ∧ capValid wHold .a = true ∧ masked wHold 0 = false) := by
  decide +kernel

def wPll (ref : Bool) : State := wPwr (fun p => { p with irok := true, lock := true, ref := ref }) wUp

theorem wit_Clocks :
    live (wPll false) = true ∧ (wPll false).pkg.mode ≠ .off ∧ (wPll false).units.pwr.irok = true ∧ (wPll false).units.pwr.lock = true ∧
    (wPll false).units.pwr.ref = false ∧ (wPll true).units.pwr.ref = true ∧
    diePresent wUp 0 = true ∧ (dieOf wUp 0).lost = false ∧ (dieOf wUp 0).hot = false ∧ (dieOf (updDie 0 (fun d => { d with hot := true }) wUp) 0).hot = true ∧
    (840 : Int) ≤ 840 ∧ (799 : Int) < 800 := by
  decide +kernel

/-- BRINGUP with the halves on, the readiness bits given. -/
def wBring (bits : List Nat) : State :=
  { State.reset with
    pkg := { Pkg.reset with mode := .bringup, hstate := ⟨.bringup, .bringup⟩ }
    units := { State.reset.units with
      ready := ⟨bits, bits⟩
      lh := ⟨{ State.reset.units.lh.a with otp := true }, { State.reset.units.lh.b with otp := true }⟩ } }
def wImages : State := wLh (fun l => { l with cache := (upTo 4).map (fun i => (i + 1, ⟨1, 0, [0]⟩)) }) (wBring [rbHfab])
def wAuto (en : Bool) (bits : List Nat) : State := updUnits (fun u => { u with auto := ⟨⟨en, 5, 0⟩, u.auto.b⟩ }) (wBring bits)
def wSplitGo : State :=
  updCh .b 0 (fun c => { c with st := .unmapped }) <| wCh .unmapped <| updUnits (fun u => { u with pairing := ⟨true, 0, false, false⟩, auto := ⟨⟨true, 5, 0⟩, u.auto.b⟩ })
    (wBring wBits)

/-- The Breakwater's modules carry traffic. -/
def wPair (s : State) : State := (upTo 8).foldl (fun t i => updRyt (16 * 32 + 16 + i) (fun r => { r with st := .up }) t) s

theorem wit_BringUp :
    (∀ b ∈ [wBring [], wBring [rbHfab], wImages], live b = true ∧ hubPresent b .a = true ∧ halfOn b .a = true) ∧
    readyDeps (wBring []) .a rbStock = false ∧
    (let s := wBring [rbHfab]
     hubPresent s .a = true ∧ bitOff s .a rbStock = false ∧ bitOff s .a rbPctc = false ∧ bitOff s .a 20 = false ∧ readyDeps s .a rbStock = true ∧ readyBit s .a rbStock = false ∧ readyDeps s .a rbPctc = true ∧ readyBit s .a rbPctc = false ∧ rbPctc ≠ rbHfab ∧ rbPctc ≠ rbStock ∧ rbPctc ≠ rbLedger) ∧
    (wBring []).pkg.mode = .bringup ∧ (wBring []).units.ready.a = [] ∧ (wBring []).units.ready.b = [] ∧
    (let s := wRyt (rytKey 0 0) .up (wRyt (rytKey 0 1) .up (updUnits (fun u => { u with pairing := ⟨true, 0, false, false⟩ }) (wLh (fun l => { l with cfwok := true }) (wBring [rbHfab]))))
     readyDeps s .a 20 = true ∧ (dieOf s (Half.a.n * 8 + (20 - 20))).ready = false) ∧
    (lhOf wImages .a).otp = true ∧ cacheFull wImages .a = true ∧ readyBit wImages .a rbHfab = true ∧
    (dieOf (wBring []) 0).ready = false ∧
    (let s := updDie 0 (fun d => { d with ready := true }) (wBring [])
     diePresent s 0 = true ∧ (dieOf s 0).ready = true ∧ (dieOf s 0).lost = false ∧ (dieOf s 0).heldOut = false ∧ (dieOf s 0).tested = false ∧ (dieOf (updDie 0 (fun d => { d with tested := true }) s) 0).tested = true) ∧
    (wBring []).cfg.part ≠ .q0800a ∧ bwaterReady (wBring []) = false ∧ wHold.pkg.mode = .hold ∧
    (let s := wPair (wBring [])
     s.cfg.part ≠ .q0800a ∧ bwaterReady s = true ∧ live s = true ∧ s.pkg.mode ≠ .hold ∧ hubPresent s .b = true ∧
       (lhOf s .a).lc = (lhOf s .b).lc ∧ (lhOf (wLh (fun l => { l with lc := 5 }) s) .a).lc ≠ (lhOf (wLh (fun l => { l with lc := 5 }) s) .b).lc ∧
       bwaterReady (wLh (fun l => { l with lc := 5 }) s) = true) ∧
    (let s := { wBring [rbHfab] with cfg := { Cfg.shipped with part := .q0800a } }
     readyBit s .a rbHfab = true ∧ live s = true) ∧
    ((wAuto false []).units.auto.get (leader (wAuto false []))).en = false ∧
    (let s := wAuto true []
     s.pkg.mode = .bringup ∧ (s.units.auto.get (leader s)).en = true ∧ (s.units.auto.get (leader s)).target = 5 ∧ s.units.autoDone = false ∧
       modeOf 5 = some .split ∧ (firstFail (modeChecks s true 5 0xFF 0)).isSome = true) ∧
    firstFail (modeChecks wSplitGo true 5 0xFF 0) = none := by
  decide +kernel

/-- Die 0 is ready and its LCNs are off. -/
def wNoLcn : State :=
  { updDie 0 (fun d => { d with ready := true }) (wBring []) with lcns := (upTo 64).map (fun l => (l, { Lcn.reset with off := true })) }

/-- Its self-test runs, with every core good. -/
def wTested : State := updDie 0 (fun y => { y with tested := true, coreReady := upTo 68 }) wNoLcn

theorem wit_BringUp_cores :
    diePresent wNoLcn 0 = true ∧ (dieOf wNoLcn 0).ready = true ∧ (dieOf wNoLcn 0).lost = false ∧ (dieOf wNoLcn 0).heldOut = false ∧
    (dieOf wNoLcn 0).tested = false ∧ (dieOf wNoLcn 0).failed = [] ∧
    ∀ t ∈ [wNoLcn, wTested], ∀ l, l < lcnCount wNoLcn → ∀ c, coreOf t l = some c → c / 128 ≠ 0 := by
  have h : ([wNoLcn, wTested].all (fun t => (upTo (lcnCount wNoLcn)).all (fun l => match coreOf t l with | some c => c / 128 != 0 | none => true))) = true := by
    decide +kernel
  refine ⟨by decide +kernel, by decide +kernel, by decide +kernel, by decide +kernel, by decide +kernel, by decide +kernel, fun t ht l hl c hc => ?_⟩
  have := (List.all_eq_true.1 ((List.all_eq_true.1 h) t ht)) l (by simpa [upTo] using hl)
  rw [hc] at this
  simpa using this

theorem wit_BringUp_power :
    (let s := updUnits (fun u => { u with preq := [⟨sealUnit .a 0, 1, false, none, false⟩] }) wUp
     s.units.preq.find? (fun r => r.unit == sealUnit .a 0) = some ⟨sealUnit .a 0, 1, false, none, false⟩ ∧
       unitIdle (unitEmpty (sealUnit .a 0) 1 s) (sealUnit .a 0) = true ∧ unitSecure (unitEmpty (sealUnit .a 0) 1 s) (sealUnit .a 0) = unitSecure s (sealUnit .a 0)) ∧
    (let s := updUnits (fun x => { x with dbg := { x.dbg with woken := [sealUnit .a 0] } }) wUp
     s.units.dbg.woken.contains (sealUnit .a 0) = true ∧ unitIdle s (sealUnit .a 0) = true) := by
  decide +kernel

def wSamp (n : Nat) (s : State) : State := updLcn 0 (fun k => { k with samp := { k.samp with n := n, base := 0x400000, size := 128 } }) s
def wTrc (ctx lost : Nat) (s : State) : State := updLcn 0 (fun k => { k with trcEn := true, trcCtx := ctx, trcLost := lost }) s

theorem wit_Records :
    ((rpt 0 0 0 0x0A01 0).code = 0x0A01 ∧ (rpt 0x600 0 0 0x0701 0).source / 256 % 256 = 6 ∧ (rpt 0 0 0 0x0701 0).source / 256 % 256 ≠ 6) ∧
    live wUp = true ∧ hubPresent wUp .a = true ∧ wUp.pkg.mode ≠ .off ∧ (wUp.log.get .a).latches = [] ∧ logMay wUp .a = true ∧
    logMay (updLog .a (fun l => { l with lastWrite := some 0 }) wUp) .a = false ∧
    (let s := updColl .a (fun c => { c with run := true }) wUp
     (collOf s .a).run = true ∧ collects s .a = true) ∧ (collOf wUp .a).run = false ∧
    lcnRuns wUp 0 = true ∧ (lcnOf wUp 0).samp.n = 0 ∧ (lcnOf (wSamp 5 wUp) 0).samp.n ≠ 0 ∧ lcnRuns (wSamp 5 wUp) 0 = true ∧
    (lcnOf wUp 0).trcEn = false ∧
    (let k := lcnOf (wTrc 1 0 wUp) 0
     k.trcEn = true ∧ bitOf k.trcCtx 0 = true ∧ k.trcLost = 0 ∧ bitOf k.trcCtx 1 = false) ∧ lcnRuns (wTrc 1 0 wUp) 0 = true := by
  decide +kernel

/-- Every debug enable of the normal world is granted; breakpoint 0 of LCN 0 is on at the PC, or on writes. -/
def wDbg (bp : Nat) : State :=
  setDbg (fun d => { d with grant := 15 }) (updLcn 0 (fun k => { k with bp := [(0, BitVec.ofNat 64 bp)] }) (wCtx { Ctx.reset with pc := 0x1000 }))

theorem wit_TestDebug :
    inChain (wMode .hold wUp) 0 = false ∧ inChain wUp 0 = true ∧ inChain wUp 16 = true ∧ inChain wUp 17 = true ∧ wUp.pkg.stopped = false ∧
    readyBit (wBring []) .a rbHm = false ∧ inChain (wBring []) 16 = true ∧
    (apTarget (wDbg 0) .a 0x1000 4 false).resp = 0 ∧ apWaits (wDbg 0) (apTarget (wDbg 0) .a 0x1000 4 false).unit = false ∧
    (apTarget (wDbg 0) .a 0x1001 4 false).resp ≠ 0 ∧
    live (wDbg 0) = true ∧ dbgBlockResp (wDbg 0) .a 0x100000 true = 0 ∧ dbgBlockResp wUp .a (0x100000 + 1023 * 256) true ≠ 0 ∧
    (let s := wDbg (2 ^ 63 + 0x1000)
     dbgenN s = true ∧ ctxRuns s 0 0 = true ∧ bpOn s 0 0 0 = true ∧ (ctxOf s 0 0).pc.toNat % 2 ^ 57 = (2 ^ 63 + 0x1000) % 2 ^ 57 ∧
       fld (2 ^ 63 + 0x1000) 62 61 = 0) ∧
    (let s := wDbg (2 ^ 63 + 2 ^ 62 + 0x2000)
     bpOn s 0 0 0 = true ∧ bitOf (2 ^ 63 + 2 ^ 62 + 0x2000) 62 = true) ∧
    bpOn (wDbg 0) 0 0 0 = false := by
  decide +kernel

def wProg (op : Nat) : State := { wUp with prog := [⟨{ wPkt 2 16 0 0 with op := op }, false⟩] }

theorem wit_RegisterWrites :
    live wUp = true ∧ halfOn wUp .a = true ∧ (0x20 % 4 = 0 ∧ (4 = 4 ∨ 4 = 8)) ∧ (0x21 % 4 ≠ 0) ∧
    (∀ op ∈ [0x0601, 0x0A01, 0x0A03], ((wProg op).prog.find? (fun x => x.pkt.src == .ring .a 2 && x.pkt.tag == 7)).map (fun g => g.pkt.op) = some op) ∧
    (maintOf wUp .a 0).busy = false ∧ (maintOf (updMaint .a 0 (fun x => { x with busy := true }) wUp) .a 0).busy = true ∧
    (let s := wCh .training wUp
     (chOf s .a 0).st = .training ∧ (dimmOf s .a 0).kind = pkgKind s) ∧ (chOf (wCh .mapped wUp) .a 0).st ≠ .training ∧
    (let s := updPp 0 (fun x => { x with perst := true, st := 0 }) wUp
     (ppOf s 0).perst = true ∧ (ppOf s 0).st = 0 ∧ readyBit s (portHub 0) (rbPath 0) = true) := by
  decide +kernel

def wTollAdd : Instr := .add (wAn 1 0xA [0x24E7, 0x1040, 0x1048, 0x2010])

/-! ### Codes: words written out from the spec's tables -/

/-- R104: PUBLISH is 0xC800 and CSTART 0x4810; the toll line of the worked example is 0x410A. R101: no instruction has OPC 0x01D. -/
theorem test_decode_an :
    decodeParcels 0 0 [0xC800, 0] = some (.publish ⟨0, 0, 3, 0, [0]⟩) ∧ decodeParcels 0 0 [0x4810] = some (.cstart ⟨0, 0, 1, 0, []⟩) ∧
    decodeParcels 0 0 [0x410A, 0x24E7, 0x1040, 0x1048, 0x2010] = some wTollAdd ∧ decodeParcels 0 0 [0x01D0] = none := by decide +kernel
/-- R131, R133: OP 0x01 LD, RA 1, RB 2, F 0x10; no instruction has OP 0x3F. -/
theorem test_decode_a5 : decodeA5 0 0 0x04220010 = some (.a5Ld ⟨0, 0, 1, 2, 0x10⟩) ∧ decodeA5 0 0 0xFC000000 = none := by decide +kernel
/-- R341, R342: OPC 0x18 LW, fields 1 and 2, immediate 4. -/
theorem test_encode_cpe : encodeCpe (.cpeLw ⟨.a, 0, 1, 2, 4, 0⟩) = some 0x60220004 := by decide +kernel
/-- The largest fields. -/
theorem wit_InstructionCodes :
    anOpc (.rdpkr ⟨0, 1, 3, 15, []⟩) = some (0x8B, ⟨0, 1, 3, 15, []⟩) ∧ a5Opc (.a5Trap ⟨0, 1, 31, 31, 65535⟩) = some (0x38, ⟨0, 1, 31, 31, 65535⟩) ∧
    anInstr ((0x01D0 : W16).toNat / 16 % 1024) = none ∧ a5Instr (0xFC000000 / 2 ^ 26 % 64) = none ∧
    cpeOpc (.evaddr ⟨.b, 31, 31, 31, 65535, 0⟩) = some (0x36, ⟨.b, 31, 31, 31, 65535, 0⟩) := by decide +kernel
/-- A flit has 88 bytes. -/
theorem wit_FlitRoundTrip : (flitBytes (headerOf 0 1 true .rds wMsg) [] 0 0).length = 88 := by decide +kernel

/-! ### Ill-formed commands: every check refuses one -/

def wPktH : Pkt := wPkt 2 0 0 0
theorem test_wf_good : wellFormed (.modeGet wPktH) = true ∧ wellFormed (.add (wAn 0 3 [])) = true := by decide +kernel
theorem test_wf_num : wellFormed (.dbgHalt .a 0 4) = false := by decide +kernel
theorem test_wf_each : Operand.ok (.each [3, 9] 9) = false := by decide +kernel
theorem test_wf_bytes : Operand.ok (.bytes [0, 0, 0] 2) = false := by decide +kernel
theorem test_wf_lcn : wellFormed (.dbgHalt .a 1024 1) = false := by decide +kernel
theorem test_wf_ctx : wellFormed (.breakpointMatch 0 2 0 none) = false := by decide +kernel
theorem test_wf_src : Operand.ok (.src (.ring .a 3)) = false := by decide +kernel
theorem test_wf_pkt : wellFormed (.modeGet { wPktH with tag := 0x10000 }) = false := by decide +kernel
theorem test_wf_msg : Operand.ok (.msg { wMsg with tide := 8 }) = false := by decide +kernel
theorem test_wf_an : wellFormed (.add (wAn 4 3 [])) = false := by decide +kernel
theorem test_wf_a5 : wellFormed (.a5Add ⟨0, 0, 16, 0, 0⟩) = false := by decide +kernel
theorem test_wf_cpe : Operand.ok (.cpe ⟨.a, 32, 0, 0, 0, 0⟩) = false := by decide +kernel
theorem test_wf_inreq : wellFormed (.inboundMemoryRequest ⟨0, 0, 1, 0, 0, .rd 4⟩) = false := by decide +kernel
theorem test_wf_cfg : wellFormed (.pcieConfigRequest 0 0 0 0 (some (16, 0))) = false := by decide +kernel
theorem test_wf_dev : Operand.ok (.dev ⟨0, 0, 3, 0, 0⟩) = false := by decide +kernel
theorem test_wf_sample : Operand.ok (.sample (some ⟨2 ^ 64, 0, 0, 0, 0, 0, 0, 0, .none, .none, 0, 0, false, 0, false, false, false, false⟩)) = false := by decide +kernel
theorem test_wf_trace : Operand.ok (.trace ⟨0, 0, 6, false⟩) = false := by decide +kernel
def wRep : Report := rpt 0 0 0 0 0
theorem test_wf_report : Operand.ok (.report { wRep with cls := 8 }) = false := by decide +kernel

/-! ### Single steps and single operations, expected values by hand or from the spec's worked examples -/

/-- The state after one command at the front of the queue. -/
def wRun (i : Instr) (s : State) : State :=
  match Machine.step { s with pending := [i] } with
  | .next t => t
  | _ => s
def wG (s : State) (n : Nat) : Nat := gOf (ctxOf s 0 0) n
def wMem (s : State) (a n : Nat) : List Byte :=
  match readVa 0 0 (ctxOf s 0 0) a n s with
  | (_, .ok d) => d
  | _ => []

/-- An idle block ticks: ST64 of both hubs advances by one. -/
theorem test_tick : (match Machine.step wUp with | .next s => (s.st64.a, s.st64.b) | _ => (0, 0)) = (1, 1) := by decide +kernel
theorem test_add_three : wG (wRun (.add (wAn 1 3 [0x4100, 0x4300, 0x4400])) wS) 4 = 16 := by decide +kernel
/-- SUB in TWO form: operand 2 − operand 1 (R86), 9 − 7; the PC passes three parcels. -/
theorem test_sub_two : (let t := wRun (.sub (wAn 0 3 [0x4100, 0x4300])) wS; (wG t 3, (ctxOf t 0 0).pc)) = (2, 0x1006) := by decide +kernel
/-- DIV by 0 takes the exception at EVB_H + 0x11 × 0x40 and writes nothing. -/
theorem test_div_zero :
    (let t := wRun (.div (wAn 0 3 [0x4500, 0x4300])) wS; (wG t 3, (ctxOf t 0 0).pc, (ctxOf t 0 0).xh.xpc)) = (9, 0x440, 0x1000) := by decide +kernel

/-- The toll line of the instruction set's worked example: 123.45 + 67.80 in packed decimal. -/
def wToll (charge : List Nat) : State :=
  wPut 0x10048 charge (wPut 0x10040 [0x00, 0x12, 0x34, 0x5C] (wCtx { cH with fb := [(1, 0x10000), (2, 0x20000)] }))
theorem test_toll_line : wMem (wRun wTollAdd (wToll [0x00, 0x06, 0x78, 0x0C])) 0x20010 5 = [0x00, 0x00, 0x19, 0x12, 0x5C] := by decide +kernel
theorem test_toll_line_cc : (ctxOf (wRun wTollAdd (wToll [0x00, 0x06, 0x78, 0x0C])) 0 0).psw.cc = Cc.zero := by decide +kernel
/-- Its second half: nibble 0xA raises DECIMAL_DATA, the result unchanged. -/
theorem test_toll_bad :
    (let t := wRun wTollAdd (wToll [0x00, 0x06, 0x7A, 0x0C]); (wMem t 0x20010 5, (ctxOf t 0 0).xh.xpc, (ctxOf t 0 0).xh.xcode.toNat % 256)) =
      ([0, 0, 0, 0, 0], 0x1000, 0x13) := by decide +kernel

/-- The fused spares of the worked example of core sparing: LCN 300 is CD4.PC46, its spare CD4.PC16. -/
def wSpares : State :=
  { wUp with cfg := { wUp.cfg with spares := [(1, [3, 24, 41, 58]), (4, [16, 33, 50, 67])] }, dies := [(4, { Die.reset with ready := true, coreReady := upTo 68 })] }
theorem test_spare_home : (homeCore wSpares 300, homeCore wSpares 77) = (4 * 128 + 46, 1 * 128 + 14) := by decide +kernel
theorem test_spare_choice : chooseSpare wSpares 4 false = some (4 * 128 + 16) := by decide +kernel

/-- RESULT of the worked example of fencing Half B. -/
theorem test_mode_result : sysMode { wUp with pkg := { wUp.pkg with mode := .degraded, prev := .mirrored, hstate := ⟨.running, .fenced⟩ } } = 0x00534006 := by
  decide +kernel
/-- The worked example of a function for toll ingest: queue pairs 0–63 and vectors 0–95 are taken. -/
theorem test_vf_runs : (lowestRun [(0, 16), (16, 32), (48, 16)] 16, lowestRunIn 2048 [(0, 32), (32, 64)] 32) = (some 64, some 96) := by decide +kernel
/-- The first 32 bytes of the log entry of the channel 7 overflow. -/
theorem test_log_entry :
    (entryBytes ⟨0x00197A2F4C1D0A40, 0x31C7, 0x01FF0307, 2, 0, 0x0401, 32, 0, false, false, true, false, false, 0, 0, 0⟩).take 32 =
      [0x40, 0x0A, 0x1D, 0x4C, 0x2F, 0x7A, 0x19, 0x00, 0xC7, 0x31, 0x00, 0x00, 0x07, 0x03, 0xFF, 0x01,
       0x02, 0x00, 0x01, 0x04, 0x20, 0x00, 0x00, 0x00, 0x00, 0x00, 0x00, 0x00, 0x04, 0x00, 0x00, 0x00] := by decide +kernel
/-- CD_CAP0 of CD11 lies at 0x000F_FF84_0000_0000. -/
theorem test_worked_address : regionOf 0x000FFF8400000000 = .regs .b 0x400000000 ∧ unitAt .b 0x400000000 = some (dieUnit 11) := by decide +kernel
theorem test_slice : l3Slice (0x12AF980 / 64) = 0x12AF980 / 256 % 17 := by decide +kernel
/-- The check value of CRC-32C over "123456789". -/
theorem test_crc32c : crc32c 0 [0x31, 0x32, 0x33, 0x34, 0x35, 0x36, 0x37, 0x38, 0x39] = 0xE3069283 := by decide +kernel
/-- A byte written as what an unlisted address reads as leaves no entry. -/
theorem test_memory_zero : storeBytes (storeBytes [] 5 [7]) 5 [0] = [] := by decide +kernel
theorem test_memory_sorted : storeBytes (storeBytes [] 9 [1]) 5 [2] = [(5, 2), (9, 1)] := by decide +kernel
theorem test_feed_loss : (wRun (.feedLoss 1) wUp).units.pwr.feedB.losses = 1 := by decide +kernel
theorem test_feed_loss_log : (wRun (.feedLoss 1) wUp).log.a.entries.map (fun e => e.code) = [0x0804] := by decide +kernel
theorem test_pwrfail : (wRun .pwrfailWarn wUp).pkg.mode = .drain := by decide +kernel
theorem test_clocks_lost : (wRun .allClocksLost wUp).faultN = true := by decide +kernel
theorem test_dead_package : wRun .packageReset State.reset = State.reset := by decide +kernel
theorem test_breakpoint : (ctxOf (wRun (.breakpointMatch 0 0 0 none) (wDbg (2 ^ 63 + 0x1000))) 0 0).halt = 3 := by decide +kernel
theorem test_crs : (portOf (wRun (.pcieConfigRequest 0 0 0 5 none) (updUnits (fun u => { u with ready := ⟨[], []⟩ }) wOnline)) 0).out = [.cpl 0 5 2 [] false] := by
  decide +kernel
theorem test_vendor_id : (portOf (wRun (.pcieConfigRequest 0 0 0 5 none) wOnline) 0).out.length = 1 := by decide +kernel
theorem test_window_write : (dmaRead (wRun (.inboundMemoryRequest (wIn 8 (.wr [1, 2, 3, 4] false))) (wWins true)) .a 0x20008 4).map (fun x => x.1) = some [1, 2, 3, 4] := by
  decide +kernel
theorem test_window_refused : (fnOf (wRun (.inboundMemoryRequest (wIn 8 (.wr [1, 2, 3, 4] false))) (wWins false)) 0).urcnt = 1 := by decide +kernel

end Sys2Proof.Tests.Slice0
end

section
/-! Messages under way: what a command does whose message arrives, and what taking and sending leave unchanged. -/
namespace Sys2Proof.Machine

variable {op : MsgOp} {m : Msg} {s : State}

/-! ### Arrival -/

/-- A message that may arrive is no packet the Breakwater discards (R262), and has its effect. -/
theorem reach_of_mayArrive (f : State → State) (h : mayArrive s op m = true) : reach op m f s = f s := by
  have hb : bwStops s ⟨op, m⟩ = false := by
    simp only [mayArrive, Bool.and_eq_true, Bool.not_eq_true'] at h
    exact h.2
  simp [reach, hb, h]

/-- In a live package the command of a message that arrives ends in the message's effect. -/
theorem act_reach_of_arrives (f : State → State) (h : arrives op m s) : act (reach op m f) s = .next (f s) := by
  obtain ⟨hlive, hmay⟩ := h
  simp only [act, hlive, if_true, reach_of_mayArrive f hmay]

/-! ### The messages under way -/

/-- The state with `l` as the messages under way. -/
def setNet (l : List NetMsg) (s : State) : State := { s with coh := { s.coh with net := l } }

/-- A message that arrives is taken from those under way, and nothing else changes. -/
theorem take_eq_setNet (op : MsgOp) (m : Msg) (s : State) :
    take op m s = setNet (dropFirst (fun x => x == { op := op, m := m }) s.coh.net) s := rfl

/-- A message sent comes last, at the tide level of its class (R237, R243), and nothing else changes. -/
theorem send_setNet (op : MsgOp) (m : Msg) (l : List NetMsg) (s : State) :
    send op m (setNet l s) = setNet (l ++ [{ op := op, m := { m with tide := startTide op } }]) s := rfl

@[simp] theorem take_home (op : MsgOp) (m : Msg) (s : State) : (take op m s).home = s.home := rfl

end Sys2Proof.Machine
end

section
/-! Responses that come too late (R219). -/
namespace Sys2Proof.Machine

variable {op : MsgOp} {m : Msg} {s : State}

/-- The SNPI that a home sends after a late response, for the same sector and agent (R219). -/
def lateSnpi (m : Msg) : NetMsg :=
  { op := .snpi, m := { bare m m.agent with home := m.home, txid := lateTx, tide := startTide .snpi } }

/-- A late response sends its agent SNPI, unless it is itself the answer to such an SNPI. -/
theorem lateResponse_setNet (l : List NetMsg) :
    lateResponse m.home m (setNet l s) = setNet (l ++ if m.txid = lateTx then [] else [lateSnpi m]) s := by
  by_cases htx : m.txid = lateTx
  · simp only [lateResponse, htx, if_true, List.append_nil]
  · simp only [lateResponse, htx, if_false, send_setNet, lateSnpi]

/-- LATE_RESPONSE of anything: the message goes, its agent is sent SNPI, and the sender of a notice WBACK. -/
theorem runLateResponse_eq (op : MsgOp) (m : Msg) (s : State) :
    runLateResponse op m s = setNet (dropFirst (fun x => x == { op := op, m := m }) s.coh.net ++ [lateSnpi m] ++
      if op = .wbn then [{ op := .wback, m := { bare m m.agent with tide := startTide .wback } }] else []) s := by
  have hsnpi : lateResponse m.home { m with txid := 0 } (take op m s) =
      setNet (dropFirst (fun x => x == { op := op, m := m }) s.coh.net ++ [lateSnpi m]) s := by
    rw [take_eq_setNet]
    exact lateResponse_setNet (m := { m with txid := 0 }) _
  simp only [runLateResponse, hsnpi]
  by_cases hop : op = .wbn
  · rw [if_pos hop, if_pos hop, send_setNet]
  · rw [if_neg hop, if_neg hop, List.append_nil]

/-- A response whose transaction the home has ended is a late one. -/
theorem response_of_ended (h : tget none (s.home.get m.home).trans m.txid = none) :
    response op m s = lateResponse m.home m (take op m s) := by
  simp only [response, take_home, h]

/-- The commands of snoop responses, with the message each takes (R214, R216). -/
def responseRows : List ((Msg → Instr) × MsgOp) :=
  [(.rspI, .rspI), (.rspS, .rspS), (.rspE, .rspE), (.rspO, .rspO), (.rspM, .rspM), (.rspMiss, .rspMiss),
   (.rspEvicting, .rspEvicting)]

/-- The command of a snoop response has the home absorb it where it arrives. -/
theorem exec_responseRows (m : Msg) (s : State) :
    ∀ r ∈ responseRows, exec (r.1 m) s = act (reach r.2 m (response r.2 m)) s := by
  simp only [responseRows, List.forall_mem_cons]
  exact ⟨rfl, rfl, rfl, rfl, rfl, rfl, rfl, by simp⟩

theorem exec_lateResponse_of_arrives (h : arrives op m s) : exec (.lateResponse op m) s = .next (runLateResponse op m s) :=
  act_reach_of_arrives (runLateResponse op m) h

theorem exec_response_of_ended {r : (Msg → Instr) × MsgOp} (hr : r ∈ responseRows)
    (hend : tget none (s.home.get m.home).trans m.txid = none) (h : arrives r.2 m s) :
    exec (r.1 m) s = .next (setNet (dropFirst (fun x => x == { op := r.2, m := m }) s.coh.net ++
      if m.txid = lateTx then [] else [lateSnpi m]) s) := by
  rw [exec_responseRows m s r hr, act_reach_of_arrives _ h, response_of_ended hend, take_eq_setNet, lateResponse_setNet]

/-- Settles O37: the LATE_RESPONSE command by what it sends, and the seven responses by their one rule for an ended
transaction. -/
theorem lateResponses : Obligations.LateResponses := by
  intro m s
  refine ⟨fun op hop h => ?_, fun h => ?_, fun r hr hend h => exec_response_of_ended hr hend h⟩
  · rw [exec_lateResponse_of_arrives h, runLateResponse_eq, if_neg hop, List.append_nil]
    rfl
  · rw [exec_lateResponse_of_arrives h, runLateResponse_eq, if_pos rfl, List.append_assoc]
    rfl

end Sys2Proof.Machine
end

section
/-! The check chain of a packet (R65): which check fails first, and what the Harbourmaster answers. -/
namespace Sys2Proof.Machine

variable {c : Cmd} {d : Bool} {p : Pkt} {s : State} {st : Nat}

@[simp] theorem firstFail_nil : firstFail [] = none := rfl

@[simp] theorem firstFail_cons (b : Bool) (st : Nat) (l : List (Bool × Nat)) :
    firstFail ((b, st) :: l) = if b then some st else firstFail l := by
  cases b <;> rfl

/-- No check fails exactly when each one's condition is false. -/
theorem firstFail_eq_none_iff (l : List (Bool × Nat)) : firstFail l = none ↔ ∀ x ∈ l, x.1 = false := by
  induction l with
  | nil => simp
  | cons x l ih =>
    obtain ⟨b, st⟩ := x
    cases b <;> simp [ih]

/-- Of a Harbourmaster whose units answer, the verdict is the first failing check of the opcode's row. -/
theorem verdict_of_cmdOf (hc : cmdOf p.op = some c) (hrdy : hmReady s p.src.half = true) :
    verdict s d p = firstFail (checksOf c s d p) := by
  simp [verdict, hc, hrdy]

/-- A packet with no verdict against it passes its row's own checks. -/
theorem checks_of_verdict_none (hc : cmdOf p.op = some c) (h : verdict s d p = none) :
    ∀ x ∈ c.checks s p, x.1 = false := by
  have hpass : firstFail (checksOf c s d p) = none := by
    simp only [verdict, hc] at h
    split at h
    · cases h
    · exact h
  intro x hx
  exact (firstFail_eq_none_iff _).1 hpass x (by simp [checksOf, hx])

/-- Only a VF_FREEZE has result bytes when a check fails (R72). -/
theorem failRes_of_op_ne (h : p.op ≠ 0x0404) : failRes s d p st = (0, 0) := by
  simp [failRes, h]

/-- A packet that fails a check with its tag not in use gets that check's final reply and nothing else (R65, R69). -/
theorem serve_of_verdict_some (hop : p.op ≠ 0x0404) (h : verdict s false p = some st) :
    serve false p s = postReply (replyTo p st true 0 0) s := by
  simp only [serve, h, failRes_of_op_ne hop, Bool.false_and]
  rfl

end Sys2Proof.Machine
end

section
/-! LOG_CLEAR (R573): what stays of a log, and the command by its two outcomes. -/
namespace Sys2Proof.Machine

variable {p : Pkt} {s : State}

theorem half_other_ne (h : Half) : h.other ≠ h := by
  cases h <;> decide

/-! ### What stays of a log -/

/-- The entries written after the oldest one of index `i`. -/
def writtenAfter (i : Nat) (es : List LogEntry) : List LogEntry := (es.dropWhile (fun e => e.index != i)).drop 1

/-- Where `i` is live, the log is what comes before its entry, the entry, and what was written after it. -/
theorem split_at_live {i : Nat} {es : List LogEntry} (hlive : ∃ e ∈ es, e.index = i) :
    ∃ gone last, es = gone ++ last :: writtenAfter i es ∧ last.index = i ∧ ∀ e ∈ gone, e.index ≠ i := by
  induction es with
  | nil => simp at hlive
  | cons x es ih =>
    by_cases hx : x.index = i
    · exact ⟨[], x, by simp [writtenAfter, hx], hx, by simp⟩
    · have hrest : ∃ e ∈ es, e.index = i := by simpa [hx] using hlive
      obtain ⟨gone, last, hes, hlast, hgone⟩ := ih hrest
      have hafter : writtenAfter i (x :: es) = writtenAfter i es := by simp [writtenAfter, hx]
      refine ⟨x :: gone, last, ?_, hlast, List.forall_mem_cons.2 ⟨hx, hgone⟩⟩
      rw [hafter, List.cons_append, ← hes]

/-! ### The state after it -/

@[simp] theorem faultUpdate_log (s : State) : (faultUpdate s).log = s.log := by
  unfold faultUpdate
  split <;> rfl

/-- The named hub's log cut, and FAULT_N as the entries left want it (R564, R573). -/
def logCleared (p : Pkt) (s : State) : State :=
  faultUpdate (updLog p.half (fun l => { l with entries := writtenAfter (p.f 4 4) l.entries }) s)

theorem logCleared_entries (p : Pkt) (s : State) :
    ((logCleared p s).log.get p.half).entries = writtenAfter (p.f 4 4) (s.log.get p.half).entries := by
  simp [logCleared, Pair.get_set_same]

theorem logCleared_other (p : Pkt) (s : State) : (logCleared p s).log.get p.half.other = s.log.get p.half.other := by
  simp [logCleared, Pair.get_set_ne _ _ _ _ (half_other_ne p.half)]

/-- LOG_CLEAR answers how many entries it removed. -/
theorem actLogClear_eq (p : Pkt) (s : State) :
    actLogClear p s =
      done p 4 ((s.log.get p.half).entries.length - ((logCleared p s).log.get p.half).entries.length) (logCleared p s) := by
  rw [logCleared_entries]
  rfl

/-! ### Its row of the opcode table -/

/-- The checks on LOG_CLEAR's parameters, in their order. -/
def logClearChecks (s : State) (p : Pkt) : List (Bool × Nat) :=
  halfChecks s (p.f 0 1) ++
    [(!(s.log.get p.half).entries.any (fun e => e.index == p.f 4 4), stBadParam), (!readyBit s p.half rbLog, stNotReady)]

theorem cmdOf_logClear :
    cmdOf 0x0701 = some ⟨[3, 6], 8, [(0, 1), (4, 4)], 0, 0, denyHalf, logClearChecks, actLogClear⟩ := rfl

/-- A LOG_CLEAR that passes its checks names a live index. -/
theorem live_of_verdict_none {d : Bool} (hop : p.op = 0x0701) (h : verdict s d p = none) :
    ∃ e ∈ (s.log.get p.half).entries, e.index = p.f 4 4 := by
  have hchecks := checks_of_verdict_none (by rw [hop]; exact cmdOf_logClear) h
  simpa [logClearChecks] using hchecks (!(s.log.get p.half).entries.any (fun e => e.index == p.f 4 4), stBadParam)
    (by simp [logClearChecks])

/-- The parameter names a hub that is there: neither check of it fails. -/
theorem halfChecks_pass (hlt : p.f 0 1 < 2) (hhub : hubPresent s p.half = true) : ∀ x ∈ halfChecks s (p.f 0 1), x.1 = false := by
  have hb : p.f 0 1 = 1 → hubPresent s .b = true := by
    intro h1
    simpa [Pkt.half, halfOf, h1] using hhub
  simp only [halfChecks, List.forall_mem_cons]
  refine ⟨?_, by simpa using hlt, by simp⟩
  by_cases h1 : p.f 0 1 = 1 <;> simp [h1, hb]

/-- With a source that may clear the log and a hub that is there, an index not live is BAD_PARAM, as a bad form is. -/
theorem verdict_of_not_live (hop : p.op = 0x0701) (hrdy : hmReady s p.src.half = true) (hsrc : p.src.kind ∈ [3, 6])
    (hdeny : denyHalf s p = false) (hlt : p.f 0 1 < 2) (hhub : hubPresent s p.half = true)
    (hnone : ∀ e ∈ (s.log.get p.half).entries, e.index ≠ p.f 4 4) : verdict s false p = some stBadParam := by
  have hany : (s.log.get p.half).entries.any (fun e => e.index == p.f 4 4) = false := by simpa using hnone
  have hhalf := halfChecks_pass hlt hhub
  simp only [halfChecks, List.forall_mem_cons] at hhalf
  obtain ⟨habsent, hrange, -⟩ := hhalf
  have hsource : [3, 6].contains p.src.kind = true := List.contains_iff_mem.2 hsrc
  rw [verdict_of_cmdOf (by rw [hop]; exact cmdOf_logClear) hrdy]
  simp only [checksOf, logClearChecks, halfChecks, hsource, hdeny, habsent, hrange, hany]
  cases badForm _ p <;> rfl

/-! ### The command -/

theorem exec_logClear (p : Pkt) (s : State) : exec (.logClear p) s = act (hmTake 0x0701 p) s := rfl

theorem exec_logClear_of_passes (h : passes (pktFit 0x0701 p) s = true) :
    exec (.logClear p) s = .next (harbourRun (actLogClear (pktFit 0x0701 p) (came (pktFit 0x0701 p) s))) := by
  obtain ⟨hlive, htake⟩ := hmTake_passes 0x0701 p s h
  rw [exec_logClear, act, if_pos hlive, htake, cmdOf_logClear]

theorem exec_logClear_of_takes (h : takes (pktFit 0x0701 p) s = true) :
    exec (.logClear p) s = .next (harbourRun (serve (dupTag (came (pktFit 0x0701 p) s) (pktFit 0x0701 p)) (pktFit 0x0701 p)
      (came (pktFit 0x0701 p) s))) := by
  obtain ⟨hlive, htake⟩ := hmTake_takes 0x0701 p s h
  rw [exec_logClear, act, if_pos hlive, htake]

/-- Settles O10: a packet that passes leaves what was written after its entry; with no
live entry of that index the first check to fail says BAD_PARAM. -/
theorem logClear : Obligations.LogClear := by
  intro p s q u
  refine ⟨fun hpass => ⟨logCleared q u, ?_, ?_, logCleared_other q u⟩, ?_⟩
  · rw [exec_logClear_of_passes hpass, actLogClear_eq]
  · have hnone : verdict u (dupTag u q) q = none := by
      simp only [passes, Bool.and_eq_true, Option.isNone_iff_eq_none] at hpass
      exact hpass.2
    rw [logCleared_entries]
    exact split_at_live (live_of_verdict_none rfl hnone)
  · intro htakes hrdy hsrc hdeny hdup hlt hhub hnone
    have hbad := verdict_of_not_live rfl hrdy hsrc hdeny hlt hhub hnone
    rw [exec_logClear_of_takes htakes, hdup, serve_of_verdict_some (show (0x0701 : Nat) ≠ 0x0404 by decide) hbad]
    rfl

end Sys2Proof.Machine
end

section
/-! Event counters (R575–R580): what one event does to each counter, and what it leaves. -/
namespace Sys2Proof.Machine

variable {c : Ctr} {s : State} {unit ev i k : Nat}

/-! ### One counter -/

/-- At 2^48 - 1 one more wraps to 0 and sets the overflow bit (R578). -/
theorem Ctr.add_one_of_eq_max (h : c.val = 2 ^ 48 - 1) : c.add 1 = ⟨0, c.ev, true⟩ := by
  simp [Ctr.add, h]

/-- Below 2^48 - 1 one more neither wraps nor touches the overflow bit. -/
theorem Ctr.add_one_of_lt_max (h : c.val < 2 ^ 48 - 1) : c.add 1 = ⟨c.val + 1, c.ev, c.ovf⟩ := by
  have hlt : c.val + 1 < 2 ^ 48 := by omega
  simp only [Ctr.add, Nat.mod_eq_of_lt hlt, Nat.not_le.2 hlt, decide_false, Bool.or_false]

/-! ### The counters of the package -/

/-- An event changes nothing but the table of counters. -/
theorem bump_frame (unit ev n : Nat) (s : State) : { bump unit ev n s with ctrs := s.ctrs } = s := rfl

@[simp] theorem length_bump_ctrs (unit ev n : Nat) (s : State) : (bump unit ev n s).ctrs.length = s.ctrs.length :=
  List.length_map _

/-- A counter of the block that selects the event counts it, unless the block's counters count nothing. -/
theorem bump_ctrs_of_counts (n : Nat) (hc : s.ctrs[i]? = some (k, c)) (hidle : ctrIdle s unit ev = false)
    (hunit : k / 8 = unit) (hev : c.ev = ev) : (bump unit ev n s).ctrs[i]? = some (k, c.add n) := by
  simp [bump, hc, hidle, hunit, hev]

/-- A counter of another block or event, or of a block that counts nothing, keeps its value and its bit. -/
theorem bump_ctrs_of_skips (n : Nat) (hc : s.ctrs[i]? = some (k, c))
    (hskip : k / 8 ≠ unit ∨ c.ev ≠ ev ∨ ctrIdle s unit ev = true) : (bump unit ev n s).ctrs[i]? = some (k, c) := by
  have hcond : ¬(k / 8 = unit ∧ c.ev = ev ∧ ¬ctrIdle s unit ev) := by
    intro ⟨hunit, hev, hbusy⟩
    rcases hskip with hother | hother | hidle
    · exact hother hunit
    · exact hother hev
    · exact hbusy hidle
  simp only [bump, List.getElem?_map, hc, Option.map_some, if_neg hcond]

/-- Settles O9: a counter that counts the event holds `c.add 1` after it, by the two cases of that sum; every other keeps
what it held. -/
theorem counterWrap : Obligations.CounterWrap := by
  intro unit ev s t
  refine ⟨bump_frame unit ev 1 s, length_bump_ctrs unit ev 1 s, fun i k c hc => ⟨?_, ?_, bump_ctrs_of_skips 1 hc⟩⟩
  · intro hidle hunit hev hmax
    rw [bump_ctrs_of_counts 1 hc hidle hunit hev, Ctr.add_one_of_eq_max hmax, hev]
  · intro hidle hunit hev hlt
    rw [bump_ctrs_of_counts 1 hc hidle hunit hev, Ctr.add_one_of_lt_max hlt, hev]

end Sys2Proof.Machine
end

section
/-! SERVICE_N (R620, R623): what a change of the input does, by whether it is a new, unmasked activation. -/
namespace Sys2Proof.Machine

variable {s : State} {h : Half} {on : Bool}

/-! ### The in-band interrupt (R60) -/

theorem raiseIbi_of_enabled (byte : Nat) (hen : (s.i3c.get h).ibiEn = true) :
    raiseIbi h byte s = updI3c h (fun i => { i with ibi := i.ibi ++ [byte] }) s := if_pos hen

theorem raiseIbi_of_disabled (byte : Nat) (hen : (s.i3c.get h).ibiEn = false) : raiseIbi h byte s = s :=
  if_neg (Bool.eq_false_iff.1 hen)

/-! ### The state after an activation -/

/-- The state once SERVICE_N counts as active and PMU_SIDEBAND.SVC is set. -/
def serviceSet (s : State) : State := updPwr (fun p => { p with svc := true }) (setLevel 3 true s)

@[simp] theorem leader_setLevel (i : Nat) (on : Bool) (s : State) : leader (setLevel i on s) = leader s := rfl

@[simp] theorem serviceSet_i3c (s : State) : (serviceSet s).i3c = s.i3c := rfl

/-! ### The change of the input -/

/-- A new activation that is not masked sets SVC, and the Harbourmaster that leads raises its interrupt where enabled. -/
theorem runService_of_activates (hmask : masked s 3 = false) (hact : s.units.pwr.active.contains 3 = false) :
    runService true s = raiseIbi (leader s) 3 (serviceSet s) := by
  have hnew : ¬(masked s 3 ∨ s.units.pwr.active.contains 3 ∨ ¬ true) := by simp only [hmask, hact]; decide
  calc runService true s = sideAssert 3 (setLevel 3 true s) := if_neg hnew
    _ = raiseIbi (leader (setLevel 3 true s)) 3 (serviceSet s) := rfl
    _ = raiseIbi (leader s) 3 (serviceSet s) := by rw [leader_setLevel]

/-- A masked input, one that was active already or one that is released only records its level. -/
theorem runService_of_rests (hrests : masked s 3 = true ∨ s.units.pwr.active.contains 3 = true ∨ on = false) :
    runService on s = setLevel 3 on s := by
  rw [← Bool.not_eq_true on] at hrests
  exact if_pos hrests

theorem exec_serviceN_of_live (on : Bool) (hlive : live s = true) : exec (.serviceN on) s = .next (runService on s) :=
  congrArg Host.Outcome.next (if_pos hlive)

/-- Settles O11: a new unmasked activation by whether in-band interrupts are enabled, and every other change by its level. -/
theorem serviceRequest : Obligations.ServiceRequest := by
  intro s hlive p s1
  have hs1 : s1 = serviceSet s := rfl
  refine ⟨fun hmask hact => ⟨fun hen => ?_, fun hen => ?_⟩, fun on hrests => ?_⟩
  · rw [exec_serviceN_of_live true hlive, runService_of_activates hmask hact, hs1,
      raiseIbi_of_disabled 3 (by rwa [serviceSet_i3c])]
  · rw [exec_serviceN_of_live true hlive, runService_of_activates hmask hact, hs1,
      raiseIbi_of_enabled 3 (by rwa [serviceSet_i3c])]
  · rw [exec_serviceN_of_live on hlive, runService_of_rests hrests]

end Sys2Proof.Machine
end

section
/-! A package without power or clocks (R16, R39, R523, R531): which commands still act there, and what they may change. -/
namespace Sys2Proof.Machine

variable {s t : State}

/-- The commands of supplies and of the test access chain, which act in a package that is not live (log 27). -/
def actsUnpowered : Instr → Bool
  | .feedLoss _ | .feedReturn _ | .bothFeedsLost | .vholdLoss | .holdPowerUp _ | .supplyRangeChange _ _ => true
  | .trstN | .idcode _ | .samplePreload _ _ | .extest _ _ | .clamp _ | .highz _ | .ijtag _ | .bypass _ | .dbgap _ _ _ _ _ => true
  | _ => false

/-- Every other command is one the package takes: it has its effect while the package is live. -/
theorem exec_eq_act (c : Instr) : actsUnpowered c = true ∨ ∃ f, ∀ s, exec c s = act f s := by
  cases c
  case feedLoss | feedReturn | bothFeedsLost | vholdLoss | holdPowerUp | supplyRangeChange => exact .inl rfl
  case trstN | idcode | samplePreload | extest | clamp | highz | ijtag | bypass | dbgap => exact .inl rfl
  all_goals exact .inr ⟨_, fun _ => rfl⟩

theorem act_of_not_live {f : State → State} (h : live s = false) : act f s = .next s := by
  simp [act, h]

/-- Such a command changes nothing in a package that is not live. -/
theorem exec_of_not_live {c : Instr} (hc : actsUnpowered c = false) (h : live s = false) : exec c s = .next s := by
  obtain hacts | ⟨f, hf⟩ := exec_eq_act c
  · rw [hc] at hacts
    cases hacts
  · rw [hf, act_of_not_live h]

theorem live_of_stopped (h : s.pkg.stopped = true) : live s = false := by
  simp [live, h]

theorem live_of_off (h : s.pkg.mode = .off) : live s = false := by
  simp [live, h]

theorem tick_of_not_live (h : live s = false) : tick s = s := by
  simp [tick, h]

/-! ### With every clock lost -/

/-- `t` is `s` but for the supplies' record, the test access port, the draws of free values and the queue. -/
def SupplyTapFrame (s t : State) : Prop :=
  ∃ p k n q, t = { s with units := { s.units with pwr := p, tap := k }, nonce := n, pending := q }

namespace SupplyTapFrame

theorem refl (s : State) : SupplyTapFrame s s := ⟨_, _, _, _, rfl⟩

theorem of_dequeued {l : List Instr} (h : SupplyTapFrame { s with pending := l } t) : SupplyTapFrame s t := by
  obtain ⟨p, k, n, q, rfl⟩ := h
  exact ⟨p, k, n, q, rfl⟩

theorem updPwr (f : Pwr → Pwr) (h : SupplyTapFrame s t) : SupplyTapFrame s (updPwr f t) := by
  obtain ⟨p, k, n, q, rfl⟩ := h
  exact ⟨_, _, _, _, rfl⟩

theorem updFeed (k : Nat) (f : Feed → Feed) (h : SupplyTapFrame s t) : SupplyTapFrame s (updFeed k f t) := h.updPwr _

theorem updTap (f : Tap → Tap) (h : SupplyTapFrame s t) : SupplyTapFrame s (updTap f t) := by
  obtain ⟨p, k, n, q, rfl⟩ := h
  exact ⟨_, _, _, _, rfl⟩

theorem drawn (h : SupplyTapFrame s t) : SupplyTapFrame s (drawn t) := by
  obtain ⟨p, k, n, q, rfl⟩ := h
  exact ⟨_, _, _, _, rfl⟩

theorem setIr (n ir dr : Nat) (h : SupplyTapFrame s t) : SupplyTapFrame s (setIr n ir dr t) := by
  unfold Machine.setIr
  split
  · exact h.updTap _
  · exact h

theorem eq (h : SupplyTapFrame s t) :
    t = { s with units := { s.units with pwr := t.units.pwr, tap := t.units.tap }, nonce := t.nonce, pending := t.pending } := by
  obtain ⟨p, k, n, q, rfl⟩ := h
  rfl

end SupplyTapFrame

/-- What a step may do while every clock is lost (R531): take the package OFF, or touch the supplies and the test access port. -/
def StoppedEffect (s t : State) : Prop := t.pkg.mode = .off ∨ SupplyTapFrame s t

theorem runFeedLoss_stopped (k : Nat) (h : s.pkg.stopped = true) : StoppedEffect s (runFeedLoss k s) := by
  simp only [runFeedLoss, h, if_true]
  split
  · exact .inr (.refl s)
  · exact .inr ((SupplyTapFrame.refl s).updFeed _ _)

theorem runFeedReturn_stopped (k : Nat) : StoppedEffect s (runFeedReturn k s) := by
  unfold runFeedReturn
  split
  · exact .inr (.refl s)
  · exact .inr (((SupplyTapFrame.refl s).updFeed _ _).updPwr _)

theorem runBothLost_stopped (h : s.pkg.stopped = true) : StoppedEffect s (runBothLost s) := by
  simp only [runBothLost, h, if_true]
  split
  · exact .inr (.refl s)
  · split
    · exact .inr ((SupplyTapFrame.refl s).updPwr _)
    · exact .inl rfl

theorem runVholdLoss_stopped : StoppedEffect s (runVholdLoss s) := by
  unfold runVholdLoss
  split
  · exact .inl rfl
  · exact .inr ((SupplyTapFrame.refl s).updPwr _)

theorem runHoldPowerUp_stopped (k : Nat) (h : s.pkg.stopped = true) (hon : s.pkg.mode ≠ .off) :
    runHoldPowerUp k s = s := by
  simp [runHoldPowerUp, h, hon]

theorem runSupplyRange_stopped (k : Nat) (ok : Bool) : StoppedEffect s (runSupplyRange k ok s) := by
  unfold runSupplyRange
  split
  · exact .inr ((SupplyTapFrame.refl s).updPwr _)
  · exact .inr ((SupplyTapFrame.refl s).updFeed _ _)

theorem runSamplePreload_frame (h : Half) (v : Nat) : SupplyTapFrame s (runSamplePreload h v s) := by
  unfold runSamplePreload
  split
  · exact ((SupplyTapFrame.refl s).drawn.updTap _).setIr _ _ _
  · exact .refl s

theorem runExtest_frame (h : Half) (v : Nat) : SupplyTapFrame s (runExtest h v s) := by
  have hir : SupplyTapFrame s (setIr (16 + h.n) 0x03 0 s) := (SupplyTapFrame.refl s).setIr _ _ _
  unfold runExtest
  split
  · exact hir.updTap _
  · exact hir

theorem runIjtag_frame (n : Nat) : SupplyTapFrame s (runIjtag n s) := by
  unfold runIjtag
  split
  · exact (SupplyTapFrame.refl s).drawn.setIr _ _ _
  · exact .refl s

theorem runDbgap_stopped (h : Half) (op size addr data : Nat) (hst : s.pkg.stopped = true) :
    SupplyTapFrame s (runDbgap h op size addr data s) := by
  simp only [runDbgap, hst, true_or, if_true]
  split
  · exact .refl s
  · exact (SupplyTapFrame.refl s).setIr _ _ _

/-- Whatever command runs while every clock is lost. -/
theorem exec_stopped (c : Instr) (h : s.pkg.stopped = true) (hon : s.pkg.mode ≠ .off) (hex : exec c s = .next t) :
    StoppedEffect s t := by
  cases hc : actsUnpowered c with
  | false =>
    rw [exec_of_not_live hc (live_of_stopped h)] at hex
    cases hex
    exact .inr (.refl s)
  | true =>
    cases c
    case feedLoss k => obtain rfl : runFeedLoss k s = t := Host.Outcome.next.inj hex; exact runFeedLoss_stopped k h
    case feedReturn k => obtain rfl : runFeedReturn k s = t := Host.Outcome.next.inj hex; exact runFeedReturn_stopped k
    case bothFeedsLost => obtain rfl : runBothLost s = t := Host.Outcome.next.inj hex; exact runBothLost_stopped h
    case vholdLoss => obtain rfl : runVholdLoss s = t := Host.Outcome.next.inj hex; exact runVholdLoss_stopped
    case holdPowerUp k => obtain rfl : runHoldPowerUp k s = t := Host.Outcome.next.inj hex; rw [runHoldPowerUp_stopped k h hon]; exact .inr (.refl s)
    case supplyRangeChange k ok => obtain rfl : runSupplyRange k ok s = t := Host.Outcome.next.inj hex; exact runSupplyRange_stopped k ok
    case trstN => obtain rfl : runTrst s = t := Host.Outcome.next.inj hex; exact .inr ((SupplyTapFrame.refl s).updTap _)
    case idcode n => obtain rfl : runIdcode n s = t := Host.Outcome.next.inj hex; exact .inr ((SupplyTapFrame.refl s).setIr _ _ _)
    case samplePreload g v => obtain rfl : runSamplePreload g v s = t := Host.Outcome.next.inj hex; exact .inr (runSamplePreload_frame g v)
    case extest g v => obtain rfl : runExtest g v s = t := Host.Outcome.next.inj hex; exact .inr (runExtest_frame g v)
    case clamp g => obtain rfl : runClamp g s = t := Host.Outcome.next.inj hex; exact .inr ((SupplyTapFrame.refl s).setIr _ _ _)
    case highz g => obtain rfl : runHighz g s = t := Host.Outcome.next.inj hex; exact .inr ((SupplyTapFrame.refl s).setIr _ _ _)
    case ijtag n => obtain rfl : runIjtag n s = t := Host.Outcome.next.inj hex; exact .inr (runIjtag_frame n)
    case bypass n => obtain rfl : runBypass n s = t := Host.Outcome.next.inj hex; exact .inr ((SupplyTapFrame.refl s).setIr _ _ _)
    case dbgap g op size addr data => obtain rfl : runDbgap g op size addr data s = t := Host.Outcome.next.inj hex; exact .inr (runDbgap_stopped g op size addr data h)
    all_goals cases hc

/-- Settles O4: a step is a tick, which does nothing, or the front command, and only supplies and the test access port act. -/
theorem stoppedPackage : Obligations.StoppedPackage := by
  intro s t hstop hon hstep
  suffices heff : StoppedEffect s t from heff.imp id SupplyTapFrame.eq
  unfold step at hstep
  split at hstep
  · rw [tick_of_not_live (live_of_stopped hstop)] at hstep
    cases hstep
    exact .inr (.refl s)
  next c rest _ =>
    have heff : StoppedEffect { s with pending := rest } t := exec_stopped c hstop hon hstep
    exact heff.imp id SupplyTapFrame.of_dequeued

/-! ### OFF -/

theorem inChain_of_off (n : Nat) (h : s.pkg.mode = .off) : inChain s n = false := by
  simp [inChain, h]

theorem setIr_of_off (n ir dr : Nat) (h : s.pkg.mode = .off) : setIr n ir dr s = s := by
  simp [setIr, inChain_of_off n h]

theorem bothHubs_pkg {f : Half → State → State} (hf : ∀ h u, (f h u).pkg = u.pkg) : (bothHubs f s).pkg = s.pkg := by
  unfold bothHubs
  split
  · rw [hf, hf]
  · rw [hf]

/-- What a Lighthouse does as its hold domain powers up: it reads OTP and draws the starting values of its counters. -/
def hubPowerUp (h : Half) (t : State) : State :=
  updLdg h (fun l => { l with openCtr := freeVal (drawn t) % 2 ^ 32 }) (updCss h (fun c => { c with opCtr := freeVal t % 2 ^ 48 })
    (updLh h (fun l => { l with otp := true }) (drawn (drawn t))))

theorem hubPowerUp_pkg (h : Half) (t : State) : (hubPowerUp h t).pkg = t.pkg := by
  simp only [hubPowerUp, updLdg, updLh, updUnits_pkg, updCss_pkg, drawn_pkg]

/-- The supplies' record as supply `k` powers the hold domain. -/
def supplyPowerUp (k : Nat) (p : Pwr) : Pwr :=
  let inA := p.feedA.ok || k == 0
  let inB := p.feedB.ok || k == 1
  { p with feedA := ⟨inA, !inA, false, 0⟩, feedB := ⟨inB, !inB, false, 0⟩, hOk := p.hOk || k == 2, onHold := !inA && !inB }

/-- The package in HOLD with what its supplies and straps give it. -/
def enterPowered (k : Nat) (s : State) : State :=
  { s with
    pkg := { s.pkg with mode := .hold }
    units := { s.units with pwr := supplyPowerUp k s.units.pwr, auto := ⟨strapAuto s.cfg.bootMode, strapAuto s.cfg.bootMode⟩ } }

theorem runHoldPowerUp_of_off (k : Nat) (h : s.pkg.mode = .off) :
    runHoldPowerUp k s = bothHubs hubPowerUp (enterPowered k (goOff s)) := by
  have hoff : ¬¬(s.pkg.mode = .off ∨ (s.pkg.mode = .hold ∧ ¬ (lhOf s .a).otp ∧ ¬ s.pkg.stopped)) := not_not_intro (.inl h)
  rw [runHoldPowerUp, if_neg hoff, if_pos h]
  rfl

/-- A supply that powers the hold domain of a package that is OFF leaves it in HOLD (R39). -/
theorem runHoldPowerUp_mode (k : Nat) (h : s.pkg.mode = .off) : (runHoldPowerUp k s).pkg.mode = .hold := by
  rw [runHoldPowerUp_of_off k h, bothHubs_pkg hubPowerUp_pkg, enterPowered]

/-- No other command changes the mode of a package that is OFF. -/
theorem exec_off (c : Instr) (h : s.pkg.mode = .off) (hex : exec c s = .next t) :
    t.pkg.mode = .off ∨ ((∃ k, c = .holdPowerUp k) ∧ t.pkg.mode = .hold) := by
  cases hc : actsUnpowered c with
  | false =>
    rw [exec_of_not_live hc (live_of_off h)] at hex
    cases hex
    exact .inl h
  | true =>
    cases c
    case feedLoss k => obtain rfl : runFeedLoss k s = t := Host.Outcome.next.inj hex; left; simp [runFeedLoss, h]
    case feedReturn k => obtain rfl : runFeedReturn k s = t := Host.Outcome.next.inj hex; left; unfold runFeedReturn; split <;> exact h
    case bothFeedsLost => obtain rfl : runBothLost s = t := Host.Outcome.next.inj hex; left; simp [runBothLost, h]
    case vholdLoss =>
      obtain rfl : runVholdLoss s = t := Host.Outcome.next.inj hex
      left
      unfold runVholdLoss
      split
      · rfl
      · exact h
    case holdPowerUp k => obtain rfl : runHoldPowerUp k s = t := Host.Outcome.next.inj hex; exact .inr ⟨⟨k, rfl⟩, runHoldPowerUp_mode k h⟩
    case supplyRangeChange k ok => obtain rfl : runSupplyRange k ok s = t := Host.Outcome.next.inj hex; left; unfold runSupplyRange; split <;> exact h
    case trstN => obtain rfl : runTrst s = t := Host.Outcome.next.inj hex; exact .inl h
    case idcode n => obtain rfl : runIdcode n s = t := Host.Outcome.next.inj hex; left; rw [runIdcode, setIr_of_off _ _ _ h]; exact h
    case samplePreload g v => obtain rfl : runSamplePreload g v s = t := Host.Outcome.next.inj hex; left; simpa [runSamplePreload, inChain_of_off _ h] using h
    case extest g v => obtain rfl : runExtest g v s = t := Host.Outcome.next.inj hex; left; simpa [runExtest, inChain_of_off _ h, setIr_of_off _ _ _ h] using h
    case clamp g => obtain rfl : runClamp g s = t := Host.Outcome.next.inj hex; left; rw [runClamp, setIr_of_off _ _ _ h]; exact h
    case highz g => obtain rfl : runHighz g s = t := Host.Outcome.next.inj hex; left; rw [runHighz, setIr_of_off _ _ _ h]; exact h
    case ijtag n => obtain rfl : runIjtag n s = t := Host.Outcome.next.inj hex; left; simpa [runIjtag, inChain_of_off _ h] using h
    case bypass n => obtain rfl : runBypass n s = t := Host.Outcome.next.inj hex; left; rw [runBypass, setIr_of_off _ _ _ h]; exact h
    case dbgap g op size addr data => obtain rfl : runDbgap g op size addr data s = t := Host.Outcome.next.inj hex; left; simpa [runDbgap, inChain_of_off _ h] using h
    all_goals cases hc

/-- Settles O3: outside the supplies and the test access chain a command needs a live package, and of those only
HOLD_POWER_UP changes the mode of one that is OFF. -/
theorem deadPackage : Obligations.DeadPackage := by
  refine ⟨?_, fun c s t hoff hex => exec_off c hoff hex⟩
  intro c s hdead hfeedLoss hfeedReturn hboth hvhold hpowerUp hrange htrst hidcode hsample hextest hclamp hhighz hijtag hbypass hdbgap
  refine ⟨exec_of_not_live ?_ hdead, fun hq => ?_⟩
  · unfold actsUnpowered
    split
    case h_16 => rfl
    case h_15 => exact absurd rfl (hdbgap _ _ _ _ _)
    all_goals simp_all
  · simp only [step, hq, tick_of_not_live hdead]

end Sys2Proof.Machine
end

section
/-! Bytes and numbers (R13): what the little-endian codes give back. -/
namespace Sys2Proof.Machine

open List

/-! ### Little-endian numbers -/

@[simp] theorem length_toBytes (n x : Nat) : (toBytes n x).length = n := by
  induction n generalizing x with
  | zero => rfl
  | succ n ih => simp [toBytes, ih]

theorem ofBytes_lt (d : List Byte) : ofBytes d < 256 ^ d.length := by
  induction d with
  | nil => simp [ofBytes]
  | cons b d ih =>
    have hb : b.toNat < 256 := b.isLt
    rw [length_cons, Nat.pow_succ, ofBytes]
    omega

/-- The number of `n` bytes of `x` is `x` modulo their range. -/
@[simp] theorem ofBytes_toBytes (n x : Nat) : ofBytes (toBytes n x) = x % 256 ^ n := by
  induction n generalizing x with
  | zero => simp [toBytes, ofBytes, Nat.mod_one]
  | succ n ih =>
    have hstep : x % 256 ^ (n + 1) = x % 256 + 256 * (x / 256 % 256 ^ n) := by rw [Nat.pow_succ', Nat.mod_mul]
    rw [toBytes, ofBytes, ih, BitVec.toNat_ofNat, hstep]

/-- A list of bytes is the code of its number. -/
theorem toBytes_ofBytes (d : List Byte) : toBytes d.length (ofBytes d) = d := by
  induction d with
  | nil => rfl
  | cons b d ih =>
    have hb : b.toNat < 256 := b.isLt
    have hlow : BitVec.ofNat 8 (b.toNat + 256 * ofBytes d) = b := by
      apply BitVec.eq_of_toNat_eq
      rw [BitVec.toNat_ofNat]
      omega
    rw [length_cons, ofBytes, toBytes, hlow, show (b.toNat + 256 * ofBytes d) / 256 = ofBytes d by omega, ih]

theorem toBytes_mod (n x : Nat) : toBytes n (x % 256 ^ n) = toBytes n x := by
  have h := toBytes_ofBytes (toBytes n x)
  rwa [length_toBytes, ofBytes_toBytes] at h

/-! ### Fields of a list of bytes -/

/-- Inside the list a slice is just those bytes. -/
theorem slice_eq_take_drop {d : List Byte} {off n : Nat} (h : off + n ≤ d.length) : slice d off n = (d.drop off).take n := by
  have hlen : ((d.drop off).take n).length = n := by simp; omega
  simp [slice, hlen]

/-- A slice of a concatenation that begins after its first part. -/
theorem slice_append_right (a b : List Byte) (k n : Nat) : slice (a ++ b) (a.length + k) n = slice b k n := by
  simp [slice, drop_append, drop_eq_nil_of_le (Nat.le_add_right a.length k)]

/-- The bytes at the front of a concatenation. -/
theorem slice_append_left (a b : List Byte) : slice (a ++ b) 0 a.length = a := by
  simp [slice]

/-- The field that a number of `n` bytes fills, at the place where it begins. -/
theorem fieldAt_toBytes_append (n x : Nat) (b : List Byte) : fieldAt (toBytes n x ++ b) 0 n = x % 256 ^ n := by
  have h := slice_append_left (toBytes n x) b
  rw [length_toBytes] at h
  rw [fieldAt, h, ofBytes_toBytes]

theorem fieldAt_toBytes_append_of_lt {n x : Nat} (h : x < 2 ^ (8 * n)) (b : List Byte) : fieldAt (toBytes n x ++ b) 0 n = x := by
  rw [Nat.pow_mul] at h
  rw [fieldAt_toBytes_append, Nat.mod_eq_of_lt h]

/-- A field past the first `m` bytes. -/
theorem fieldAt_append_right {a : List Byte} {m : Nat} (hm : a.length = m) (b : List Byte) (k n : Nat) :
    fieldAt (a ++ b) (m + k) n = fieldAt b k n := by
  rw [fieldAt, ← hm, slice_append_right, fieldAt]

/-- The bytes of a field inside the list are its code. -/
theorem toBytes_fieldAt {d : List Byte} {off n : Nat} (h : off + n ≤ d.length) : toBytes n (fieldAt d off n) = (d.drop off).take n := by
  have hlen : ((d.drop off).take n).length = n := by simp; omega
  have hcode := toBytes_ofBytes ((d.drop off).take n)
  rw [hlen] at hcode
  rw [fieldAt, slice_eq_take_drop h, hcode]

@[simp] theorem length_pad (n : Nat) (d : List Byte) : (pad n d).length = n := by
  simp [pad]

end Sys2Proof.Machine
end

section
/-! The 64 bytes of a command packet (R62): its fields stand in their places, and nothing else does. -/
namespace Sys2Proof.Machine

open List

variable {p : Pkt} {src : Src} {d : List Byte}

theorem length_pktBytes (p : Pkt) : (pktBytes p).length = 64 := by
  simp [pktBytes, pack]

/-- Reading each field of the bytes of a packet at the place R62 gives it. -/
theorem pktOf_pktBytes (hop : p.op < 2 ^ 16) (htag : p.tag < 2 ^ 16) (hflags : p.flags < 2 ^ 8) (hplen : p.plen < 2 ^ 8)
    (hiptr : p.iptr < 2 ^ 64) (hprm : p.prm < 2 ^ 384) : pktOf p.src (pktBytes p) = p := by
  have past (n x : Nat) (b : List Byte) (k m : Nat) : fieldAt (toBytes n x ++ b) (n + k) m = fieldAt b k m :=
    fieldAt_append_right (length_toBytes n x) b k m
  have h0 : fieldAt (pktBytes p) 0 2 = p.op := by
    rw [pktBytes, pack, fieldAt_toBytes_append_of_lt hop]
  have h2 : fieldAt (pktBytes p) (2 + 0) 2 = p.tag := by
    rw [pktBytes, pack, past, pack, fieldAt_toBytes_append_of_lt htag]
  have h4 : fieldAt (pktBytes p) (2 + (2 + 0)) 1 = p.flags := by
    rw [pktBytes, pack, past, pack, past, pack, fieldAt_toBytes_append_of_lt hflags]
  have h5 : fieldAt (pktBytes p) (2 + (2 + (1 + 0))) 1 = p.plen := by
    rw [pktBytes, pack, past, pack, past, pack, past, pack, fieldAt_toBytes_append_of_lt hplen]
  have h8 : fieldAt (pktBytes p) (2 + (2 + (1 + (1 + (2 + 0))))) 8 = p.iptr := by
    rw [pktBytes, pack, past, pack, past, pack, past, pack, past, pack, past, pack, fieldAt_toBytes_append_of_lt hiptr]
  have h16 : fieldAt (pktBytes p) (2 + (2 + (1 + (1 + (2 + (8 + 0)))))) 48 = p.prm := by
    rw [pktBytes, pack, past, pack, past, pack, past, pack, past, pack, past, pack, past, pack, fieldAt_toBytes_append_of_lt hprm]
  simp only [pktOf, h0, h2, h4, h5, h8, h16]

/-- The bytes of a packet that was read are those read, with the code of its source in place of SOURCE. -/
theorem pktBytes_pktOf (hd : d.length = 64) : pktBytes (pktOf src d) = d.take 6 ++ toBytes 2 src.code ++ d.drop 8 := by
  have field {off n : Nat} (h : off + n ≤ 64) : toBytes n (fieldAt d off n) = (d.drop off).take n := toBytes_fieldAt (by omega)
  have hprm : (d.drop 16).take 48 = d.drop 16 := take_of_length_le (by simp [hd])
  have hhead : d.take (2 + (2 + (1 + 1))) = d.take 2 ++ ((d.drop 2).take 2 ++ ((d.drop 4).take 1 ++ (d.drop 5).take 1)) := by
    rw [take_add, take_add, take_add, drop_drop, drop_drop]
  have htail : (d.drop 8).take 8 ++ d.drop 16 = d.drop 8 := by
    conv => rhs; rw [← take_append_drop 8 (d.drop 8), drop_drop]
  calc pktBytes (pktOf src d)
      = (d.drop 0).take 2 ++ ((d.drop 2).take 2 ++ ((d.drop 4).take 1 ++ ((d.drop 5).take 1 ++
          (toBytes 2 src.code ++ ((d.drop 8).take 8 ++ ((d.drop 16).take 48 ++ [])))))) := by
        simp only [pktBytes, pktOf, pack]
        rw [field (by decide), field (by decide), field (by decide), field (by decide), field (by decide), field (by decide)]
    _ = d.take 6 ++ toBytes 2 src.code ++ d.drop 8 := by
        rw [drop_zero, hprm, append_nil, htail, hhead]
        simp only [append_assoc]

/-- Settles O5: each field is read where it was put, and every byte but SOURCE belongs to a field. -/
theorem packetRoundTrip : Obligations.PacketRoundTrip :=
  ⟨fun p hop htag hflags hplen hiptr hprm => ⟨length_pktBytes p, pktOf_pktBytes hop htag hflags hplen hiptr hprm⟩,
    fun _ _ hd => pktBytes_pktOf hd⟩

end Sys2Proof.Machine
end

section
/-! Flits (R235–R238, R249, R250): the check, the header's fields, and the lanes. -/
namespace Sys2Proof.Machine

open List

variable {src dst : Nat} {epoch : Bool} {op : MsgOp} {m : Msg} {payload : List Byte} {hd lseq lack : Nat}

/-! ### The check -/

theorem crcBits_lt {poly : Nat} (hpoly : poly < 2 ^ 32) : ∀ (n : Nat) {c : Nat}, c < 2 ^ 32 → crcBits poly n c < 2 ^ 32
  | 0, _, hc => hc
  | n + 1, c, hc => by
    have hhalf : c / 2 < 2 ^ 32 := by omega
    rw [crcBits]
    refine crcBits_lt hpoly n ?_
    split
    · exact Nat.xor_lt_two_pow hhalf hpoly
    · exact hhalf

theorem crcBytes_lt {poly : Nat} (hpoly : poly < 2 ^ 32) : ∀ (d : List Byte) {c : Nat}, c < 2 ^ 32 → crcBytes poly d c < 2 ^ 32
  | [], _, hc => hc
  | x :: d, _, hc => crcBytes_lt hpoly d (crcBits_lt hpoly 8 (Nat.xor_lt_two_pow hc (Nat.lt_trans x.isLt (by decide))))

theorem crc32c_lt (d : List Byte) : crc32c 0 d < 2 ^ 32 :=
  Nat.xor_lt_two_pow (crcBytes_lt (by decide) d (by decide)) (by decide)

/-- The bytes a flit's CRC is over: header, payload, LACK and LSEQ (R238). -/
def flitBody (header : Nat) (payload : List Byte) (lseq lack : Nat) : List Byte :=
  toBytes 16 header ++ pad 64 payload ++ toBytes 2 lack ++ toBytes 2 lseq

theorem flitBytes_eq (hd : Nat) (payload : List Byte) (lseq lack : Nat) :
    flitBytes hd payload lseq lack = flitBody hd payload lseq lack ++ toBytes 4 (crc32c 0 (flitBody hd payload lseq lack)) := rfl

@[simp] theorem length_flitBody (hd : Nat) (payload : List Byte) (lseq lack : Nat) : (flitBody hd payload lseq lack).length = 0x54 := by
  simp [flitBody]

theorem length_flitBytes (hd : Nat) (payload : List Byte) (lseq lack : Nat) : (flitBytes hd payload lseq lack).length = 88 := by
  simp [flitBytes_eq]

theorem flitGood_flitBytes (hd : Nat) (payload : List Byte) (lseq lack : Nat) : flitGood (flitBytes hd payload lseq lack) = true := by
  have hcrc := fieldAt_toBytes_append_of_lt (n := 4) (crc32c_lt (flitBody hd payload lseq lack)) []
  rw [append_nil] at hcrc
  have hcheck : fieldAt (flitBytes hd payload lseq lack) (0x54 + 0) 4 = crc32c 0 (flitBody hd payload lseq lack) := by
    rw [flitBytes_eq, fieldAt_append_right (length_flitBody hd payload lseq lack), hcrc]
  have hbody : (flitBytes hd payload lseq lack).take 0x54 = flitBody hd payload lseq lack := by
    rw [flitBytes_eq, take_left' (length_flitBody hd payload lseq lack)]
  rw [flitGood, length_flitBytes, hbody, hcheck]
  simp

/-! ### The parts of a flit -/

theorem take_flitBytes (hd : Nat) (payload : List Byte) (lseq lack : Nat) :
    (flitBytes hd payload lseq lack).take 0x50 = toBytes 16 hd ++ pad 64 payload := by
  rw [flitBytes_eq, flitBody, append_assoc, append_assoc (toBytes 16 hd ++ pad 64 payload), take_left' (by simp)]

theorem fieldAt_flitBytes_header (hhd : hd < 2 ^ 128) : fieldAt (flitBytes hd payload lseq lack) 0 16 = hd := by
  rw [flitBytes_eq, flitBody, append_assoc, append_assoc, append_assoc, fieldAt_toBytes_append_of_lt hhd]

/-- LACK stands after header and payload, LSEQ after it. -/
theorem fieldAt_flitBytes_lack : fieldAt (flitBytes hd payload lseq lack) 0x50 2 = lack % 2 ^ 16 := by
  rw [flitBytes_eq, flitBody, append_assoc, append_assoc (toBytes 16 hd ++ pad 64 payload)]
  exact (fieldAt_append_right (m := 0x50) (by simp) _ 0 2).trans (fieldAt_toBytes_append 2 lack _)

theorem fieldAt_flitBytes_lseq : fieldAt (flitBytes hd payload lseq lack) 0x52 2 = lseq % 2 ^ 16 := by
  rw [flitBytes_eq, flitBody, append_assoc]
  exact (fieldAt_append_right (m := 0x52) (by simp) _ 0 2).trans (fieldAt_toBytes_append 2 lseq _)

/-! ### The header (R236) -/

theorem code_lt (op : MsgOp) (data : Bool) : (op.code data).1 < 4 ∧ (op.code data).2 < 64 := by
  cases op <;> cases data <;> decide

/-- CLASS and OP stand for the message they were made from (R237). -/
theorem msgOfCode_code (op : MsgOp) (data : Bool) : msgOfCode (op.code data).1 (op.code data).2 = some op := by
  cases op <;> cases data <;> decide

theorem auxOf_lt (op : MsgOp) (m : Msg) : auxOf op m < 16 := by
  unfold auxOf
  split <;> omega

theorem woffField_lt (op : MsgOp) (m : Msg) : (if op = .wrp then woff m else 0) < 64 := by
  have hwoff : woff m ≤ 32 := Nat.min_le_left _ _
  split <;> omega

theorem b2n_lt (b : Bool) : b2n b < 2 := by
  cases b <;> decide

/-! ### Numbers put together from bit fields -/

/-- The fields, highest first, lie one below the other under bit `top`. -/
def FieldsFit : Nat → List (Nat × Nat) → Prop
  | _, [] => True
  | top, (lo, v) :: t => lo ≤ top ∧ v < 2 ^ (top - lo) ∧ FieldsFit lo t

theorem FieldsFit.mono {a b : Nat} {l : List (Nat × Nat)} (hab : a ≤ b) (h : FieldsFit a l) : FieldsFit b l := by
  cases l with
  | nil => trivial
  | cons x l =>
    obtain ⟨hlo, hv, hrest⟩ := h
    exact ⟨Nat.le_trans hlo hab, Nat.lt_of_lt_of_le hv (Nat.pow_le_pow_right (by decide) (Nat.sub_le_sub_right hab _)), hrest⟩

theorem putBits_lt_of_fit {top : Nat} {l : List (Nat × Nat)} (h : FieldsFit top l) : putBits l < 2 ^ top := by
  induction l generalizing top with
  | nil => exact Nat.two_pow_pos top
  | cons x l ih =>
    obtain ⟨lo, v⟩ := x
    obtain ⟨hlo, hv, hrest⟩ := h
    calc v * 2 ^ lo + putBits l < v * 2 ^ lo + 2 ^ lo := Nat.add_lt_add_left (ih hrest) _
      _ = (v + 1) * 2 ^ lo := (Nat.succ_mul _ _).symm
      _ ≤ 2 ^ (top - lo) * 2 ^ lo := Nat.mul_le_mul_right _ hv
      _ = 2 ^ top := by rw [← Nat.pow_add, Nat.sub_add_cancel hlo]

/-- A field is read whatever lies above it. -/
theorem fld_putBits_below {hi lo at_ v : Nat} {l : List (Nat × Nat)} (h : hi < at_) :
    fld (putBits ((at_, v) :: l)) hi lo = fld (putBits l) hi lo := by
  by_cases hlo : lo ≤ hi + 1
  · have hsplit : v * 2 ^ at_ = 2 ^ lo * (2 ^ (hi + 1 - lo) * (v * 2 ^ (at_ - (hi + 1)))) := by
      rw [← Nat.mul_assoc, ← Nat.pow_add, Nat.mul_left_comm, ← Nat.pow_add]
      congr 2
      omega
    rw [fld, fld, putBits, hsplit, Nat.mul_add_div (Nat.two_pow_pos lo), Nat.mul_add_mod]
  · rw [fld, fld, Nat.sub_eq_zero_of_le (by omega), Nat.pow_zero, Nat.mod_one, Nat.mod_one]

/-- The highest field is read where it was put. -/
theorem fld_putBits_here {hi lo v : Nat} {l : List (Nat × Nat)} (h : FieldsFit (hi + 1) ((lo, v) :: l)) :
    fld (putBits ((lo, v) :: l)) hi lo = v := by
  obtain ⟨-, hv, hrest⟩ := h
  rw [fld, putBits, Nat.mul_comm, Nat.mul_add_div (Nat.two_pow_pos lo), Nat.div_eq_of_lt (putBits_lt_of_fit hrest), Nat.add_zero,
    Nat.mod_eq_of_lt hv]

/-- Above all fields a number reads 0. -/
theorem fld_putBits_above {hi lo : Nat} {l : List (Nat × Nat)} (h : FieldsFit lo l) : fld (putBits l) hi lo = 0 := by
  rw [fld, Nat.div_eq_of_lt (putBits_lt_of_fit h), Nat.zero_mod]

/-! ### The header's fields (R236) -/

theorem headerOf_fields (src dst : Nat) (epoch : Bool) (op : MsgOp) (m : Msg) :
    let hd := headerOf src dst epoch op m
    hd < 2 ^ 128 ∧ fld hd 127 126 = (op.code m.hasData).1 ∧ fld hd 125 123 = m.tide % 8 ∧ fld hd 122 122 = b2n epoch ∧
      fld hd 121 116 = (op.code m.hasData).2 ∧ fld hd 115 104 = dst / 16 % 4096 ∧ fld hd 103 92 = src / 16 % 4096 ∧
      fld hd 91 80 = m.txid % 4096 ∧ fld hd 79 34 = m.sector % 2 ^ 46 ∧ fld hd 33 31 = 0 ∧ fld hd 30 30 = b2n m.poison ∧
      fld hd 19 16 = dst % 16 ∧ fld hd 15 12 = src % 16 ∧ fld hd 11 0 = 0 := by
  obtain ⟨hcls, hop⟩ := code_lt op m.hasData
  have fit12 : FieldsFit 16 [(12, src % 16)] := ⟨by decide, Nat.mod_lt _ (by decide), trivial⟩
  have fit16 : FieldsFit 20 ((16, dst % 16) :: _) := ⟨by decide, Nat.mod_lt _ (by decide), fit12⟩
  have fit20 : FieldsFit 26 ((20, if op = .wrp then woff m else 0) :: _) := ⟨by decide, woffField_lt op m, fit16⟩
  have fit26 : FieldsFit 30 ((26, auxOf op m) :: _) := ⟨by decide, auxOf_lt op m, fit20⟩
  have fit30 : FieldsFit 31 ((30, b2n m.poison) :: _) := ⟨by decide, b2n_lt _, fit26⟩
  have fit34 : FieldsFit 80 ((34, m.sector % 2 ^ 46) :: _) := ⟨by decide, Nat.mod_lt _ (by decide), fit30.mono (by decide)⟩
  have fit80 : FieldsFit 92 ((80, m.txid % 4096) :: _) := ⟨by decide, Nat.mod_lt _ (by decide), fit34⟩
  have fit92 : FieldsFit 104 ((92, src / 16 % 4096) :: _) := ⟨by decide, Nat.mod_lt _ (by decide), fit80⟩
  have fit104 : FieldsFit 116 ((104, dst / 16 % 4096) :: _) := ⟨by decide, Nat.mod_lt _ (by decide), fit92⟩
  have fit116 : FieldsFit 122 ((116, (op.code m.hasData).2) :: _) := ⟨by decide, hop, fit104⟩
  have fit122 : FieldsFit 123 ((122, b2n epoch) :: _) := ⟨by decide, b2n_lt _, fit116⟩
  have fit123 : FieldsFit 126 ((123, m.tide % 8) :: _) := ⟨by decide, Nat.mod_lt _ (by decide), fit122⟩
  have fit126 : FieldsFit 128 ((126, (op.code m.hasData).1) :: _) := ⟨by decide, hcls, fit123⟩
  refine ⟨putBits_lt_of_fit fit126, ?_⟩
  simp (disch := decide) only [headerOf, fld_putBits_below, fld_putBits_here fit12, fld_putBits_here fit16, fld_putBits_here fit30,
    fld_putBits_here fit34, fld_putBits_here fit80, fld_putBits_here fit92, fld_putBits_here fit104, fld_putBits_here fit116,
    fld_putBits_here fit122, fld_putBits_here fit123, fld_putBits_here fit126, fld_putBits_above fit30,
    and_self, true_and]
  rfl

/-! ### The lanes (R249, R250) -/

/-- The eight bits of a byte, put together, are the byte. -/
theorem putBits_getLsbD (x : Byte) : BitVec.ofNat 8 (putBits ((upTo 8).map (fun i => (i, b2n (x.getLsbD i))))) = x := by
  revert x
  decide

/-- The bits of byte `b` of a flit, in its unit interval and on its lanes. -/
theorem laneBit_byte (wide : Bool) (f : List Byte) (b i : Nat) (hi : i < 8) :
    laneBit wide f (b / perUnit wide) (b % perUnit wide * 8 + i) = (f.getD b 0).getLsbD i := by
  have hplace : perUnit wide * (b / perUnit wide) + (b % perUnit wide * 8 + i) / 8 = b := by
    rw [show (b % perUnit wide * 8 + i) / 8 = b % perUnit wide by omega, Nat.div_add_mod]
  rw [laneBit, hplace, show (b % perUnit wide * 8 + i) % 8 = i by omega]

theorem fromLanes_laneBit (wide : Bool) {f : List Byte} (hf : f.length = 88) : fromLanes wide (laneBit wide f) = f := by
  refine ext_getElem (by simp [fromLanes, upTo, hf]) fun b hb hbf => ?_
  have hbits : (upTo 8).map (fun i => (i, b2n (laneBit wide f (b / perUnit wide) (b % perUnit wide * 8 + i)))) =
      (upTo 8).map (fun i => (i, b2n (f[b].getLsbD i))) := by
    refine map_congr_left fun i hi => ?_
    rw [laneBit_byte wide f b i (mem_range.1 hi), getD_eq_getElem?_getD, getElem?_eq_getElem hbf, Option.getD_some]
  simp only [fromLanes, getElem_map, upTo, getElem_range] at hbits ⊢
  rw [hbits]
  exact putBits_getLsbD f[b]

/-- Settles O7: a flit by its parts, its header by its fields, and each byte by the lanes that carry it. -/
theorem flitRoundTrip : Obligations.FlitRoundTrip := by
  refine ⟨fun src dst epoch op m payload lseq lack => ?_, fun wide f hf => ⟨fromLanes_laneBit wide hf, by cases wide <;> rfl⟩⟩
  intro hd f
  obtain ⟨hlt, hcls, htide, hepoch, hop, hdst, hsrc, htxid, hsector, hzero, hpoison, hdstPort, hsrcPort, hlow⟩ :=
    headerOf_fields src dst epoch op m
  have hhd : fieldAt f 0 16 = hd := fieldAt_flitBytes_header hlt
  refine ⟨length_flitBytes _ _ _ _, flitGood_flitBytes _ _ _ _, ?_, hhd, take_flitBytes _ _ _ _, fieldAt_flitBytes_lack,
    fieldAt_flitBytes_lseq, htide, hepoch, ?_, ?_, htxid, hsector, hzero, hpoison, hlow⟩
  · simp only [flitMsg, hhd]
    rw [hcls, hop, msgOfCode_code]
  · rw [hdst, hdstPort]
    omega
  · rw [hsrc, hsrcPort]
    omega

end Sys2Proof.Machine
end

section
/-! Instructions and their words (R81, R101, R104, R131, R133, R191, R341, R342): the opcode tables and the encoders are inverse. -/
namespace Sys2Proof.Machine

variable {i j : Instr} {n m l c w : Nat}

/-! ### AN instructions -/

theorem anInstr_of_anOpc {o : AnOp} (h : anOpc i = some (n, o)) : n < 1024 ∧ ∃ f, anInstr n = some f ∧ f o = i := by
  cases i <;> cases h <;> exact ⟨by decide, _, rfl, rfl⟩

theorem anOpc_of_anInstr {f : AnOp → Instr} (h : anInstr n = some f) (o : AnOp) : anOpc (f o) = some (n, o) := by
  unfold anInstr at h
  split at h <;> cases h <;> rfl

/-- Parcel 0 of an instruction: its number gives back FMT, OPC and TYPE. -/
theorem parcel_fields {fmt ty : Nat} (hfmt : fmt < 4) (hn : n < 1024) (hty : ty < 16) :
    let p := (BitVec.ofNat 16 (fmt * 2 ^ 14 + n * 16 + ty)).toNat
    p / 2 ^ 14 = fmt ∧ p / 16 % 1024 = n ∧ p % 16 = ty := by
  simp only [BitVec.toNat_ofNat]
  omega

theorem decodeParcels_encodeParcels {o : AnOp} (h : anOpc i = some (n, o)) (hfmt : o.fmt < 4) (hty : o.ty < 16) :
    ∃ ps, encodeParcels i = some ps ∧ decodeParcels o.lcn o.ctx ps = some i := by
  obtain ⟨hn, f, hf, hi⟩ := anInstr_of_anOpc h
  obtain ⟨hpfmt, hpn, hpty⟩ := parcel_fields hfmt hn hty
  refine ⟨_, by rw [encodeParcels, h]; rfl, ?_⟩
  rw [decodeParcels, hpfmt, hpn, hpty, hf]
  exact congrArg some hi

theorem encodeParcels_of_decodeParcels {ps : List W16} (h : decodeParcels l c ps = some i) : encodeParcels i = some ps := by
  cases ps with
  | nil => cases h
  | cons p rest =>
    obtain ⟨f, hf, rfl⟩ := Option.map_eq_some_iff.1 h
    have hp : p.toNat / 2 ^ 14 * 2 ^ 14 + p.toNat / 16 % 1024 * 16 + p.toNat % 16 = p.toNat := by omega
    rw [encodeParcels, anOpc_of_anInstr hf, Option.map_some, hp, BitVec.ofNat_toNat, BitVec.setWidth_eq]

theorem runParcels_of_decodeParcels {ps : List W16} (h : decodeParcels l c ps = some i) (s : State) :
    runParcels l c ps s = exec i s := by
  rw [runParcels, h]

theorem runParcels_of_no_instr {p : W16} (h : anInstr (p.toNat / 16 % 1024) = none) (rest : List W16) (s : State) :
    runParcels l c (p :: rest) s = act (anIllegal ⟨l, c, 0, 0, p :: rest⟩) s := by
  rw [runParcels, decodeParcels, h, Option.map_none]

/-! ### A5 instructions -/

theorem a5Instr_of_a5Opc {o : A5Op} (h : a5Opc i = some (n, o)) : n < 64 ∧ ∃ f, a5Instr n = some f ∧ f o = i := by
  cases i <;> cases h <;> exact ⟨by decide, _, rfl, rfl⟩

theorem a5Opc_of_a5Instr {f : A5Op → Instr} (h : a5Instr n = some f) (o : A5Op) : a5Opc (f o) = some (n, o) := by
  unfold a5Instr at h
  split at h <;> cases h <;> rfl

/-- The word of an opcode and three fields gives them back; A5 and CPE words have them in the same bits (R131, R341). -/
theorem word_fields {x y z : Nat} (hn : n < 64) (hx : x < 32) (hy : y < 32) (hz : z < 2 ^ 16) :
    let w := n * 2 ^ 26 + x * 2 ^ 21 + y * 2 ^ 16 + z
    w < 2 ^ 32 ∧ w / 2 ^ 26 % 64 = n ∧ w / 2 ^ 21 % 32 = x ∧ w / 2 ^ 16 % 32 = y ∧ w % 2 ^ 16 = z := by
  intro w
  omega

theorem decodeA5_encodeA5 {o : A5Op} (h : a5Opc i = some (n, o)) (hra : o.ra < 32) (hrb : o.rb < 32) (hf : o.f < 2 ^ 16) :
    ∃ w < 2 ^ 32, encodeA5 i = some w ∧ decodeA5 o.lcn o.ctx w = some i := by
  obtain ⟨hn, f, hinstr, hi⟩ := a5Instr_of_a5Opc h
  obtain ⟨hw, hop, hwra, hwrb, hwf⟩ := word_fields hn hra hrb hf
  refine ⟨_, hw, by rw [encodeA5, h]; rfl, ?_⟩
  rw [decodeA5, hop, hwra, hwrb, hwf, hinstr]
  exact congrArg some hi

theorem encodeA5_of_decodeA5 (hw : w < 2 ^ 32) (h : decodeA5 l c w = some i) : encodeA5 i = some w := by
  obtain ⟨f, hf, rfl⟩ := Option.map_eq_some_iff.1 h
  have hfields : w / 2 ^ 26 % 64 * 2 ^ 26 + w / 2 ^ 21 % 32 * 2 ^ 21 + w / 2 ^ 16 % 32 * 2 ^ 16 + w % 2 ^ 16 = w := by omega
  rw [encodeA5, a5Opc_of_a5Instr hf, Option.map_some, hfields]

theorem runA5Word_of_decodeA5 (h : decodeA5 l c w = some i) (s : State) : runA5Word l c w s = exec i s := by
  rw [runA5Word, h]

theorem runA5Word_of_no_instr (h : a5Instr (w / 2 ^ 26 % 64) = none) (s : State) :
    runA5Word l c w s = act (runA5 ⟨l, c, 0, 0, 0⟩ false (fun t _ => (t, .error illegal))) s := by
  rw [runA5Word, decodeA5, h, Option.map_none]

/-! ### CPE instructions -/

/-- The CPE instruction of an opcode (R342); it is for proofs only. -/
noncomputable def cpeInstr : Nat → Option (CpeOp → Instr)
  | 0x00 => some .cpeAdd | 0x01 => some .cpeSub | 0x02 => some .cpeAnd | 0x03 => some .cpeOr | 0x04 => some .cpeXor
  | 0x05 => some .cpeSll | 0x06 => some .cpeSrl | 0x07 => some .cpeSra | 0x08 => some .cpeSltu
  | 0x10 => some .cpeAddi | 0x11 => some .cpeAndi | 0x12 => some .cpeOri | 0x13 => some .cpeLui
  | 0x18 => some .cpeLw | 0x19 => some .cpeLhu | 0x1A => some .cpeLbu
  | 0x1C => some .cpeSw | 0x1D => some .cpeSh | 0x1E => some .cpeSb
  | 0x20 => some .cpeBeq | 0x21 => some .cpeBne | 0x22 => some .cpeBltu | 0x23 => some .cpeBgeu
  | 0x24 => some .cpeJal | 0x25 => some .cpeJr
  | 0x30 => some .nxcmd | 0x31 => some .wset | 0x32 => some .cpeWait | 0x33 => some .cpePost
  | 0x34 => some .ckpt | 0x35 => some .cpeEnd | 0x36 => some .evaddr
  | _ => none

theorem cpeInstr_of_cpeOpc {o : CpeOp} (h : cpeOpc i = some (n, o)) : n < 64 ∧ ∃ f, cpeInstr n = some f ∧ f o = i := by
  cases i <;> cases h <;> exact ⟨by decide, _, rfl, rfl⟩

/-- A word in range and the engine that runs it fix the instruction. -/
theorem encodeCpe_injective {o q : CpeOp} (hi : cpeOpc i = some (n, o)) (hj : cpeOpc j = some (m, q))
    (hox : o.x < 32) (hoy : o.y < 32) (hoimm : o.imm < 2 ^ 16) (hqx : q.x < 32) (hqy : q.y < 32) (hqimm : q.imm < 2 ^ 16)
    (hhub : o.hub = q.hub) (hcpe : o.cpe = q.cpe) (hdev : o.dev = q.dev) (hword : encodeCpe i = encodeCpe j) : i = j := by
  obtain ⟨hn, f, hf, rfl⟩ := cpeInstr_of_cpeOpc hi
  obtain ⟨hm, g, hg, rfl⟩ := cpeInstr_of_cpeOpc hj
  rw [encodeCpe, encodeCpe, hi, hj] at hword
  have hsame := Option.some.inj hword
  obtain ⟨-, hop, hx, hy, himm⟩ := word_fields hn hox hoy hoimm
  obtain ⟨-, hop', hx', hy', himm'⟩ := word_fields hm hqx hqy hqimm
  simp only [hsame] at hop hx hy himm
  have hnm : n = m := hop.symm.trans hop'
  have hoq : o = q := by
    cases o
    cases q
    simp_all only
  rw [hnm, hg] at hf
  rw [hoq, Option.some.inj hf]

/-- Settles O6: decoding undoes encoding and encoding decoding, for AN and A5; the CPE encoder is injective. -/
theorem instructionCodes : Obligations.InstructionCodes := by
  refine ⟨⟨fun i n o h hfmt hty => ?_, fun l c ps i h => encodeParcels_of_decodeParcels h,
      fun l c p rest s h => runParcels_of_no_instr h rest s⟩,
    ⟨fun i n o h hra hrb hf => ?_, fun l c w i hw h => encodeA5_of_decodeA5 hw h, fun l c w s h => runA5Word_of_no_instr h s⟩,
    fun i j n m o q hi hj hox hoy hoimm hqx hqy hqimm hhub hcpe hdev hword =>
      encodeCpe_injective hi hj hox hoy hoimm hqx hqy hqimm hhub hcpe hdev hword⟩
  · obtain ⟨ps, henc, hdec⟩ := decodeParcels_encodeParcels h hfmt hty
    exact ⟨ps, henc, hdec, runParcels_of_decodeParcels hdec⟩
  · obtain ⟨w, hw, henc, hdec⟩ := decodeA5_encodeA5 h hra hrb hf
    exact ⟨w, hw, henc, hdec, runA5Word_of_decodeA5 hdec⟩

end Sys2Proof.Machine
end

section
/-! What leaves DRAM in canonical form: log entries and their notices, interrupts, movers, and the records written by DMA. -/
namespace Sys2Proof.Machine

variable {s : State} {h : Half}

/-! ### Interrupts and the log -/

@[simp] theorem portSend_mem (p : Nat) (x : Tlp) (s : State) : (portSend p x s).mem = s.mem := updPort_mem _ _ _

@[simp] theorem wakeBoth_mem (l : Nat) (s : State) : (wakeBoth l s).mem = s.mem := by
  simp only [wakeBoth, modCtx_mem]

@[simp] theorem raiseExt_mem (l v : Nat) (s : State) : (raiseExt l v s).mem = s.mem := by
  simp only [raiseExt, wakeBoth_mem, updLcn_mem]

@[simp] theorem raiseIbi_mem (h : Half) (n : Nat) (s : State) : (raiseIbi h n s).mem = s.mem := by
  simp only [raiseIbi, apply_ite State.mem, updI3c_mem, ite_self]

@[simp] theorem fnIrq_mem (k e : Nat) (s : State) : (fnIrq k e s).mem = s.mem := by
  simp only [fnIrq, apply_ite State.mem, updFn_mem, portSend_mem, updPort_mem, ite_self]

@[simp] theorem ringIrq_mem (imode vector target otype owner : Nat) (s : State) : (ringIrq imode vector target otype owner s).mem = s.mem := by
  simp only [ringIrq, apply_ite State.mem, raiseExt_mem, fnIrq_mem, ite_self]

@[simp] theorem mirSend_mem (h : Half) (i : MirItem) (s : State) : (mirSend h i s).mem = s.mem := by
  simp only [mirSend, apply_ite State.mem, ite_self]

@[simp] theorem sramPut_mem (h : Half) (g w : Nat) (s : State) : (sramPut h g w s).mem = s.mem := updSram_mem _ _ _

@[simp] theorem logSignals_mem (h : Half) (r : Report) (s : State) : (logSignals h r s).mem = s.mem := by
  simp only [logSignals, apply_ite State.mem, raiseExt_mem, raiseIbi_mem, ite_self]

@[simp] theorem logBase_mem (h : Half) (ts : Nat) (r : Report) (n : Bool) (s : State) : (logBase h ts r n s).mem = s.mem := by
  unfold logBase
  dsimp only
  split
  · simp only [mirSend_mem, sramPut_mem, updLog_mem]
  · split
    · exact updLog_mem _ _ _
    · simp only [logSignals_mem, mirSend_mem, updLog_mem]

@[simp] theorem ringStop_mem (h : Half) (l : Nat) (s : State) : (ringStop h l s).mem = s.mem := by
  simp only [ringStop, logBase_mem, drawn_mem, updRing]

theorem ringWrite_wf (l : Nat) (r : Reply) (w : dramWf s) : dramWf (ringWrite h l r s) := by
  unfold ringWrite
  dsimp only
  split
  · exact dramWf_of_mem (ringStop_mem _ _ _) w
  next s1 hw => exact dramWf_of_mem (ringStop_mem _ _ _) (dmaWrite_wf _ _ _ _ _ _ w hw)
  next s1 hw =>
    refine dramWf_of_mem ?_ (dmaWrite_wf _ _ _ _ _ _ w hw)
    simp only [apply_ite State.mem, raiseExt_mem, updRing, ite_self]

/-- A log entry is no write of DRAM; its notice in the H ring is one by DMA (R562). -/
theorem logNow_wf (r : Report) (w : dramWf s) : dramWf (logNow h r s) := by
  unfold logNow logAt
  dsimp only
  split
  · exact ringWrite_wf _ _ (dramWf_of_mem (logBase_mem _ _ _ _ _) w)
  · exact dramWf_of_mem (logBase_mem _ _ _ _ _) w

/-! ### Movers -/

@[simp] theorem updMch_mem (h : Half) (m ch : Nat) (f : MCh → MCh) (s : State) : (updMch h m ch f s).mem = s.mem := updUnits_mem _ _

@[simp] theorem updMover_mem (h : Half) (m : Nat) (f : Mover → Mover) (s : State) : (updMover h m f s).mem = s.mem := updUnits_mem _ _

@[simp] theorem bump_mem (u ev n : Nat) (s : State) : (bump u ev n s).mem = s.mem := rfl

@[simp] theorem bumpFor_mem (sec : Bool) (u ev n : Nat) (s : State) : (bumpFor sec u ev n s).mem = s.mem := by
  simp only [bumpFor, apply_ite State.mem, bump_mem, ite_self]

theorem bumpFor_wf (sec : Bool) (u ev n : Nat) (w : dramWf s) : dramWf (bumpFor sec u ev n s) := dramWf_of_mem (bumpFor_mem _ _ _ _ _) w

theorem moverStop_wf (m ch : Nat) (w : dramWf s) : dramWf (moverStop h m ch s) :=
  dramWf_of_mem (updMover_mem _ _ _ _) (logNow_wf _ (dramWf_of_mem (updMch_mem _ _ _ _ _) (dramWf_of_mem (drawn_mem s) w)))

theorem moverHalt_mem (h : Half) (m ch pa : Nat) (wr poison : Bool) (s : State) : (moverHalt h m ch pa wr poison s).mem = s.mem := by
  simp only [moverHalt, bumpFor_mem, ringIrq_mem, updMover_mem, updMch_mem]

theorem moverFinish_wf (m ch status reason : Nat) (w : dramWf s) : dramWf (moverFinish h m ch status reason s) := by
  unfold moverFinish
  dsimp only
  split
  next s1 hw =>
    refine dramWf_of_mem ?_ (dmaWrite_wf _ _ _ _ _ _ w hw)
    simp only [apply_ite State.mem, ringIrq_mem, bumpFor_mem, updMover_mem, updMch_mem, ite_self]
  · exact moverStop_wf _ _ w

theorem runMoverStart_wf (m : Nat) (w : dramWf s) : dramWf (runMoverStart h m s) := by
  have wset (f : Mover → Mover) : dramWf (updMover h m f s) := dramWf_of_mem (updMover_mem _ _ _ _) w
  have wch {t : State} (ch : Nat) (f : MCh → MCh) (wt : dramWf t) : dramWf (updMch h m ch f t) := dramWf_of_mem (updMch_mem _ _ _ _ _) wt
  unfold runMoverStart
  dsimp only
  split
  · exact w
  · split
    · exact w
    · split
      · exact wch _ _ (wset _)
      · split
        · split
          · exact moverFinish_wf _ _ _ _ (wch _ _ (wset _))
          · exact wch _ _ (wset _)
        · exact moverStop_wf _ _ (wset _)

theorem doWrites_wf (l : List (Nat × List Byte)) : ∀ s, dramWf s →
    (∀ t, doWrites h l s = .ok t → dramWf t) ∧ ∀ t a p, doWrites h l s = .error (t, a, p) → dramWf t := by
  induction l with
  | nil =>
    intro s w
    exact ⟨fun t e => (by cases e; exact w), fun t a p e => nomatch e⟩
  | cons x l ih =>
    intro s w
    cases hw : dmaWrite s h x.1 x.2 with
    | none =>
      simp only [doWrites, hw]
      exact ⟨fun t e => (nomatch e), fun t a p e => by cases e; exact w⟩
    | some r =>
      obtain ⟨s1, bad⟩ := r
      have w1 : dramWf s1 := dmaWrite_wf _ _ _ _ _ _ w hw
      cases bad with
      | true =>
        simp only [doWrites, hw]
        exact ⟨fun t e => (nomatch e), fun t a p e => by cases e; exact w1⟩
      | false =>
        simp only [doWrites, hw]
        exact ih s1 w1

theorem burstRun_wf (m ch fuel : Nat) : ∀ (left : Nat) {s : State}, dramWf s → dramWf (burstRun h m ch fuel left s) := by
  induction fuel with
  | zero =>
    intro left s w
    exact w
  | succ fuel ih =>
    intro left s w
    unfold burstRun
    dsimp only
    split
    · exact w
    · split
      · exact dramWf_of_mem (moverHalt_mem _ _ _ _ _ _ _) w
      · split
        next hw => exact dramWf_of_mem (moverHalt_mem _ _ _ _ _ _ _) ((doWrites_wf _ _ w).2 _ _ _ hw)
        next hw => exact ih _ (dramWf_of_mem (updMch_mem _ _ _ _ _) ((doWrites_wf _ _ w).1 _ hw))

theorem copyAhead_wf {m ch : Nat} {t : State} (w : dramWf s) (e : copyAhead h m ch s = .ok t) : dramWf t := by
  unfold copyAhead at e
  dsimp only at e
  split at e
  · split at e <;> cases e
    exact dramWf_of_mem (updMch_mem _ _ _ _ _) w
  · cases e
    exact w

theorem runMoverBurst_wf (m : Nat) (w : dramWf s) : dramWf (runMoverBurst h m s) := by
  unfold runMoverBurst
  split
  · exact w
  · dsimp only
    split
    · exact dramWf_of_mem (moverHalt_mem _ _ _ _ _ _ _) w
    next hcopy =>
      exact bumpFor_wf _ _ _ _ (bumpFor_wf _ _ _ _ (burstRun_wf _ _ _ _ (copyAhead_wf w hcopy)))

theorem runMoverComplete_wf (m : Nat) (w : dramWf s) : dramWf (runMoverComplete h m s) := by
  unfold runMoverComplete
  split
  · exact w
  · dsimp only
    split
    · exact moverFinish_wf _ _ _ _ w
    · exact w

theorem runMovSkip_wf (m ch : Nat) (w : dramWf s) : dramWf (runMovSkip h m ch s) := by
  unfold runMovSkip
  dsimp only
  split
  · exact moverFinish_wf _ _ _ _ (dramWf_of_mem (updMch_mem _ _ _ _ _) w)
  · exact w

theorem runMovAbort_wf (m ch : Nat) (w : dramWf s) : dramWf (runMovAbort h m ch s) := by
  unfold runMovAbort
  split
  · exact dramWf_of_mem (updMch_mem _ _ _ _ _) (runMovSkip_wf _ _ w)
  · exact w

/-! ### Sample and trace records, freeze pulses -/

theorem recordOut_wf (pa : Nat) (d : List Byte) (w : dramWf s) : dramWf (recordOut h pa d s) := by
  unfold recordOut
  split
  next hw => exact dmaWrite_wf _ _ _ _ _ _ w hw
  · exact w

theorem runSampleRecord_wf (l : Nat) (r : Option SampleOp) (w : dramWf s) : dramWf (runSampleRecord l r s) := by
  unfold runSampleRecord
  dsimp only
  split
  · exact w
  · split
    · exact dramWf_of_mem (updLcn_mem _ _ _) w
    · exact dramWf_of_mem (updLcn_mem _ _ _) (recordOut_wf _ _ w)

theorem tracePut_wf (l : Nat) (d : List Byte) (w : dramWf s) : dramWf (tracePut l d s) := by
  unfold tracePut
  dsimp only
  split
  · exact w
  · refine dramWf_of_mem (updLcn_mem _ _ _) ?_
    split
    · exact recordOut_wf _ _ w
    · exact w

theorem runTraceRecord_wf (l c : Nat) (r : TraceOp) (w : dramWf s) : dramWf (runTraceRecord l c r s) := by
  unfold runTraceRecord
  dsimp only
  split
  · exact w
  · split
    · exact dramWf_of_mem (updLcn_mem _ _ _) w
    · refine dramWf_of_mem (updLcn_mem _ _ _) (tracePut_wf _ _ ?_)
      split
      · exact w
      · exact tracePut_wf _ _ w

@[simp] theorem updColl_mem (h : Half) (f : Coll → Coll) (s : State) : (updColl h f s).mem = s.mem := updUnits_mem _ _

@[simp] theorem tally_mem (s : State) : (tally s).mem = s.mem := by rw [tally]

/-- A freeze pulse writes a record `d` at NEXT, whatever the record holds (R584). -/
def pulseRecord (h : Half) (d : List Byte) (s : State) : State :=
  let c := collOf s h
  match dmaWrite s h (c.base + c.next * 64) d with
  | none => s
  | some (s1, _) =>
    let n := c.next * 64 + recordLen
    updColl h (fun x => { x with next := if n + recordLen ≤ c.size then n / 64 else 0, seq := x.seq + 1, missed := 0 }) s1

theorem pulse_eq (h : Half) (manual : Bool) (s : State) :
    pulse h manual s = pulseRecord h (recordHead (tally s) h manual ++ recordBody (tally s) h) (tally s) := rfl

theorem pulseRecord_wf (d : List Byte) (w : dramWf s) : dramWf (pulseRecord h d s) := by
  unfold pulseRecord
  dsimp only
  split
  · exact w
  next hw => exact dramWf_of_mem (updColl_mem _ _ _) (dmaWrite_wf _ _ _ _ _ _ w hw)

theorem pulse_wf (manual : Bool) (w : dramWf s) : dramWf (pulse h manual s) := by
  rw [pulse_eq]
  exact pulseRecord_wf _ (dramWf_of_mem (tally_mem s) w)

theorem runFreezePulse_wf (busy : Bool) (w : dramWf s) : dramWf (runFreezePulse h busy s) := by
  unfold runFreezePulse
  dsimp only
  split
  · exact w
  · split
    · exact dramWf_of_mem (updColl_mem _ _ _) w
    · exact pulse_wf _ w

/-! ### The commands -/

theorem memoryOk_iff : MemoryOk s ↔ dramWf s :=
  ⟨fun ⟨ha, hb⟩ h => by cases h <;> assumption, fun w => ⟨w .a, w .b⟩⟩

/-- A command keeps DRAM in form when its effect does. -/
theorem dramWf_of_act {f : State → State} {t : State} (w : dramWf s) (hf : dramWf (f s)) (e : act f s = .next t) : dramWf t := by
  obtain rfl : (if live s then f s else s) = t := Host.Outcome.next.inj e
  split
  · exact hf
  · exact w

/-- Settles O8: each of these commands writes DRAM by DMA alone. -/
theorem writersKeepMemory : Obligations.WritersKeepMemory := by
  intro h m ch s t hok
  rw [memoryOk_iff] at hok ⊢
  rintro (e | e | e | e | e | ⟨l, r, e⟩ | ⟨l, c, r, e⟩ | ⟨busy, e⟩)
  · exact dramWf_of_act hok (runMoverStart_wf m hok) e
  · exact dramWf_of_act hok (runMoverBurst_wf m hok) e
  · exact dramWf_of_act hok (runMoverComplete_wf m hok) e
  · exact dramWf_of_act hok (runMovSkip_wf m ch hok) e
  · exact dramWf_of_act hok (runMovAbort_wf m ch hok) e
  · exact dramWf_of_act hok (runSampleRecord_wf l r hok) e
  · exact dramWf_of_act hok (runTraceRecord_wf l c r hok) e
  · exact dramWf_of_act hok (runFreezePulse_wf busy hok) e

end Sys2Proof.Machine
end

section
/-! The Harbourmaster's rows (R65, R72): what each command is, its row, and what a packet that fails a check gets. -/
namespace Sys2Proof.Machine

variable {c : Cmd} {d : Bool} {op st : Nat} {p : Pkt} {s : State} {r : Nat × (Pkt → Instr) × List Nat}

/-- Each command of R72 hands its packet to the Harbourmaster under its row's opcode. -/
theorem exec_hmRows (p : Pkt) (s : State) : ∀ r ∈ hmRows, exec (r.2.1 p) s = act (hmTake r.1 p) s := by
  simp only [hmRows, List.forall_mem_append, List.forall_mem_cons, List.not_mem_nil, false_implies,
    implies_true, and_true]
  repeat' constructor

/-- Each opcode of R72 has a row, with the sources R72 lists. -/
theorem cmdOf_hmRows : ∀ r ∈ hmRows, (cmdOf r.1).map (·.srcs) = some r.2.2 := by
  simp only [hmRows, List.forall_mem_append, List.forall_mem_cons, List.not_mem_nil, false_implies,
    implies_true, and_true]
  repeat' constructor

theorem exists_cmdOf_of_mem_hmRows (hr : r ∈ hmRows) : ∃ c, cmdOf r.1 = some c ∧ c.srcs = r.2.2 :=
  Option.map_eq_some_iff.1 (cmdOf_hmRows r hr)

/-- A command of a packet that is taken serves it, in the state it came to. -/
theorem exec_of_takes (hexec : exec c' s = act (hmTake op p) s) (h : takes (pktFit op p) s = true) :
    exec c' s = .next (harbourRun (serve (dupTag (came (pktFit op p) s) (pktFit op p)) (pktFit op p) (came (pktFit op p) s))) := by
  obtain ⟨hlive, htake⟩ := hmTake_takes op p s h
  rw [hexec, act, if_pos hlive, htake]

/-- What is answered to a packet that fails a check with `st` (R67, R69). -/
theorem serve_of_verdict (h : verdict s d p = some st) :
    serve d p s = postReply
      { src := p.src, tag := p.tag, status := st, final := true, logged := false, dup := d && st == 0x11, op := p.op,
        rlen := (failRes s d p st).1, result := (failRes s d p st).2, notify := bitOf p.flags 2 } s := by
  rw [serve, h]
  rfl

/-- Only a VF_FREEZE that ends BAD_PARAM has result bytes (R72). -/
theorem failRes_of_not_freeze (h : ¬ (p.op = 0x0404 ∧ st = 0x11)) : failRes s d p st = (0, 0) := by
  have hst : ¬ (p.op = 0x0404 ∧ st = stBadParam) := h
  simp only [failRes, ← and_assoc, hst, false_and, if_false]

/-- A well-formed VF_FREEZE of a function that is there, with too short a buffer, is told the length it needs (R72). -/
theorem failRes_of_freeze (hop : p.op = 0x0404) (hst : st = 0x11) (hd : d = false)
    (hform : ∀ c, cmdOf 0x0404 = some c → badForm c p = false) (hfn : (fnOf s p.vf).created = true)
    (hlen : p.bufLen < freezeNeed s p) : failRes s d p st = (4, freezeNeed s p) := by
  obtain ⟨c, hc, -⟩ := exists_cmdOf_of_mem_hmRows (show (0x0404, .vfFreeze, [3, 4]) ∈ hmRows by simp [hmRows])
  have hst' : st = stBadParam := hst
  simp [failRes, hop, hst', hd, hc, hform c hc, hfn, hlen]

/-- A source the opcode's row does not list is the first check to fail (R52, R65). -/
theorem verdict_of_source_not_listed (hc : cmdOf p.op = some c) (hrdy : hmReady s p.src.half = true)
    (hsrc : p.src.kind ∉ c.srcs) : verdict s d p = some 0x14 := by
  rw [verdict_of_cmdOf hc hrdy]
  simp [checksOf, hsrc, stDenied]

/-- A tag in use is the next check to fail where the source is allowed and denied nothing (R67). -/
theorem verdict_of_dup (hc : cmdOf p.op = some c) (hrdy : hmReady s p.src.half = true)
    (hsrc : p.src.kind ∈ c.srcs) (hdeny : c.deny s p = false) : verdict s true p = some 0x11 := by
  rw [verdict_of_cmdOf hc hrdy]
  simp [checksOf, hsrc, hdeny, stBadParam]

/-- A packet whose tag is in use has no form to be told a length for. -/
theorem failRes_of_dup : failRes s true p st = (0, 0) := by
  simp only [failRes, Bool.not_true, Bool.and_false]
  cases cmdOf p.op <;> simp

/-- Settles O12: every row's command serves its packet; a failing verdict is answered, and the checks of the source and of
the tag stand first and second in every row. -/
theorem hmChecks : Obligations.HmChecks := by
  refine ⟨fun r hr p s st => ?_, fun r hr p s => ?_, fun r hr p s c => ?_⟩
  · intro q u d htakes hverdict
    refine ⟨?_, fun hne => failRes_of_not_freeze hne, fun hop hst hd hform hfn hlen => ?_⟩
    · rw [exec_of_takes (exec_hmRows p s r hr) htakes, serve_of_verdict hverdict]
      rfl
    · exact failRes_of_freeze hop hst hd hform hfn hlen
  · intro q htakes hrdy hsrc d
    obtain ⟨c, hc, hsrcs⟩ := exists_cmdOf_of_mem_hmRows hr
    exact verdict_of_source_not_listed hc hrdy (hsrcs ▸ hsrc)
  · intro q u htakes hrdy hc hsrc hdeny hdup
    obtain ⟨c', hc', hsrcs⟩ := exists_cmdOf_of_mem_hmRows hr
    obtain rfl : c = c' := Option.some.inj (hc.symm.trans hc')
    have hbad : verdict u (dupTag u q) q = some 0x11 := by
      rw [hdup]
      exact verdict_of_dup hc hrdy (hsrcs ▸ hsrc) hdeny
    rw [exec_of_takes (exec_hmRows p s r hr) htakes, serve_of_verdict hbad, hdup, failRes_of_dup]
    rfl

end Sys2Proof.Machine
end

section
/-! Packets that pass (R65, R72): the row's action, and the commands that read. -/
namespace Sys2Proof.Machine

variable {c : Cmd} {i : Instr} {op : Nat} {p q : Pkt} {s t u : State}

/-- A command whose packet passes leaves what its row's action leaves, and the Harbourmaster goes on. -/
theorem exec_of_passes (h : passes (pktFit op p) s = true) (hexec : exec i s = act (hmTake op p) s) (hc : cmdOf op = some c)
    (hact : c.act (pktFit op p) (came (pktFit op p) s) = t) : exec i s = .next (harbourRun t) := by
  obtain ⟨hlive, htake⟩ := hmTake_passes op p s h
  rw [hexec, act, if_pos hlive, htake, hc, ← hact]

/-! ### Reads that depend on what is there -/

theorem actSlotInfo_of_general (h : 2 ≤ q.f 0 2) :
    actSlotInfo q u = done q 7 (res [(1, (kslotOf u q.src.half (q.f 0 2)).alg), (1, (kslotOf u q.src.half (q.f 0 2)).world),
      (2, (kslotOf u q.src.half (q.f 0 2)).fn), (2, (kslotOf u q.src.half (q.f 0 2)).ring),
      (1, (kslotOf u q.src.half (q.f 0 2)).st)]) u := by
  simp only [actSlotInfo, if_neg (Nat.not_lt.2 h)]

/-- Of an empty log both indexes are those about to be written (R572). -/
theorem actLogStatus_of_empty (h : (u.log.get q.half).entries = []) :
    actLogStatus q u = done q 14 (res [(4, (u.log.get q.half).nextIdx), (4, ((u.log.get q.half).nextIdx + 2 ^ 32 - 1) % 2 ^ 32),
      (4, (u.log.get q.half).lostTotal), (2, 0)]) u := by
  simp only [actLogStatus, h, List.head?_nil, List.getLast?_nil, List.filter_nil, List.length_nil]

theorem actLogStatus_of_entries {a b : LogEntry} (hfirst : (u.log.get q.half).entries.head? = some a)
    (hlast : (u.log.get q.half).entries.getLast? = some b) :
    actLogStatus q u = done q 14 (res [(4, a.index), (4, b.index), (4, (u.log.get q.half).lostTotal),
      (2, ((u.log.get q.half).entries.filter (fun e => e.rsv)).length)]) u := by
  simp only [actLogStatus, hfirst, hlast]

/-- Settles O13: each read is its row's action, which writes its answer alone. -/
theorem hmReads : Obligations.HmReads := by
  refine ⟨⟨?_, ?_, ?_, ?_, ?_, ?_, ?_, ?_, ?_⟩, ?_, ?_, ?_, ?_, ?_, ?_, ?_⟩
  case refine_8 => exact fun p s h hslot => exec_of_passes h rfl rfl (actSlotInfo_of_general hslot)
  case refine_11 =>
    exact fun p s h => ⟨fun hempty => exec_of_passes h rfl rfl (actLogStatus_of_empty hempty),
      fun a b hfirst hlast => exec_of_passes h rfl rfl (actLogStatus_of_entries hfirst hlast)⟩
  case refine_15 => exact fun p s h => ⟨_, exec_of_passes h rfl rfl rfl⟩
  all_goals exact fun p s h => exec_of_passes h rfl rfl rfl

end Sys2Proof.Machine
end

section
/-! Commands that change the package, its power, its cores, caches, channels and ports (R38–R42, R72), action by action. -/
namespace Sys2Proof.Machine

variable {g : Option Prog} {t : Mode} {f : Nat} {q : Pkt} {s u : State}

/-! ### MODE_SET (R38, R39) -/

theorem actModeSet_of_same (ht : modeOf (q.f 0 1) = some t) (hsame : modeSame u t (q.f 1 1) = true) :
    actModeSet q u = done q 4 (sysMode u) (ack q u) := by
  simp only [actModeSet, ht, hsame, if_true]

/-- A MODE_SET that changes something starts its transition and is then acknowledged. -/
theorem actModeSet_of_starts (ht : modeOf (q.f 0 1) = some t) (hsame : modeSame u t (q.f 1 1) = false)
    (hopen : modeOpen u t (q.f 1 1) = false) :
    actModeSet q u = ack q (modeStart (some ⟨q, false⟩) t (q.f 1 1) (q.f 2 1) { u with prog := u.prog ++ [⟨q, false⟩] }) := by
  simp only [actModeSet, ht, hsame, hopen, Bool.false_eq_true, if_false]

theorem modeSame_of_eq {n : Nat} (h : t = u.pkg.mode) (hn : n = 0xFF) : modeSame u t n = true := by
  simp [modeSame, h, hn]

theorem modeSame_of_ne (h : t ≠ u.pkg.mode) (n : Nat) : modeSame u t n = false := by
  simp [modeSame, h]

theorem modeOpen_of_not_mirrored (h : u.pkg.mode ≠ .mirrored) (n : Nat) : modeOpen u t n = false := by
  simp [modeOpen, h]

theorem modeOpen_drain (u : State) (n : Nat) : modeOpen u .drain n = false := by
  simp [modeOpen]

theorem modeAborts_of_not_drain (h : s.pkg.mode ≠ .drain) (n : Nat) : modeAborts s t n = false := by
  unfold modeAborts
  split
  next hmode _ => exact absurd hmode h
  next => rfl

/-- Out of HOLD and BRINGUP a transition to any mode but DRAIN only begins. -/
theorem modeStart_of_stopped (hmode : s.pkg.mode = .hold ∨ s.pkg.mode = .bringup) (ht : t ≠ .drain) (f : Nat) :
    modeStart g t 0xFF f s = updPkg (fun k => { k with
      target := t
      trans := some { source := s.pkg.mode, target := t, follow := t, half := none, cmd := g, abortCmd := none, phase := 0,
                      pfw := false } }) s := by
  have hdrain : s.pkg.mode ≠ .drain := by rcases hmode with h | h <;> rw [h] <;> decide
  have hdegraded : s.pkg.mode ≠ .degraded := by rcases hmode with h | h <;> rw [h] <;> decide
  simp only [modeStart, modeAborts_of_not_drain hdrain, Bool.false_eq_true, if_false, namedHalf]
  cases t
  case drain => exact absurd rfl ht
  case mirrored =>
    simp only [if_neg hdegraded]
    rfl
  all_goals rfl

/-- A DRAIN of the package is entered at once. -/
theorem modeStart_drain (hmode : s.pkg.mode ≠ .drain) {m : Mode} (hf : modeOf f = some m) :
    modeStart g .drain 0xFF f s = enterDrain m g false (updPkg (fun k => { k with target := .drain }) s) := by
  simp only [modeStart, modeAborts_of_not_drain hmode, Bool.false_eq_true, if_false, namedHalf, hf, Option.getD_some]
  rfl

/-- A first transition out of HOLD or BRINGUP (R39). -/
theorem actModeSet_of_stopped (ht : modeOf (q.f 0 1) = some t) (hmode : u.pkg.mode = .hold ∨ u.pkg.mode = .bringup)
    (hne : t ≠ u.pkg.mode) (hhalf : q.f 1 1 = 0xFF) (hdrain : t ≠ .drain) :
    actModeSet q u = ack q (updPkg (fun k => { k with
      target := t
      trans := some { source := u.pkg.mode, target := t, follow := t, half := none, cmd := some ⟨q, false⟩, abortCmd := none,
                      phase := 0, pfw := false } }) { u with prog := u.prog ++ [⟨q, false⟩] }) := by
  have hmirrored : u.pkg.mode ≠ .mirrored := by rcases hmode with h | h <;> rw [h] <;> decide
  rw [actModeSet_of_starts ht (modeSame_of_ne hne _) (modeOpen_of_not_mirrored hmirrored _), hhalf,
    modeStart_of_stopped (by exact hmode) hdrain]

/-- A DRAIN from a mode that runs, with the mode to follow it (R41). -/
theorem actModeSet_drain (ht : modeOf (q.f 0 1) = some .drain)
    (hmode : u.pkg.mode = .unified ∨ u.pkg.mode = .mirrored ∨ u.pkg.mode = .split) (hhalf : q.f 1 1 = 0xFF)
    {m : Mode} (hf : modeOf (q.f 2 1) = some m) :
    actModeSet q u = ack q (enterDrain m (some ⟨q, false⟩) false
      (updPkg (fun k => { k with target := .drain }) { u with prog := u.prog ++ [⟨q, false⟩] })) := by
  have hdrain : u.pkg.mode ≠ .drain := by rcases hmode with h | h | h <;> rw [h] <;> decide
  rw [actModeSet_of_starts ht (modeSame_of_ne hdrain.symm _) (modeOpen_drain u _), hhalf, modeStart_drain (by exact hdrain) hf]

/-! ### PWR_STATE_SET (R538) -/

theorem actPower_of_there (hv : q.f 4 1 = pstateOf u (q.f 0 4)) (hidle : u.units.preq.any (fun r => r.unit == q.f 0 4) = false) :
    actPower q u = done q 1 (q.f 4 1) (ack q u) := by
  simp only [actPower, hv, hidle, Bool.false_eq_true, not_false_eq_true, and_self, if_true]

/-- A block that is drowsy or asleep wakes at once. -/
theorem actPower_of_wakes (hv : q.f 4 1 = 0) (hst : pstateOf u (q.f 0 4) = 1 ∨ pstateOf u (q.f 0 4) = 2)
    (hidle : u.units.preq.any (fun r => r.unit == q.f 0 4) = false) :
    actPower q u = done q 1 0 (setPstate (q.f 0 4) 0 (ack q u)) := by
  have hne : (0 : Nat) ≠ pstateOf u (q.f 0 4) := by omega
  have hon : pstateOf u (q.f 0 4) ≠ 3 := by omega
  simp only [actPower, hv, hidle, hne, hon, false_and, Bool.false_eq_true, not_false_eq_true, ne_eq, and_self, if_true, if_false]

theorem actPower_of_halted (hv : q.f 4 1 ≠ 0) (hne : q.f 4 1 ≠ pstateOf u (q.f 0 4)) (hhalt : powerHalted u (q.f 0 4) = true) :
    actPower q u = postReply (replyTo q 0x15 true 0 0) u := by
  simp only [actPower, hv, hne, hhalt, false_and, if_false, ne_eq, not_false_eq_true, and_self, if_true]
  rfl

theorem actPower_of_open (hv : q.f 4 1 ≠ 0) (hne : q.f 4 1 ≠ pstateOf u (q.f 0 4)) (hhalt : powerHalted u (q.f 0 4) = false)
    (hopen : powerOpen u (q.f 0 4) (q.f 4 1) = true) :
    actPower q u = postReply (replyTo q 0x16 true 0 0) (ack q u) := by
  simp only [actPower, hv, hne, hhalt, hopen, false_and, and_false, Bool.false_eq_true, if_false, ne_eq, not_false_eq_true, and_self,
    if_true]
  rfl

/-- Another state is asked for and accepted, or deferred while the block holds secure work (R538). -/
theorem actPower_of_asks (hv : q.f 4 1 = 1 ∨ q.f 4 1 = 2 ∨ q.f 4 1 = 3) (hne : q.f 4 1 ≠ pstateOf u (q.f 0 4))
    (hhalt : powerHalted u (q.f 0 4) = false) (hopen : powerOpen u (q.f 0 4) (q.f 4 1) = false) :
    let v := accept q (if unitSecure u (q.f 0 4) then 0x02 else 0x01) u
    actPower q u = updUnits (fun x => { x with
        preq := x.preq ++ [⟨q.f 0 4, q.f 4 1, unitSecure u (q.f 0 4), some ⟨q, false⟩, false⟩] })
      (if unitType (q.f 0 4) = 2 then unitEmpty (q.f 0 4) (q.f 4 1) v else v) := by
  have hv0 : q.f 4 1 ≠ 0 := by omega
  simp only [actPower, hv0, hne, hhalt, hopen, false_and, and_false, Bool.false_eq_true, if_false, bne_iff_ne.2 hv0, Bool.true_and]
  rfl

/-! ### Cores (R143, R150, R158) -/

theorem actCoreOffline_of_quiet (h : (lcnOf u (q.f 0 2)).parked = true ∨ lcnHalted u (q.f 0 2) = true) :
    actCoreOffline q u = done q 0 0 (coreOffline (q.f 0 2) (ack q u)) :=
  if_pos h

theorem actCoreOffline_of_running (hpark : (lcnOf u (q.f 0 2)).parked = false) (hhalt : lcnHalted u (q.f 0 2) = false) :
    actCoreOffline q u = postReply (replyTo q 0x16 true 0 0) (ack q u) :=
  if_neg (by simp [hpark, hhalt])

theorem actCoreOnline_of_online (h : (coreOf u (q.f 0 2)).isSome = true) : actCoreOnline q u = done q 0 0 (ack q u) :=
  if_pos h

/-- An LCN with no core gets the spare R150 chooses, reset. -/
theorem actCoreOnline_of_spare {c : Nat} (h : coreOf u (q.f 0 2) = none)
    (hspare : chooseSpare (ack q u) (lastDie (ack q u) (q.f 0 2)) true = some c) :
    actCoreOnline q u = done q 0 0 (coreReset (q.f 0 2) (startCtx (c / 128) true)
      (updDie (c / 128) (fun x => { x with coreReady := setIns x.coreReady (c % 128) }) (assignCore (q.f 0 2) c (ack q u)))) := by
  simp only [actCoreOnline, h, Option.isSome_none, Bool.false_eq_true, if_false, coreOnline, hspare]

theorem actCoreOnline_of_none (h : coreOf u (q.f 0 2) = none)
    (hspare : chooseSpare (ack q u) (lastDie (ack q u) (q.f 0 2)) true = none) :
    actCoreOnline q u = postReply (replyTo q 0x20 true 1 0) (ack q u) := by
  simp only [actCoreOnline, h, Option.isSome_none, Bool.false_eq_true, if_false, coreOnline, hspare]
  rfl

/-! ### L3 lines, channels, path ports and buckets (R206, R286, R304) -/

theorem actL3Delete_of_room (h : (tget [] u.coh.deleted (unitDie (q.f 0 4) * 17 + unitInst (q.f 0 4))).length < 512) :
    actL3Delete q u = done q 0 0 (deleteWay (unitDie (q.f 0 4)) (unitInst (q.f 0 4)) (q.f 4 2) (q.f 6 1) (ack q u)) :=
  if_neg (Nat.not_le.2 h)

theorem actMemSpare_of_none (h : freeSpare (u.mem.get (unitHalf (q.f 0 4))) = none) :
    actMemSpare q u = postReply (replyTo q 0x20 true 1 2) (ack q u) := by
  simp only [actMemSpare, h]
  rfl

theorem actMemSpare_of_some {c : Nat} (h : freeSpare (u.mem.get (unitHalf (q.f 0 4))) = some c) :
    actMemSpare q u = startCopy (unitHalf (q.f 0 4)) (unitInst (q.f 0 4)) (some ⟨q, false⟩) (accept q 0x01 u) := by
  simp only [actMemSpare, h]
  rfl

/-- The path port a PATH_SET names. -/
def pathOfPkt (q : Pkt) : Nat := (unitHalf (q.f 0 4)).n * 16 + unitInst (q.f 0 4)

theorem actPathSet_of_offline (hset : q.f 4 1 = 1) (hst : (ppOf u (pathOfPkt q)).st = 3) :
    actPathSet q u = done q 2 0 (ack q u) := by
  unfold pathOfPkt at hst
  simp only [actPathSet, hset, hst, if_true]

theorem actPathSet_of_needed (hset : q.f 4 1 = 1) (hst : (ppOf u (pathOfPkt q)).st ≠ 3)
    (hneed : pathNeeded u (pathOfPkt q) = true) :
    actPathSet q u = postReply (replyTo q 0x16 true 0 0) (ack q u) := by
  unfold pathOfPkt at hst hneed
  simp only [actPathSet, hset, hst, hneed, if_true, if_false]
  rfl

/-- A port no operation needs goes offline, answered when the operations on it have ended (R305). -/
theorem actPathSet_of_leaves (hset : q.f 4 1 = 1) (hst : (ppOf u (pathOfPkt q)).st ≠ 3)
    (hneed : pathNeeded u (pathOfPkt q) = false) :
    let pp := pathOfPkt q
    let t := updPp pp (fun y => { y with st := 3, cycle := 0, pathups := [] }) u
    actPathSet q u = if [Half.a, Half.b].any (fun h => (cssOf u h).ift.any (fun e => e.2.live && e.2.pp == pp)) then
      updPp pp (fun y => { y with cmd := some ⟨q, false⟩ }) (accept q 0x01 t) else done q 2 (subsMoved t pp) (ack q t) := by
  unfold pathOfPkt at *
  simp only [actPathSet, hset, hst, hneed, if_true, if_false, Bool.false_eq_true]
  rfl

theorem actPathSet_of_online (hset : q.f 4 1 = 0) (hst : (ppOf u (pathOfPkt q)).st = 2) :
    actPathSet q u = done q 2 0 (ack q u) := by
  unfold pathOfPkt at hst
  simp only [actPathSet, hset, hst, Nat.zero_ne_one, if_true, if_false]

theorem actPathSet_of_linkUp (hset : q.f 4 1 = 0) (hst : (ppOf u (pathOfPkt q)).st = 3)
    (hlink : (ppOf u (pathOfPkt q)).linkUp = true) :
    actPathSet q u = done q 2 0 (portOnline (pathOfPkt q) (ack q u)) := by
  have h2 : ¬ (3 : Nat) = 2 := by decide
  unfold pathOfPkt at hst hlink ⊢
  simp only [actPathSet, hset, hst, hlink, h2, Nat.zero_ne_one, and_self, if_true, if_false]

/-- A port that cannot come online at once begins a recovery cycle. -/
theorem actPathSet_of_recovers (hset : q.f 4 1 = 0) (hst : (ppOf u (pathOfPkt q)).st ≠ 2)
    (hlink : ¬ ((ppOf u (pathOfPkt q)).st = 3 ∧ (ppOf u (pathOfPkt q)).linkUp = true)) :
    actPathSet q u = updPp (pathOfPkt q) (fun y => { y with
      st := if y.st = 3 then 1 else y.st, cycle := 1, cmd := some ⟨q, false⟩ }) (accept q 0x01 u) := by
  unfold pathOfPkt at hst hlink ⊢
  simp only [actPathSet, hset, hst, hlink, Nat.zero_ne_one, if_false]
  rfl

/-- A bucket below its new threshold only takes the new values. -/
theorem actBucket_of_below (h : (bucketOf (updBucket (q.f 0 4) (fun b => { b with thresh := q.f 4 2, leak := q.f 6 2 }) u)
      (q.f 0 4)).count < bLim (bucketOf (updBucket (q.f 0 4) (fun b => { b with thresh := q.f 4 2, leak := q.f 6 2 }) u)
      (q.f 0 4)).thresh) :
    actBucket q u = done q 0 0 (updBucket (q.f 0 4) (fun b => { b with thresh := q.f 4 2, leak := q.f 6 2 }) u) :=
  if_neg (Nat.not_le.2 h)

/-- Settles O14: each command is its row's action in the case at hand. -/
theorem hmPackage : Obligations.HmPackage := by
  refine ⟨⟨?_, ?_, ?_, ?_⟩, ?_, ?_, ?_, ?_, ?_, ?_, ?_, ?_⟩
  case refine_1 =>
    refine fun p s h t ht => ⟨fun hcur => exec_of_passes h rfl rfl (actModeSet_of_same ht (modeSame_of_eq hcur.1 hcur.2)),
      fun hmode hne hhalf hdrain => exec_of_passes h rfl rfl (actModeSet_of_stopped ht hmode hne hhalf hdrain),
      fun hmode hdrain hhalf f hf => ?_⟩
    subst hdrain
    exact exec_of_passes h rfl rfl (actModeSet_drain ht hmode hhalf hf)
  case refine_4 =>
    exact fun p s h => ⟨fun hv hidle => exec_of_passes h rfl rfl (actPower_of_there hv hidle),
      fun hv hst hidle => exec_of_passes h rfl rfl (actPower_of_wakes hv hst hidle),
      fun hv hne hhalt => exec_of_passes h rfl rfl (actPower_of_halted hv hne hhalt),
      fun hv hne hhalt hopen => exec_of_passes h rfl rfl (actPower_of_open hv hne hhalt hopen),
      fun hv hne hhalt hopen => exec_of_passes h rfl rfl (actPower_of_asks hv hne hhalt hopen)⟩
  case refine_6 =>
    exact fun p s h => ⟨fun hquiet => exec_of_passes h rfl rfl (actCoreOffline_of_quiet hquiet),
      fun hpark hhalt => exec_of_passes h rfl rfl (actCoreOffline_of_running hpark hhalt)⟩
  case refine_7 =>
    exact fun p s h => ⟨fun hon => exec_of_passes h rfl rfl (actCoreOnline_of_online hon),
      fun c hoff hspare => exec_of_passes h rfl rfl (actCoreOnline_of_spare hoff hspare),
      fun hoff hspare => exec_of_passes h rfl rfl (actCoreOnline_of_none hoff hspare)⟩
  case refine_8 => exact fun p s h hroom => exec_of_passes h rfl rfl (actL3Delete_of_room hroom)
  case refine_9 =>
    exact fun p s h => ⟨fun hnone => exec_of_passes h rfl rfl (actMemSpare_of_none hnone),
      fun c hsome => exec_of_passes h rfl rfl (actMemSpare_of_some hsome)⟩
  case refine_10 =>
    exact fun p s h => ⟨fun hset hst => exec_of_passes h rfl rfl (actPathSet_of_offline hset hst),
      fun hset hst hneed => exec_of_passes h rfl rfl (actPathSet_of_needed hset hst hneed),
      fun hset hst hneed => exec_of_passes h rfl rfl (actPathSet_of_leaves hset hst hneed),
      fun hset hst => exec_of_passes h rfl rfl (actPathSet_of_online hset hst),
      fun hset hst hlink => exec_of_passes h rfl rfl (actPathSet_of_linkUp hset hst hlink),
      fun hset hst hlink => exec_of_passes h rfl rfl (actPathSet_of_recovers hset hst hlink)⟩
  case refine_11 => exact fun p s h hbelow => exec_of_passes h rfl rfl (actBucket_of_below hbelow)
  all_goals exact fun p s h => exec_of_passes h rfl rfl rfl

end Sys2Proof.Machine
end

section
/-! Commands on ledger streams, keys, time, counters and diagnostics (R72), action by action. -/
namespace Sys2Proof.Machine

variable {q : Pkt} {u : State} {d : List Byte}

/-! ### Keys (R499–R502) -/

theorem actKeyLoad_of_ok {key : List Byte} (hd : wrappedKey u q = some d) (hkey : unwrapKey u q.src.half d = .ok key) :
    actKeyLoad q u = done q 0 0 (setSlot q.src.half (q.f 0 2)
      { st := 1, alg := fieldAt d 5 1, world := q.f 2 1, fn := q.f 4 2, ring := q.f 6 2, key := key } (ack q u)) := by
  simp only [actKeyLoad, hd, hkey]

theorem actKeyLoad_of_error {r : Nat} (hd : wrappedKey u q = some d) (hkey : unwrapKey u q.src.half d = .error r) :
    actKeyLoad q u = postReply (replyTo q 0x20 true 1 r) (ack q u) := by
  simp only [actKeyLoad, hd, hkey]
  rfl

theorem actErase_of_used (h : slotInJob u q.src.half (q.f 0 2) = true ∨ slotInStream u q.src.half (q.f 0 2) = true) :
    actErase q u = postReply (replyTo q 0x16 true 0 0) (ack q u) :=
  if_pos h

theorem actErase_of_unused (hjob : slotInJob u q.src.half (q.f 0 2) = false)
    (hstream : slotInStream u q.src.half (q.f 0 2) = false) :
    actErase q u = done q 0 0 (setSlot q.src.half (q.f 0 2) KSlot.empty (ack q u)) :=
  if_neg (by simp [hjob, hstream])

/-- Settles O16: each command is its row's action; a key load ends by what unwrapping it gave, an erasure by the slot's use. -/
theorem hmLedgerKeys : Obligations.HmLedgerKeys := by
  refine ⟨⟨?_, ?_, ?_, ?_⟩, ?_, ?_, ?_⟩
  case refine_5 =>
    exact fun p s h d hd => ⟨fun key hkey => exec_of_passes h rfl rfl (actKeyLoad_of_ok hd hkey),
      fun r hkey => exec_of_passes h rfl rfl (actKeyLoad_of_error hd hkey)⟩
  case refine_7 =>
    exact fun p s h => ⟨fun hused => exec_of_passes h rfl rfl (actErase_of_used hused),
      fun hjob hstream => exec_of_passes h rfl rfl (actErase_of_unused hjob hstream)⟩
  all_goals exact fun p s h => exec_of_passes h rfl rfl rfl

/-! ### Diagnostics (R252, R633) -/

theorem actRetrain_of_fenced (h : (rytOf u (unitRyt (q.f 0 4))).st = .fenced) : actRetrain q u = done q 1 0 (ack q u) :=
  if_pos h

theorem actRetrain_of_not_fenced (h : (rytOf u (unitRyt (q.f 0 4))).st ≠ .fenced) :
    actRetrain q u = startRetrain (unitRyt (q.f 0 4)) (accept q 0x01 u) :=
  if_neg h

theorem actCoreTest_of_busy (h : (coreOf u (q.f 0 2)).isSome = true ∨ (lcnOf u (q.f 0 2)).parked = true) :
    actCoreTest q u = postReply (replyTo q 0x16 true 0 0) (ack q u) :=
  if_pos (h.imp_right .inl)

theorem actCoreTest_of_free (hcore : coreOf u (q.f 0 2) = none) (hpark : (lcnOf u (q.f 0 2)).parked = false)
    (h1 : coreState u (testCore u (q.f 0 2)) ≠ 1) (h3 : coreState u (testCore u (q.f 0 2)) ≠ 3) :
    actCoreTest q u = accept q 0x01 u :=
  if_neg (by simp [hcore, hpark, h1, h3])

/-- Settles O17: each command is its row's action; a retrain and a core test end by what they name. -/
theorem hmTimeCounters : Obligations.HmTimeCounters := by
  refine ⟨⟨?_, ?_, ?_, ?_, ?_, ?_, ?_⟩, ?_, ?_, ?_⟩
  case refine_9 =>
    exact fun p s h => ⟨fun hfenced => exec_of_passes h rfl rfl (actRetrain_of_fenced hfenced),
      fun hother => exec_of_passes h rfl rfl (actRetrain_of_not_fenced hother)⟩
  case refine_10 =>
    exact fun p s h => ⟨fun hbusy => exec_of_passes h rfl rfl (actCoreTest_of_busy hbusy),
      fun hcore hpark h1 h3 => exec_of_passes h rfl rfl (actCoreTest_of_free hcore hpark h1 h3)⟩
  all_goals exact fun p s h => exec_of_passes h rfl rfl rfl

end Sys2Proof.Machine
end

section
/-! Rings of a core (R54–R59, R67): tail and head writes, posting, stops, and the timeout of a command (R69). -/
namespace Sys2Proof.Machine

variable {s t : State} {h : Half} {l : Nat} {r : Reply} {g : Prog}

/-! ### Writes of the ring's registers -/

theorem setCrTail_of_on (hon : halfOn s h = true) (v : Nat) :
    setCrTail h l v s = updRing h (l % 3) (fun r => { r with crTail := v % ringSlots r }) s := by
  simp only [setCrTail, hon, not_true, if_false]

theorem setSrHead_of_on (hon : halfOn s h = true) (v : Nat) :
    setSrHead h l v s = postHeldN h (l % 3)
      (ringOf (updRing h (l % 3) (fun r => { r with srHead := v % ringSlots r }) s) h (l % 3)).held.length
      (updRing h (l % 3) (fun r => { r with srHead := v % ringSlots r }) s) := by
  simp only [setSrHead, hon, not_true, if_false]

theorem ringSlots_eq (g : Ring) : ringSlots g = 2 ^ (min g.size 8 + 4) := by
  unfold ringSlots
  split
  next hbig => rw [Nat.min_eq_right (by omega)]
  next hsmall => rw [Nat.min_eq_left (by omega)]

/-! ### A stop (R59) -/

/-- A note of no bucket raises no signal. -/
theorem logSignals_note {r : Report} (hcls : r.cls = clsNote) (hb : r.bucket = none) : logSignals h r s = s := by
  simp [logSignals, hcls, hb, clsNote]

/-- Writing the entry of a note changes logs, the SRAM they stand in and what goes to the mirror. -/
theorem logBase_note {r : Report} (hcls : r.cls = clsNote) (hb : r.bucket = none) (ts : Nat) (n : Bool) :
    ∃ l m u, logBase h ts r n s = { s with log := l, mirq := m, units := u } := by
  unfold logBase
  dsimp only
  split
  · unfold mirSend
    split <;> exact ⟨_, _, _, rfl⟩
  · split
    · exact ⟨_, _, _, rfl⟩
    · rw [logSignals_note hcls hb]
      unfold mirSend
      split <;> exact ⟨_, _, _, rfl⟩

/-- What is neither of the logs, nor of the mirror's queue, nor of the units stays as it was. -/
theorem logBase_note_proj {α : Type} (f : State → α) (hf : ∀ s l m u, f { s with log := l, mirq := m, units := u } = f s)
    {r : Report} (hcls : r.cls = clsNote) (hb : r.bucket = none) (ts : Nat) (n : Bool) : f (logBase h ts r n s) = f s := by
  obtain ⟨l, m, u, e⟩ := logBase_note (h := h) (s := s) hcls hb ts n
  rw [e, hf]

/-- A stopped ring with its commands in progress muted, before the entry of the stop. -/
def ringMuted (h : Half) (l : Nat) (s : State) : State :=
  let s1 := updRing h l (fun r => { r with en := false, stopped := true, held := [] }) s
  { s1 with
    prog := s1.prog.map (fun g => if g.pkt.src = .ring h l then { g with mute := true } else g)
    waitFence := s1.waitFence.filter (fun p => p.pkt.src ≠ .ring h l) }

theorem ringStop_eq (h : Half) (l : Nat) (s : State) :
    ringStop h l s = logBase h ((ringMuted h l s).st64.get h).toNat
      { source := srcOf h 0xFF 0x13 0, level := 2, cls := clsNote, code := 0x0906,
        data := freeVal (ringMuted h l s) % 2 ^ 192, bucket := none } false (drawn (ringMuted h l s)) := rfl

/-- A stop leaves what the entry of a note leaves. -/
theorem ringStop_proj {α : Type} (f : State → α) (hf : ∀ s l m u, f { s with log := l, mirq := m, units := u } = f s)
    (h : Half) (l : Nat) (s : State) : f (ringStop h l s) = f (drawn (ringMuted h l s)) := by
  rw [ringStop_eq]
  exact logBase_note_proj f hf rfl rfl _ _

theorem runRingStop_of_enabled (hen : (ringOf s h (l % 3)).en = true) : runRingStop h l s = ringStop h (l % 3) s :=
  if_pos hen

/-! ### Posting a reply (R56, R58, R64) -/

/-- The ring after a reply stands in its slot: the tail has advanced, and PHASE turns over as it wraps. -/
def ringAdvanced (h : Half) (l tail : Nat) (t : State) : State :=
  updRing h l (fun k => { k with srTail := tail, phase := if tail = 0 then !k.phase else k.phase }) t

theorem ringWrite_of_room
    (hw : dmaWrite s h ((ringOf s h l).srBase.toNat % 2 ^ 52 + (ringOf s h l).srTail % ringSlots (ringOf s h l) * 32)
      (replyBytes r (ringOf s h l).phase) = some (t, false)) :
    ringWrite h l r s =
      if r.final ∧ r.notify then
        raiseExt (ringOf s h l).lcn (ringOf s h l).vector
          (ringAdvanced h l (((ringOf s h l).srTail + 1) % ringSlots (ringOf s h l)) t)
      else ringAdvanced h l (((ringOf s h l).srTail + 1) % ringSlots (ringOf s h l)) t := by
  unfold ringWrite
  dsimp only [Ring.ix]
  rw [hw]
  rfl

/-! ### A timeout (R69) -/

theorem timeoutUndo_of_plain (hop : ∀ op ∈ [0x0601, 0x0403, 0x0404], g.pkt.op ≠ op) : timeoutUndo g s = s := by
  unfold timeoutUndo
  split
  next e => exact absurd e (hop _ (by simp))
  next e => exact absurd e (hop _ (by simp))
  next e => exact absurd e (hop _ (by simp))
  next => rfl

theorem runCommandTimeout_of_plain {src : Src} {tag : Nat}
    (hfind : s.prog.find? (fun g => g.pkt.src == src && g.pkt.tag == tag) = some g)
    (hop : ∀ op ∈ [0x0601, 0x0403, 0x0404], g.pkt.op ≠ op) :
    runCommandTimeout src tag s = harbourRun
      (if g.mute then logNow src.half (rpt (hmUnit src.half) 2 clsNote 0x0906 (ofBytes ((pktBytes g.pkt).take 24)))
          { s with prog := dropFirst (fun x => x.pkt == g.pkt) s.prog }
        else postReply { replyTo g.pkt 0x22 true 0 0 with logged := true }
          (logNow src.half (rpt (hmUnit src.half) 2 clsNote 0x0906 (ofBytes ((pktBytes g.pkt).take 24)))
            { s with prog := dropFirst (fun x => x.pkt == g.pkt) s.prog })) := by
  simp only [runCommandTimeout, hfind, timeoutUndo_of_plain hop]
  rfl

theorem exec_eq_of_live {c : Instr} {f : State → State} (hexec : exec c s = act f s) (hlive : live s = true) :
    exec c s = .next (f s) := by
  rw [hexec, act, if_pos hlive]

/-- In a live package a command leaves what its run leaves. -/
theorem exec_of_live {c : Instr} {f : State → State} (hexec : exec c s = act f s) (hlive : live s = true) (hrun : f s = t) :
    exec c s = .next t := by
  rw [exec_eq_of_live hexec hlive, hrun]

/-- Settles O18: register writes by the ring they change, a stop by what its note entry leaves alone, a posted reply by
the slot's write, a timeout by its command. -/
theorem rings : Obligations.Rings := by
  refine ⟨⟨fun h l v s hlive hon => ?_, fun h l v s hlive hon => ?_, fun h l s hlive => exec_eq_of_live (f := runReplyPost h l) rfl hlive,
    fun h l s hlive hen => ⟨_, exec_eq_of_live (f := runRingStop h l) rfl hlive, ?_⟩, fun h l s hlive =>
    exec_eq_of_live (f := runStoppedClear h l) rfl hlive⟩, ?_, ?_⟩
  · exact exec_of_live rfl hlive (by rw [runCrTail, setCrTail_of_on hon])
  · exact exec_of_live rfl hlive (by rw [runSrHead, setSrHead_of_on hon])
  · rw [runRingStop_of_enabled hen]
    exact ⟨ringStop_proj State.rings (fun _ _ _ _ => rfl) _ _ _, ringStop_proj State.prog (fun _ _ _ _ => rfl) _ _ _,
      ringStop_proj State.waitFence (fun _ _ _ _ => rfl) _ _ _, ringStop_proj State.mem (fun _ _ _ _ => rfl) _ _ _,
      ringStop_proj State.ctxs (fun _ _ _ _ => rfl) _ _ _⟩
  · intro h l r s t g slot tail hw u
    refine ⟨fun hfinal hnotify => ?_, fun hquiet => ?_, ringSlots_eq g⟩
    · rw [ringWrite_of_room hw, if_pos ⟨hfinal, hnotify⟩]
      rfl
    · have hno : ¬ (r.final = true ∧ r.notify = true) := by
        rcases hquiet with hq | hq <;> simp [hq]
      rw [ringWrite_of_room hw, if_neg hno]
      rfl
  · intro src tag s g hlive hfind hop t
    refine ⟨fun hmute => ?_, fun hmute => ?_⟩ <;> refine (exec_eq_of_live rfl hlive).trans ?_ <;>
      rw [runCommandTimeout_of_plain hfind hop, hmute] <;> rfl

end Sys2Proof.Machine
end

section
/-! The management port (R60, R61, R494): direct transfers, addresses, bus commands and the bundle. -/
namespace Sys2Proof.Machine

variable {s : State} {h : Half} {d : List Byte}

/-! ### Private writes and reads (R61) -/

theorem runI3cWrite_of_other_length (hon : i3cOn s h = true) (hlen : d.length ≠ 64) :
    runI3cWrite h d s = i3cReply h false [] s := by
  simp only [runI3cWrite, hon, hlen, not_true, ne_eq, not_false_eq_true, if_true, if_false]

/-- 64 bytes are a packet of the port, which has room for it in progress. -/
theorem runI3cWrite_of_packet (hon : i3cOn s h = true) (hlen : d.length = 64) (hroom : progCount s (.mgmt h) < 64) :
    runI3cWrite h d s = harbourRun (arrive (pktOf (.mgmt h) d) (i3cReply h true [] s)) := by
  have hsrc : (pktOf (.mgmt h) d).src = .mgmt h := rfl
  simp only [runI3cWrite, mgmtPacket, hsrc, hon, hlen, Nat.not_le.2 hroom, not_true, ne_eq, if_false]

theorem runI3cRead_of_empty (hon : i3cOn s h = true) (hfifo : (s.i3c.get h).fifo = []) :
    runI3cRead h s = i3cReply h false [] s := by
  simp only [runI3cRead, hon, hfifo, not_true, if_false]

theorem runI3cRead_of_reply {r : Reply} {t : List Reply} (hon : i3cOn s h = true) (hfifo : (s.i3c.get h).fifo = r :: t) :
    runI3cRead h s = i3cReply h true (replyBytes r false) (updI3c h (fun x => { x with fifo := t }) s) := by
  simp only [runI3cRead, hon, hfifo, not_true, if_false]

/-! ### Dynamic addresses and bus commands (R60) -/

theorem setDyn_of_on (hon : i3cOn s h = true) (a : Option Nat) :
    setDyn h a s = i3cReply h true [] (updI3c h (fun x => { x with dyn := a }) s) :=
  if_pos hon

theorem setDyn_of_off (hoff : i3cOn s h = false) (a : Option Nat) : setDyn h a s = s :=
  if_neg (by simp [hoff])

theorem runEntdaa_of_none (hon : i3cOn s h = true) (hdyn : (s.i3c.get h).dyn = none) (a : Nat) :
    runEntdaa h a s = i3cReply h true [] (updI3c h (fun x => { x with dyn := some (a % 128) }) s) := by
  rw [runEntdaa, hdyn, Option.isSome_none, if_neg Bool.false_ne_true, setDyn_of_on hon]

/-- Each hub's target answers SETDASA at its own static address. -/
theorem runSetdasa_of_none (hon : i3cOn s h = true) (hdyn : (s.i3c.get h).dyn = none) (a : Nat) :
    runSetdasa (if h = .a then 0x2C else 0x2D) a s =
      i3cReply h true [] (updI3c h (fun x => { x with dyn := some (a % 128) }) s) := by
  cases h <;> simp [runSetdasa, hdyn, setDyn_of_on hon]

/-- Taking addresses away changes the port's own state alone. -/
theorem setDyn_none_frame (h : Half) (s : State) :
    (setDyn h none s).pkg = s.pkg ∧ (setDyn h none s).cfg = s.cfg ∧ (setDyn h none s).prog = s.prog ∧
    ((setDyn h none s).i3c.get h).fifo = (s.i3c.get h).fifo ∧ (setDyn h none s).i3c.get h.other = s.i3c.get h.other := by
  cases hon : i3cOn s h
  · rw [setDyn_of_off hon]
    simp
  · rw [setDyn_of_on hon]
    cases h <;> simp [i3cReply, updI3c, Pair.get, Pair.set, Half.other]

theorem setDyn_none_dyn (hon : i3cOn s h = true) : ((setDyn h none s).i3c.get h).dyn = none := by
  rw [setDyn_of_on hon]
  cases h <;> rfl

theorem i3cOn_congr {t : State} (hpkg : t.pkg = s.pkg) (hcfg : t.cfg = s.cfg) (g : Half) : i3cOn t g = i3cOn s g := by
  simp only [i3cOn, hubPresent, hpkg, hcfg]

theorem runRstdaa_frame (ha : i3cOn s .a = true) :
    ((runRstdaa s).i3c.get .a).dyn = none ∧ (i3cOn s .b = true → ((runRstdaa s).i3c.get .b).dyn = none) ∧
    ((runRstdaa s).i3c.get .a).fifo = (s.i3c.get .a).fifo ∧ (runRstdaa s).pkg = s.pkg ∧ (runRstdaa s).prog = s.prog := by
  obtain ⟨hpkg, hcfg, hprog, hfifo, -⟩ := setDyn_none_frame .a s
  obtain ⟨hpkg', -, hprog', -, hother⟩ := setDyn_none_frame .b (setDyn .a none s)
  have hi3c : (runRstdaa s).i3c.get .a = (setDyn .a none s).i3c.get .a := hother
  refine ⟨?_, fun hb => ?_, ?_, hpkg'.trans hpkg, hprog'.trans hprog⟩
  · rw [hi3c, setDyn_none_dyn ha]
  · exact setDyn_none_dyn ((i3cOn_congr hpkg hcfg .b).trans hb)
  · rw [hi3c, hfifo]

theorem runEnec_of_ibi {ev : Nat} (hon : i3cOn s h = true) (hev : ev % 2 = 1) (on : Bool) :
    runEnec h ev on s = i3cReply h true [] (updI3c h (fun x => { x with ibiEn := on }) s) := by
  have hbit : bitOf ev 0 = true := by simp [bitOf, hev]
  simp only [runEnec, hon, hbit, if_true]

theorem runI3cGet_of_on (hon : i3cOn s h = true) (n : Nat) :
    runI3cGet h n s = i3cReply h true (toBytes n (freeVal s)) (drawn s) :=
  if_pos hon

/-! ### The bundle (R494) -/

theorem bundleOn_of_lacking (hon : i3cOn s h = true) (hlack : cacheFull s h = false) : bundleOn s h = true := by
  simp [bundleOn, hon, hlack]

theorem runBundle_of_lacking (hon : i3cOn s h = true) (hlack : cacheFull s h = false) (hlen : d.length ≤ 256) :
    runBundle h d s = runBundleWrite h d (i3cReply h true [] s) := by
  simp only [runBundle, bundleOn_of_lacking hon hlack, Nat.not_lt.2 hlen, not_true, if_false]

theorem runBundleRead_of_lacking (hon : i3cOn s h = true) (hlack : cacheFull s h = false) :
    runBundleRead h s = i3cReply h true [BitVec.ofNat 8 (lhOf s h).bundleAns] s :=
  if_pos (bundleOn_of_lacking hon hlack)

/-- Settles O19: each transfer and bus command by the case its target is in. -/
theorem managementPort : Obligations.ManagementPort := by
  refine ⟨⟨fun h d s hlive hon => ⟨fun hlen => ?_, fun hlen hroom => ?_⟩,
      fun h s hlive hon => ⟨fun hfifo => ?_, fun r t hfifo => ?_⟩⟩,
    ⟨fun h a s hlive hon hdyn => ?_, fun h a s hlive hon hdyn => ?_, fun s hlive hon => ?_, fun h ev s hlive hon hev => ?_⟩,
    fun h s hlive hon => ?_, fun h d s hlive hon hlack hlen => ?_, fun h s hlive hon hlack => ?_⟩
  · exact exec_of_live rfl hlive (runI3cWrite_of_other_length hon hlen)
  · exact exec_of_live rfl hlive (runI3cWrite_of_packet hon hlen hroom)
  · exact exec_of_live rfl hlive (runI3cRead_of_empty hon hfifo)
  · exact exec_of_live rfl hlive (runI3cRead_of_reply hon hfifo)
  · exact exec_of_live rfl hlive (runEntdaa_of_none hon hdyn a)
  · exact exec_of_live rfl hlive (runSetdasa_of_none hon hdyn a)
  · exact ⟨runRstdaa s, exec_eq_of_live rfl hlive, runRstdaa_frame hon⟩
  · exact ⟨exec_of_live rfl hlive (runEnec_of_ibi hon hev true),
      exec_of_live rfl hlive (runEnec_of_ibi hon hev false)⟩
  · simp only [List.forall_mem_cons, List.not_mem_nil, false_implies, implies_true, and_true]
    refine ⟨?_, ?_, ?_, ?_⟩ <;> exact ⟨_, length_toBytes _ _, exec_of_live rfl hlive (runI3cGet_of_on hon _)⟩
  · exact exec_of_live rfl hlive (runBundle_of_lacking hon hlack hlen)
  · exact exec_of_live rfl hlive (runBundleRead_of_lacking hon hlack)

end Sys2Proof.Machine
end

section
/-! How a change of mode ends (R39–R49): drains, transitions, a half brought up, a copy that has ended. -/
namespace Sys2Proof.Machine

variable {s : State} {t : Trans} {h : Half}

/-! ### The end of a DRAIN (R41, R43) -/

section Drain

variable (hmode : s.pkg.mode = .drain) (htrans : s.pkg.trans = some t) (hphase : t.phase = 1)
include hmode htrans hphase

theorem runDrainComplete_of_drained (hdone : (halvesOf s).all (halfDrained s) = true) :
    runDrainComplete none s =
      if t.follow = .hold then enterHold false (if t.cmd.isSome then 0x00 else 0xFF) t.cmd s
      else if reinitClear s then updPkg (fun p => { p with trans := some { t with phase := 2 } }) s else s := by
  simp only [runDrainComplete, hmode, htrans, hphase, hdone, ne_eq, not_true, or_self, if_false]
  rfl

theorem runDrainLimit_of_drain :
    runDrainLimit none s =
      let u := (halvesOf s).foldl (fun u h => limitStop h u) s
      if t.follow = .hold then enterHold false (if t.cmd.isSome then 0x00 else 0xFF) t.cmd u
      else if (halvesOf s).all (halfDrained u) ∧ reinitClear u then
        updPkg (fun p => { p with trans := some { t with phase := 2 } }) u
      else updPkg (fun p => { p with trans := some { t with phase := 3 } }) u := by
  simp only [runDrainLimit, hmode, htrans, hphase, ne_eq, not_true, if_false]
  rfl

end Drain

/-! ### The end of a transition (R39, R45) -/

theorem runTransitionComplete_of_followed (hmode : s.pkg.mode = .drain) (htrans : s.pkg.trans = some t) (hphase : t.phase = 2) :
    runTransitionComplete s =
      let u := toMode t.follow 0x00 (undrain (updPkg (fun p => { p with trans := none }) s))
      modeDone t.cmd 0x00 (thawQueues (reinit (if t.follow = .mirrored then agree (leader u) u else u))) := by
  simp only [runTransitionComplete, htrans, hmode, hphase]
  rfl

/-- An aborted drain returns to the mode it came from. -/
theorem runTransitionComplete_of_aborted {g : Prog} (hmode : s.pkg.mode = .drain) (htrans : s.pkg.trans = some t)
    (hphase : t.phase = 3) (hpfw : t.pfw = false) (habort : t.abortCmd = some g) :
    runTransitionComplete s = thawQueues (modeDone (some g) 0x00 (failOpt t.cmd 0 (toMode t.source 0x00 (undrain
      (updPkg (fun p => { p with trans := none }) s))))) := by
  simp only [runTransitionComplete, htrans, hmode, hphase, hpfw, habort, Option.isSome_some, Bool.false_eq_true, if_false, if_true]
  rfl

theorem runTransitionComplete_of_hold (hmode : s.pkg.mode = .hold) (htrans : s.pkg.trans = some t) :
    runTransitionComplete s = modeDone t.cmd 0x00 (goBringup 0x00 (updPkg (fun p => { p with trans := none }) s)) := by
  simp only [runTransitionComplete, htrans, hmode]
  rfl

theorem runTransitionComplete_of_bringup (hmode : s.pkg.mode = .bringup) (htrans : s.pkg.trans = some t) :
    runTransitionComplete s =
      if t.target = .hold then enterHold false 0x00 t.cmd (updPkg (fun p => { p with trans := none }) s)
      else modeDone t.cmd 0x00 (enterRunning t.target 0x00 (updPkg (fun p => { p with trans := none }) s)) := by
  simp only [runTransitionComplete, htrans, hmode]
  rfl

/-! ### A half brought up in SPLIT, and the end of the copy (R48, R49) -/

theorem runHalfBringup_of_split (hup : s.pkg.hstate.get h = .bringup) (hmode : s.pkg.mode = .split)
    (htrans : s.pkg.htrans.get h = some t) :
    runHalfBringup h s =
      let u := updPkg (fun p => { p with htrans := p.htrans.set h none }) s
      if runReady s h then
        finishOpt t.cmd 0x00 4 (sysMode (fixSet h (setHState h .running u))) (fixSet h (setHState h .running u))
      else
        let v := heldHalf false h none (lateUnits h u)
        if v.pkg.hstate.get h.other = .held then enterHold false 0xFF t.cmd v else failOpt t.cmd 0 v := by
  simp only [runHalfBringup, hup, hmode, htrans, ne_eq, not_true, if_false]
  rfl

theorem runResilverComplete_of_copying (hmode : s.pkg.mode = .degraded) (htrans : s.pkg.trans = some t)
    (hcopy : s.pkg.hstate.get (runHalf s).other = .resilvering) :
    runResilverComplete s =
      let r := runHalf s
      let a := resilverCopy r s.pkg.resilver (capacity s r) (cleanAll r s)
      let b := splitDir r (toMode .mirrored 0x00 (agree r (updPkg (fun p =>
        { p with hstate := p.hstate.set r.other .running, trans := none, resilver := 0 }) a)))
      modeDone t.cmd 0x00 (giveSpares r.other
        (((lcnsOf b r.other).filter (fun l => (lcnOf b l).lost)).foldl (fun u l => startLcn l (lcnReturn l u)) b)) := by
  simp only [runResilverComplete, hmode, htrans, hcopy, ne_eq, not_true, if_false]
  rfl

/-- Settles O20: each end by the branch its mode, its phase and what it waits for select. -/
theorem modeEnds : Obligations.ModeEnds := by
  refine ⟨⟨fun s t hlive hmode htrans hphase hdone => ⟨fun hhold => ?_, fun hrun hclear => ?_⟩,
      fun s t hlive hmode htrans hphase => ⟨fun hhold => ?_, fun hrun hbusy => ?_⟩,
      fun s t hlive hmode htrans hphase => exec_of_live rfl hlive (runTransitionComplete_of_followed hmode htrans hphase),
      fun s t g hlive hmode htrans hphase hpfw habort =>
        exec_of_live rfl hlive (runTransitionComplete_of_aborted hmode htrans hphase hpfw habort)⟩,
    ⟨fun s t hlive hmode htrans => exec_of_live rfl hlive (runTransitionComplete_of_hold hmode htrans),
      fun s t hlive hmode htrans hrun => ?_, fun s t hlive hmode htrans hhold => ?_⟩,
    fun h s t hlive hup hmode htrans => ⟨fun hready => ?_, fun hlate => ?_⟩,
    fun s t hlive hmode htrans hcopy => exec_of_live rfl hlive (runResilverComplete_of_copying hmode htrans hcopy)⟩
  · exact exec_of_live rfl hlive ((runDrainComplete_of_drained hmode htrans hphase hdone).trans (if_pos hhold))
  · exact exec_of_live rfl hlive ((runDrainComplete_of_drained hmode htrans hphase hdone).trans
      ((if_neg hrun).trans (if_pos hclear)))
  · exact exec_of_live rfl hlive ((runDrainLimit_of_drain hmode htrans hphase).trans (if_pos hhold))
  · exact exec_of_live rfl hlive ((runDrainLimit_of_drain hmode htrans hphase).trans
      ((if_neg hrun).trans (if_neg fun hclear => Bool.false_ne_true (hbusy.symm.trans hclear.2))))
  · exact exec_of_live rfl hlive ((runTransitionComplete_of_bringup hmode htrans).trans (if_neg hrun))
  · exact exec_of_live rfl hlive ((runTransitionComplete_of_bringup hmode htrans).trans (if_pos hhold))
  · exact exec_of_live rfl hlive ((runHalfBringup_of_split hup hmode htrans).trans (if_pos hready))
  · exact exec_of_live rfl hlive ((runHalfBringup_of_split hup hmode htrans).trans (if_neg (ne_true_of_eq_false hlate)))

end Sys2Proof.Machine
end

section
/-! What reports, replies and coherent accesses leave as it is: the modes, the part's dies, the moves of cores, the fabric's modules
and the supplies. -/
namespace Sys2Proof.Machine

variable {s t : State} {h f : Half}

/-- The parts of the state that no access to DRAM, log entry or reply changes. -/
structure Standing where
  cfg : Cfg
  pkg : Pkg
  st64 : Pair W64
  fab : Fabric
  dies : Tab Die
  moves : List Move
  images : Tab (Option LcnImage)
  parks : List Nat
  css : Pair Css
  pwr : Pwr

def standing (s : State) : Standing :=
  ⟨s.cfg, s.pkg, s.st64, s.fab, s.dies, s.moves, s.images, s.parks, s.css, s.units.pwr⟩

theorem standing_foldl {α : Type} {g : State → α → State} (hg : ∀ t x, standing (g t x) = standing t) (l : List α) :
    ∀ s, standing (l.foldl g s) = standing s := by
  induction l with
  | nil => intro s; rfl
  | cons x l ih => intro s; exact (ih _).trans (hg s x)

/-! ### Updates of one field -/

@[simp] theorem standing_updMem (g : Mem → Mem) : standing (updMem h g s) = standing s := rfl
@[simp] theorem standing_updHome (g : Home → Home) : standing (updHome h g s) = standing s := rfl
@[simp] theorem standing_updLog (g : Log → Log) : standing (updLog h g s) = standing s := rfl
@[simp] theorem standing_updI3c (g : I3c → I3c) : standing (updI3c h g s) = standing s := rfl
@[simp] theorem standing_updCoh (g : Coh → Coh) : standing (updCoh g s) = standing s := rfl
@[simp] theorem standing_updLcn (l : Nat) (g : Lcn → Lcn) : standing (updLcn l g s) = standing s := rfl
@[simp] theorem standing_modCtx (l c : Nat) (g : Ctx → Ctx) : standing (modCtx l c g s) = standing s := rfl
@[simp] theorem standing_updRing (l : Nat) (g : Ring → Ring) : standing (updRing h l g s) = standing s := rfl
@[simp] theorem standing_updQp (k : Nat) (g : Qp → Qp) : standing (updQp k g s) = standing s := rfl
@[simp] theorem standing_updFn (k : Nat) (g : Fn → Fn) : standing (updFn k g s) = standing s := rfl
@[simp] theorem standing_updPort (p : Nat) (g : Port → Port) : standing (updPort p g s) = standing s := rfl
@[simp] theorem standing_sramPut (g w : Nat) : standing (sramPut h g w s) = standing s := rfl
@[simp] theorem standing_faultN (b : Bool) : standing { s with faultN := b } = standing s := rfl
@[simp] theorem standing_drawn : standing (drawn s) = standing s := rfl
@[simp] theorem standing_bump (u ev n : Nat) : standing (bump u ev n s) = standing s := rfl
@[simp] theorem standing_homeCount (n ev k : Nat) : standing (homeCount h f n ev k s) = standing s := rfl
@[simp] theorem standing_setDir (n : Nat) (g : DirEnt → DirEnt) : standing (setDir h n g s) = standing s := rfl
@[simp] theorem standing_setCsec (a n : Nat) (c : CSector) : standing (setCsec a n c s) = standing s := rfl
@[simp] theorem standing_putTx (tx : Nat) (x : Option HTrans) : standing (putTx h tx x s) = standing s := rfl
@[simp] theorem standing_send (op : MsgOp) (m : Msg) : standing (send op m s) = standing s := rfl
@[simp] theorem standing_complete (op : MsgOp) (x : HTrans) (d : Option (List Byte)) (p : Bool) :
    standing (complete op x d p s) = standing s := rfl
@[simp] theorem standing_grant (tx : Nat) (x : HTrans) (op : MsgOp) (d : Option (List Byte)) (p : Bool) :
    standing (grant h tx x op d p s) = standing s := rfl
@[simp] theorem standing_touchEntry (n : Nat) : standing (touchEntry h n s) = standing s := rfl

/-! ### Sectors and their homes (R210–R215) -/

@[simp] theorem standing_markPsn (n : Nat) (p : Bool) : standing (markPsn h n p s) = standing s := by
  simp only [markPsn, apply_ite standing, standing_setDir, ite_self]

@[simp] theorem standing_putSector (n : Nat) (d : List Byte) (p : Bool) : standing (putSector s h n d p) = standing s := by
  unfold putSector
  dsimp only
  split <;> simp only [standing_markPsn, standing_updMem]

@[simp] theorem standing_homePut (n : Nat) (d : List Byte) (p : Bool) : standing (homePut f n d p s) = standing s := by
  unfold homePut
  dsimp only
  split <;> simp only [standing_markPsn, apply_ite standing, standing_updMem, ite_self]

@[simp] theorem standing_purgeCopies (n : Nat) : standing (purgeCopies h n s) = standing s := by
  simp only [purgeCopies, apply_ite standing, standing_setDir, standing_foldl fun _ _ => standing_setCsec _ _ _, ite_self]

@[simp] theorem standing_stockRead (n : Nat) : standing (stockRead h n s) = standing s := by
  simp only [stockRead, apply_ite standing, standing_updHome, standing_drawn, ite_self]

@[simp] theorem standing_repin (n : Nat) : standing (repin h n s) = standing s := by
  simp only [repin, apply_ite standing, standing_setDir, ite_self]

@[simp] theorem standing_endTx (tx : Nat) (x : HTrans) : standing (endTx h tx x s) = standing s := by
  simp only [endTx, standing_repin, standing_putTx]

@[simp] theorem standing_mirrorOrEnd (tx : Nat) (x : HTrans) (d : Option (List Byte)) (p : Bool) :
    standing (mirrorOrEnd h tx x d p s) = standing s := by
  simp only [mirrorOrEnd, apply_ite standing, standing_putTx, standing_send, standing_endTx, standing_complete, ite_self]

@[simp] theorem standing_finishTx (tx : Nat) (x : HTrans) : standing (finishTx h tx x s) = standing s := by
  unfold finishTx
  dsimp only
  generalize hu : (if (readsMem x.req && x.dirty.isNone && !x.backInv) = true then stockRead h (x.m.sector / 4) s else s) = u
  have hsteady : standing u = standing s := by
    rw [← hu]
    simp only [apply_ite standing, standing_stockRead, ite_self]
  rw [← hsteady]
  split
  · simp only [standing_endTx, standing_setDir]
  · split
    case h_6 =>
      rw [standing_mirrorOrEnd]
      split
      · exact standing_homePut _ _ _
      · simp only [apply_ite standing, standing_homePut, standing_sramPut, standing_updMem, ite_self]
    case h_7 =>
      rw [standing_mirrorOrEnd]
      exact standing_homePut (s := u) _ _ _
    case h_8 =>
      cases x.dirty <;>
        simp only [apply_ite standing, standing_mirrorOrEnd, standing_homePut, standing_endTx, standing_complete, ite_self]
    all_goals simp only [apply_ite standing, standing_grant, standing_mirrorOrEnd, standing_homePut, standing_endTx,
      standing_complete, ite_self]

@[simp] theorem standing_startTx (tx : Nat) (q : HReq) : standing (startTx h tx q s) = standing s := by
  simp only [startTx, apply_ite standing, standing_finishTx, standing_foldl fun _ _ => standing_send _ _, standing_repin,
    standing_putTx, ite_self]

@[simp] theorem standing_refuse (q : HReq) (n : Nat) : standing (refuse h q n s) = standing s := by
  simp only [refuse, apply_ite standing, standing_updHome, standing_homeCount, standing_send, standing_updCoh, ite_self]

@[simp] theorem standing_backInvalidate (tx : Nat) (e : Nat × DirEnt) (q : HReq) :
    standing (backInvalidate h tx e q s) = standing s := by
  unfold backInvalidate
  dsimp only
  rw [standing_foldl fun _ _ => standing_foldl (fun _ _ => standing_send _ _) _ _]
  simp only [standing_homeCount, standing_updHome, standing_repin, standing_putTx]

@[simp] theorem standing_homeServe (q : HReq) : standing (homeServe h q s) = standing s := by
  unfold homeServe
  dsimp only
  split
  · exact standing_updHome _
  · split
    · exact standing_refuse _ _
    · split
      · split
        · exact standing_refuse _ _
        · simp only [apply_ite standing, standing_startTx, standing_touchEntry, standing_setDir, standing_homeCount,
            standing_backInvalidate, ite_self]
      · simp only [apply_ite standing, standing_startTx, standing_touchEntry, ite_self]

@[simp] theorem standing_serveWaiting (n : Nat) : ∀ s, standing (serveWaiting h n s) = standing s := by
  induction n with
  | zero => intro s; rfl
  | succ n ih =>
    intro s
    unfold serveWaiting
    dsimp only
    split
    · rfl
    · rw [ih, standing_homeServe, standing_updHome]

@[simp] theorem standing_settle : standing (settle h s) = standing s := standing_serveWaiting _ _

/-! ### Accesses that one step makes whole (R204, R214) -/

@[simp] theorem standing_absorbVictim (n : Nat) : standing (absorbVictim f n s) = standing s := by
  unfold absorbVictim
  split
  · rfl
  · simp only [standing_updCoh, apply_ite standing, standing_setDir, standing_putSector, ite_self]

@[simp] theorem standing_dropEntry (n : Nat) : standing (dropEntry h f n s) = standing s := by
  unfold dropEntry
  dsimp only
  rw [standing_setDir]
  refine standing_foldl (fun t i => ?_) _ _
  rw [standing_purgeCopies]
  split <;> simp only [standing_putSector, standing_absorbVictim]

@[simp] theorem standing_mirrorEnd (tx : Nat) (x : HTrans) : standing (mirrorEnd h tx x s) = standing s := by
  simp only [mirrorEnd, standing_endTx, standing_complete, standing_putSector]

@[simp] theorem standing_endLock (n : Nat) : standing (endLock f n s) = standing s := by
  unfold endLock
  dsimp only
  split
  · rfl
  · split
    · rw [standing_endTx, standing_dropEntry]
      split <;> simp only [standing_putSector, standing_updCoh]
    · split
      · simp only [standing_mirrorEnd, standing_updCoh]
      · split
        · rw [standing_endTx]
          split <;> simp only [standing_putSector, standing_updCoh]
        · split <;> simp only [standing_mirrorEnd, standing_updCoh, standing_finishTx, apply_ite standing, standing_purgeCopies,
            ite_self]

@[simp] theorem standing_writeSector (n off : Nat) (d : List Byte) : standing (writeSector s h n off d) = standing s := by
  simp only [writeSector, thenServe, clearWay, apply_ite standing, standing_settle, standing_putSector, standing_purgeCopies,
    standing_absorbVictim, standing_endLock, ite_self]

theorem standing_dmaWrite {pa : Nat} {d : List Byte} {b : Bool} (hw : dmaWrite s h pa d = some (t, b)) : standing t = standing s := by
  unfold dmaWrite at hw
  split at hw
  · cases hw
    exact standing_foldl (fun _ _ => standing_writeSector _ _ _) _ _
  · cases hw

/-! ### Interrupts, log entries and replies (R24, R64, R462, R565) -/

@[simp] theorem standing_raiseExt (l v : Nat) : standing (raiseExt l v s) = standing s := rfl

@[simp] theorem standing_raiseIbi (n : Nat) : standing (raiseIbi h n s) = standing s := by
  simp only [raiseIbi, apply_ite standing, standing_updI3c, ite_self]

@[simp] theorem standing_mirSend (i : MirItem) : standing (mirSend h i s) = standing s := by
  unfold mirSend
  split <;> rfl

@[simp] theorem standing_logSignals (r : Report) : standing (logSignals h r s) = standing s := by
  simp only [logSignals, apply_ite standing, standing_faultN, standing_raiseIbi, standing_raiseExt, ite_self]

@[simp] theorem standing_logBase (ts : Nat) (r : Report) (n : Bool) : standing (logBase h ts r n s) = standing s := by
  unfold logBase
  dsimp only
  split
  · simp only [standing_mirSend, standing_sramPut, standing_updLog]
  · split
    · exact standing_updLog _
    · simp only [standing_logSignals, standing_mirSend, standing_updLog]

@[simp] theorem standing_ringStop (l : Nat) : standing (ringStop h l s) = standing s := by
  rw [ringStop_eq, standing_logBase]
  rfl

@[simp] theorem standing_ringWrite (l : Nat) (r : Reply) : standing (ringWrite h l r s) = standing s := by
  unfold ringWrite
  dsimp only
  split
  · exact standing_ringStop _
  next hw => rw [standing_ringStop, standing_dmaWrite hw]
  next hw => simp only [apply_ite standing, standing_raiseExt, standing_updRing, standing_dmaWrite hw, ite_self]

@[simp] theorem standing_logNow (r : Report) : standing (logNow h r s) = standing s := by
  simp only [logNow, logAt, apply_ite standing, standing_ringWrite, standing_logBase, ite_self]

@[simp] theorem standing_fnIrq (k e : Nat) : standing (fnIrq k e s) = standing s := by
  simp only [fnIrq, portSend, apply_ite standing, standing_updFn, standing_updPort, ite_self]

@[simp] theorem standing_cqWrite (k : Nat) (d : List Byte) : standing (cqWrite k d s) = standing s := by
  unfold cqWrite
  dsimp only
  split
  · rfl
  · simp only [portSend, apply_ite standing, standing_fnIrq, standing_updQp, standing_updPort, ite_self]

@[simp] theorem standing_qpPost (k : Nat) (d : List Byte) : standing (qpPost k d s) = standing s := by
  simp only [qpPost, apply_ite standing, standing_cqWrite, standing_updQp, ite_self]

@[simp] theorem standing_postReply (r : Reply) : standing (postReply r s) = standing s := by
  unfold postReply
  split
  · simp only [ringPost, apply_ite standing, standing_updRing, standing_ringWrite, ite_self]
  · exact standing_qpPost _ _
  · exact standing_qpPost _ _
  · simp only [mgmtPost, standing_raiseIbi, standing_updI3c]

@[simp] theorem standing_unprog (g : Prog) : standing (unprog g s) = standing s := rfl

@[simp] theorem standing_finish (g : Prog) (status rlen result : Nat) : standing (finish g status rlen result s) = standing s := by
  unfold finish
  split
  · simp only [apply_ite standing, standing_unprog, standing_postReply, ite_self]
  · rfl

@[simp] theorem standing_finishOpt (g : Option Prog) (status rlen result : Nat) :
    standing (finishOpt g status rlen result s) = standing s := by
  cases g
  · rfl
  · exact standing_finish _ _ _ _

@[simp] theorem standing_failOpt (g : Option Prog) (n : Nat) : standing (failOpt g n s) = standing s := standing_finishOpt _ _ _ _

end Sys2Proof.Machine
end

section
/-! The loss of a die (R556) where the table of dies is not in canonical form: a die entered twice keeps its READY bit. -/
namespace Sys2Proof.Machine

variable {s : State} {h : Half}

/-! ### What the loss of a die leaves of the table of dies -/

@[simp] theorem standing_advance (tx : Nat) (x : HTrans) : standing (advance h tx x s) = standing s := by
  simp only [advance, apply_ite standing, standing_settle, standing_finishTx, standing_putTx, ite_self]

@[simp] theorem standing_poisonTx (tx : Nat) (x : HTrans) : standing (poisonTx h tx x s) = standing s := by
  have hlose (u : State) (i : Nat) : standing (homeCount h x.m.from_ i 0x205 1
      (putSector u x.m.from_ i (homeMem u x.m.from_ i).1 true)) = standing u := by
    rw [standing_homeCount, standing_putSector]
  unfold poisonTx
  dsimp only
  split
  · rw [standing_endTx, standing_setDir]
    exact standing_foldl (fun u i => hlose u _) _ _
  · simp only [apply_ite standing, standing_grant, standing_endTx, standing_complete, standing_setDir, hlose, ite_self]

@[simp] theorem standing_lateResponse (m : Msg) : standing (lateResponse h m s) = standing s := by
  simp only [lateResponse, apply_ite standing, standing_send, ite_self]

@[simp] theorem standing_take (op : MsgOp) (m : Msg) : standing (take op m s) = standing s := rfl

theorem standing_response_miss (m : Msg) : standing (response .rspMiss m s) = standing s := by
  unfold response
  dsimp only
  split
  · simp only [standing_lateResponse, standing_take]
  · simp only [apply_ite standing, standing_lateResponse, standing_take, standing_advance, standing_setDir, standing_putSector,
      standing_logNow, standing_settle, standing_poisonTx, ite_self]

theorem standing_dieDirectory (d : Nat) : standing (dieDirectory d h s) = standing s := by
  unfold dieDirectory
  dsimp only
  refine (standing_foldl (fun t e => ?_) _ _).trans (standing_foldl (fun t tx => ?_) _ _)
  · rw [standing_setDir]
    split
    · rfl
    · refine standing_foldl (fun u i => ?_) _ _
      rw [standing_logNow, standing_homePut]
  · split
    · simp only [apply_ite standing, standing_response_miss, standing_advance, ite_self]
    · rfl

theorem dies_foldl {α : Type} {g : State → α → State} (hg : ∀ t x, (g t x).dies = t.dies) (l : List α) :
    ∀ s, (l.foldl g s).dies = s.dies := by
  induction l with
  | nil => intro s; rfl
  | cons x l ih => intro s; exact (ih _).trans (hg s x)

theorem dies_of_standing {t : State} (e : standing t = standing s) : t.dies = s.dies := congrArg Standing.dies e

theorem loseLcns_dies (ls : List Nat) (s : State) : (loseLcns h ls s).dies = s.dies := by
  unfold loseLcns
  refine dies_foldl (fun t l => ?_) ls s
  rw [dies_of_standing (standing_logNow _), updLcn_dies]

theorem parkedIn_of_none (hparks : s.parks = []) (d : Nat) : parkedIn s d = [] := by
  rw [parkedIn, hparks, List.filter_nil]

/-- With no move of a core under way and no LCN parked, what the package loses with a die does not touch the table of dies. -/
theorem dieOut_dies (d cause : Nat) (hmoves : s.moves = []) (hparks : s.parks = []) : (dieOut d cause s).dies = s.dies := by
  have hdies (n : Nat) (g : Half) (r : Report) : (routeStart n (logNow g r s)).dies = s.dies :=
    congrArg Standing.dies (standing_logNow (s := s) r)
  have hmoves' (n : Nat) (g : Half) (r : Report) : (routeStart n (logNow g r s)).moves = [] :=
    (congrArg Standing.moves (standing_logNow (s := s) r)).trans hmoves
  have hparks' (n : Nat) (g : Half) (r : Report) : (routeStart n (logNow g r s)).parks = [] :=
    (congrArg Standing.parks (standing_logNow (s := s) r)).trans hparks
  unfold dieOut
  dsimp only
  rw [dies_foldl fun t g => dies_of_standing (standing_dieDirectory d), updCoh_dies, parkedIn_of_none, List.foldl_nil, loseLcns_dies]
  · simp only [hmoves', List.filter_nil, List.foldl_nil, hdies]
  · simp only [hmoves', List.filter_nil, List.foldl_nil, hparks']

theorem dieLinks_dies (d : Nat) (st : RytState) (s : State) : (dieLinks d st s).dies = s.dies := rfl

theorem coreReset_dies (l : Nat) (c : Ctx) (s : State) : (coreReset l c s).dies = s.dies := rfl

theorem dieReset_dies (d : Nat) (s : State) : (dieReset d s).dies = (updDie d dieFresh s).dies := by
  unfold dieReset
  dsimp only
  rw [dieLinks_dies, updUnits_dies, updFab_dies, updCoh_dies]
  exact dies_foldl (fun t l => coreReset_dies l _ t) _ _

/-! ### A table with a die entered twice -/

/-- What a die holds once its self-test has passed. -/
def readyDie : Die := { Die.reset with ready := true }

/-- The package runs in UNIFIED mode, and die 0 is entered twice, its second entry READY. -/
def twiceEntered : State := { State.reset with pkg := { Pkg.reset with mode := .unified }, dies := [(0, Die.reset), (0, readyDie)] }

/-- The reset takes the first entry of the die away and the loss marks the second, READY as it was. -/
theorem runDieLost_twiceEntered : (dieOf (runDieLost 0 2 twiceEntered) 0).ready = true := by
  have hlost : runDieLost 0 2 twiceEntered =
      dieLinks 0 .training (updDie 0 (fun x => { x with lost := true }) (dieReset 0 (dieOut 0 2 twiceEntered))) :=
    if_neg (by decide)
  have hdies : (runDieLost 0 2 twiceEntered).dies = [(0, { readyDie with lost := true })] := by
    rw [hlost, dieLinks_dies, updDie, dieReset_dies, updDie, dieOut_dies 0 2 rfl rfl]
    decide
  rw [dieOf, hdies]
  rfl

/-- Refutes O21: nothing in the statement keeps the table of dies in canonical form, and a die entered twice, the first entry that
of an untested die, is READY still when DIE_LOST has marked it lost. -/
theorem not_losses : ¬ Obligations.Losses := by
  intro hlosses
  obtain ⟨-, -, -, -, hdie⟩ := hlosses
  obtain ⟨t, ht, -, hready, -⟩ := hdie 0 2 twiceEntered (by decide) (by decide) (by decide) (by decide) (by decide)
  obtain rfl : runDieLost 0 2 twiceEntered = t := Host.Outcome.next.inj ((exec_eq_of_live rfl (by decide)).symm.trans ht)
  exact Bool.false_ne_true (hready.symm.trans runDieLost_twiceEntered)

end Sys2Proof.Machine
end

section
/-! AN control (R101, R102, R119–R124): instructions whose TYPE names no data type, traps, exception entry and WAIT. -/
namespace Sys2Proof.Machine

variable {o : AnOp} {s s1 t : State} {w : Ctx} {x : Xf}

/-! ### How a decoded instruction ends -/

theorem runPlain_done {p : Plain} {body : Plain → Body} {d : Option Plain} (hd : d = some p) (h : Starts o.lcn o.ctx p.n false s s1)
    (hb : body p s1 (ctxOf s o.lcn o.ctx) = (t, .ok w)) : runPlain o d body s = insnDone o.lcn o.ctx s w t := by
  rw [hd]
  exact runInsn_done h hb

theorem runZero_done {f : Nat} {body : Nat → Body} {ok : Nat → Bool} (hd : decodeZero o = some f) (hf : ok f = true)
    (h : Starts o.lcn o.ctx 4 false s s1) (hb : body f s1 (ctxOf s o.lcn o.ctx) = (t, .ok w)) :
    runZero o ok body s = insnDone o.lcn o.ctx s w t := by
  simp only [runZero, hd, hf, if_true]
  exact runInsn_done h hb

theorem runZero_fault {f : Nat} {body : Nat → Body} {ok : Nat → Bool} (hd : decodeZero o = some f) (hf : ok f = true)
    (h : Starts o.lcn o.ctx 4 false s s1) (hb : body f s1 (ctxOf s o.lcn o.ctx) = (t, .error x)) (hx : x.code ≠ stallX.code) :
    runZero o ok body s = insnFault o.lcn o.ctx s x t := by
  simp only [runZero, hd, hf, if_true]
  exact runInsn_fault h hb hx

/-- An instruction that ends in a trap runs its body on a context whose stores of a device run are forgotten. -/
theorem runTrap_starts {lcn ctx n : Nat} {a5 : Bool} {body : Body} (h : Starts lcn ctx n a5 s s1) :
    runTrap lcn ctx n a5 body s = endInsn lcn ctx s (ctxOf s lcn ctx) false
      (body (updCtx lcn ctx (fun k => { k with sdRun := 0, sdBytes := 0 }) s1) (ctxOf s lcn ctx)) := by
  obtain ⟨_, hr, ha, hf⟩ := h
  simp only [runTrap, finishPieces_runs hr, hr, hf, ha, not_true, ne_eq, if_false]

theorem atS_of_privileged {c : Ctx} (hpl : c.psw.pl ≠ .u) (b : Res1 Ctx) (s : State) : atS c b s = b := if_neg hpl

theorem atS_of_user {c : Ctx} (hpl : c.psw.pl = .u) (b : Res1 Ctx) (s : State) : atS c b s = (s, .error (xf 0x08 0)) := if_pos hpl

/-! ### Transfers of control (R101, R102) -/

section Transfer

variable {p : Plain} {c : Ctx} {s2 : State} {va : Nat}

theorem brBody_of_addr (ha : addrOf o.lcn o.ctx 1 s1 c (p.specs.getD 0 (.reg 0)) = (s2, .ok (va, w))) :
    brBody o p s1 c = (s2, .ok { w with pc := canonPc va }) := by
  rw [brBody, ha, andThen_ok]
  rfl

theorem jumpTo_or_stepPc (b : Bool) (n : Nat) (w : Ctx) :
    (if b then jumpTo va w else stepPc n w) = { w with pc := if b then canonPc va else canonPc (w.pc.toNat + n) } := by
  cases b <;> rfl

theorem bccBody_of_addr (ha : addrOf o.lcn o.ctx 1 s1 c (p.specs.getD 0 (.reg 0)) = (s2, .ok (va, w))) :
    bccBody o p s1 c = (s2, .ok { w with pc := if condHolds o.ty c.psw.cc then canonPc va else canonPc (w.pc.toNat + p.n) }) := by
  rw [bccBody, ha, andThen_ok, jumpTo_or_stepPc]

theorem callBody_of_addr {s3 : State} {ks : List Chunk}
    (ha : addrOf o.lcn o.ctx 1 s1 c (p.specs.getD 0 (.reg 0)) = (s2, .ok (va, w)))
    (hks : resolve s2 o.lcn c (addVa (gOf w 15) (-8)) 8 .write = (s3, .ok ks)) :
    callBody o p s1 c = (storeChunks o.lcn o.ctx ks (toBytes 8 (canonPc (c.pc.toNat + p.n)).toNat) s3,
      .ok { setG 15 (addVa (gOf w 15) (-8)) w with pc := canonPc va }) := by
  rw [callBody, ha, andThen_ok]
  dsimp only
  rw [hks, andThen_ok, jumpTo]

theorem retBody_of_read {d : List Byte} (hr : readVa o.lcn o.ctx c (gOf c 15) 8 s1 = (s2, .ok d)) :
    retBody o s1 c = (s2, .ok { setG 15 (gOf c 15 + 8) c with pc := canonPc (ofBytes d) }) := by
  rw [retBody, hr, andThen_ok]
  rfl

end Transfer

/-! ### The return from an exception, and its entry (R121–R124, R182) -/

/-- The exception registers of a context's current level. -/
def curXRegs (c : Ctx) : XRegs := if c.psw.pl = .h then c.xh else c.xs

theorem fld_pl (v : Nat) : fld v 31 30 = v / 2 ^ 30 % 4 := rfl

theorem leaveX_of_level {c : Ctx} (hle : (curXRegs c).xpsw.toNat / 2 ^ 30 % 4 ≤ c.psw.pl.n) :
    leaveX c = some { c with pc := canonPc (curXRegs c).xpc.toNat, psw := pswOf (curXRegs c).xpsw.toNat } := by
  have htop : c.psw.pl.n ≤ 2 := by cases c.psw.pl <;> decide
  have hno : ¬ (fld (curXRegs c).xpsw.toNat 31 30 = 3 ∨ c.psw.pl.n < fld (curXRegs c).xpsw.toNat 31 30) := by
    rw [fld_pl]
    omega
  exact if_neg hno

theorem leaveX_of_above {c : Ctx} (hgt : c.psw.pl.n < (curXRegs c).xpsw.toNat / 2 ^ 30 % 4) : leaveX c = none :=
  if_pos (Or.inr hgt)

theorem xretBody_of_level {c : Ctx} (hpl : c.psw.pl ≠ .u) (hle : (curXRegs c).xpsw.toNat / 2 ^ 30 % 4 ≤ c.psw.pl.n) :
    xretBody s1 c = (s1, .ok { c with pc := canonPc (curXRegs c).xpc.toNat, psw := pswOf (curXRegs c).xpsw.toNat, last := true }) := by
  rw [xretBody, atS_of_privileged hpl, leaveX_of_level hle]

theorem xretBody_of_above {c : Ctx} (hpl : c.psw.pl ≠ .u) (hgt : c.psw.pl.n < (curXRegs c).xpsw.toNat / 2 ^ 30 % 4) :
    xretBody s1 c = (s1, .error (xf 0x07 0)) := by
  rw [xretBody, atS_of_privileged hpl, leaveX_of_above hgt]
  rfl

theorem xf_ne_stall {code : Nat} (h : code ≠ 0x100) (addr : Nat) : (xf code addr).code ≠ stallX.code := h

/-- The level an exception enters: H when it names H or comes from there, else S. -/
theorem targetLvl_eq (p : Psw) (x : Xf) : targetLvl p x = if x.toH = true ∨ p.pl = .h then .h else .s := rfl

/-! ### WAIT (R102) -/

theorem waitBody_of_due {c : Ctx} (f : Nat) (hpl : c.psw.pl ≠ .u) (hdue : eventDue s1 o.lcn c = true) :
    waitBody o f s1 c = (s1, .ok (stepLast 4 (setCc Cc.zero c))) := by
  rw [waitBody, atS_of_privileged hpl, if_pos hdue]

theorem waitBody_of_none {c : Ctx} (f : Nat) (hpl : c.psw.pl ≠ .u) (hdue : eventDue s1 o.lcn c = false) :
    waitBody o f s1 c = (s1, .ok { c with wait := some f, last := true }) := by
  rw [waitBody, atS_of_privileged hpl, if_neg (ne_true_of_eq_false hdue)]

theorem endWait_of_waiting {c : Ctx} {n : Nat} (h : c.wait = some n) (cc : Cc) :
    endWait cc c = { c with
      wait := none, pc := canonPc (c.pc.toNat + 4), psw := { c.psw with cc := cc }, debugDue := c.debugDue || c.psw.ss } := by
  rw [endWait, h]

theorem waitExpire_of_limit {l k n : Nat} (h : (ctxOf s l k).wait = some (n + 1)) :
    waitExpire l k s = updCtx l k (fun c =>
      { c with wait := none, pc := canonPc (c.pc.toNat + 4), psw := { c.psw with cc := ⟨false, false, false, true⟩ },
               debugDue := c.debugDue || c.psw.ss }) s := by
  rw [waitExpire, h]
  rw [updCtx, updCtx, endWait_of_waiting h]
  rfl

theorem waitExpire_of_unlimited {l k : Nat} (h : (ctxOf s l k).wait = some 0) : waitExpire l k s = s := by
  simp only [waitExpire, h]

/-! ### The obligation's parts -/

/-- What an exception entry leaves (R121, R122, R182), by the level it enters. -/
theorem enterX_spec (ctx : Nat) (x : Xf) (pc : W64) (c : Ctx) :
    let l := if x.toH = true ∨ c.psw.pl = .h then Lvl.h else Lvl.s
    let t := enterX ctx x pc c
    let old := if l = .h then c.xh else c.xs
    let new := if l = .h then t.xh else t.xs
    new.xpc = pc ∧ new.xpsw = BitVec.ofNat 64 (c.psw.toNat ctx) ∧ new.xcode = BitVec.ofNat 64 (x.code + x.sub * 256) ∧
    new.xaddr = (if 0x07 ≤ x.code ∧ x.code ≤ 0x09 then pc else BitVec.ofNat 64 x.addr) ∧ new.evb = old.evb ∧
    t.pc = canonPc (old.evb.toNat + 64 * x.code) ∧
    t.psw = { c.psw with pl := l, a5 := false, ie := false, ss := false } ∧
    (if l = .h then t.xs = c.xs else t.xh = c.xh) ∧ t.g = c.g ∧ t.sb = c.sb ∧ t.fb = c.fb := by
  intro l t old new
  have hl : targetLvl c.psw x = l := targetLvl_eq c.psw x
  by_cases hh : l = .h
  · simp only [old, new, t, enterX, hl, hh, if_true, Nat.mul_comm 64, and_self]
  · simp only [old, new, t, enterX, hl, hh, if_false, Nat.mul_comm 64, and_self]

/-- Settles O22: transfers by the address their operand gives, XRET by the level XPSW names, traps by their body, WAIT by
whether an event is pending. -/
theorem anControl : Obligations.AnControl := by
  refine ⟨fun o s s1 => ⟨?_, ?_, ?_, ?_, ?_⟩, fun o s s1 => ?_, enterX_spec, fun o s s1 f => ?_, fun o s s1 f => ?_, ?_, ?_⟩
  · exact fun p s2 va w hd hst ha => exec_of_live rfl hst.1 (runPlain_done hd hst (brBody_of_addr ha))
  · exact fun p s2 va w hd hst ha => exec_of_live rfl hst.1 (runPlain_done hd hst (bccBody_of_addr ha))
  · exact fun p s2 va w s3 ks hd hst ha hks => exec_of_live rfl hst.1 (runPlain_done hd hst (callBody_of_addr ha hks))
  · exact fun s2 d hd hst hr => exec_of_live rfl hst.1 (runZero_done hd rfl hst (retBody_of_read hr))
  · exact fun hd hst => exec_of_live rfl hst.1 (runZero_done hd rfl hst rfl)
  · exact fun hd hst => ⟨fun hpl hle => exec_of_live rfl hst.1 (runZero_done hd rfl hst (xretBody_of_level hpl hle)),
      fun hpl hgt => exec_of_live rfl hst.1 (runZero_fault hd rfl hst (xretBody_of_above hpl hgt) (xf_ne_stall (by decide) 0)),
      fun hpl => exec_of_live rfl hst.1 (runZero_fault hd rfl hst (atS_of_user hpl _ _) (xf_ne_stall (by decide) 0))⟩
  · intro c u next hd hst
    refine ⟨exec_of_live rfl hst.1 ?_, fun hpl => exec_of_live rfl hst.1 ?_, fun hpl => exec_of_live rfl hst.1 ?_⟩
    · rw [runSvc, hd]
      exact runTrap_starts hst
    · rw [runHvc, hd]
      refine (runTrap_starts hst).trans ?_
      rw [atS_of_privileged hpl]
      rfl
    · rw [runHvc, hd]
      refine (runTrap_starts hst).trans ?_
      rw [atS_of_user hpl]
      rfl
  · intro c hd hst hpl
    refine ⟨fun hdue hdue1 => exec_of_live rfl hst.1 ?_, fun hidle => ?_⟩
    · simp only [runWait, hd]
      rw [if_pos hdue]
      exact runInsn_done hst (waitBody_of_due f hpl hdue1)
    · intro u hidle1
      refine exec_of_live rfl hst.1 ?_
      simp only [runWait, hd]
      rw [if_neg (ne_true_of_eq_false hidle), runTrap_starts hst, waitBody_of_none f hpl hidle1]
      rfl
  · exact fun l k n s hlive hwait => exec_of_live rfl hlive (waitExpire_of_limit hwait)
  · exact fun l k s hlive hwait => exec_of_live rfl hlive (waitExpire_of_unlimited hwait)

end Sys2Proof.Machine
end

section
/-! AN value instructions (R86, R91, R95): each of the rows runs its computation on what its operands hold. -/
namespace Sys2Proof.Machine

variable {o : AnOp} {s s1 s2 s3 s4 t : State} {d : Dec} {os : List Opd} {c w : Ctx} {a b : List Byte} {k : Alu} {v : Val}

theorem exec_aluRows (o : AnOp) (s : State) : ∀ r ∈ aluRows, exec (r.1 o) s = act (runAlu o [0, 1] r.2) s := by
  simp only [aluRows, List.forall_mem_cons, List.not_mem_nil, false_implies, implies_true, and_true]
  repeat' constructor

theorem exec_unaryRows (o : AnOp) (s : State) : ∀ r ∈ unaryRows, exec (r.1 o) s = act (runAlu o [0] r.2) s := by
  simp only [unaryRows, List.forall_mem_cons, List.not_mem_nil, false_implies, implies_true, and_true]
  repeat' constructor

theorem aluRows_binary : ∀ r ∈ aluRows, r.2.unary = false := by
  simp only [aluRows, List.forall_mem_cons, List.not_mem_nil, false_implies, implies_true, and_true]
  repeat' constructor

theorem unaryRows_unary : ∀ r ∈ unaryRows, r.2.unary = true := by
  simp only [unaryRows, List.forall_mem_cons, List.not_mem_nil, false_implies, implies_true, and_true]
  repeat' constructor

/-- A decoded instruction whose body completes. -/
theorem runAn_done {body : Dec → Body} {x : Option Dec} (hd : x = some d) (h : Starts o.lcn o.ctx d.n false s s1)
    (hb : body d s1 (ctxOf s o.lcn o.ctx) = (t, .ok w)) : runAn o x body s = insnDone o.lcn o.ctx s w t := by
  rw [hd]
  exact runInsn_done h hb

/-- The operand numbers of the left and the right source and of the destination (R86). -/
def leftOpd (o : AnOp) : Nat := if o.fmt = 1 then 1 else 2
def rightOpd (o : AnOp) : Nat := if o.fmt = 1 then 2 else 1
def destOpd (o : AnOp) : Nat := if o.fmt = 1 then 3 else 2

/-- A type and operands a value instruction takes. -/
theorem aluGuard_passes {l : List Nat} (hlogic : k.logic = true → d.t.isInt = true) (hbs : d.t ≠ .bs) (hok : specsOk d l = true) :
    ((k.logic && !d.t.isInt) || d.t == .bs || !specsOk d l) = false := by
  cases hk : k.logic
  · simp [hbs, hok]
  · simp [hlogic hk, hbs, hok]

theorem aluBody_binary (hbin : k.unary = false) (hlogic : k.logic = true → d.t.isInt = true) (hbs : d.t ≠ .bs)
    (hok : specsOk d [destOpd o] = true)
    (heval : evalOps o.lcn o.ctx (withRoles d 0 [destOpd o]) s1 c = (s2, .ok (os, w)))
    (hleft : readOp o.lcn o.ctx d.t (opSize d.t (d.dig (leftOpd o)) 0) s2 (os.getD (leftOpd o - 1) (.reg 0)) = (s3, .ok a))
    (hright : readOp o.lcn o.ctx d.t (opSize d.t (d.dig (rightOpd o)) 0) s3 (os.getD (rightOpd o - 1) (.reg 0)) = (s4, .ok b))
    (hval : compute k d.t w.psw (freeVal s4) (d.dig (leftOpd o)) (d.dig (rightOpd o)) (d.dig (destOpd o)) a b = .ok v) :
    let x := writeOp o.lcn o.ctx (os.getD (destOpd o - 1) (.reg 0)) v.bytes (drawn s4, w)
    aluBody o k d s1 c = (x.1, .ok (d.step (orFf v.ff (setCc v.cc x.2)))) := by
  have hguard := aluGuard_passes hlogic hbs hok
  unfold leftOpd rightOpd destOpd at *
  simp only [aluBody, hbin, beq_iff_eq, hguard, heval, hleft, hright, hval, Bool.false_eq_true, if_false]

theorem aluBody_unary (hun : k.unary = true) (hlogic : k.logic = true → d.t.isInt = true) (hbs : d.t ≠ .bs)
    (hok : specsOk d [2] = true) (hfmt : o.fmt = 0)
    (heval : evalOps o.lcn o.ctx (withRoles d 0 [2]) s1 c = (s2, .ok (os, w)))
    (hread : readOp o.lcn o.ctx d.t (opSize d.t d.d1 0) s2 (os.getD 0 (.reg 0)) = (s3, .ok a))
    (hval : compute k d.t w.psw (freeVal s3) d.d1 d.d1 d.d2 a a = .ok v) :
    let x := writeOp o.lcn o.ctx (os.getD 1 (.reg 0)) v.bytes (drawn s3, w)
    aluBody o k d s1 c = (x.1, .ok (d.step (orFf v.ff (setCc v.cc x.2)))) := by
  have hguard := aluGuard_passes hlogic hbs hok
  have hone : d.dig 1 = d.d1 := rfl
  have htwo : d.dig 2 = d.d2 := rfl
  have hnot : ((0 : Nat) == 1) = false := rfl
  simp only [aluBody, hun, hfmt, hnot, hguard, heval, hone, htwo, hread, hval, Bool.false_eq_true, if_false, if_true]

/-- Settles O23: the rows with two sources read the left one first; those with one compute on operand 1 alone. -/
theorem anValues : Obligations.AnValues := by
  refine ⟨fun r hr o s s1 s2 s3 s4 d os w a b v => ?_, fun r hr o s s1 s2 s3 d os w a v => ?_⟩
  · intro l m dst hd hst hlogic hbs hok heval hleft hright hval
    exact exec_of_live (exec_aluRows o s r hr) hst.1
      (runAn_done hd hst (aluBody_binary (aluRows_binary r hr) hlogic hbs hok heval hleft hright hval))
  · intro hd hst hlogic hbs hok hfmt heval hread hval
    exact exec_of_live (exec_unaryRows o s r hr) hst.1
      (runAn_done hd hst (aluBody_unary (unaryRows_unary r hr) hlogic hbs hok hfmt heval hread hval))

end Sys2Proof.Machine
end

section
/-! Integer arithmetic, shifts and the square root (R95, R101, R103): the model's results as those of bit vectors. -/
namespace Sys2Proof.Machine

variable {w n k : Nat} {x y z : BitVec w} {v c : Bool}

/-! ### Results, signs and overflows -/

theorem bitVec_sub_eq_zero_iff (x y : BitVec w) : x - y = 0 ↔ x = y := by
  simp [BitVec.sub_eq_iff_eq_add]

theorem toS_toNat (hw : 0 < w) (x : BitVec w) : toS w x.toNat = x.toInt := by
  have hpow : 2 ^ w = 2 * 2 ^ (w - 1) := by rw [← Nat.pow_succ', Nat.succ_eq_add_one, Nat.sub_add_cancel hw]
  rw [toS, Nat.mod_eq_of_lt x.isLt, BitVec.toInt_eq_toNat_cond]
  have hiff : x.toNat < 2 ^ (w - 1) ↔ 2 * x.toNat < 2 ^ w := by omega
  simp only [hiff]

theorem ofS_eq (w : Nat) (i : Int) : ofS w i = (BitVec.ofInt w i).toNat := (BitVec.toNat_ofInt i).symm

theorem bitOf_eq_testBit (a i : Nat) : bitOf a i = a.testBit i := by
  rw [bitOf, Nat.testBit_eq_decide_div_mod_eq]
  rfl

theorem bitOf_toNat (x : BitVec w) (i : Nat) : bitOf x.toNat i = x.getLsbD i := by
  rw [bitOf_eq_testBit, BitVec.testBit_toNat]

/-- What a result of `w` bits is, given the number it stands for. -/
theorem resOf_of_mod (hw : 0 < w) (h : n % 2 ^ w = z.toNat) (v c : Bool) :
    resOf w n v c = ⟨z.toNat, ⟨z.msb, z == 0, v, c⟩⟩ := by
  have hmsb : bitOf n (w - 1) = z.msb := by
    rw [bitOf_eq_testBit, BitVec.msb_eq_getLsbD_last, ← BitVec.testBit_toNat, ← h, Nat.testBit_mod_two_pow,
      decide_eq_true (Nat.sub_lt hw Nat.one_pos), Bool.true_and]
  have hzero : (z.toNat == 0) = (z == 0) := by
    rw [Bool.eq_iff_iff, beq_iff_eq, beq_iff_eq, BitVec.toNat_eq, BitVec.ofNat_eq_ofNat, BitVec.toNat_ofNat, Nat.zero_mod]
  rw [resOf, nz, h, hmsb, hzero]

theorem resOf_toNat (hw : 0 < w) (z : BitVec w) (v c : Bool) : resOf w z.toNat v c = ⟨z.toNat, ⟨z.msb, z == 0, v, c⟩⟩ :=
  resOf_of_mod hw (Nat.mod_eq_of_lt z.isLt) v c

theorem sOver_eq (w : Nat) (i : Int) : sOver w i = (decide (i ≥ 2 ^ (w - 1)) || decide (i < -2 ^ (w - 1))) := by
  rw [sOver, Bool.decide_or, Bool.or_comm]
  simp only [Int.natCast_pow, Int.cast_ofNat_Int, ge_iff_le]

theorem sOver_toInt (x : BitVec w) : sOver w x.toInt = false := by
  have hlow := BitVec.le_toInt x
  have hhigh := BitVec.toInt_lt (x := x)
  rw [sOver_eq, decide_eq_false (by omega), decide_eq_false (by omega)]
  rfl

/-! ### Arithmetic (R95, R101) -/

theorem addR_toNat (hw : 0 < w) (x y : BitVec w) : addR w x.toNat y.toNat =
    ⟨(x + y).toNat, ⟨(x + y).msb, x + y == 0, x.saddOverflow y, x.uaddOverflow y⟩⟩ := by
  have hsum : (x.toNat + y.toNat) % 2 ^ w = (x + y).toNat := (BitVec.toNat_add x y).symm
  rw [addR, resOf_of_mod hw hsum, toS_toNat hw, toS_toNat hw, sOver_eq, Nat.mod_eq_of_lt x.isLt, Nat.mod_eq_of_lt y.isLt]
  rfl

theorem subR_toNat (hw : 0 < w) (x y : BitVec w) : subR w x.toNat y.toNat =
    ⟨(x - y).toNat, ⟨(x - y).msb, x - y == 0, x.ssubOverflow y, x.usubOverflow y⟩⟩ := by
  have hdiff : (x.toNat % 2 ^ w + (2 ^ w - y.toNat % 2 ^ w)) % 2 ^ w = (x - y).toNat := by
    rw [BitVec.toNat_sub, Nat.mod_eq_of_lt x.isLt, Nat.mod_eq_of_lt y.isLt, Nat.add_comm]
  rw [subR, resOf_of_mod hw hdiff, toS_toNat hw, toS_toNat hw, sOver_eq, Nat.mod_eq_of_lt x.isLt, Nat.mod_eq_of_lt y.isLt]
  rfl

theorem mulR_toNat (hw : 0 < w) (x y : BitVec w) : mulR w x.toNat y.toNat =
    ⟨(x * y).toNat, ⟨(x * y).msb, x * y == 0, x.smulOverflow y, x.umulOverflow y⟩⟩ := by
  have hprod : (x.toNat * y.toNat) % 2 ^ w = (x * y).toNat := (BitVec.toNat_mul x y).symm
  rw [mulR, resOf_of_mod hw hprod, toS_toNat hw, toS_toNat hw, sOver_eq, Nat.mod_eq_of_lt x.isLt, Nat.mod_eq_of_lt y.isLt]
  rfl

/-- Negation is the subtraction from 0. -/
theorem negR_toNat (hw : 0 < w) (x : BitVec w) : negR w x.toNat =
    ⟨(-x).toNat, ⟨(-x).msb, -x == 0, x.negOverflow, x != 0⟩⟩ := by
  have hsub := subR_toNat hw 0 x
  have hover : BitVec.ssubOverflow 0 x = x.negOverflow := by
    have hlow := BitVec.le_toInt x
    have hhigh := BitVec.toInt_lt (x := x)
    rw [BitVec.ssubOverflow, BitVec.negOverflow, BitVec.ofNat_eq_ofNat, BitVec.toInt_zero, Bool.eq_iff_iff]
    simp only [Bool.or_eq_true, decide_eq_true_eq, beq_iff_eq]
    omega
  have hborrow : BitVec.usubOverflow 0 x = (x != 0) := by
    rw [BitVec.usubOverflow, BitVec.ofNat_eq_ofNat, BitVec.toNat_ofNat, Nat.zero_mod, Bool.eq_iff_iff, decide_eq_true_eq, bne_iff_ne,
      Nat.pos_iff_ne_zero, ne_eq, ne_eq, BitVec.toNat_eq, BitVec.toNat_ofNat, Nat.zero_mod]
  rw [hover, hborrow, BitVec.ofNat_eq_ofNat, BitVec.zero_sub, BitVec.toNat_ofNat, Nat.zero_mod] at hsub
  exact hsub

/-! ### Division (R101, R103) -/

theorem sdiv_toInt_of_no_overflow (h : x.sdivOverflow y = false) : (x.sdiv y).toInt = x.toInt.tdiv y.toInt := by
  by_cases hw : w = 0
  · subst hw
    rw [BitVec.eq_nil x, BitVec.eq_nil y]
    rfl
  · refine BitVec.toInt_sdiv_of_ne_or_ne x y ?_
    rw [← Decidable.not_and_iff_not_or_not]
    intro ⟨hmin, hneg⟩
    rw [BitVec.sdivOverflow_eq, hmin, hneg, BitVec.neg_one_eq_allOnes] at h
    simp [Nat.pos_of_ne_zero hw] at h

theorem divR_toNat (hw : 0 < w) (h : x.sdivOverflow y = false) : divR w x.toNat y.toNat =
    ⟨(x.sdiv y).toNat, ⟨(x.sdiv y).msb, x.sdiv y == 0, false, false⟩⟩ := by
  rw [divR, toS_toNat hw, toS_toNat hw, ← sdiv_toInt_of_no_overflow h, ofS_eq, BitVec.ofInt_toInt, sOver_toInt, resOf_toNat hw]

theorem divuR_toNat (hw : 0 < w) (x y : BitVec w) : divuR w x.toNat y.toNat =
    ⟨(x / y).toNat, ⟨(x / y).msb, x / y == 0, false, false⟩⟩ := by
  rw [divuR, Nat.mod_eq_of_lt x.isLt, Nat.mod_eq_of_lt y.isLt, ← BitVec.toNat_udiv, resOf_toNat hw]

theorem remR_toNat (hw : 0 < w) (x y : BitVec w) : remR w x.toNat y.toNat =
    ⟨(x.srem y).toNat, ⟨(x.srem y).msb, x.srem y == 0, false, false⟩⟩ := by
  rw [remR, toS_toNat hw, toS_toNat hw, ← BitVec.toInt_srem, ofS_eq, BitVec.ofInt_toInt, resOf_toNat hw]

theorem remuR_toNat (hw : 0 < w) (x y : BitVec w) : remuR w x.toNat y.toNat =
    ⟨(x % y).toNat, ⟨(x % y).msb, x % y == 0, false, false⟩⟩ := by
  rw [remuR, Nat.mod_eq_of_lt x.isLt, Nat.mod_eq_of_lt y.isLt, ← BitVec.toNat_umod, resOf_toNat hw]

theorem minR_toNat (hw : 0 < w) (x y : BitVec w) : minR w x.toNat y.toNat =
    ⟨(if x.sle y then x else y).toNat, ⟨(if x.sle y then x else y).msb, (if x.sle y then x else y) == 0, false, false⟩⟩ := by
  rw [minR, toS_toNat hw, toS_toNat hw, ← resOf_toNat hw, apply_ite BitVec.toNat]
  simp only [BitVec.sle_iff_toInt_le]

theorem maxR_toNat (hw : 0 < w) (x y : BitVec w) : maxR w x.toNat y.toNat =
    ⟨(if x.sle y then y else x).toNat, ⟨(if x.sle y then y else x).msb, (if x.sle y then y else x) == 0, false, false⟩⟩ := by
  rw [maxR, toS_toNat hw, toS_toNat hw, ← resOf_toNat hw, apply_ite BitVec.toNat]
  simp only [BitVec.sle_iff_toInt_le]

theorem logicR_toNat (hw : 0 < w) (z : BitVec w) : logicR w z.toNat = ⟨z.toNat, ⟨z.msb, z == 0, false, false⟩⟩ := resOf_toNat hw z _ _

/-! ### Shifts and rotates (R103) -/

theorem bne_zero_eq (k : Nat) : (k != 0) = decide (k ≠ 0) := by
  cases k <;> rfl

theorem shlR_toNat (hw : 0 < w) (x : BitVec w) (n : Nat) : shlR w x.toNat n =
    ⟨(x <<< (n % w)).toNat, ⟨(x <<< (n % w)).msb, x <<< (n % w) == 0, false, decide (n % w ≠ 0) && x.getLsbD (w - n % w)⟩⟩ := by
  have hz : (x.toNat * 2 ^ (n % w)) % 2 ^ w = (x <<< (n % w)).toNat := by rw [BitVec.toNat_shiftLeft, Nat.shiftLeft_eq]
  rw [shlR, resOf_of_mod hw hz, Nat.mod_eq_of_lt x.isLt, bitOf_toNat, bne_zero_eq]

theorem shrR_toNat (hw : 0 < w) (x : BitVec w) (n : Nat) : shrR w x.toNat n =
    ⟨(x >>> (n % w)).toNat, ⟨(x >>> (n % w)).msb, x >>> (n % w) == 0, false, decide (n % w ≠ 0) && x.getLsbD (n % w - 1)⟩⟩ := by
  have hz : x.toNat % 2 ^ w / 2 ^ (n % w) = (x >>> (n % w)).toNat := by
    rw [Nat.mod_eq_of_lt x.isLt, BitVec.toNat_ushiftRight, Nat.shiftRight_eq_div_pow]
  rw [shrR]
  rw [hz, resOf_toNat hw, bitOf_toNat, bne_zero_eq]

theorem sarR_toNat (hw : 0 < w) (x : BitVec w) (n : Nat) : sarR w x.toNat n =
    ⟨(x.sshiftRight (n % w)).toNat, ⟨(x.sshiftRight (n % w)).msb, x.sshiftRight (n % w) == 0, false,
      decide (n % w ≠ 0) && x.getLsbD (n % w - 1)⟩⟩ := by
  have hz : ofS w (toS w x.toNat / (2 ^ (n % w) : Nat)) = (x.sshiftRight (n % w)).toNat := by
    rw [toS_toNat hw, ← Int.shiftRight_eq_div_pow, ← BitVec.toInt_sshiftRight, ofS_eq, BitVec.ofInt_toInt]
  rw [sarR]
  rw [hz, resOf_toNat hw, bitOf_toNat, bne_zero_eq]

theorem rotR_toNat (hw : 0 < w) (x : BitVec w) (n : Nat) : rotR w x.toNat n =
    ⟨(x.rotateLeft (n % w)).toNat, ⟨(x.rotateLeft (n % w)).msb, x.rotateLeft (n % w) == 0, false,
      decide (n % w ≠ 0) && (x.rotateLeft (n % w)).getLsbD 0⟩⟩ := by
  have hk : n % w < w := Nat.mod_lt n hw
  have hlow : x.toNat / 2 ^ (w - n % w) < 2 ^ (n % w) := by
    rw [Nat.div_lt_iff_lt_mul (Nat.two_pow_pos _), ← Nat.pow_add, Nat.add_sub_cancel' (Nat.le_of_lt hk)]
    exact x.isLt
  have hz : (x.toNat * 2 ^ (n % w) + x.toNat / 2 ^ (w - n % w)) % 2 ^ w = (x.rotateLeft (n % w)).toNat := by
    rw [BitVec.toNat_rotateLeft, Nat.mod_mod, ← Nat.shiftLeft_eq, Nat.shiftLeft_add_eq_or_of_lt hlow, Nat.or_mod_two_pow,
      ← Nat.shiftRight_eq_div_pow, Nat.mod_eq_of_lt (Nat.lt_of_le_of_lt (Nat.shiftRight_le _ _) x.isLt)]
  rw [rotR, Nat.mod_eq_of_lt x.isLt]
  rw [hz, resOf_toNat hw, bitOf_toNat, bne_zero_eq]

/-! ### The square root (R101) -/

/-- One bit of the root. -/
def rootBit (n r i : Nat) : Nat := if (r + 2 ^ i) * (r + 2 ^ i) ≤ n then r + 2 ^ i else r

/-- With the root known from bit `m` up, the loop over the bits below makes it exact. -/
theorem foldl_rootBit (n m : Nat) : ∀ r, r * r ≤ n → n < (r + 2 ^ m) * (r + 2 ^ m) →
    let q := ((List.range m).reverse).foldl (rootBit n) r
    q * q ≤ n ∧ n < (q + 1) * (q + 1) := by
  induction m with
  | zero => intro r hle hlt; exact ⟨hle, hlt⟩
  | succ m ih =>
    intro r hle hlt
    rw [List.range_succ, List.reverse_append, List.reverse_singleton, List.singleton_append, List.foldl_cons]
    by_cases hbit : (r + 2 ^ m) * (r + 2 ^ m) ≤ n
    · rw [rootBit, if_pos hbit]
      refine ih _ hbit ?_
      rwa [Nat.add_assoc, ← Nat.two_mul, ← Nat.pow_succ']
    · rw [rootBit, if_neg hbit]
      exact ih _ hle (Nat.not_le.1 hbit)

theorem isqrt_spec (n : Nat) : isqrt n * isqrt n ≤ n ∧ n < (isqrt n + 1) * (isqrt n + 1) := by
  refine foldl_rootBit n _ 0 (Nat.zero_le _) ?_
  rw [Nat.zero_add, ← Nat.pow_add]
  refine Nat.lt_of_lt_of_le Nat.lt_log2_self (Nat.pow_le_pow_right Nat.two_pos ?_)
  omega

/-! ### Computations on the bytes of integers -/

section Compute

variable {t : Ty} {psw : Psw} {p : Nat} {a : Alu}

theorem width_pos (ht : t.isInt = true) : 0 < 8 * t.bytes := by
  cases t
  case i8 | i16 | i32 | i64 | i128 => decide
  all_goals cases ht

theorem ofBytes_toBytes_toNat {m : Nat} (x : BitVec (8 * m)) : ofBytes (toBytes m x.toNat) = x.toNat := by
  rw [ofBytes_toBytes, Nat.mod_eq_of_lt]
  have hlt := x.isLt
  rwa [Nat.pow_mul] at hlt

/-- A computation on integers, by its result: V under PSW.IV raises INT_OVERFLOW. -/
theorem compute_int (ht : t.isInt = true) {l m : List Byte} {r : Res}
    (hr : aluInt a (8 * t.bytes) p (ofBytes l) (ofBytes m) = .ok r) :
    compute a t psw p 0 0 0 l m =
      if r.cc.v && psw.iv then .error (xf 0x12 0) else .ok ⟨toBytes t.bytes r.val, r.cc, 0⟩ := by
  simp only [compute, ht, if_true, hr, ivCheck, Bool.and_eq_true]
  by_cases hover : r.cc.v = true ∧ psw.iv = true
  · simp only [if_pos hover]
  · simp only [if_neg hover]

theorem compute_int_error (ht : t.isInt = true) {l m : List Byte} {e : Xf}
    (hr : aluInt a (8 * t.bytes) p (ofBytes l) (ofBytes m) = .error e) : compute a t psw p 0 0 0 l m = .error e := by
  simp only [compute, ht, if_true, hr]

variable {x y : BitVec (8 * t.bytes)}

/-- A computation that cannot overflow. -/
theorem compute_int_plain (ht : t.isInt = true) {z : BitVec (8 * t.bytes)} {c : Bool}
    (hr : aluInt a (8 * t.bytes) p x.toNat y.toNat = .ok ⟨z.toNat, ⟨z.msb, z == 0, false, c⟩⟩) :
    compute a t psw p 0 0 0 (toBytes t.bytes x.toNat) (toBytes t.bytes y.toNat) =
      .ok ⟨toBytes t.bytes z.toNat, ⟨z.msb, z == 0, false, c⟩, 0⟩ := by
  rw [← ofBytes_toBytes_toNat x, ← ofBytes_toBytes_toNat y] at hr
  exact compute_int ht hr

/-- A computation that may. -/
theorem compute_int_over (ht : t.isInt = true) {z : BitVec (8 * t.bytes)} {v c : Bool}
    (hr : aluInt a (8 * t.bytes) p x.toNat y.toNat = .ok ⟨z.toNat, ⟨z.msb, z == 0, v, c⟩⟩) :
    compute a t psw p 0 0 0 (toBytes t.bytes x.toNat) (toBytes t.bytes y.toNat) =
      if v && psw.iv then .error (xf 0x12 0) else .ok ⟨toBytes t.bytes z.toNat, ⟨z.msb, z == 0, v, c⟩, 0⟩ := by
  rw [← ofBytes_toBytes_toNat x, ← ofBytes_toBytes_toNat y] at hr
  exact compute_int ht hr

/-- The computations that divide, by their result where the divisor is not 0. -/
theorem aluInt_zero_divisor (w p n : Nat) : ∀ k ∈ [Alu.div, .divu, .rem, .remu], aluInt k w p n 0 = .error (xf 0x11 0) := by
  simp [aluInt]

theorem compute_zero_divisor (ht : t.isInt = true) (hy : y = 0) : ∀ k ∈ [Alu.div, .divu, .rem, .remu],
    compute k t psw p 0 0 0 (toBytes t.bytes x.toNat) (toBytes t.bytes y.toNat) = .error (xf 0x11 0) := by
  intro k hk
  refine compute_int_error ht ?_
  rw [ofBytes_toBytes_toNat x, ofBytes_toBytes_toNat y, hy]
  exact aluInt_zero_divisor _ _ _ k hk

theorem toNat_mod_ne_zero (hy : y ≠ 0) : ¬ y.toNat % 2 ^ (8 * t.bytes) = 0 := by
  rw [Nat.mod_eq_of_lt y.isLt]
  exact fun h => hy (BitVec.eq_of_toNat_eq (h.trans (by simp)))

end Compute

/-- Settles O24: each computation is the bit vectors' own, with the flags of its result. -/
theorem integerArithmetic : Obligations.IntegerArithmetic := by
  refine ⟨fun t psw p x y ht => ?_, fun t psw p x y ht => ?_⟩
  · have hw := width_pos ht
    exact ⟨compute_int_over ht (congrArg Except.ok (addR_toNat hw x y)), compute_int_over ht (congrArg Except.ok (subR_toNat hw x y)),
      compute_int_over ht (congrArg Except.ok (mulR_toNat hw x y)), compute_int_over ht (congrArg Except.ok (mulR_toNat hw x y)),
      compute_int_over ht (congrArg Except.ok (negR_toNat hw x))⟩
  · have hw := width_pos ht
    refine ⟨fun hy => compute_zero_divisor ht hy, fun hy => ?_, ?_, ?_, ?_, ?_, ?_, ?_⟩
    · have hne := toNat_mod_ne_zero hy
      exact ⟨fun hover => compute_int_plain ht ((if_neg hne).trans (congrArg Except.ok (divR_toNat hw hover))),
        compute_int_plain ht ((if_neg hne).trans (congrArg Except.ok (divuR_toNat hw x y))),
        compute_int_plain ht ((if_neg hne).trans (congrArg Except.ok (remR_toNat hw x y))),
        compute_int_plain ht ((if_neg hne).trans (congrArg Except.ok (remuR_toNat hw x y)))⟩
    · exact compute_int_plain ht (congrArg Except.ok (logicR_toNat hw (x &&& y)))
    · exact compute_int_plain ht (congrArg Except.ok (logicR_toNat hw (x ||| y)))
    · exact compute_int_plain ht (congrArg Except.ok (logicR_toNat hw (x ^^^ y)))
    · refine compute_int_plain ht (congrArg Except.ok ?_)
      rw [Nat.mod_eq_of_lt x.isLt, ← BitVec.toNat_not]
      exact logicR_toNat hw (~~~x)
    · exact compute_int_plain ht (congrArg Except.ok (minR_toNat hw x y))
    · exact compute_int_plain ht (congrArg Except.ok (maxR_toNat hw x y))

/-! ### The shifts and the root as instructions compute them -/

/-- A shift of an integer by a count of its type. -/
theorem compute_shift {t : Ty} {psw : Psw} {p n : Nat} {a : Alu} {x z : BitVec (8 * t.bytes)} {c : Bool} (ht : t.isInt = true)
    (hn : n < 2 ^ (8 * t.bytes)) (hr : aluInt a (8 * t.bytes) p x.toNat n = .ok ⟨z.toNat, ⟨z.msb, z == 0, false, c⟩⟩) :
    compute a t psw p 0 0 0 (toBytes t.bytes x.toNat) (toBytes t.bytes n) =
      .ok ⟨toBytes t.bytes z.toNat, ⟨z.msb, z == 0, false, c⟩, 0⟩ := by
  have hcount : (BitVec.ofNat (8 * t.bytes) n).toNat = n := (BitVec.toNat_ofNat _ _).trans (Nat.mod_eq_of_lt hn)
  rw [← hcount] at hr ⊢
  exact compute_int_plain ht hr

/-- The root of a number that is not negative, below half the range of its type. -/
theorem aluInt_sqrt {w p m : Nat} {x : BitVec w} (hw : 0 < w) (hx : x.msb = false) :
    aluInt .sqrt w p x.toNat m = .ok ⟨isqrt x.toNat, ⟨false, isqrt x.toNat == 0, false, false⟩⟩ := by
  have hpos : ¬ toS w x.toNat < 0 := by
    rw [toS_toNat hw]
    rw [BitVec.msb_eq_toInt] at hx
    exact of_decide_eq_false hx
  have hbelow : isqrt x.toNat < 2 ^ (w - 1) := by
    rw [BitVec.msb_eq_decide] at hx
    exact Nat.lt_of_le_of_lt (Nat.le_trans (Nat.le_mul_self _) (isqrt_spec _).1) (Nat.not_le.1 (of_decide_eq_false hx))
  have hmod : isqrt x.toNat % 2 ^ w = isqrt x.toNat :=
    Nat.mod_eq_of_lt (Nat.lt_of_lt_of_le hbelow (Nat.pow_le_pow_right Nat.two_pos (Nat.sub_le w 1)))
  have htop : bitOf (isqrt x.toNat) (w - 1) = false := by
    rw [bitOf_eq_testBit]
    exact Nat.testBit_lt_two_pow hbelow
  simp only [aluInt, if_neg hpos, Nat.mod_eq_of_lt x.isLt, resOf, nz, hmod, htop]

/-- Settles O25: each shift is the bit vectors' own by the count modulo the width, and the root is exact from its top bit down. -/
theorem shifts : Obligations.Shifts := by
  refine ⟨fun t psw p x n ht hn => ?_, fun t psw p x b ht hx => ?_⟩
  · have hw := width_pos ht
    exact ⟨compute_shift ht hn (congrArg Except.ok (shlR_toNat hw x n)), compute_shift ht hn (congrArg Except.ok (shrR_toNat hw x n)),
      compute_shift ht hn (congrArg Except.ok (sarR_toNat hw x n)), compute_shift ht hn (congrArg Except.ok (rotR_toNat hw x n))⟩
  · refine ⟨isqrt x.toNat, ?_, isqrt_spec x.toNat⟩
    have hroot := aluInt_sqrt (p := p) (m := ofBytes b) (width_pos ht) hx
    rw [← ofBytes_toBytes_toNat x] at hroot
    rw [compute_int ht hroot, ofBytes_toBytes_toNat]
    rfl

end Sys2Proof.Machine
end

section
/-! AN compares and moves (R86, R90, R91, R98, R101, R103): what each body does with operands that evaluate. -/
namespace Sys2Proof.Machine

variable {o : AnOp} {s s1 s2 s3 s4 t u : State} {d : Dec} {os : List Opd} {c w : Ctx} {a b : List Byte}

/-! ### Compares (R86, R95) -/

/-- Integers compare as the subtraction of the right one from the left, without raising anything. -/
theorem compareCc_int {t : Ty} (ht : t.isInt = true) (psw : Psw) (p d2 d1 : Nat) (x y : BitVec (8 * t.bytes)) :
    compareCc t psw p d2 d1 (toBytes t.bytes y.toNat) (toBytes t.bytes x.toNat) =
      .ok (⟨(y - x).msb, y == x, BitVec.ssubOverflow y x, BitVec.usubOverflow y x⟩, 0) := by
  have hzero : (y - x == 0) = (y == x) := by
    rw [Bool.eq_iff_iff, beq_iff_eq, beq_iff_eq, bitVec_sub_eq_zero_iff]
  rw [compareCc, if_pos ht, ofBytes_toBytes_toNat, ofBytes_toBytes_toNat, cmpR, subR_toNat (width_pos ht), hzero]

/-- N and Z of a logical result are those of its low bits. -/
theorem logicR_cc {w : Nat} (hw : 0 < w) (n : Nat) :
    (logicR w n).cc = ⟨bitOf (n % 2 ^ w) (w - 1), n % 2 ^ w == 0, false, false⟩ := by
  have htop : bitOf n (w - 1) = bitOf (n % 2 ^ w) (w - 1) := by
    rw [bitOf_eq_testBit, bitOf_eq_testBit, Nat.testBit_mod_two_pow, decide_eq_true (Nat.sub_lt hw Nat.one_pos), Bool.true_and]
  rw [logicR, resOf, nz, htop]

theorem flagBody_of_operands {f : Dec → Psw → Nat → List Byte → List Byte → Except Xf (Cc × Nat)} {intOnly : Bool} {r : Cc × Nat}
    (hint : intOnly = true → d.t.isInt = true) (hbs : d.t ≠ .bs) (hok : specsOk d [] = true)
    (heval : evalOps o.lcn o.ctx (withRoles d 0 []) s1 c = (s2, .ok (os, w)))
    (hone : readOp o.lcn o.ctx d.t (opSize d.t d.d1 0) s2 (os.getD 0 (.reg 0)) = (s3, .ok a))
    (htwo : readOp o.lcn o.ctx d.t (opSize d.t d.d2 0) s3 (os.getD 1 (.reg 0)) = (s4, .ok b))
    (hf : f d w.psw (freeVal s4) a b = .ok r) :
    flagBody o f intOnly d s1 c = (drawn s4, .ok (d.step (orFf r.2 (setCc r.1 w)))) := by
  have hguard : ((intOnly && !d.t.isInt) || d.t == .bs || !specsOk d []) = false := by
    cases hi : intOnly
    · simp [hbs, hok]
    · simp [hint hi, hbs, hok]
  simp only [flagBody, hguard, heval, hone, htwo, hf, Bool.false_eq_true, if_false]

/-! ### A byte string's end (R139) -/

theorem bsEnd_ok (lcn ctx n : Nat) (ks : List Chunk) (x : List Byte) (w : Ctx) (s : State) :
    ∃ t k, bsEnd lcn ctx n ks x w s = (t, .ok k) := by
  unfold bsEnd
  dsimp only
  split
  · exact ⟨_, _, rfl⟩
  · split <;> exact ⟨_, _, rfl⟩

theorem bsDone_of_end {n : Nat} {ks : List Chunk} {k : Ctx} (h : bsEnd o.lcn o.ctx n ks a w u = (t, .ok k)) :
    bsDone o s n ks a w u = insnDone o.lcn o.ctx s k t := by
  rw [bsDone, h]

/-- An instruction on a byte string ends in its first piece, whatever its length. -/
theorem runAn_bs {body : Dec → Body} {x : Option Dec} {n : Nat} {ks : List Chunk} (hd : x = some d)
    (h : Starts o.lcn o.ctx d.n false s s1) (hb : body d s1 (ctxOf s o.lcn o.ctx) = bsEnd o.lcn o.ctx n ks a w u) :
    runAn o x body s = bsDone o s n ks a w u := by
  obtain ⟨t, k, hend⟩ := bsEnd_ok o.lcn o.ctx n ks a w u
  rw [bsDone_of_end hend]
  exact runAn_done hd h (hb.trans hend)

/-! ### MOV, CLR, LEA and CVT -/

theorem movBody_of_plain (hbs : d.t ≠ .bs) (hpd : d.t ≠ .pd) (hok : specsOk d [2] = true)
    (heval : evalOps o.lcn o.ctx (withRoles d 0 [2]) s1 c = (s2, .ok (os, w)))
    (hread : readOp o.lcn o.ctx d.t (opSize d.t d.d1 0) s2 (os.getD 0 (.reg 0)) = (s3, .ok a)) :
    let x := writeOp o.lcn o.ctx (os.getD 1 (.reg 0)) a (s3, w)
    movBody o d s1 c = (x.1, .ok (d.step x.2)) := by
  simp only [movBody, if_neg hbs, if_neg hpd, hok, heval, hread, Bool.not_true, Bool.false_eq_true, if_false]

/-- A packed decimal number is normalised as it is copied, and V tells that digits were lost (R98). -/
theorem movBody_of_decimal {v : Int} (hpd : d.t = .pd) (hok : specsOk d [2] = true)
    (heval : evalOps o.lcn o.ctx (withRoles d 0 [2]) s1 c = (s2, .ok (os, w)))
    (hread : readOp o.lcn o.ctx d.t (opSize d.t d.d1 0) s2 (os.getD 0 (.reg 0)) = (s3, .ok a))
    (hv : pdVal d.d1 a = some v) (hdv : ¬ (pdOver d.d2 v = true ∧ w.psw.dv = true)) :
    let x := writeOp o.lcn o.ctx (os.getD 1 (.reg 0)) (pdPut d.d2 v) (s3, w)
    movBody o d s1 c = (x.1, .ok (d.step (if pdOver d.d2 v then setCc { x.2.psw.cc with v := true } x.2 else x.2))) := by
  have hbs : d.t ≠ .bs := by rw [hpd]; decide
  simp only [movBody, if_neg hbs, if_pos hpd, hok, heval, hread, hv, if_neg hdv, Bool.not_true, Bool.false_eq_true, if_false]

theorem movBody_of_string {n va : Nat} {ks : List Chunk} (hbs : d.t = .bs) (hlen : bsLen d c = some n) (hok : specsOk d [2] = true)
    (heval : evalOps o.lcn o.ctx (withRoles d n [2]) s1 c = (s2, .ok (os, w)))
    (hread : readOp o.lcn o.ctx d.t n s2 (os.getD 0 (.reg 0)) = (s3, .ok a)) (hdst : os.getD 1 (.reg 0) = .mem va ks) :
    movBody o d s1 c = bsEnd o.lcn o.ctx n ks a (d.step w) s3 := by
  have hsize : opSize d.t d.d1 n = n := by rw [hbs]; rfl
  simp only [movBody, if_pos hbs, hlen, hok, heval, hsize, hread, hdst, bsPut, Bool.not_true, Bool.false_eq_true, if_false]

theorem clrBody_of_plain (hbs : d.t ≠ .bs) (hok : specsOk d [1] = true)
    (heval : evalOps o.lcn o.ctx (withRoles d 0 [1]) s1 c = (s2, .ok (os, w))) :
    let x := writeOp o.lcn o.ctx (os.getD 0 (.reg 0)) (zeroOf d.t d.d1 0) (s2, w)
    clrBody o d s1 c = (x.1, .ok (d.step x.2)) := by
  simp only [clrBody, if_neg hbs, hok, heval, Bool.not_true, Bool.false_eq_true, if_false]

theorem clrBody_of_string {n va : Nat} {ks : List Chunk} (hbs : d.t = .bs) (hlen : bsLen d c = some n) (hok : specsOk d [1] = true)
    (heval : evalOps o.lcn o.ctx (withRoles d n [1]) s1 c = (s2, .ok (os, w))) (hdst : os.getD 0 (.reg 0) = .mem va ks) :
    clrBody o d s1 c = bsEnd o.lcn o.ctx n ks (List.replicate n 0) (d.step w) s2 := by
  have hzero : zeroOf d.t d.d1 n = List.replicate n 0 := by rw [hbs]; rfl
  simp only [clrBody, if_pos hbs, hlen, hok, heval, hdst, hzero, bsPut, Bool.not_true, Bool.false_eq_true, if_false]

theorem leaBody_of_address {va : Nat} (hint : d.t.isInt = true) (hone : specOk d.t false true (d.specs.getD 0 (.reg 0)) = true)
    (htwo : specOk d.t true false (d.specs.getD 1 (.reg 0)) = true)
    (heval : evalOps o.lcn o.ctx [(d.specs.getD 0 (.reg 0), d.t.bytes, .adr), (d.specs.getD 1 (.reg 0), d.t.bytes, .wr)] s1 c =
      (s2, .ok (os, w)))
    (hva : os.getD 0 (.reg 0) = .adr va) :
    let x := writeOp o.lcn o.ctx (os.getD 1 (.reg 0)) (toBytes d.t.bytes va) (s2, w)
    leaBody o d s1 c = (x.1, .ok (d.step x.2)) := by
  simp only [leaBody, hint, hone, htwo, heval, hva, Bool.not_true, Bool.or_self, Bool.false_eq_true, if_false]

theorem cvtBody_of_operands {d : CvtDec} {v : Val} (hone : specOk d.t false false d.a = true) (htwo : specOk d.u true false d.b = true)
    (heval : evalOps o.lcn o.ctx [(d.a, opSize d.t d.d1 0, .rd), (d.b, opSize d.u d.d2 0, .wr)] s1 c = (s2, .ok (os, w)))
    (hread : readOp o.lcn o.ctx d.t (opSize d.t d.d1 0) s2 (os.getD 0 (.reg 0)) = (s3, .ok a))
    (hval : convert d.t d.u w.psw (freeVal s3) d.d1 d.d2 a = .ok v) :
    let x := writeOp o.lcn o.ctx (os.getD 1 (.reg 0)) v.bytes (drawn s3, w)
    cvtBody o d s1 c = (x.1, .ok (d.step (orFf v.ff (setCc v.cc x.2)))) := by
  simp only [cvtBody, hone, htwo, heval, hread, hval, Bool.not_true, Bool.or_self, Bool.false_eq_true, if_false]

theorem runCvt_done {d : CvtDec} (hd : decodeCvt o = some d) (h : Starts o.lcn o.ctx d.n false s s1)
    (hb : cvtBody o d s1 (ctxOf s o.lcn o.ctx) = (t, .ok w)) : runCvt o s = insnDone o.lcn o.ctx s w t := by
  rw [runCvt, hd]
  exact runInsn_done h hb

/-- Settles O26: compares by their flags alone, moves by what their operands evaluate to, strings by their end. -/
theorem comparesMoves : Obligations.ComparesMoves := by
  refine ⟨⟨?_, fun t psw p d2 d1 x y ht => compareCc_int ht psw p d2 d1 x y⟩, fun o s s1 s2 s3 os w a => ⟨?_, ?_, ?_, ?_, ?_⟩⟩
  · intro o s s1 s2 s3 s4 d os w a b hd hst hbs hok heval hone htwo
    refine ⟨fun r hr => ?_, fun hint => ?_⟩
    · have hrun : runAnCmp o s = insnDone o.lcn o.ctx s (d.step (orFf r.2 (setCc r.1 w))) (drawn s4) :=
        runAn_done hd hst (flagBody_of_operands Bool.noConfusion hbs hok heval hone htwo hr)
      exact ⟨exec_of_live rfl hst.1 hrun, exec_of_live rfl hst.1 hrun⟩
    · have hrun := flagBody_of_operands (intOnly := true)
        (f := fun d _ _ a b => .ok ((logicR (8 * d.t.bytes) ((ofBytes a).land (ofBytes b))).cc, 0)) (fun _ => hint) hbs hok heval hone
        htwo rfl
      rw [logicR_cc (width_pos hint)] at hrun
      exact exec_of_live (f := runTest o) rfl hst.1 (runAn_done hd hst hrun)
  · intro d hd hst hbs hok heval hread
    exact ⟨fun hpd => exec_of_live rfl hst.1 (runAn_done hd hst (movBody_of_plain hbs hpd hok heval hread)),
      fun hpd v hv hdv => exec_of_live rfl hst.1 (runAn_done hd hst (movBody_of_decimal hpd hok heval hread hv hdv))⟩
  · intro d n va ks hd hst hbs hlen hok heval hread hdst
    exact exec_of_live rfl hst.1 (runAn_bs hd hst (movBody_of_string hbs hlen hok heval hread hdst))
  · intro d hd hst hok
    exact ⟨fun hbs heval => exec_of_live rfl hst.1 (runAn_done hd hst (clrBody_of_plain hbs hok heval)),
      fun n va ks hbs hlen heval hdst => exec_of_live rfl hst.1 (runAn_bs hd hst (clrBody_of_string hbs hlen hok heval hdst))⟩
  · intro d va hd hst hint hone htwo heval hva
    exact exec_of_live rfl hst.1 (runAn_done hd hst (leaBody_of_address hint hone htwo heval hva))
  · intro d v hd hst hone htwo heval hread hval
    exact exec_of_live rfl hst.1 (runCvt_done hd hst (cvtBody_of_operands hone htwo heval hread hval))

end Sys2Proof.Machine
end

section
/-! AN strings (R84, R99, R139) and atomics (R92, R100, R101, R140). -/
namespace Sys2Proof.Machine

variable {o : AnOp} {s s1 s2 s3 s4 t u : State} {d : Dec} {c w : Ctx} {x y : List Byte} {n va : Nat} {k1 k2 : List Chunk}

/-! ### Strings (R99) -/

theorem withLen_of_len {f : Nat → Body} (hlen : bsLen d c = some n) : withLen d f s c = f n s c := by
  rw [withLen, hlen]

theorem movsBody_of_operands (hlen : bsLen d c = some n) (hops : strOps o d n n true s1 c = (s2, .ok (va, k1, k2, w)))
    (hx : loadChunks o.lcn o.ctx k1 s2 = (s3, .ok x)) : movsBody o d s1 c = bsEnd o.lcn o.ctx n k2 x (d.step w) s3 := by
  rw [movsBody, withLen_of_len hlen, hops, andThen_ok]
  dsimp only
  rw [hx, andThen_ok]

theorem cmpsBody_of_operands (hlen : bsLen d c = some n) (hops : strOps o d n n false s1 c = (s2, .ok (va, k1, k2, w)))
    (hx : loadChunks o.lcn o.ctx k1 s2 = (s3, .ok x)) (hy : loadChunks o.lcn o.ctx k2 s3 = (s4, .ok y)) :
    cmpsBody o d s1 c = bsEnd o.lcn o.ctx n [] [] (d.step (setCc (firstDiff x y) w)) s4 := by
  rw [cmpsBody, withLen_of_len hlen, hops, andThen_ok]
  dsimp only
  rw [hx, andThen_ok, hy, andThen_ok]

theorem trsBody_of_operands (hlen : bsLen d c = some n) (hops : strOps o d n 256 true s1 c = (s2, .ok (va, k1, k2, w)))
    (hx : loadChunks o.lcn o.ctx k1 s2 = (s3, .ok x)) (hy : loadChunks o.lcn o.ctx k2 s3 = (s4, .ok y)) :
    trsBody o d s1 c = bsEnd o.lcn o.ctx n k2 (y.map (fun b => x.getD b.toNat 0)) (d.step w) s4 := by
  rw [trsBody, withLen_of_len hlen, hops, andThen_ok]
  dsimp only
  rw [hx, andThen_ok, hy, andThen_ok]

theorem srchBody_of_operands (hlen : bsLen d c = some n) (hops : strOps o d n n false s1 c = (s2, .ok (va, k1, k2, w)))
    (hx : loadChunks o.lcn o.ctx k2 s2 = (s3, .ok x)) :
    let i := x.findIdx (fun b => b.toNat == gOf c 1 % 256)
    srchBody o d s1 c = bsEnd o.lcn o.ctx n [] [] (d.step (setCc { w.psw.cc with z := decide (i < x.length) } (setG 0 i w))) s3 := by
  rw [srchBody, withLen_of_len hlen, hops, andThen_ok]
  dsimp only
  rw [hx, andThen_ok]
  rfl

/-! ### Pieces (R139) -/

theorem length_piecesOf (k : Nat) : ∀ es, (piecesOf k es).length = k := by
  induction k with
  | zero => intro es; rfl
  | succ k ih => intro es; rw [piecesOf, List.length_cons, ih]

theorem bsDone_short {ks : List Chunk} (hn : n ≤ 256) :
    bsDone o s n ks x w u = insnDone o.lcn o.ctx s { w with last := true } (storeChunks o.lcn o.ctx ks x u) :=
  bsDone_of_end (if_pos hn)

/-- A long string has a first piece, and one fewer after it. -/
theorem bsDone_long {ks : List Chunk} (hn : 256 < n) :
    ∃ p ps, piecesOf ((n + 255) / 256) (partsOf ks x) = p :: ps ∧ ps.length = (n + 255) / 256 - 1 ∧
      bsDone o s n ks x w u = insnDone o.lcn o.ctx s { w with last := true, pieces := ps }
        (runPiece o.lcn o.ctx p (retireGroup o.lcn o.ctx u)) := by
  have hlen := length_piecesOf ((n + 255) / 256) (partsOf ks x)
  cases hps : piecesOf ((n + 255) / 256) (partsOf ks x) with
  | nil =>
    rw [hps, List.length_nil] at hlen
    omega
  | cons p ps =>
    rw [hps, List.length_cons] at hlen
    refine ⟨p, ps, rfl, by omega, bsDone_of_end ?_⟩
    rw [bsEnd, if_neg (Nat.not_le.2 hn)]
    simp only [hps]

/-! ### The first unequal pair (R99) -/

theorem firstDiff_self (x : List Byte) : firstDiff x x = ⟨false, true, false, false⟩ := by
  induction x with
  | nil => decide
  | cons b x ih => rw [firstDiff, if_pos rfl, ih]

theorem firstDiff_of_take_eq : ∀ (i : Nat) (x y : List Byte) (hx : i < x.length) (hy : i < y.length),
    x.take i = y.take i → x[i] ≠ y[i] → firstDiff x y = cmpR 8 y[i].toNat x[i].toNat := by
  intro i
  induction i with
  | zero =>
    intro x y hx hy _ hne
    obtain ⟨a, x, rfl⟩ := List.exists_cons_of_length_pos hx
    obtain ⟨b, y, rfl⟩ := List.exists_cons_of_length_pos hy
    exact if_neg hne
  | succ i ih =>
    intro x y hx hy htake hne
    obtain ⟨a, x, rfl⟩ := List.exists_cons_of_length_pos (Nat.zero_lt_of_lt hx)
    obtain ⟨b, y, rfl⟩ := List.exists_cons_of_length_pos (Nat.zero_lt_of_lt hy)
    rw [List.take_succ_cons, List.take_succ_cons, List.cons.injEq] at htake
    rw [firstDiff, if_pos htake.1]
    exact ih x y (Nat.lt_of_succ_lt_succ hx) (Nat.lt_of_succ_lt_succ hy) htake.2 hne

/-- Unequal bytes compare as CMPU compares its operands. -/
theorem cmpR_byte {a b : Byte} (hne : a ≠ b) :
    cmpR 8 b.toNat a.toNat = ⟨(b - a).msb, false, BitVec.ssubOverflow b a, BitVec.usubOverflow b a⟩ := by
  have hzero : (b - a == 0) = false := by
    rw [beq_eq_false_iff_ne, ne_eq, bitVec_sub_eq_zero_iff]
    exact hne.symm
  rw [cmpR, subR_toNat (by decide), hzero]

/-! ### Atomics (R92, R101, R140) -/

section Atomic

variable {p1 p2 p3 : Spec} {o1 o2 o3 : Opd} {u1 u2 u3 : State} {a b m : List Byte} {f : Nat → List Nat → Nat × Nat × Option Bool}

/-- What an atomic leaves once its operands are read: its memory operand, operand 1 unless it succeeded, and Z where it sets it. -/
def atomDone (o : AnOp) (d : Dec) (mem one : Opd) (out : Nat × Nat × Option Bool) (sw : State × Ctx) : State × Except Xf Ctx :=
  let a := atomWrite o.lcn o.ctx mem (toBytes d.t.bytes out.1) sw
  let b := match out.2.2 with
    | some true => a
    | _ => writeOp o.lcn o.ctx one (toBytes d.t.bytes out.2.1) a
  let w2 := match out.2.2 with
    | some z => setCc { b.2.psw.cc with z := z } b.2
    | none => b.2
  (drainAll o.lcn o.ctx b.1, .ok (stepPc d.n w2))

theorem atomBody_three (hty : atomTy d.t = true) (hspecs : d.specs = [p1, p2, p3]) (h1 : specOk d.t true false p1 = true)
    (h2 : specOk d.t false false p2 = true) (h3 : specOk d.t true false p3 = true)
    (heval : atomEval o d.t.bytes [1, 3] 1 d.specs s1 c = (s2, .ok ([o1, o2, o3], w)))
    (ha : readOp o.lcn o.ctx d.t d.t.bytes (oneShot o.lcn o.ctx s2) o1 = (u1, .ok a))
    (hb : readOp o.lcn o.ctx d.t d.t.bytes u1 o2 = (u2, .ok b)) (hm : readOp o.lcn o.ctx d.t d.t.bytes u2 o3 = (u3, .ok m)) :
    atomBody o 3 [1, 3] f d s1 c = atomDone o d o3 o1 (f d.t.bytes [ofBytes a, ofBytes b, ofBytes m]) (u3, w) := by
  have hthree : upTo d.specs.length = [0, 1, 2] := by rw [hspecs]; rfl
  have hroles : (upTo d.specs.length).all
      (fun i => specOk d.t (([1, 3] : List Nat).contains (i + 1)) false (d.specs.getD i (.reg 0))) = true := by
    rw [hthree, hspecs]
    exact Bool.and_eq_true_iff.2 ⟨h1, Bool.and_eq_true_iff.2 ⟨h2, Bool.and_eq_true_iff.2 ⟨h3, rfl⟩⟩⟩
  unfold atomBody
  dsimp only
  rw [if_neg (not_or.2 ⟨fun h => h hty, fun h => h hroles⟩), heval, andThen_ok, hthree]
  simp only [List.foldl_cons, List.foldl_nil, List.getD_cons_zero, List.getD_cons_succ, andThen_ok, ha, hb, hm, List.nil_append,
    List.cons_append]
  rfl

theorem atomBody_two (hty : atomTy d.t = true) (hspecs : d.specs = [p1, p2]) (h1 : specOk d.t true false p1 = true)
    (h2 : specOk d.t true false p2 = true)
    (heval : atomEval o d.t.bytes [1, 2] 1 d.specs s1 c = (s2, .ok ([o1, o2], w)))
    (ha : readOp o.lcn o.ctx d.t d.t.bytes (oneShot o.lcn o.ctx s2) o1 = (u1, .ok a))
    (hm : readOp o.lcn o.ctx d.t d.t.bytes u1 o2 = (u2, .ok m)) :
    atomBody o 2 [1, 2] f d s1 c = atomDone o d o2 o1 (f d.t.bytes [ofBytes a, ofBytes m]) (u2, w) := by
  have htwo : upTo d.specs.length = [0, 1] := by rw [hspecs]; rfl
  have hroles : (upTo d.specs.length).all
      (fun i => specOk d.t (([1, 2] : List Nat).contains (i + 1)) false (d.specs.getD i (.reg 0))) = true := by
    rw [htwo, hspecs]
    exact Bool.and_eq_true_iff.2 ⟨h1, Bool.and_eq_true_iff.2 ⟨h2, rfl⟩⟩
  unfold atomBody
  dsimp only
  rw [if_neg (not_or.2 ⟨fun h => h hty, fun h => h hroles⟩), heval, andThen_ok, htwo]
  simp only [List.foldl_cons, List.foldl_nil, List.getD_cons_zero, List.getD_cons_succ, andThen_ok, ha, hm, List.nil_append,
    List.cons_append]
  rfl

theorem casOf_of_eq {n i j k : Nat} (h : k = i) : casOf n [i, j, k] = (j, i, some true) := if_pos h

theorem casOf_of_ne {n i j k : Nat} (h : k ≠ i) : casOf n [i, j, k] = (k, k, some false) := if_neg h

end Atomic

/-- Settles O27: strings by the operands they load, pieces by their count, CMPS by the equal bytes before its pair, atomics by what
their operands hold. -/
theorem stringsAtomics : Obligations.StringsAtomics := by
  refine ⟨?_, fun o s u n ks x w => ⟨bsDone_short, bsDone_long⟩, ?_, ?_⟩
  · intro o s s1 s2 s3 d n va k1 k2 w x c hd hst hlen
    exact ⟨fun hops hx => exec_of_live rfl hst.1 (runAn_bs hd hst (movsBody_of_operands hlen hops hx)),
      fun s4 y hops hx hy => exec_of_live rfl hst.1 (runAn_bs hd hst (cmpsBody_of_operands hlen hops hx hy)),
      fun s4 y hops hx hy => exec_of_live rfl hst.1 (runAn_bs hd hst (trsBody_of_operands hlen hops hx hy)),
      fun hops hx => exec_of_live rfl hst.1 (runAn_bs hd hst (srchBody_of_operands hlen hops hx))⟩
  · intro x y _
    refine ⟨fun heq => ?_, fun i hx hy htake hne => ?_⟩
    · rw [heq, firstDiff_self]
    · rw [firstDiff_of_take_eq i x y hx hy htake hne, cmpR_byte hne]
  · intro o s s1 s2 d w c rd wr wrMem ended
    refine ⟨fun p1 p2 p3 o1 o2 o3 u1 u2 u3 a b m hd hst hty hspecs h1 h2 h3 heval ha hb hm => ?_,
      fun p1 p2 o1 o2 u1 u2 a m hd hst hty hspecs h1 h2 heval ha hm => ?_⟩
    · have hbody := atomBody_three (f := casOf) hty hspecs h1 h2 h3 heval ha hb hm
      refine ⟨fun heq => ?_, fun hne => ?_⟩
      · rw [casOf_of_eq heq] at hbody
        exact exec_of_live (f := runCas o) rfl hst.1 (runAn_done hd hst hbody)
      · rw [casOf_of_ne hne] at hbody
        exact exec_of_live (f := runCas o) rfl hst.1 (runAn_done hd hst hbody)
    · exact ⟨exec_of_live (f := runSwap o) rfl hst.1 (runAn_done hd hst (atomBody_two (f := swapOf) hty hspecs h1 h2 heval ha hm)),
        exec_of_live (f := runFadd o) rfl hst.1 (runAn_done hd hst (atomBody_two (f := faddOf) hty hspecs h1 h2 heval ha hm))⟩

end Sys2Proof.Machine
end

section
/-! AN instructions on control registers, PSW, frame banks and the A5 area (R77–R79, R93, R127, R128). -/
namespace Sys2Proof.Machine

variable {o : AnOp} {s s1 s2 s3 t u : State} {d : Dec} {c w k' : Ctx} {n v b k : Nat}

/-! ### Bodies, by what their operands give -/

section Bodies

variable (hint : d.t.isInt = true)
include hint

theorem mfcrBody_of_level (h0 : specOk d.t false false (d.specs.getD 0 (.reg 0)) = true)
    (h1 : specOk d.t true false (d.specs.getD 1 (.reg 0)) = true)
    (hk : crCheck c (crNum (d.specs.getD 0 (.reg 0))) = .ok k) :
    mfcrBody o d s1 c = wrDest o d 1 (crRead s1 o.lcn o.ctx c k) s1 c := by
  simp only [mfcrBody, hint, h0, h1, hk, not_true, or_self, if_false]

theorem mtcrBody_of_level (hall : d.specs.all (specOk d.t false false) = true)
    (hk : crCheck c (crNum (d.specs.getD 1 (.reg 0))) = .ok k) (hbad : ¬ (k = 0x24 ∧ bitOf v 0 = true ∧ fld v 63 52 = 0))
    (hv : rdSrc o d 0 s1 c = (s2, .ok (v, w))) : mtcrBody o d s1 c = (s2, .ok (stepLast d.n (crWrite k v w))) := by
  simp only [mtcrBody, hint, hall, hk, hv, andThen_ok, hbad, not_true, or_self, if_false]

theorem mfpswBody_of_int (h0 : specOk d.t true false (d.specs.getD 0 (.reg 0)) = true) :
    mfpswBody o d s1 c = wrDest o d 0 (c.psw.toNat o.ctx) s1 c := by
  simp only [mfpswBody, hint, h0, not_true, or_self, if_false]

theorem mtpswBody_of_int (h0 : specOk d.t false false (d.specs.getD 0 (.reg 0)) = true)
    (hv : rdSrc o d 0 s1 c = (s2, .ok (v, w))) :
    mtpswBody o d s1 c = (s2, .ok (stepLast d.n { w with psw := pswWrite v w.psw })) := by
  simp only [mtpswBody, hint, h0, hv, andThen_ok, not_true, or_self, if_false]

theorem wrfbBody_of_bank (hall : d.specs.all (specOk d.t false false) = true) (hv : rdSrc o d 0 s1 c = (u, .ok (v, k')))
    (hb : rdSrc o d 1 u k' = (s2, .ok (b, w))) (hle : b ≤ 3) :
    wrfbBody o d s1 c = (updCtx o.lcn o.ctx (fun x => { x with frame := x.frame.filter (fun l => l.1 / 64 ≠ b) }) s2,
      .ok (stepLast d.n { w with fb := tset 0 w.fb b (bv64 (v / 4096 * 4096)) })) := by
  simp only [wrfbBody, hint, hall, hv, hb, andThen_ok, Nat.not_lt.2 hle, not_true, or_self, if_false]

theorem rdfbBody_of_bank (h0 : specOk d.t false false (d.specs.getD 0 (.reg 0)) = true)
    (h1 : specOk d.t true false (d.specs.getD 1 (.reg 0)) = true) (hb : rdSrc o d 0 s1 c = (u, .ok (b, w))) (hle : b ≤ 3) :
    rdfbBody o d s1 c = wrDest o d 1 (tget 0 w.fb b).toNat u w := by
  simp only [rdfbBody, hint, h0, h1, hb, andThen_ok, Nat.not_lt.2 hle, not_true, or_self, if_false]

end Bodies

/-- A destination's write, its operand evaluated. -/
theorem wrDest_of_operand {i : Nat} {op : Opd} (h : evalOp o.lcn o.ctx d.t.bytes .wr s1 c (d.specs.getD i (.reg 0)) = (t, .ok (op, k'))) :
    wrDest o d i v s1 c = ((writeOp o.lcn o.ctx op (toBytes d.t.bytes v) (t, k')).1,
      .ok (stepPc d.n (writeOp o.lcn o.ctx op (toBytes d.t.bytes v) (t, k')).2)) := by
  rw [wrDest, h, andThen_ok]

theorem sva5Body_of_area {ks : List Chunk} (hok : areaOk d = true) (hpl : c.psw.pl ≠ .u)
    (ha : areaOf o d .write s1 c = (s2, .ok (ks, w))) :
    sva5Body o d s1 c = (storeChunks o.lcn o.ctx ks (a5Area c) s2, .ok (stepPc d.n w)) := by
  rw [sva5Body, if_neg (Classical.not_not.2 hok), atS_of_privileged hpl, ha, andThen_ok]

theorem lda5Body_of_area {ks : List Chunk} {x : List Byte} (hok : areaOk d = true) (hpl : c.psw.pl ≠ .u)
    (ha : areaOf o d .read s1 c = (s2, .ok (ks, w))) (hx : loadChunks o.lcn o.ctx ks s2 = (s3, .ok x)) :
    lda5Body o d s1 c = (s3, .ok (stepLast d.n (a5Load x w))) := by
  rw [lda5Body, if_neg (Classical.not_not.2 hok), atS_of_privileged hpl, ha, andThen_ok]
  dsimp only
  rw [hx, andThen_ok]

/-! ### Levels (R79) -/

theorem crLevel_ne_u (k : Nat) : crLevel k ≠ some .u := by
  unfold crLevel
  split
  · exact fun h => nomatch h
  · split <;> exact fun h => nomatch h

theorem crCheck_of_level {l : Lvl} (hl : crLevel k = some l) :
    crCheck c (some k) = if c.psw.pl = .u ∨ (l = .h ∧ c.psw.pl ≠ .h) then .error privileged else .ok k := by
  simp only [crCheck, hl]

theorem crCheck_ok_iff {l : Lvl} (hl : crLevel k = some l) :
    crCheck c (some k) = .ok k ↔ (l = .s ∧ c.psw.pl ≠ .u) ∨ (l = .h ∧ c.psw.pl = .h) := by
  have hu : l ≠ .u := fun h => crLevel_ne_u k (h ▸ hl)
  rw [crCheck_of_level hl]
  cases l <;> cases c.psw.pl <;> simp at hu ⊢

theorem crCheck_denied {l : Lvl} (hl : crLevel k = some l) (hs : l = .s → c.psw.pl = .u) (hh : l = .h → c.psw.pl ≠ .h) :
    crCheck c (some k) = .error (xf 0x08 0) := by
  rw [crCheck_of_level hl]
  refine if_pos ?_
  cases l
  case u => exact absurd hl (crLevel_ne_u k)
  case s => exact Or.inl (hs rfl)
  case h => exact Or.inr ⟨rfl, hh rfl⟩

/-- The read-only control registers keep what they hold. -/
theorem crWrite_readOnly : ∀ k ∈ [0x04, 0x0C, 0x12, 0x13, 0x28, 0x29, 0x2C, 0x2D, 0x2E, 0x30], crWrite k v c = c := by
  simp only [List.forall_mem_cons, List.not_mem_nil, false_implies, implies_true, and_true]
  repeat' constructor

theorem pswWrite_keeps (v : Nat) (p : Psw) :
    let q := pswWrite v p
    q.pl = p.pl ∧ q.a5 = p.a5 ∧ (p.pl = .u → q.ie = p.ie ∧ q.ss = p.ss) ∧
      q.cc = ccOf (v % 16) ∧ (p.pl ≠ .u → q.ie = (pswOf v).ie ∧ q.ss = (pswOf v).ss) :=
  ⟨rfl, rfl, fun hu => ⟨if_pos hu, if_pos hu⟩, rfl, fun hu => ⟨if_neg hu, if_neg hu⟩⟩

/-- Settles O28: each instruction by the value its operands give; levels by the register's own. -/
theorem controlRegisters : Obligations.ControlRegisters := by
  refine ⟨?_, ⟨fun c k l hl => ⟨crCheck_ok_iff hl, crCheck_denied hl⟩, ?_, fun k v c hk => crWrite_readOnly k hk, pswWrite_keeps⟩, ?_⟩
  · intro o s s1 s2 d w c sp dest two one
    refine ⟨?_, ?_, ?_, ?_, ?_, ?_⟩
    · rintro k ⟨hd, hst, hint⟩ h0 h1 hk ⟨op, s', k', he, rfl, rfl⟩
      exact exec_of_live (f := runAn o _ (mfcrBody o)) rfl hst.1
        (runAn_done hd hst ((mfcrBody_of_level hint h0 h1 hk).trans (wrDest_of_operand he)))
    · rintro k v ⟨hd, hst, hint⟩ hall hk hbad hv
      exact exec_of_live (f := runAn o _ (mtcrBody o)) rfl hst.1 (runAn_done hd hst (mtcrBody_of_level hint hall hk hbad hv))
    · rintro ⟨hd, hst, hint⟩ h0 ⟨op, s', k', he, rfl, rfl⟩
      exact exec_of_live (f := runAn o _ (mfpswBody o)) rfl hst.1
        (runAn_done hd hst ((mfpswBody_of_int hint h0).trans (wrDest_of_operand he)))
    · rintro v ⟨hd, hst, hint⟩ h0 hv
      exact exec_of_live (f := runAn o _ (mtpswBody o)) rfl hst.1 (runAn_done hd hst (mtpswBody_of_int hint h0 hv))
    · rintro u v b k ⟨hd, hst, hint⟩ hall hv hb hle
      exact exec_of_live (f := runAn o _ (wrfbBody o)) rfl hst.1 (runAn_done hd hst (wrfbBody_of_bank hint hall hv hb hle))
    · rintro u b k ⟨hd, hst, hint⟩ h0 h1 hb hle ⟨op, s', k', he, rfl, rfl⟩
      exact exec_of_live (f := runAn o _ (rdfbBody o)) rfl hst.1
        (runAn_done hd hst ((rdfbBody_of_bank hint h0 h1 hb hle).trans (wrDest_of_operand he)))
  · intro c k hk
    simp only [crCheck, hk]
    rfl
  · intro o s s1 s2 d ks w c hd hok hst hpl
    exact ⟨fun ha => exec_of_live (f := runAn o _ (sva5Body o)) rfl hst.1 (runAn_done hd hst (sva5Body_of_area hok hpl ha)),
      fun s3 x ha hx => exec_of_live (f := runAn o _ (lda5Body o)) rfl hst.1 (runAn_done hd hst (lda5Body_of_area hok hpl ha hx))⟩

end Sys2Proof.Machine
end

section
/-! TLB invalidations, protection keys, PUBLISH, locked translations and counter reads of a core (R104–R106, R114–R117, R191–R193). -/
namespace Sys2Proof.Machine

variable {o : AnOp} {s s1 s2 s3 t u : State} {d : Dec} {p : Plain} {c w k' : Ctx} {n v b k va : Nat} {x : Xf} {op : Opd}

/-! ### Invalidations (R191–R193) -/

theorem exec_tlbiRows (o : AnOp) (s : State) :
    ∀ r ∈ tlbiRows, exec (r.1 o) s = act (runTlbi o r.2.1 r.2.2.1 r.2.2.2.1 r.2.2.2.2) s := by
  simp only [tlbiRows, List.forall_mem_cons, List.not_mem_nil, false_implies, implies_true, and_true]
  repeat' constructor

theorem tlbLevel_iff {hOnly : Bool} : tlbLevel hOnly c = true ↔ c.psw.pl = .h ∨ (c.psw.pl = .s ∧ hOnly = false) := by
  simp only [tlbLevel, Bool.or_eq_true, Bool.and_eq_true, beq_iff_eq, Bool.not_eq_true']

theorem tlbiBody_of_level {kind : Nat} {bcast hOnly : Bool} (h0 : specOk d.t false false (d.specs.getD 0 (.reg 0)) = true)
    (hl : tlbLevel hOnly c = true) (hv : rdSrc o d 0 s1 c = (s2, .ok (v, w))) :
    tlbiBody o kind bcast hOnly d s1 c = tlbiRun o kind bcast v d.n s2 w := by
  simp only [tlbiBody, h0, hl, hv, andThen_ok, not_true, if_false]

/-- What TLBSYNC leaves under way is other contexts'. -/
theorem src_ne_of_syncAll {src : Nat} {m : Tlbi} (h : m ∈ (syncAll src s).tlbq) : m.src ≠ src :=
  of_decide_eq_true (List.mem_filter.1 h).2

theorem tlbArrival_of_some {l : Nat} {m : Tlbi} {q : List Tlbi} (h : tlbiArrive l s.tlbq = (some m, q)) :
    tlbArrival l s = tlbiApply m l { s with tlbq := q } := by
  simp only [tlbArrival, h]

theorem tlbArrival_of_none {l : Nat} {q : List Tlbi} (h : tlbiArrive l s.tlbq = (none, q)) : tlbArrival l s = s := by
  simp only [tlbArrival, h]

/-! ### Protection keys and PUBLISH (R106, R114, R115) -/

theorem runPlain_fault {body : Plain → Body} {dp : Option Plain} (hd : dp = some p) (h : Starts o.lcn o.ctx p.n false s s1)
    (hb : body p s1 (ctxOf s o.lcn o.ctx) = (t, .error x)) (hx : x.code ≠ stallX.code) :
    runPlain o dp body s = insnFault o.lcn o.ctx s x t := by
  rw [hd]
  exact runInsn_fault h hb hx

theorem publish_of_clean {l k : Nat} (h : (ctxOf (drainAll l k s) l k).badStore = none) :
    publish l k s = (drainAll l k s, .ok ()) := by
  simp only [publish, h]

theorem publish_of_poisoned {l k pa : Nat} (h : (ctxOf (drainAll l k s) l k).badStore = some pa) :
    publish l k s = (updCtx l k (fun c => { c with badStore := none }) (drainAll l k s), .error ⟨0x01, pa, 2, 0, true, 0, 0⟩) := by
  simp only [publish, h]

/-! ### Locked translations (R116, R188, R189) -/

section Locks

variable (hmem : memSpec (p.sp 0) = true) (hpl : c.psw.pl ≠ .u) (ha : addrOf o.lcn o.ctx 1 s1 c (p.sp 0) = (s2, .ok (va, w)))
include hmem hpl ha

theorem tlockBody_of_walk {x : Tr} (ht : translate s2 o.lcn w va .tlock = (s3, .ok x)) :
    tlockBody o p s1 c =
      if !(lcnOf s2 o.lcn).locks.any (tlbHit w va) && decide (lockSize ≤ (lcnOf s2 o.lcn).locks.length) then
        (s3, .ok (stepLast p.n (setCc (codeCc 2) w)))
      else (updLcn o.lcn (lockPut w va x.ent) s3, .ok (stepLast p.n (setCc (codeCc 0) w))) := by
  rw [tlockBody, if_neg (Classical.not_not.2 hmem), atS_of_privileged hpl, ha, andThen_ok]
  dsimp only
  rw [ht]

theorem tunlockBody_of_addr :
    tunlockBody o p s1 c = (updLcn o.lcn (fun k => { k with locks := k.locks.filter (fun e => !tlbHit w va e) }) s2,
      .ok (stepLast p.n (setCc (codeCc (if (lcnOf s2 o.lcn).locks.any (tlbHit w va) then 0 else 1)) w))) := by
  rw [tunlockBody, if_neg (Classical.not_not.2 hmem), atS_of_privileged hpl, ha, andThen_ok]

end Locks

/-- A locked entry takes the place of every entry of its page, and of the unlocked ones that no slot is left for. -/
theorem lockPut_eq (w : Ctx) (va : Nat) (e : TlbEntry) :
    let others := fun l : List TlbEntry => l.filter (fun x => !tlbHit w va x)
    lockPut w va e = fun k => { k with
      locks := others k.locks ++ [e], itlb := others k.itlb, dtlb := others k.dtlb, tlb := others k.tlb,
      slots := (others k.slots).take (63 - (others k.locks).length) } := by
  intro others
  funext k
  have hroom : lockSize - (others k.locks ++ [e]).length = 63 - (others k.locks).length := by
    rw [List.length_append, lockSize, List.length_singleton]
    omega
  rw [← hroom]
  rfl

/-! ### Counter reads (R117, R588) -/

section Rdpct

variable (h0 : specOk .i16 false false (p.sp 0) = true) (h1 : specOk .i64 true false (p.sp 1) = true)
include h0 h1

theorem rdpctBody_denied (hu : c.psw.pl = .u) (hr : c.uread = false) : rdpctBody o p s1 c = (s1, .error (xf 0x08 0)) := by
  rw [rdpctBody, if_neg (not_or.2 ⟨Classical.not_not.2 h0, Classical.not_not.2 h1⟩), if_pos ⟨hu, by rw [hr]; exact Bool.false_ne_true⟩]
  rfl

variable (hok : ¬ (c.psw.pl = .u ∧ c.uread = false)) (hv : rdVal o .i16 (p.sp 0) s1 c = (s2, .ok (v, k')))
include hok hv

theorem rdpctBody_of_number : rdpctBody o p s1 c =
    if 8 ≤ v then (s2, .error illegal)
    else andThen (wrVal o (p.sp 1) s2 k') (fun s2 q =>
      let s3 := tally s2
      let x := writeOp o.lcn o.ctx q.1 (toBytes 8 (ctrRead (ctrOf s3 (coreUnit o.lcn) v))) (s3, q.2)
      (x.1, .ok (stepPc p.n x.2))) := by
  have hlevel : ¬ (c.psw.pl = .u ∧ ¬ c.uread = true) := by rwa [Bool.not_eq_true]
  rw [rdpctBody, if_neg (not_or.2 ⟨Classical.not_not.2 h0, Classical.not_not.2 h1⟩), if_neg hlevel, hv, andThen_ok]

theorem rdpctBody_of_none (h8 : 8 ≤ v) : rdpctBody o p s1 c = (s2, .error (xf 0x07 0)) := by
  rw [rdpctBody_of_number h0 h1 hok hv, if_pos h8]
  rfl

theorem rdpctBody_of_counter (h8 : v < 8) (hw : wrVal o (p.sp 1) s2 k' = (s3, .ok (op, w))) :
    let x := writeOp o.lcn o.ctx op (toBytes 8 (ctrRead (ctrOf (tally s3) (coreUnit o.lcn) v))) (tally s3, w)
    rdpctBody o p s1 c = (x.1, .ok (stepPc p.n x.2)) := by
  rw [rdpctBody_of_number h0 h1 hok hv, if_neg (Nat.not_le.2 h8), hw, andThen_ok]

end Rdpct

/-- The count is in bits 47:0, the overflow bit in bit 63. -/
theorem ctrRead_spec (c : Ctr) (h : c.val < 2 ^ 48) :
    ctrRead c % 2 ^ 63 = c.val ∧ ctrRead c < 2 ^ 64 ∧ (ctrRead c / 2 ^ 63 = 1 ↔ c.ovf = true) := by
  unfold ctrRead b2n
  cases c.ovf
  · simp only [Bool.false_eq_true, if_false, iff_false]
    omega
  · simp only [if_true, iff_true]
    omega

/-- Settles O29: invalidations by their row, PUBLISH by the store that failed, locks by the walk, RDPCT by its number. -/
theorem translations : Obligations.Translations := by
  refine ⟨?_, ?_, ?_, ?_, ctrRead_spec⟩
  · intro o s s1 c after levelOk
    refine ⟨fun r hr d s2 v w hty hd hst h0 hl hv => ?_, fun hd hst hl => ⟨?_, ?_⟩, fun hd hst hpl => ?_, fun l m q hlive hq => ?_,
      fun l q hlive hq => ?_⟩
    · have hdec : (if o.ty = r.2.1 then decodeAn o [2] else none) = some d := (if_pos hty).trans hd
      rw [exec_tlbiRows o s r hr, act, if_pos hst.1]
      exact congrArg _ (runAn_done hdec hst (tlbiBody_of_level h0 (tlbLevel_iff.2 hl) hv))
    · exact exec_of_live (f := runTlbiAll o true) rfl hst.1
        (runZero_done hd rfl hst (if_neg (Classical.not_not.2 (tlbLevel_iff.2 hl))))
    · exact exec_of_live (f := runTlbiAll o false) rfl hst.1
        (runZero_done hd rfl hst (if_neg (Classical.not_not.2 (tlbLevel_iff.2 hl))))
    · exact ⟨_, exec_of_live (f := runTlbsync o) rfl hst.1 (runZero_done hd rfl hst (atS_of_privileged hpl _ _)), rfl,
        fun m hm => src_ne_of_syncAll hm⟩
    · exact exec_of_live (f := tlbArrival l) rfl hlive (tlbArrival_of_some hq)
    · exact exec_of_live (f := tlbArrival l) rfl hlive (tlbArrival_of_none hq)
  · intro o s s1 s2 w c
    refine ⟨fun p v hd hst hv => ?_, fun p op hd hst hw => ?_, fun hd hst => ⟨fun hgood => ?_, fun pa hbad => ?_⟩⟩
    · exact exec_of_live (f := runWrpkr o) rfl hst.1 (runPlain_done hd hst (by rw [hv, andThen_ok]; rfl))
    · exact exec_of_live (f := runRdpkr o) rfl hst.1 (runPlain_done hd hst (by rw [hw, andThen_ok]))
    · exact exec_of_live (f := runPublish o) rfl hst.1 (runZero_done hd rfl hst (by rw [publish_of_clean hgood, andThen_ok]))
    · exact exec_of_live (f := runPublish o) rfl hst.1
        (runZero_fault hd rfl hst (by rw [publish_of_poisoned hbad, andThen_error]) (by exact (by decide : (1 : Nat) ≠ 0x100)))
  · intro o p s s1 s2 va w c hd hst hmem hpl ha locks held ended others
    refine ⟨fun s3 t ht => ⟨fun hfull => ?_, fun hroom => ?_⟩, ?_⟩
    · refine exec_of_live (f := runTlock o) rfl hst.1
        (runPlain_done hd hst ((tlockBody_of_walk hmem hpl ha ht).trans (if_pos ?_)))
      rw [Bool.and_eq_true, Bool.not_eq_true', decide_eq_true_iff]
      exact hfull
    · have hno : ¬ (!held && decide (lockSize ≤ locks.length)) = true := by
        rw [Bool.and_eq_true, Bool.not_eq_true', decide_eq_true_iff, lockSize]
        rintro ⟨hheld, hlen⟩
        obtain h | h := hroom
        · rw [hheld] at h
          cases h
        · omega
      refine exec_of_live (f := runTlock o) rfl hst.1
        (runPlain_done hd hst ((tlockBody_of_walk hmem hpl ha ht).trans ((if_neg hno).trans ?_)))
      rw [lockPut_eq]
    · exact exec_of_live (f := runTunlock o) rfl hst.1 (runPlain_done hd hst (tunlockBody_of_addr hmem hpl ha))
  · intro o p s s1 s2 v k c hd hst h0 h1
    refine ⟨fun hu hr => ?_, fun hok hv => ⟨fun h8 => ?_, fun h8 s3 op w hw => ?_⟩⟩
    · exact exec_of_live (f := runRdpct o) rfl hst.1 (runPlain_fault hd hst (rdpctBody_denied h0 h1 hu hr) (by decide))
    · exact exec_of_live (f := runRdpct o) rfl hst.1 (runPlain_fault hd hst (rdpctBody_of_none h0 h1 hok hv h8) (by decide))
    · exact exec_of_live (f := runRdpct o) rfl hst.1 (runPlain_done hd hst (rdpctBody_of_counter h0 h1 hok hv h8 hw))

end Sys2Proof.Machine
end

section
/-! One-shot device operations of a core (R105, R107–R113, R118). -/
namespace Sys2Proof.Machine

variable {o : AnOp} {p : Plain} {c w w1 w2 w3 : Ctx} {s s0 s1 s2 s3 s4 s5 s6 : State} {v n : Nat} {ks : List Chunk} {dst : Opd}
  {d : List Byte}

theorem publish_ok {lcn ctx : Nat} (h : publish lcn ctx s = (s1, .ok ())) {α : Type} (f : State → Unit → Res1 α) :
    andThen (publish lcn ctx s) f = f s1 () := by
  rw [h, andThen_ok]

theorem numBody_of_operands {t : Ty} {mk : Nat → List Byte → DevOp} (hpl : c.psw.pl ≠ .u)
    (h0 : specOk t false false (p.sp 0) = true) (h1 : memSpec (p.sp 1) = true) (h2 : specOk .i64 true false (p.sp 2) = true)
    (hv : rdVal o t (p.sp 0) s1 c = (s2, .ok (v, w1))) (hm : memVal o n .read (p.sp 1) s2 w1 = (s3, .ok (ks, w2)))
    (hdst : wrVal o (p.sp 2) s3 w2 = (s4, .ok (dst, w3))) (hpub : publish o.lcn o.ctx s4 = (s5, .ok ()))
    (hd : loadChunks o.lcn o.ctx ks (oneShot o.lcn o.ctx s5) = (s6, .ok d)) :
    let a := devPerform (devReq o s6 c) (mk v d) s6
    let x := writeOp o.lcn o.ctx dst (toBytes 8 a.num) (a.st, w3)
    numBody o t n mk p s1 c = devEnd p a.code x.1 x.2 := by
  rw [numBody, if_neg (not_or.2 ⟨Classical.not_not.2 h0, not_or.2 ⟨Classical.not_not.2 h1, Classical.not_not.2 h2⟩⟩), atS_of_privileged hpl, hv, andThen_ok]
  dsimp only
  rw [hm, andThen_ok]
  dsimp only
  rw [hdst, andThen_ok, publish_ok hpub, hd, andThen_ok]

theorem ctestBody_of_operands (hpl : c.psw.pl ≠ .u) (h0 : specOk .i16 false false (p.sp 0) = true) (h1 : memSpec (p.sp 1) = true)
    (hv : rdVal o .i16 (p.sp 0) s1 c = (s2, .ok (v, w1))) (hm : memVal o 32 .write (p.sp 1) s2 w1 = (s3, .ok (ks, w2))) :
    let u := oneShot o.lcn o.ctx s3
    let a := devPerform (devReq o u c) (.test v) u
    ctestBody o p s1 c = devEnd p a.code (if a.code = 3 then a.st else storeChunks o.lcn o.ctx ks a.out a.st) w2 := by
  rw [ctestBody, if_neg (not_or.2 ⟨Classical.not_not.2 h0, Classical.not_not.2 h1⟩), atS_of_privileged hpl, hv, andThen_ok]
  dsimp only
  rw [hm, andThen_ok]

theorem haltBody_of_operand {mk : Nat → DevOp} (hpl : c.psw.pl ≠ .u) (h0 : specOk .i16 false false (p.sp 0) = true)
    (hv : rdVal o .i16 (p.sp 0) s1 c = (s2, .ok (v, w1))) :
    let u := oneShot o.lcn o.ctx s2
    let a := devPerform (devReq o u c) (mk v) u
    haltBody o mk p s1 c = devEnd p a.code a.st w1 := by
  rw [haltBody, if_neg (Classical.not_not.2 h0), atS_of_privileged hpl, hv, andThen_ok]

theorem cmdBody_of_operands {w0 : Ctx} (h0 : memSpec (p.sp 0) = true) (h1 : specOk .i8 false false (p.sp 1) = true)
    (hm : memVal o 64 .read (p.sp 0) s1 c = (s0, .ok (ks, w0))) (hv : rdVal o .i8 (p.sp 1) s0 w0 = (s2, .ok (v, w1)))
    (hpub : publish o.lcn o.ctx s2 = (s3, .ok ())) (hd : loadChunks o.lcn o.ctx ks (oneShot o.lcn o.ctx s3) = (s4, .ok d)) :
    let a := devPerform (devReq o s4 c) (.cmd v d) s4
    cmdBody o p s1 c = devEnd p a.code a.st w1 := by
  rw [cmdBody, if_neg (not_or.2 ⟨Classical.not_not.2 h0, Classical.not_not.2 h1⟩), hm, andThen_ok]
  dsimp only
  rw [hv, andThen_ok, publish_ok hpub]
  dsimp only
  rw [hd, andThen_ok]

/-- Settles O30: each instruction by what its operands give and its unit answers. -/
theorem oneShots : Obligations.OneShots := by
  intro o p s s1 s2 v w1 c ended perform
  refine ⟨?_, fun s3 ks w2 hd hst hpl h0 h1 hv hm => ⟨fun h3 => ?_, fun h3 => ?_⟩, fun hd hst hpl h0 hv => ⟨?_, ?_⟩,
    fun s0 ks w0 s3 s4 d hd hst h0 h1 hm hv hpub hx => ?_⟩
  · simp only [List.forall_mem_cons, List.not_mem_nil, false_implies, implies_true, and_true]
    constructor
    · intro s3 ks w2 s4 dst w3 s5 s6 d hd hst hpl h0 h1 h2 hv hm hdst hpub hx
      exact exec_of_live (f := runCstart o) rfl hst.1
        (runPlain_done hd hst (numBody_of_operands hpl h0 h1 h2 hv hm hdst hpub hx))
    · intro s3 ks w2 s4 dst w3 s5 s6 d hd hst hpl h0 h1 h2 hv hm hdst hpub hx
      exact exec_of_live (f := runLappend o) rfl hst.1
        (runPlain_done hd hst (numBody_of_operands hpl h0 h1 h2 hv hm hdst hpub hx))
  · have hbody := ctestBody_of_operands hpl h0 h1 hv hm
    dsimp only at hbody
    rw [if_pos h3, h3] at hbody
    exact exec_of_live (f := runCtest o) rfl hst.1 (runPlain_done hd hst hbody)
  · have hbody := ctestBody_of_operands hpl h0 h1 hv hm
    dsimp only at hbody
    rw [if_neg h3] at hbody
    exact exec_of_live (f := runCtest o) rfl hst.1 (runPlain_done hd hst hbody)
  · exact exec_of_live (f := runChalt o) rfl hst.1 (runPlain_done hd hst (haltBody_of_operand hpl h0 hv))
  · exact exec_of_live (f := runCclear o) rfl hst.1 (runPlain_done hd hst (haltBody_of_operand hpl h0 hv))
  · exact exec_of_live (f := runCmd o) rfl hst.1 (runPlain_done hd hst (cmdBody_of_operands h0 h1 hm hv hpub hx))

end Sys2Proof.Machine
end

section
/-! A5-series instructions (R126–R134): what the checks of their form come to, and the computation each row is. -/
namespace Sys2Proof.Machine

variable {o : A5Op} {s s1 s2 t : State} {c w : Ctx} {r q : A5Reg} {f k n ea : Nat} {x y : List Byte} {ok : A5Reg → Bool}

/-! ### Immediates and addresses as bit vectors -/

theorem toS_eq_toInt {v : Nat} (hv : 0 < v) (m : Nat) : toS v m = (BitVec.ofNat v m).toInt := by
  rw [← toS_toNat hv, BitVec.toNat_ofNat, toS, toS, Nat.mod_mod]

theorem ofS_toInt {v n : Nat} (x : BitVec v) : ofS n x.toInt = (BitVec.signExtend n x).toNat := ofS_eq n _

theorem ofS_imm (n f : Nat) : ofS n (a5Imm f) = (BitVec.signExtend n (BitVec.ofNat 16 f)).toNat := by
  rw [a5Imm, toS_eq_toInt (by decide), ofS_toInt]

/-- A displacement added to an address (R129, R133). -/
theorem ofS_add_imm (k f : Nat) :
    ofS 32 ((k : Int) + a5Imm f) = (BitVec.ofNat 32 k + BitVec.signExtend 32 (BitVec.ofNat 16 f)).toNat := by
  rw [ofS_eq, BitVec.ofInt_add, BitVec.ofInt_natCast, a5Imm, toS_eq_toInt (by decide)]
  rfl

/-! ### Registers -/

theorem a5Get_lt (c : Ctx) (r : A5Reg) : a5Get c r < 2 ^ r.bits := by
  cases r
  · exact (tget 0 c.a5a _).isLt
  · exact (tget 0 c.a5d _).isLt
  · exact (tget 0 c.a5ac _).isLt

theorem pow_bytes (r : A5Reg) : 256 ^ r.bytes = 2 ^ r.bits := by
  cases r <;> rfl

theorem ofBytes_reg (c : Ctx) (r : A5Reg) : ofBytes (toBytes r.bytes (a5Get c r)) = a5Get c r := by
  rw [ofBytes_toBytes, pow_bytes, Nat.mod_eq_of_lt (a5Get_lt c r)]

/-- A register takes a value's low bits. -/
theorem a5Set_toBytes (r : A5Reg) (v : Nat) (c : Ctx) : a5Set r (ofBytes (toBytes r.bytes v)) c = a5Set r v c := by
  have hmod (n m : Nat) : BitVec.ofNat n (m % 2 ^ n) = BitVec.ofNat n m := BitVec.eq_of_toNat_eq (by simp)
  rw [ofBytes_toBytes, pow_bytes]
  cases r with
  | a n => exact congrArg (fun z => { c with a5a := tset 0 c.a5a n z }) (hmod 32 v)
  | d n => exact congrArg (fun z => { c with a5d := tset 0 c.a5d n z }) (hmod 64 v)
  | ac n => exact congrArg (fun z => { c with a5ac := tset 0 c.a5ac n z }) (hmod 128 v)

theorem a5Ty_bytes (r : A5Reg) : (a5Ty r).bytes = r.bytes := by cases r <;> rfl

theorem a5Ty_isInt (r : A5Reg) : (a5Ty r).isInt = true := by cases r <;> rfl

/-! The class of a register is told by the type of its values. -/

theorem isA_eq_ty (r : A5Reg) : r.isA = (a5Ty r == .i32) := by cases r <;> rfl

theorem isD_eq_ty (r : A5Reg) : r.isD = (a5Ty r == .i64) := by cases r <;> rfl

theorem isAc_eq_ty (r : A5Reg) : r.isAc = (a5Ty r == .i128) := by cases r <;> rfl

theorem isD_of_ty (h : a5Ty r = a5Ty q) : r.isD = q.isD := by
  rw [isD_eq_ty, isD_eq_ty, h]

theorem isAc_of_ty (h : a5Ty r = a5Ty q) : r.isAc = q.isAc := by
  rw [isAc_eq_ty, isAc_eq_ty, h]

theorem notD_of_ty (h : a5Ty r = a5Ty q) : notD r = notD q := congrArg not (isD_of_ty h)

theorem sameClass_of_ty (h : a5Ty r = a5Ty q) : sameClass r q = true := by
  simp [sameClass, isA_eq_ty, isD_eq_ty, h]

/-! ### The checks of a form -/

theorem unused_of_zero {zero : Bool} (h : zero = true) (b : Res1 Ctx) : unused s zero b = b := if_pos h

theorem a5Want_of_class {m : Nat} (hm : a5Reg m = some r) (hok : ok r = true) : a5Want m ok = .ok r := by
  simp only [a5Want, hm, hok, if_true]

theorem a5Want_of_other {m : Nat} (hm : a5Reg m = some r) (hok : ok r = false) : a5Want m ok = .error a5Class := by
  simp only [a5Want, hm, hok, Bool.false_eq_true, if_false]

theorem a5Addr_of_reg {m : Nat} (hm : a5Reg m = some (.a n)) :
    a5Addr c m f = .ok (BitVec.ofNat 32 (a5Get c (.a n)) + BitVec.signExtend 32 (BitVec.ofNat 16 f)).toNat := by
  simp only [a5Addr, hm, ofS_add_imm]

theorem a5Va_of_le (h : ea ≤ c.clim.toNat) : a5Va c ea = .ok ((c.cbase.toNat + ea) % 2 ^ 64) := if_neg (Nat.not_lt.2 h)

theorem a5Va_of_gt (h : c.clim.toNat < ea) : a5Va c ea = .error (xf 0x0A ((c.cbase.toNat + ea) % 2 ^ 64)) := if_pos h

/-! ### Loads and stores -/

theorem a5Load1_of_read (h : ea ≤ c.clim.toNat) (hr : readVa o.lcn o.ctx c ((c.cbase.toNat + ea) % 2 ^ 64) n s1 = (s2, .ok x)) :
    a5Load1 o ea n c s1 = (s2, .ok (ofBytes x)) := by
  simp only [a5Load1, a5Va_of_le h, hr, andThen_ok]

theorem a5Store1_of_resolved {v : Nat} {ks : List Chunk} (h : ea ≤ c.clim.toNat)
    (hr : resolve s1 o.lcn c ((c.cbase.toNat + ea) % 2 ^ 64) n .write = (s2, .ok ks)) :
    a5Store1 o ea n v c s1 = (storeChunks o.lcn o.ctx ks (toBytes n v) s2, .ok ()) := by
  simp only [a5Store1, a5Va_of_le h, hr, andThen_ok]

section Access

variable {bytes : A5Reg → Nat} {addr : Ctx → Except Xf Nat} {zero : Bool}
variable (hz : zero = true) (hr : a5Reg o.ra = some r) (hok : ok r = true) (ha : addr c = .ok ea)
include hz hr hok ha

theorem a5LdBody_of_read (h : ea ≤ c.clim.toNat)
    (hx : readVa o.lcn o.ctx c ((c.cbase.toNat + ea) % 2 ^ 64) (bytes r) s1 = (s2, .ok x)) :
    a5LdBody o ok bytes addr zero s1 c = (s2, .ok (a5Next (a5Set r (ofBytes x) c))) := by
  simp only [a5LdBody, unused_of_zero hz, a5Want_of_class hr hok, chk, ha, a5Load1_of_read h hx, andThen_ok]

theorem a5StBody_of_resolved {ks : List Chunk} (h : ea ≤ c.clim.toNat)
    (hx : resolve s1 o.lcn c ((c.cbase.toNat + ea) % 2 ^ 64) (bytes r) .write = (s2, .ok ks)) :
    a5StBody o ok bytes addr zero s1 c = (storeChunks o.lcn o.ctx ks (toBytes (bytes r) (a5Get c r)) s2, .ok (a5Next c)) := by
  simp only [a5StBody, unused_of_zero hz, a5Want_of_class hr hok, chk, ha, a5Store1_of_resolved h hx, andThen_ok]

end Access

/-! ### Moves -/

/-- A move takes the register's value; from D to AC it extends the sign (R129). -/
theorem a5MovVal_eq (hac : ¬ (r.isA = true ∧ q.isAc = true)) (hca : ¬ (r.isAc = true ∧ q.isA = true)) :
    a5MovVal r q n = .ok (if r.isAc = true ∧ q.isD = true then (BitVec.signExtend 128 (BitVec.ofNat 64 n)).toNat else n) := by
  have hext : ofS 128 (toS 64 n) = (BitVec.signExtend 128 (BitVec.ofNat 64 n)).toNat := by
    rw [toS_eq_toInt (by decide), ofS_toInt]
  rw [← hext]
  cases r <;> cases q
  case a.ac => exact absurd ⟨rfl, rfl⟩ hac
  case ac.a => exact absurd ⟨rfl, rfl⟩ hca
  all_goals rfl

/-! ### Computations (R134) -/

/-- How an A5 instruction ends that computes for register `r`. -/
def a5Ends (r : A5Reg) (z : Except Xf Val) (c : Ctx) (s : State) : Res1 Ctx :=
  match z with
  | .ok v => (s, .ok (a5Next { a5Set r (ofBytes v.bytes) c with a5cc := v.cc }))
  | .error e => (s, .error e)

theorem aluInt_error_eq {a : Alu} {v p i j : Nat} {e : Xf} (h : aluInt a v p i j = .error e) : e = xf 0x11 0 := by
  cases a
  case div | divu | rem | remu =>
    simp only [aluInt] at h
    split at h
    · exact (Except.error.inj h).symm
    · cases h
  all_goals cases h

theorem aluPd_error_eq {a : Alu} {p : Nat} {i j : Int} {e : Xf} (h : aluPd a p i j = .error e) : e = xf 0x11 0 := by
  cases a
  case div | divu | rem | remu =>
    simp only [aluPd] at h
    split at h
    · exact (Except.error.inj h).symm
    · cases h
  all_goals cases h

/-- No computation on integers or decimals ends in a stall. -/
theorem compute_error_ne_stall {a : Alu} {ty : Ty} {psw : Psw} {p dx dy dd : Nat} {e : Xf} (ht : ty.isInt = true ∨ ty = .pd)
    (h : compute a ty psw p dx dy dd x y = .error e) : e.code ≠ stallX.code := by
  have hx (m : Nat) (hm : m ≠ 0x100) {g : Xf} (hg : g = xf m 0) : g.code ≠ stallX.code := hg ▸ xf_ne_stall hm 0
  obtain ht | rfl := ht
  · simp only [compute, ht, if_true] at h
    split at h
    case h_1 g hg =>
      cases h
      exact hx 0x11 (by decide) (aluInt_error_eq hg)
    case h_2 z hz =>
      unfold ivCheck at h
      split at h
      case h_1 g hg =>
        split at hg
        · cases h
          exact hx 0x12 (by decide) (Except.error.inj hg).symm
        · cases hg
      case h_2 => cases h
  · simp only [compute, Ty.isInt, Ty.isFp, Bool.false_eq_true, if_false, if_true] at h
    split at h
    · split at h
      case h_1 g hg =>
        cases h
        exact hx 0x11 (by decide) (aluPd_error_eq hg)
      case h_2 z hz =>
        split at h
        · exact hx 0x14 (by decide) (Except.error.inj h).symm
        · cases h
    · exact hx 0x13 (by decide) (Except.error.inj h).symm

/-- A body that ends with a computation ends the instruction with its value, or with the exception it raises. -/
theorem a5Ends_exec {i : A5Op → Instr} {body : Body} {z : Except Xf Val} (hi : ∀ s, exec (i o) s = act (runA5 o false body) s)
    (hst : A5Starts o s s1) (hb : body s1 (ctxOf s o.lcn o.ctx) = a5Ends r z (ctxOf s o.lcn o.ctx) s1)
    (he : ∀ e, z = .error e → e.code ≠ stallX.code) :
    (∀ v, z = .ok v → exec (i o) s = .next (insnDone o.lcn o.ctx s
      (a5Next { a5Set r (ofBytes v.bytes) (ctxOf s o.lcn o.ctx) with a5cc := v.cc }) s1)) ∧
    (∀ e, z = .error e → exec (i o) s = .next (insnFault o.lcn o.ctx s e s1)) := by
  rw [hi, act, if_pos hst.1]
  refine ⟨fun v hv => congrArg _ (runA5_done hst ?_), fun e hz => congrArg _ (runA5_fault hst ?_ (he e hz))⟩
  · rw [hb, hv]
    rfl
  · rw [hb, hz]
    rfl

/-- The computation on integers that the bodies write out. -/
theorem a5Int_ends {a : Alu} {ty : Ty} (ht : ty.isInt = true) (hbytes : ty.bytes = r.bytes) {z : Except Xf Res}
    (hz : z = aluInt a r.bits 0 (ofBytes x) (ofBytes y)) :
    chk s1 z (fun v => chk s1 (ivCheck c.psw v.cc) (fun _ => (s1, .ok (a5Put r v c)))) =
      a5Ends r (compute a ty c.psw 0 0 0 0 x y) c s1 := by
  rw [hz]
  simp only [compute, ht, if_true, hbytes, A5Reg.bits]
  cases aluInt a (8 * r.bytes) 0 (ofBytes x) (ofBytes y) with
  | error e => rfl
  | ok v =>
    simp only [chk]
    cases ivCheck c.psw v.cc with
    | error e => rfl
    | ok _ => simp only [a5Ends, a5Set_toBytes, a5Put]

theorem a5Op2_ends {a : Alu} {g : Nat → Nat → Nat → Except Xf Res} {ty : Ty} (hr : a5Reg o.ra = some r) (hq : a5Reg o.rb = some q)
    (hf : o.f = 0) (hrq : a5Ty r = a5Ty q) (hok : ok r = true) (hokq : ok q = true) (ht : ty.isInt = true) (hbytes : ty.bytes = r.bytes)
    (hg : g r.bits (a5Get c r) (a5Get c q) = aluInt a r.bits 0 (ofBytes x) (ofBytes y)) :
    a5Op2 o ok g s1 c = a5Ends r (compute a ty c.psw 0 0 0 0 x y) c s1 := by
  have hwant : a5Want o.rb (fun q => ok q && sameClass r q) = .ok q := a5Want_of_class hq (by rw [hokq, sameClass_of_ty hrq]; rfl)
  rw [a5Op2, unused_of_zero (by rw [hf]; rfl), a5Want_of_class hr hok, chk, hwant, chk, a5Int_ends ht hbytes hg]

/-- Each row's command runs its computation on registers of the row's classes. -/
theorem exec_a5AluRows (o : A5Op) : ∀ i ∈ a5AluRows, ∃ g : Nat → Nat → Nat → Except Xf Res,
    (∀ s, exec (i.1 o) s = act (runA5 o false (a5Op2 o i.2.2 g)) s) ∧ (∀ v m n, g v m n = aluInt i.2.1 v 0 m n) ∧
    (∀ r q, a5Ty r = a5Ty q → i.2.2 r = i.2.2 q) := by
  have hnot (r q : A5Reg) (h : a5Ty r = a5Ty q) : notD r = notD q := notD_of_ty h
  have hac (r q : A5Reg) (h : a5Ty r = a5Ty q) : r.isAc = q.isAc := isAc_of_ty h
  have hd (r q : A5Reg) (h : a5Ty r = a5Ty q) : r.isD = q.isD := isD_of_ty h
  simp only [a5AluRows, List.forall_mem_cons, List.not_mem_nil, false_implies, implies_true, and_true]
  exact ⟨⟨_, fun _ => rfl, fun _ _ _ => rfl, hnot⟩, ⟨_, fun _ => rfl, fun _ _ _ => rfl, hnot⟩, ⟨_, fun _ => rfl, fun _ _ _ => rfl, hac⟩,
    ⟨_, fun _ => rfl, fun _ _ _ => rfl, hac⟩, ⟨_, fun _ => rfl, fun _ _ _ => rfl, hac⟩, ⟨_, fun _ => rfl, fun _ _ _ => rfl, hd⟩,
    ⟨_, fun _ => rfl, fun _ _ _ => rfl, hd⟩, ⟨_, fun _ => rfl, fun _ _ _ => rfl, hd⟩⟩

theorem exec_a5DecRows (o : A5Op) (s : State) : ∀ i ∈ a5DecRows, exec (i.1 o) s = act (runA5 o false (a5DecBody o i.2)) s := by
  simp only [a5DecRows, List.forall_mem_cons, List.not_mem_nil, false_implies, implies_true, and_true]
  repeat' constructor

/-- Decimals on accumulators (R98, R134). -/
theorem a5DecBody_ends {a : Alu} (hr : a5Reg o.ra = some r) (hq : a5Reg o.rb = some q) (hf : o.f = 0) (hrac : r.isAc = true)
    (hqac : q.isAc = true) :
    a5DecBody o a s1 c = a5Ends r (compute a .pd c.psw 0 31 31 31 (toBytes 16 (a5Get c r)) (toBytes 16 (a5Get c q))) c s1 := by
  rw [a5DecBody, unused_of_zero (by rw [hf]; rfl), a5Want_of_class hr hrac, chk, a5Want_of_class hq hqac, chk]
  simp only [compute, Ty.isInt, Ty.isFp, Bool.false_eq_true, if_false, if_true, a5Dec]
  cases pdVal 31 (toBytes 16 (a5Get c r)) <;> cases pdVal 31 (toBytes 16 (a5Get c q))
  case some.some i j =>
    dsimp only
    cases aluPd a 0 i j with
    | error e => rfl
    | ok z =>
      dsimp only
      by_cases hover : pdOver 31 z = true ∧ c.psw.dv = true
      · rw [if_pos hover, if_pos hover]
        rfl
      · rw [if_neg hover, if_neg hover]
        rfl
  all_goals rfl

theorem exec_a5ShiftRows (o : A5Op) : ∀ i ∈ a5ShiftRows, ∃ g : Nat → Nat → Nat → Res,
    (∀ s, exec (i.1 o) s = act (runA5 o false (a5Shift o g)) s) ∧
    (∀ m n, aluInt i.2 64 0 m n = .ok (g 64 m n) ∧ (g 64 m n).cc.v = false) := by
  simp only [a5ShiftRows, List.forall_mem_cons, List.not_mem_nil, false_implies, implies_true, and_true]
  exact ⟨⟨_, fun _ => rfl, fun _ _ => ⟨rfl, rfl⟩⟩, ⟨_, fun _ => rfl, fun _ _ => ⟨rfl, rfl⟩⟩, ⟨_, fun _ => rfl, fun _ _ => ⟨rfl, rfl⟩⟩,
    ⟨_, fun _ => rfl, fun _ _ => ⟨rfl, rfl⟩⟩⟩

/-- A shift never overflows, so its result stands. -/
theorem a5Shift_ends {a : Alu} {g : Nat → Nat → Nat → Res} (hr : a5Reg o.ra = some r) (hb : o.rb = 0) (hd : r.isD = true)
    (hf : o.f < 64) (hg : ∀ m n, aluInt a 64 0 m n = .ok (g 64 m n) ∧ (g 64 m n).cc.v = false) :
    a5Shift o g s1 c = a5Ends r (compute a .i64 c.psw 0 0 0 0 (toBytes r.bytes (a5Get c r)) (toBytes 8 o.f)) c s1 := by
  obtain ⟨m, rfl⟩ : ∃ m, r = .d m := by
    cases r
    case d m => exact ⟨m, rfl⟩
    all_goals cases hd
  have hcount : ofBytes (toBytes 8 o.f) = o.f := by
    rw [ofBytes_toBytes, Nat.mod_eq_of_lt (Nat.lt_trans hf (by decide))]
  have hval : g 64 (a5Get c (.d m)) o.f = g 64 (ofBytes (toBytes (A5Reg.d m).bytes (a5Get c (.d m)))) (ofBytes (toBytes 8 o.f)) := by
    rw [ofBytes_reg, hcount]
  have hok : ivCheck c.psw (g 64 (a5Get c (.d m)) o.f).cc = .ok () := by
    rw [ivCheck, (hg _ _).2, if_neg (fun h => Bool.false_ne_true h.1)]
  have hends := a5Int_ends (s1 := s1) (c := c) (a := a) (ty := .i64) (r := .d m) rfl rfl
    ((congrArg Except.ok hval).trans (hg _ _).1.symm)
  rw [← hends, a5Shift, unused_of_zero (by rw [hb, decide_eq_true hf]; rfl), a5Want_of_class hr hd]
  simp only [chk, hok]

end Sys2Proof.Machine
end

section
/-! What A5 instructions do (R126–R134): the values, and TRAP's exception. -/
namespace Sys2Proof.Machine

variable {o : A5Op} {s s1 s2 t : State} {c w : Ctx} {r q : A5Reg} {x : List Byte} {n : Nat}

theorem anyReg_ok (r : A5Reg) : anyReg r = true := rfl

/-- An A5 instruction whose body completes. -/
theorem exec_a5_done {i : A5Op → Instr} {body : Body} (hi : ∀ s, exec (i o) s = act (runA5 o false body) s) (hst : A5Starts o s s1)
    (hb : body s1 (ctxOf s o.lcn o.ctx) = (t, .ok w)) : exec (i o) s = .next (insnDone o.lcn o.ctx s w t) := by
  rw [hi, act, if_pos hst.1]
  exact congrArg _ (runA5_done hst hb)

/-- Settles O31: loads, stores and moves by the address and value of their form; computations by their row. -/
theorem a5Values : Obligations.A5Values := by
  refine ⟨?_, ?_⟩
  · intro o s s1 c hst ended word
    refine ⟨fun ⟨hra, hrb, hf⟩ => ?_, ?_⟩
    · exact exec_a5_done (i := .a5Nop) (fun _ => rfl) hst (unused_of_zero (by rw [hra, hrb, hf]; rfl) _)
    intro r s2 x k hr n short
    refine ⟨fun hb hk hn => ⟨fun hx => ?_, fun hd hx => ?_, fun ks hx => ?_, fun ks hd hx => ?_, fun ha => ?_⟩,
      fun hb hle => ⟨fun hx => ?_, fun ks hx => ?_⟩, fun hb => ?_, fun hb hac => ?_, fun q hf hq hacq hcaq => ?_⟩
    · subst hk
      exact exec_a5_done (i := .a5Ld) (fun _ => rfl) hst (a5LdBody_of_read rfl hr (anyReg_ok r) (a5Addr_of_reg hb) hn hx)
    · subst hk
      exact exec_a5_done (i := .a5Ldb) (fun _ => rfl) hst (a5LdBody_of_read rfl hr hd (a5Addr_of_reg hb) hn hx)
    · subst hk
      exact exec_a5_done (i := .a5St) (fun _ => rfl) hst (a5StBody_of_resolved rfl hr (anyReg_ok r) (a5Addr_of_reg hb) hn hx)
    · subst hk
      exact exec_a5_done (i := .a5Stb) (fun _ => rfl) hst (a5StBody_of_resolved rfl hr hd (a5Addr_of_reg hb) hn hx)
    · subst hk
      exact exec_a5_done (i := .a5Lea) (fun _ => rfl) hst (by rw [a5Want_of_class hr ha, chk, a5Addr_of_reg hb, chk])
    · exact exec_a5_done (i := .a5Lds) (fun _ => rfl) hst (a5LdBody_of_read (by rw [hb]; rfl) hr (anyReg_ok r) rfl hle hx)
    · exact exec_a5_done (i := .a5Sts) (fun _ => rfl) hst (a5StBody_of_resolved (by rw [hb]; rfl) hr (anyReg_ok r) rfl hle hx)
    · exact exec_a5_done (i := .a5Ldi) (fun _ => rfl) hst
        (by rw [unused_of_zero (by rw [hb]; rfl), a5Want_of_class hr (anyReg_ok r), chk, ofS_imm])
    · have hw : a5Want o.ra (fun r => !r.isAc) = .ok r := a5Want_of_class hr (by rw [hac]; rfl)
      exact exec_a5_done (i := .a5Lui) (fun _ => rfl) hst
        (by rw [unused_of_zero (by rw [hb]; rfl), hw, chk, toS_eq_toInt (by decide), ofS_toInt])
    · exact exec_a5_done (i := .a5Mov) (fun _ => rfl) hst
        (by rw [unused_of_zero (by rw [hf]; rfl), a5Want_of_class hr (anyReg_ok r), chk, a5Want_of_class hq (anyReg_ok q), chk,
          a5MovVal_eq hacq hcaq, chk])
  · intro o s s1 c hst ends reg
    have hint (t : Ty) (ht : t.isInt = true) : t.isInt = true ∨ t = .pd := Or.inl ht
    refine ⟨fun r q hr hq hf hrq => ⟨fun i hi hok => ?_, fun hd => ?_, fun i hi hac => ?_⟩, fun r hr hb hd hf i hi => ?_,
      fun r hr hb hd => ?_⟩
    · obtain ⟨g, hexec, hg, hclass⟩ := exec_a5AluRows o i hi
      refine a5Ends_exec hexec hst (a5Op2_ends hr hq hf hrq hok (hclass r q hrq ▸ hok) (a5Ty_isInt r) (a5Ty_bytes r) ?_)
        (fun e => compute_error_ne_stall (hint _ (a5Ty_isInt r)))
      rw [hg, ofBytes_reg, ofBytes_reg]
    · have hqd : q.isD = true := isD_of_ty hrq ▸ hd
      refine a5Ends_exec (i := .a5Not) (fun _ => rfl) hst (a5Op2_ends hr hq hf hrq hd hqd rfl ?_ ?_) (fun e => compute_error_ne_stall (hint _ rfl))
      · cases r
        case d => rfl
        all_goals cases hd
      · rw [ofBytes_reg]
        rfl
    · have hqac : q.isAc = true := isAc_of_ty hrq ▸ hac
      obtain ⟨m, rfl⟩ : ∃ m, r = .ac m := by
        cases r
        case ac m => exact ⟨m, rfl⟩
        all_goals cases hac
      obtain ⟨m', rfl⟩ : ∃ m', q = .ac m' := by
        cases q
        case ac m' => exact ⟨m', rfl⟩
        all_goals cases hqac
      exact a5Ends_exec (fun s => exec_a5DecRows o s i hi) hst (a5DecBody_ends hr hq hf hac hqac)
        (fun e => compute_error_ne_stall (Or.inr rfl))
    · obtain ⟨g, hexec, hg⟩ := exec_a5ShiftRows o i hi
      exact a5Ends_exec hexec hst (a5Shift_ends hr hb hd hf hg) (fun e => compute_error_ne_stall (hint _ rfl))
    · refine a5Ends_exec (i := .a5Addi) (fun _ => rfl) hst ?_ (fun e => compute_error_ne_stall (hint _ (a5Ty_isInt r)))
      have hnd : notD r = true := by rw [notD, hd]; rfl
      have himm : ofBytes (toBytes r.bytes (BitVec.signExtend r.bits (BitVec.ofNat 16 o.f)).toNat) = ofS r.bits (a5Imm o.f) := by
        rw [ofBytes_toBytes, pow_bytes, Nat.mod_eq_of_lt (BitVec.isLt _), ofS_imm]
      rw [unused_of_zero (by rw [hb]; rfl), a5Want_of_class hr hnd, chk]
      refine a5Int_ends (z := .ok (addR r.bits (a5Get c r) (ofS r.bits (a5Imm o.f)))) (a5Ty_isInt r) (a5Ty_bytes r) ?_
      rw [himm, ofBytes_reg]
      rfl

/-! ### TRAP -/

/-- A context in A5 mode about to run TRAP, one sector of a run written. -/
def trapCtx : Ctx :=
  { Ctx.reset with pc := 0x10100, cbase := 0x10000, clim := 0xFFFFFF, psw := { Ctx.reset.psw with pl := .h, a5 := true }, sdRun := 1 }

/-- It runs on LCN 0 of a SPLIT package with DRAM on channel 0. -/
def trapState : State :=
  { State.reset with
    pkg := { Pkg.reset with mode := .split, hstate := ⟨.running, .running⟩ }
    mem := ⟨{ Mem.reset with fixed := true, map := [0], kshift := 36 }, { Mem.reset with fixed := true, map := [0], kshift := 36 }⟩
    dies := [(0, { Die.reset with ready := true, coreReady := [0] })]
    ctxs := [(0, trapCtx)] }

def trapOp : A5Op := { lcn := 0, ctx := 0, ra := 0, rb := 0, f := 0 }

/-- The state once the instruction's word is fetched. -/
def trapFetched : State := (a5Fetch trapState 0 (ctxOf trapState 0 0)).1

/-- Complete sectors of the run the streaming detector of LCN 0 context 0 follows (R201). -/
def detectorRun : Out → Option Nat
  | .next t => some (ctxOf t 0 0).sdRun
  | _ => none

theorem eq_ok_of_isOk {ε : Type} {x : Except ε Unit} (h : x.isOk = true) : x = .ok () := by
  cases x with
  | ok u => rfl
  | error e => cases h

theorem trap_starts : A5Starts trapOp trapState trapFetched := by
  have hfetch : (a5Fetch trapState 0 (ctxOf trapState 0 0)).2 = .ok () := eq_ok_of_isOk (by decide +kernel)
  exact ⟨by decide +kernel, by decide +kernel, by decide +kernel, Prod.ext rfl hfetch⟩

/-- TRAP disarms the streaming detector (R201), as an exception entry of any other instruction does. -/
theorem trap_disarms : detectorRun (exec (.a5Trap trapOp) trapState) = some 0 := by decide +kernel

/-- Refutes O32: the TRAP clause leaves the streaming detector as it was, and TRAP disarms it. -/
theorem not_a5Control : ¬ Obligations.A5Control := by
  rintro ⟨hvalues, -⟩
  obtain ⟨-, -, -, -, -, -, htrap⟩ := hvalues trapOp trapState trapFetched trap_starts
  have hrun := congrArg detectorRun (htrap rfl rfl)
  rw [trap_disarms] at hrun
  revert hrun
  decide +kernel

end Sys2Proof.Machine
end

section
/-! Asynchronous events of a context, errors and retry of a core (R120, R123, R125, R136, R142–R148, R160). -/
namespace Sys2Proof.Machine

variable {s : State} {l c v core : Nat} {e : CoreErr}

/-! ### Events between instructions -/

section Event

variable (h : atBoundary (finishPieces l c s) l c = true)
include h

/-- An event that is due is taken behind the group in flight. -/
theorem takeEvent_due {x : Xf} {due : State → Ctx → Bool} {got : State → State}
    (hdue : due (finishPieces l c s) (ctxOf (finishPieces l c s) l c) = true) :
    takeEvent l c x due got s =
      takeX l c x (ctxOf (finishPieces l c s) l c).pc (got (retireGroup l c (finishPieces l c s))) := if_pos ⟨h, hdue⟩

variable (hm : (ctxOf (finishPieces l c s) l c).mcheck = none)
include hm

theorem runClockLoss_due (hc : (ctxOf (finishPieces l c s) l c).clockLoss = true) :
    runClockLoss l c s = takeX l c ⟨0x02, 0, 0, 0, true, 0, 0⟩ (ctxOf (finishPieces l c s) l c).pc
      (updCtx l c (fun y => { y with clockLoss := false }) (retireGroup l c (finishPieces l c s))) :=
  takeEvent_due h (by rw [hc, hm]; rfl)

variable (hc : (ctxOf (finishPieces l c s) l c).clockLoss = false)
include hc

theorem runModeChange_due (hmode : (ctxOf (finishPieces l c s) l c).modeChange = true)
    (hie : (ctxOf (finishPieces l c s) l c).psw.ie = true) :
    runModeChange l c s = takeX l c ⟨0x03, 0, 0, 0, true, 0, 0⟩ (ctxOf (finishPieces l c s) l c).pc
      (updCtx l c (fun y => { y with modeChange := false }) (retireGroup l c (finishPieces l c s))) :=
  takeEvent_due h (by rw [modeChangeDue, hmode, hie, hc, hm]; rfl)

theorem runDebugX_due (hd : (ctxOf (finishPieces l c s) l c).debugDue = true)
    (hno : (ctxOf (finishPieces l c s) l c).modeChange = false ∨ (ctxOf (finishPieces l c s) l c).psw.ie = false) :
    runDebugX l c s = takeX l c ⟨0x04, 0, 0, 0, false, 0, 0⟩ (ctxOf (finishPieces l c s) l c).pc
      (updCtx l c (fun y => { y with debugDue := false }) (retireGroup l c (finishPieces l c s))) := by
  refine takeEvent_due h ?_
  have hmode : modeChangeDue (ctxOf (finishPieces l c s) l c) = false := Bool.and_eq_false_iff.2 hno
  rw [hd, hm, hc, hmode]
  rfl

theorem runExternal_due (hie : (ctxOf (finishPieces l c s) l c).psw.ie = true)
    (hmode : (ctxOf (finishPieces l c s) l c).modeChange = false) (hd : (ctxOf (finishPieces l c s) l c).debugDue = false)
    (hv : (lcnOf (finishPieces l c s) l).ext.contains v = true) :
    runExternal l c v s = takeX l c ⟨0x20, 0, v, 0, false, 0, 0⟩ (ctxOf (finishPieces l c s) l c).pc
      (updLcn l (fun y => { y with ext := setDel y.ext v }) (retireGroup l c (finishPieces l c s))) :=
  takeEvent_due h (by rw [hie, hv, hm, hc, hmode, hd]; rfl)

end Event

theorem takeEvent_not_due {x : Xf} {due : State → Ctx → Bool} {got : State → State}
    (hdue : due (finishPieces l c s) (ctxOf (finishPieces l c s) l c) = false) : takeEvent l c x due got s = s :=
  if_neg (fun h => Bool.false_ne_true (hdue ▸ h.2))

/-- What IE masks stays pending (R120). -/
theorem masked_stays (hie : (ctxOf (finishPieces l c s) l c).psw.ie = false) :
    runExternal l c v s = s ∧ runModeChange l c s = s :=
  ⟨takeEvent_not_due (by rw [hie]; rfl), takeEvent_not_due (by rw [modeChangeDue, hie, Bool.and_false]; rfl)⟩

theorem finishPieces_of_none (h : (ckOf s l c).rest = none) : finishPieces l c s = s := by
  simp only [finishPieces, h]

/-! ### Errors (R142–R148) -/

/-- The persistence of an error, as R147 states it. -/
theorem persistent_iff (k : Lcn) (e : CoreErr) :
    persistent k e = true ↔ e.arr ≠ .arith ∧ (errKey e ∈ k.errs ∨ errKey e ∈ k.rewritten) := by
  simp only [persistent, Bool.and_eq_true, bne_iff_ne, ne_eq, Bool.or_eq_true, List.contains_iff_mem]

theorem isL2_iff (a : CoreArr) : isL2 a = true ↔ a = .l2tag ∨ a = .l2data := by
  simp only [isL2, Bool.or_eq_true, beq_iff_eq]

theorem not_needsSpare {k : Lcn} (h : k.attempt < 3) : ¬ needsSpare k = true := by
  rw [needsSpare, decide_eq_true_iff]
  omega

section Error

variable (hk : (lcnOf s e.lcn).attempt < 3) (hcore : coreOf s e.lcn = some core) (hr : lcnRuns s e.lcn = true)
include hk hcore hr

/-- An eligible error: roll back, drop what R142 drops, and begin an attempt, delete the L2 line or await a spare. -/
theorem runCoreError_eq :
    let k := lcnOf s e.lcn
    let who := (k.rolled ++ rolledBy e).eraseDups
    runCoreError e s = updLcn e.lcn (fun y =>
      if e.arr ≠ .arith ∧ (errKey e ∈ k.errs ∨ errKey e ∈ k.rewritten) then
        (if (e.arr = .l2tag ∨ e.arr = .l2data) ∧ k.l2deleted.length < 8 then
          { y with attempt := 1, rolled := who, errs := y.errs.erase (errKey e), rewritten := y.rewritten.erase (errKey e),
                   l2deleted := y.l2deleted ++ [e.entry] }
         else { y with attempt := 4, rolled := who })
      else { y with attempt := max 1 y.attempt, rolled := who, errs := y.errs ++ [errKey e] })
      (dropErring core e (who.foldl (fun u c => rollBack e.lcn c u) s)) := by
  intro k who
  have hgo : ¬ (¬ lcnRuns s e.lcn = true ∨ needsSpare k = true) := not_or.2 ⟨Classical.not_not.2 hr, not_needsSpare hk⟩
  unfold runCoreError
  simp only [hcore]
  rw [if_neg hgo]
  simp only [persistent_iff, isL2_iff]
  split
  · split <;> rfl
  · rfl

theorem coreFor_eq : coreFor s e.lcn = core := by
  rw [coreFor, hcore]
  rfl

theorem runCoreFault_retry (h1 : e.arr ≠ .late) (h2 : e.arr ≠ .tlbLock) (h3 : ¬ (e.arr = .l2data ∧ l2Of s core e.sector = .m)) :
    runCoreFault e s = runCoreError e s := by
  rw [runCoreFault, if_neg (not_or.2 ⟨Classical.not_not.2 hr, not_needsSpare hk⟩)]
  cases harr : e.arr
  case late => exact absurd harr h1
  case tlbLock => exact absurd harr h2
  case l2data =>
    dsimp only
    rw [coreFor_eq hk hcore hr, if_neg (fun h => h3 ⟨harr, h⟩)]
  all_goals rfl

theorem runCoreFault_lock (h : e.arr = .tlbLock) : runCoreFault e s = reloadLock e (runCoreError e s) := by
  rw [runCoreFault, if_neg (not_or.2 ⟨Classical.not_not.2 hr, not_needsSpare hk⟩), h]

theorem runCoreFault_dirty (h : e.arr = .l2data) (hm : l2Of s core e.sector = .m) : runCoreFault e s = poisonL2 core e.sector s := by
  rw [runCoreFault, if_neg (not_or.2 ⟨Classical.not_not.2 hr, not_needsSpare hk⟩), h]
  dsimp only
  rw [coreFor_eq hk hcore hr, if_pos hm]

theorem runCoreFault_late (h : e.arr = .late) (hc : e.ctx ≤ 1) (hm : (ctxOf s e.lcn e.ctx).mcheck = none) :
    let u := updCtx e.lcn e.ctx (endWait Cc.zero) (betweenInsns e.lcn e.ctx s)
    runCoreFault e s = takeX e.lcn e.ctx ⟨0x01, 0, 4, 0, true, 0, 0⟩ (ctxOf u e.lcn e.ctx).pc
      (logNow (dieHalf (core / 128)) (rpt (pcUnit core) 1 clsUC 0x0106 (res [(2, e.lcn), (1, e.ctx)])) u) := by
  have hgo : ¬ (¬ lcnRuns s e.lcn = true ∨ 1 < e.ctx ∨ (ctxOf s e.lcn e.ctx).mcheck.isSome = true) := by
    rw [hm]
    exact not_or.2 ⟨Classical.not_not.2 hr, not_or.2 ⟨Nat.not_lt.2 hc, Bool.false_ne_true⟩⟩
  rw [runCoreFault, if_neg (not_or.2 ⟨Classical.not_not.2 hr, not_needsSpare hk⟩), h]
  dsimp only
  rw [runUncontained, if_neg hgo, coreFor_eq hk hcore hr]

end Error

theorem runRetryEnd_of_attempt (hk : (lcnOf s l).attempt < 3) (hcore : coreOf s l = some c) (h0 : (lcnOf s l).attempt ≠ 0) :
    let s0 := updLcn l (fun y => { y with attempt := 0, rolled := [], rewritten := (y.rewritten ++ y.errs).eraseDups, errs := [] }) s
    let t := updDie (c / 128) (fun y => { y with retry := tmod 0 y.retry (c % 128) (fun n => sat (n + 1) 0xFFFFFFFF) }) s0
    runRetryEnd l false s = updLcn l (fun y => { y with attempt := y.attempt + 1 }) s ∧
    runRetryEnd l true s = (bucketHit (retryUnit (c / 128)) (c % 128 + tget 0 (dieOf t (c / 128)).retry (c % 128) * 256)
      (bump (dieUnit (c / 128)) 0x181 1 (bump (coreUnit l) 0xD 1 t))).1 := by
  have hgo : ¬ ((lcnOf s l).attempt = 0 ∨ needsSpare (lcnOf s l) = true) := not_or.2 ⟨h0, not_needsSpare hk⟩
  constructor
  all_goals
    unfold runRetryEnd
    simp only [hcore]
    rw [if_neg hgo]
    rfl

/-- Settles O33: events by what is pending, errors by their array and whether they persist, attempts by their outcome. -/
theorem coreEvents : Obligations.CoreEvents := by
  refine ⟨?_, ?_⟩
  · intro s l c v b k hlive x taken
    refine ⟨finishPieces_of_none, fun hat hm => ⟨fun hc => ?_, fun hc => ⟨fun hmode hie => ?_, fun hd hno => ?_,
      fun hie hmode hd hv => ?_⟩⟩, fun hie => ⟨?_, ?_⟩⟩
    · exact exec_of_live (f := runClockLoss l c) rfl hlive (runClockLoss_due hat hm hc)
    · exact exec_of_live (f := runModeChange l c) rfl hlive (runModeChange_due hat hm hc hmode hie)
    · exact exec_of_live (f := runDebugX l c) rfl hlive (runDebugX_due hat hm hc hd hno)
    · exact exec_of_live (f := runExternal l c v) rfl hlive (runExternal_due hat hm hc hie hmode hd hv)
    · exact exec_of_live (f := runExternal l c v) rfl hlive (masked_stays hie).1
    · exact exec_of_live (f := runModeChange l c) rfl hlive (masked_stays (v := v) hie).2
  · intro s hlive
    refine ⟨?_, fun l c hk hcore h0 => ⟨?_, ?_⟩⟩
    · intro e core l k hk hcore hr key again who t erred did
      have hfault : did = .next (runCoreFault e s) := exec_of_live (f := runCoreFault e) rfl hlive rfl
      have herred : runCoreError e s = erred := runCoreError_eq hk hcore hr
      rw [hfault]
      refine ⟨fun h1 h2 h3 => ?_, fun h => ?_, fun h hm => ?_, fun h hc hm => ?_⟩
      · rw [runCoreFault_retry hk hcore hr h1 h2 h3, herred]
      · rw [runCoreFault_lock hk hcore hr h, herred]
      · rw [runCoreFault_dirty hk hcore hr h hm]
      · exact congrArg _ (runCoreFault_late hk hcore hr h hc hm)
    · exact exec_of_live (f := runRetryEnd l false) rfl hlive (runRetryEnd_of_attempt hk hcore h0).1
    · exact exec_of_live (f := runRetryEnd l true) rfl hlive (runRetryEnd_of_attempt hk hcore h0).2

end Sys2Proof.Machine
end

section
/-! Leaky buckets and moves of cores (R143, R149–R158, R277). -/
namespace Sys2Proof.Machine

variable {s : State} {l c n u core : Nat} {m : Move}

/-! ### Buckets (R143, R277) -/

theorem bucketAdd_spec (b : Bucket) :
    let r := bucketAdd b
    let full := decide (max 1 b.thresh ≤ b.count + 1)
    r.2 = full ∧ r.1.thresh = b.thresh ∧ r.1.leak = b.leak ∧ r.1.count = (if full then 0 else b.count + 1) ∧
    r.1.ovf = (if full then min (b.ovf + 1) 65535 else b.ovf) := by
  intro r full
  have hth : (if b.thresh = 0 then 1 else b.thresh) = max 1 b.thresh := by
    split <;> omega
  by_cases hfull : max 1 b.thresh ≤ b.count + 1
  · have hf : full = true := decide_eq_true hfull
    have hr : r = ({ b with count := 0, ovf := sat (b.ovf + 1) 65535 }, true) := by
      unfold r bucketAdd
      rw [hth, if_pos hfull]
    have hsat : sat (b.ovf + 1) 65535 = min (b.ovf + 1) 65535 := by
      unfold sat
      split <;> omega
    rw [hr, hf]
    exact ⟨rfl, rfl, rfl, rfl, hsat⟩
  · have hf : full = false := decide_eq_false hfull
    have hr : r = ({ b with count := b.count + 1 }, false) := by
      unfold r bucketAdd
      rw [hth, if_neg hfull]
    rw [hr, hf]
    exact ⟨rfl, rfl, rfl, rfl, rfl⟩

theorem bucketHit_fst (u x : Nat) (s : State) :
    (bucketHit u x s).1 = let r := bucketAdd (bucketOf s u)
      if r.2 then logNow (unitHalf u) (bucketReport u r.1 x) (updBucket u (fun _ => r.1) s) else updBucket u (fun _ => r.1) s :=
  apply_ite Prod.fst _ _ _

theorem runCorrected_of_ready (h : unitReady s u = true) (h3 : unitType u ≠ 3) :
    runCorrected u s = (bucketHit u 0 (if unitType u = 1 then bump u 0x183 1 s else s)).1 := by
  rw [runCorrected, if_neg (Classical.not_not.2 h), if_neg h3]

theorem runCorrected_of_memory (h : unitReady s u = true) (h3 : unitType u = 3) :
    runCorrected u s = memCe (unitHalf u) (unitInst u) s := by
  rw [runCorrected, if_neg (Classical.not_not.2 h), if_pos h3]

/-! ### Moves (R149–R158) -/

section Start

variable (hcore : coreOf s l = some c) (hidle : s.moves.any (fun m => m.lcn == l) = false) (hneed : needsSpare (lcnOf s l) = true)
include hcore hidle hneed

theorem runCoreMove_of_spare (ue : List Nat) (hn : chooseSpare s (c / 128) true = some n) :
    let m : Move := { lcn := l, old := c, new := n, cause := moveCause (lcnOf s l), cmd := spareCmd s l }
    let s1 := vacate l c n ue s
    runCoreMove l [] ue s = routeStart (moveScope m) { s1 with moves := s1.moves ++ [m] } := by
  unfold runCoreMove
  simp only [hcore, hidle, hneed, wakeSpare, Bool.true_or, hn, Bool.false_eq_true, true_or, not_true, or_self, if_false]

theorem runCoreMove_of_none (ue : List Nat) (hcmd : spareCmd s l = none) (hn : chooseSpare s (c / 128) true = none) :
    runCoreMove l [] ue s = logNow (dieHalf (c / 128)) (rpt (pcUnit c) 2 clsUC 0x0104 (res [(2, l), (1, c / 128), (1, c % 128)]))
      (addFailed c (parkLcn l (updLcn l (fun x => { x with last := some c }) (vacate l c c ue s)))) := by
  unfold runCoreMove
  simp only [hcore, hidle, hneed, wakeSpare, Bool.true_or, hn, hcmd, failOpt, finishOpt, Bool.false_eq_true, true_or, not_true, or_self,
    if_false]

end Start

theorem runMoveComplete_of_move (hm : s.moves.find? (fun m => m.lcn == l) = some m) (hcmd : m.cmd = none) :
    let s1 := { drawn s with moves := dropFirst (fun x => x.lcn == l) s.moves }
    let s2 := updCtx l 1 resumeLost (updCtx l 0 resumeLost (dropLocal l (addFailed m.old (assignCore l m.new (loadImage l s1)))))
    let s3 := countMove m.old (updDie (m.new / 128) (fun x => { x with coreReady := setIns x.coreReady (m.new % 128) }) s2)
    runMoveComplete l s = logNow (dieHalf (m.old / 128)) (rpt (pcUnit m.old) (moveLevel m) clsCR 0x0103
      (res [(2, l), (1, m.old / 128), (1, m.old % 128), (1, m.new / 128), (1, m.new % 128), (2, freeVal s % 2 ^ 16), (1, m.cause)]))
      (runRouteEnd (moveScope m) s3) := by
  simp only [runMoveComplete, hm, hcmd, finishOpt]

theorem runContextLost_of_core (hr : lcnRuns s l = true) (hc : c ≤ 1) (hcore : coreOf s l = some core) :
    let u := updCtx l c (fun x => { x with sb := [], mcheck := some (3, 0) }) (drainSb l c n (rollBack l c s))
    runContextLost l c n s = logNow (dieHalf (core / 128)) (rpt (pcUnit core) 1 clsUC 0x0105 (res [(2, l), (1, c)]))
      (updLcn l (fun y => { y with attempt := 5 }) (setCk l c { Ckpt.reset with sel := (ckOf u l c).sel } u)) := by
  have hfor : coreFor s l = core := by
    rw [coreFor, hcore]
    rfl
  rw [runContextLost, if_neg (not_or.2 ⟨Classical.not_not.2 hr, Nat.not_lt.2 hc⟩), hfor]

theorem resumeLost_of_lost {x : Ctx} {a : Nat} (h : x.mcheck = some (3, a)) :
    let t := resumeLost x
    t.pc = x.xh.evb + 0x40 ∧ t.psw = Psw.reset ∧ t.mcheck = none ∧ t.xh.xpc = 0 ∧ t.xh.xpsw = 0 ∧ t.xh.xaddr = 0 ∧ t.xh.xcode = 0x301 ∧
    t.xh.evb = x.xh.evb ∧ t.xs = x.xs ∧ t.cbase = x.cbase ∧ t.ttbrH = x.ttbrH ∧ t.ttbrS = x.ttbrS ∧ t.vttbr = x.vttbr := by
  simp only [resumeLost, h, true_and, and_true]
  rfl

/-- Settles O34: buckets by their threshold, a move's start by the spare that is there, its end by the move under way. -/
theorem coreMoves : Obligations.CoreMoves := by
  refine ⟨⟨bucketAdd_spec, fun u s hlive => ⟨exec_of_live (f := runBucketLeak u) rfl hlive rfl, fun h h3 h1 => ?_, fun h h1 => ?_,
    fun h h3 => ?_⟩⟩, ?_⟩
  · refine exec_of_live (f := runCorrected u) rfl hlive ((runCorrected_of_ready h h3).trans ?_)
    rw [if_neg h1, bucketHit_fst]
  · refine exec_of_live (f := runCorrected u) rfl hlive ((runCorrected_of_ready h (by omega)).trans ?_)
    rw [if_pos h1]
  · exact exec_of_live (f := runCorrected u) rfl hlive (runCorrected_of_memory h h3)
  · intro s l k hlive
    refine ⟨fun c n hcore hidle hneed hn ue => ?_, fun c hcore hidle hneed hcmd hn ue => ?_, fun m hm hcmd => ?_,
      fun c n core hr hc hcore => ?_, fun x a => resumeLost_of_lost⟩
    · exact exec_of_live (f := runCoreMove l [] ue) rfl hlive (runCoreMove_of_spare hcore hidle hneed ue hn)
    · exact exec_of_live (f := runCoreMove l [] ue) rfl hlive (runCoreMove_of_none hcore hidle hneed ue hcmd hn)
    · exact exec_of_live (f := runMoveComplete l) rfl hlive (runMoveComplete_of_move hm hcmd)
    · exact exec_of_live (f := runContextLost l c n) rfl hlive (runContextLost_of_core hr hc hcore)

end Sys2Proof.Machine
end

section
/-! Requests at a home node (R210, R214, R215, R221, R222). -/
namespace Sys2Proof.Machine

variable {h : Half} {m : Msg} {op : MsgOp} {s t : State} {tx : Nat}

/-! ### A request reaches its home -/

theorem memErr_zero (h : Half) (l : Nat) (s : State) : memErr h l 0 s = s := by
  rw [memErr, if_pos (Or.inl rfl)]

theorem memErrAt_zero (f : Half) (sector : Nat) (s : State) : memErrAt f sector 0 s = s :=
  memErr_zero (placeOf s f (sector * 64)).half ((placeOf s f (sector * 64)).l / 64 * 64) s

theorem runAtm_of_new (h : atmNew m s) : runAtm m s = request .atm m s := by
  obtain ⟨hnmu, hnone⟩ := h
  simp only [runAtm, hnmu, not_true, if_false, hnone]

/-- Each request that arrives is ordered by its home. -/
theorem exec_homeRows (m : Msg) (s : State) : ∀ r ∈ homeRows, arrives r.2 m s → (r.2 = .atm → atmNew m s) →
    exec (r.1 m) s = .next (request r.2 m s) := by
  simp only [homeRows, List.forall_mem_cons, List.not_mem_nil, false_implies, implies_true, and_true]
  refine ⟨fun ha _ => ?_, fun ha _ => ?_, fun ha _ => ?_, fun ha _ => ?_, fun ha _ => ?_, fun ha _ => ?_, fun ha hn => ?_, fun ha _ => ?_⟩
  · refine (act_reach_of_arrives (runRds m 0) ha).trans (congrArg _ ?_)
    exact congrArg (request .rds m) (memErrAt_zero m.from_ m.sector s)
  · exact act_reach_of_arrives (runRdx m) ha
  · exact act_reach_of_arrives (runUpg m) ha
  · exact act_reach_of_arrives (runRdc m) ha
  · exact act_reach_of_arrives (runWrf m) ha
  · refine (act_reach_of_arrives (runWrp m 0) ha).trans (congrArg _ ?_)
    exact congrArg (request .wrp m) (memErrAt_zero m.from_ m.sector s)
  · exact (act_reach_of_arrives (runAtm m) ha).trans (congrArg _ (runAtm_of_new (hn trivial)))
  · exact act_reach_of_arrives (runMnt m) ha

/-! ### What a home does with it -/

/-- A request that finds its transaction entry: the agents to ask are snooped, or it ends at once. -/
theorem startTx_eq (op : MsgOp) (m : Msg) :
    startTx h tx ⟨op, m⟩ s = let ask := snoopSet s h op m
      let t := newTx op m tx ask
      let s3 := repin h (m.sector / 4) (putTx h tx (some t) s)
      if ask = [] then finishTx h tx t s3
      else ask.foldl (fun u a => send (snoopOp op m.aux) { bare m a with txid := tx, home := h } u) s3 := by
  unfold startTx
  dsimp only
  by_cases hask : snoopSet s h op m = []
  · rw [if_pos hask, if_pos hask, hask]
    rfl
  · rw [if_neg hask, if_neg hask]
    rfl

theorem homeServe_locked {q : HReq} (hl : locked (s.home.get h) q.m.sector = true) :
    homeServe h q s = updHome h (fun k => { k with waiting := k.waiting ++ [q] }) s := by
  rw [homeServe, if_pos hl]

/-- The set has no room for the entry that the request needs (R210). -/
def setFull (h : Half) (q : HReq) (s : State) : Prop :=
  needsEntry q.req = true ∧ (dirOf s h (q.m.sector / 4)).v = false ∧ 24 ≤ (setOf (s.home.get h) (q.m.sector / 4)).length

theorem setFull_iff (h : Half) (q : HReq) (s : State) : setFull h q s ↔
    (needsEntry q.req && !(dirOf s h (q.m.sector / 4)).v && decide (24 ≤ (setOf (s.home.get h) (q.m.sector / 4)).length)) = true := by
  rw [setFull, Bool.and_eq_true, Bool.and_eq_true, Bool.not_eq_true', decide_eq_true_iff, and_assoc]

section Unlocked

variable {q : HReq} (hl : locked (s.home.get h) q.m.sector = false)
include hl

theorem homeServe_full (hf : freeTx (s.home.get h) = none) : homeServe h q s = refuse h q 5 s := by
  rw [homeServe, if_neg (ne_true_of_eq_false hl), hf]

variable (hf : freeTx (s.home.get h) = some tx)
include hf

theorem homeServe_room (hroom : ¬ setFull h q s) :
    homeServe h q s = startTx h tx q (if needsEntry q.req then touchEntry h (q.m.sector / 4) s else s) := by
  rw [homeServe, if_neg (ne_true_of_eq_false hl), hf]
  exact if_neg (fun hc => hroom ((setFull_iff h q s).2 hc))

variable (hfull : setFull h q s)
include hfull

theorem homeServe_pinned (hv : victimEntry (s.home.get h) (q.m.sector / 4) = none) : homeServe h q s = refuse h q 2 s := by
  rw [homeServe, if_neg (ne_true_of_eq_false hl), hf]
  dsimp only
  rw [if_pos ((setFull_iff h q s).1 hfull), hv]

theorem homeServe_victim {e : Nat × DirEnt} (hv : victimEntry (s.home.get h) (q.m.sector / 4) = some e) :
    homeServe h q s = if listed e.2 = [] ∧ ∀ a ∈ e.2.own, a = 31 then
      startTx h tx q (touchEntry h (q.m.sector / 4) (setDir h e.1 (fun _ => DirEnt.none) (homeCount h q.m.from_ (e.1 * 4) 0x206 1 s)))
    else backInvalidate h tx e q s := by
  have hall : (e.2.own.all (fun a => a == 31) = true) = ∀ a ∈ e.2.own, a = 31 := by
    simp only [List.all_eq_true, beq_iff_eq]
  rw [homeServe, if_neg (ne_true_of_eq_false hl), hf]
  dsimp only
  rw [if_pos ((setFull_iff h q s).1 hfull), hv]
  simp only [hall]

end Unlocked

/-! ### What a request ends with (R200, R208, R209, R215) -/

section Ends

variable {x : HTrans} (hb : x.backInv = false) (hd : x.dirty = none)
include hb hd

/-- RDS is granted E where nobody else holds the sector. -/
theorem finishTx_rds (hreq : x.req = .rds) :
    let v := stockRead h (x.m.sector / 4) s
    let d := dirOf v h (x.m.sector / 4)
    let mem := homeMem v x.m.from_ x.m.sector
    finishTx h tx x s = grant h tx x (if ownerOf d x.m.sector = 31 ∧ (∀ a ∈ listed d, a = x.m.agent) then .gntE else .gntS)
      (some mem.1) mem.2 v := by
  unfold finishTx
  simp only [hb, hreq, readsMem, hd, Option.isNone_none, Bool.not_false, Bool.and_true, Bool.false_eq_true, if_true, if_false,
    Bool.and_eq_true, decide_eq_true_iff, List.all_eq_true, beq_iff_eq]

theorem finishTx_rdx (hreq : x.req = .rdx) :
    let v := stockRead h (x.m.sector / 4) s
    let mem := homeMem v x.m.from_ x.m.sector
    finishTx h tx x s = grant h tx x (ownGrant v) (some mem.1) mem.2 v := by
  unfold finishTx
  simp only [hb, hreq, readsMem, hd, Option.isNone_none, Bool.not_false, Bool.and_true, Bool.false_eq_true, if_true, if_false]

/-- UPG needs no data where its requester still holds the sector. -/
theorem finishTx_upg (hreq : x.req = .upg) :
    let mem := homeMem s x.m.from_ x.m.sector
    finishTx h tx x s =
      if x.m.agent ∈ listed (dirOf s h (x.m.sector / 4)) ∧ (csec s x.m.agent x.m.sector).st ≠ .i then
        grant h tx x (ownGrant s) none false s
      else grant h tx x (ownGrant s) (some mem.1) mem.2 s := by
  unfold finishTx
  simp only [hb, hreq, readsMem, hd, Bool.false_and, Bool.false_eq_true, if_false, Bool.and_eq_true, List.contains_iff_mem,
    bne_iff_ne]

theorem finishTx_rdc (hreq : x.req = .rdc) :
    let v := stockRead h (x.m.sector / 4) s
    let mem := homeMem v x.m.from_ x.m.sector
    finishTx h tx x s = endTx h tx x (complete .cmp x (some mem.1) mem.2 v) := by
  unfold finishTx
  simp only [hb, hreq, readsMem, hd, Option.isNone_none, Bool.not_false, Bool.and_true, Bool.false_eq_true, if_true, if_false]

end Ends

/-- Settles O35: requests by what the home holds of their sector's set, clean ends by the request. -/
theorem homeRequests : Obligations.HomeRequests := by
  refine ⟨?_, ?_⟩
  · intro r hr m s s1 h home line harr hnew refused starts
    have hexec : exec (r.1 m) s = .next (homeServe h ⟨r.2, m⟩ s1) := exec_homeRows m s r hr harr hnew
    rw [hexec]
    refine ⟨fun hl => ?_, fun hl hf => ?_, ?_⟩
    · rw [homeServe_locked hl]
    · rw [homeServe_full hl hf]
      rfl
    intro tx hl hf full
    refine ⟨fun hroom => ?_, fun hfull hv => ?_, fun e hfull hv => ⟨fun he => ?_, fun he => ?_⟩⟩
    · rw [homeServe_room (q := ⟨r.2, m⟩) hl hf hroom, startTx_eq]
    · rw [homeServe_pinned (q := ⟨r.2, m⟩) hl hf hfull hv]
      rfl
    · rw [homeServe_victim (q := ⟨r.2, m⟩) hl hf hfull hv, if_pos he, startTx_eq]
      rfl
    · rw [homeServe_victim (q := ⟨r.2, m⟩) hl hf hfull hv, if_neg he]
  · intro h tx x s hb hd m v grants mem own d
    exact ⟨fun hreq => finishTx_rds hb hd hreq, fun hreq => finishTx_rdx hb hd hreq, fun hreq => finishTx_upg hb hd hreq,
      fun hreq => finishTx_rdc hb hd hreq⟩

end Sys2Proof.Machine
end

section
/-! Snoops and their responses (R211, R212, R214, R216, R219, R221, R224, R225, R229). -/
namespace Sys2Proof.Machine

variable {op : MsgOp} {m : Msg} {s u : State} {t : HTrans} {c : CSector}

/-! ### An agent's answer (R216) -/

/-- The commands of the snoops, with the message each takes. -/
def snoopRows : List ((Msg → Instr) × MsgOp) := [(.snps, .snps), (.snpx, .snpx), (.snpc, .snpc), (.snpk, .snpk), (.snpi, .snpi)]

theorem exec_snoopRows (m : Msg) (s : State) : ∀ r ∈ snoopRows, arrives r.2 m s → exec (r.1 m) s = .next (snoop r.2 m s) := by
  simp only [snoopRows, List.forall_mem_cons, List.not_mem_nil, false_implies, implies_true, and_true]
  exact ⟨act_reach_of_arrives (runSnps m), act_reach_of_arrives (runSnpx m), act_reach_of_arrives (runSnpc m),
    act_reach_of_arrives (runSnpk m), act_reach_of_arrives (runSnpi m)⟩

/-- Each row of the table is the agent's reply, which is by the state of its copy alone. -/
theorem snoopReply_table (c : CSector) (e : MsgOp × Moesi × MsgOp × Bool × Moesi) (he : e ∈ snoopTable) (hst : e.2.1 = c.st) :
    snoopReply e.1 c = e.2.2 := by
  have htable : ∀ e ∈ snoopTable, snoopReply e.1 ⟨e.2.1, [], false⟩ = e.2.2 := by decide
  rw [← htable e he, hst]
  rfl

theorem snoopReply_none (h : c.st = .i) : snoopReply op c = (.rspMiss, false, .i) := by
  unfold snoopReply
  rw [h]

section Snoop

/-- The agent's writeback notice of the sector is out (R225). -/
def noticeOut (m : Msg) (s : State) : Bool := s.coh.victim.any (fun v => v.agent = m.agent && v.sector = m.sector)

theorem snoop_held (hout : noticeOut m (take op m s) = false) :
    let c := csec (take op m s) m.agent m.sector
    let r := snoopReply op c
    snoop op m s = send r.1 { bare m m.agent with hasData := r.2.1, data := if r.2.1 then c.data else [], poison := r.2.1 && c.poison }
      (setCsec m.agent m.sector (if r.2.2 = .i then CSector.none else { c with st := r.2.2 }) (take op m s)) := by
  intro c r
  rw [snoop]
  exact if_neg (ne_true_of_eq_false hout)

theorem snoop_evicting (hout : noticeOut m (take op m s) = true) :
    snoop op m s = send .rspEvicting (bare m m.agent)
      (if op = .snpx ∨ op = .snpi then setCsec m.agent m.sector CSector.none (take op m s) else take op m s) := by
  rw [snoop]
  refine (if_pos hout).trans ?_
  simp only [Bool.or_eq_true, beq_iff_eq]

end Snoop

/-! ### A home absorbs a response -/

section Response

/-- The transaction with an agent's response in, its dirty data kept unless the line is being back-invalidated. -/
def answered (m : Msg) (t : HTrans) : HTrans :=
  { t with await := t.await.erase m.agent, dirty := if m.hasData = true ∧ t.backInv = false then some m.data else t.dirty,
           poison := if m.hasData = true ∧ t.backInv = false then m.poison else t.poison }

/-- The agent is the sector's recorded owner. -/
abbrev ownsSector (m : Msg) (s : State) : Prop :=
  (dirOf s m.home (m.sector / 4)).v = true ∧ ownerOf (dirOf s m.home (m.sector / 4)) m.sector = m.agent

theorem ownsSector_iff (m : Msg) (s : State) :
    ((dirOf s m.home (m.sector / 4)).v && ownerOf (dirOf s m.home (m.sector / 4)) m.sector == m.agent) = true ↔ ownsSector m s := by
  rw [Bool.and_eq_true, beq_iff_eq, ownsSector]

/-- The agent holds nothing of the line any more. -/
def holdsNone (m : Msg) (s : State) : Bool := (upTo 4).all (fun i => (csec s m.agent (m.sector / 4 * 4 + i)).st == .i)

/-- The directory set of the line is in broadcast mode (R212). -/
def broadcast (m : Msg) (s : State) : Bool := (s.home.get m.home).bcast.contains (dirSet (m.sector / 4))

/-- A change of the line's entry, where it has one. -/
def onDir (m : Msg) (s : State) (f : DirEnt → DirEnt) (u : State) : State :=
  if (dirOf s m.home (m.sector / 4)).v = true then setDir m.home (m.sector / 4) f u else u

@[simp] theorem dirOf_take (op : MsgOp) (m : Msg) (s : State) (h : Half) (line : Nat) : dirOf (take op m s) h line = dirOf s h line := rfl

@[simp] theorem csec_take (op : MsgOp) (m : Msg) (s : State) (a sec : Nat) : csec (take op m s) a sec = csec s a sec := rfl

variable (ht : tget none (s.home.get m.home).trans m.txid = some t) (ha : t.await.contains m.agent = true)
  (hl : locks t m.sector = true)
include ht ha hl

/-- An agent that keeps its copy is listed, as owner where the directory lost it (R212). -/
theorem response_keeps : ∀ op ∈ [MsgOp.rspE, .rspO, .rspM], response op m s = advance m.home m.txid (answered m t)
    (onDir m s (fun e => addHolder m.agent (if broadcast m s = true ∧ ownerOf e m.sector = 31 then setOwner m.sector m.agent e else e))
      (take op m s)) := by
  intro op hop
  have hkept : response op m s = advance m.home m.txid (answered m t) (if (dirOf s m.home (m.sector / 4)).v then
      setDir m.home (m.sector / 4) (fun e =>
        addHolder m.agent (if broadcast m s && ownerOf e m.sector == 31 then setOwner m.sector m.agent e else e)) (take op m s)
      else take op m s) := by
    simp only [List.mem_cons, List.not_mem_nil, or_false] at hop
    unfold response
    obtain rfl | rfl | rfl := hop
    all_goals
      simp only [take_home, ht, ha, hl, not_true, or_self, if_false, Bool.not_eq_true]
      rfl
  simp only [hkept, onDir, Bool.and_eq_true, beq_iff_eq]

theorem response_S : response .rspS m s = advance m.home m.txid (answered m t)
    (onDir m s (fun e => addHolder m.agent (if ownsSector m s then setOwner m.sector 31 e else e)) (take .rspS m s)) := by
  unfold response
  simp only [take_home, dirOf_take, ht, ha, hl, not_true, or_self, if_false, Bool.not_eq_true, ownsSector_iff]
  rfl

theorem response_I : response .rspI m s = advance m.home m.txid (answered m t)
    (onDir m s (fun e => let e1 := if holdsNone m s then delHolder m.agent e else e
                         if ownsSector m s then setOwner m.sector 31 e1 else e1)
      (if t.backInv = true ∧ m.hasData = true then homePut m.from_ m.sector m.data m.poison (take .rspI m s) else take .rspI m s)) := by
  unfold response
  simp only [take_home, dirOf_take, csec_take, ht, ha, hl, not_true, or_self, if_false, Bool.not_eq_true, ownsSector_iff]
  rfl

/-- The entry that a home writes when the recorded owner of a sector has lost it (R229). -/
def ownerMissed (m : Msg) (s : State) : State :=
  logNow m.home (rpt (homeSource (take .rspMiss m s) m.home m.from_ m.sector) 2 clsUC 0x0302 (logPa m.sector + m.agent * 2 ^ 64))
    (take .rspMiss m s)

theorem response_miss_eq : response .rspMiss m s =
    if ownsSector m s then
      (if t.backInv then advance m.home m.txid (answered m t) (setDir m.home (m.sector / 4) (setOwner m.sector 31)
          (putSector (ownerMissed m s) m.from_ m.sector (homeMem (ownerMissed m s) m.from_ m.sector).1 true))
        else settle m.home (poisonTx m.home m.txid (answered m t) (ownerMissed m s)))
    else advance m.home m.txid (answered m t)
      (if holdsNone m s then onDir m s (delHolder m.agent) (take .rspMiss m s) else take .rspMiss m s) := by
  have hdrop : (if (dirOf s m.home (m.sector / 4)).v && holdsNone m s then setDir m.home (m.sector / 4) (delHolder m.agent) (take .rspMiss m s)
      else take .rspMiss m s) =
      if holdsNone m s then onDir m s (delHolder m.agent) (take .rspMiss m s) else take .rspMiss m s := by
    unfold onDir
    cases (dirOf s m.home (m.sector / 4)).v <;> cases holdsNone m s <;> rfl
  rw [← hdrop]
  unfold response
  simp only [take_home, dirOf_take, csec_take, ht, ha, hl, not_true, or_self, if_false, Bool.not_eq_true, ownsSector_iff]
  rfl

theorem response_evicting : response .rspEvicting m s =
    if ownsSector m s ∨ (broadcast m s = true ∧ wbnOut (take .rspEvicting m s) m.agent m.sector = true) then
      putTx m.home m.txid (some { answered m t with evicting := (answered m t).evicting ++ [m.agent] }) (take .rspEvicting m s)
    else advance m.home m.txid (answered m t) (take .rspEvicting m s) := by
  unfold response
  simp only [take_home, dirOf_take, ht, ha, hl, not_true, or_self, if_false, Bool.not_eq_true, Bool.or_eq_true, beq_iff_eq,
    Bool.and_eq_true]
  rfl

end Response

/-- Settles O36: answers by R216's table, a home's side by the response. -/
theorem snoops : Obligations.Snoops := by
  refine ⟨?_, ?_⟩
  · intro m s r hr harr s1 c out
    have hexec := exec_snoopRows m s r hr harr
    rw [hexec]
    refine ⟨fun hout e he hop hst => ?_, fun hout hst => ?_, fun hout => ?_⟩
    · have hreply : snoopReply r.2 (csec (take r.2 m s) m.agent m.sector) = e.2.2 := hop ▸ snoopReply_table c e he hst
      rw [snoop_held hout, hreply]
    · have hreply : snoopReply r.2 (csec (take r.2 m s) m.agent m.sector) = (.rspMiss, false, .i) := snoopReply_none hst
      rw [snoop_held hout, hreply]
      rfl
    · rw [snoop_evicting hout]
  · intro m s t ht ha hl a line d owns bcast gone kept t1 goOn dir
    have hgo (u : State) : advance m.home m.txid (answered m t) u = goOn u := rfl
    refine ⟨?_, fun harr => ?_, ?_, ?_, ?_⟩
    · have hkeep := response_keeps ht ha hl
      simp only [List.forall_mem_cons, List.not_mem_nil, false_implies, implies_true, and_true] at hkeep ⊢
      obtain ⟨hE, hO, hM⟩ := hkeep
      exact ⟨fun harr => (act_reach_of_arrives (runRspE m) harr).trans (congrArg _ hE),
        fun harr => (act_reach_of_arrives (runRspO m) harr).trans (congrArg _ hO),
        fun harr => (act_reach_of_arrives (runRspM m) harr).trans (congrArg _ hM)⟩
    · exact (act_reach_of_arrives (runRspS m) harr).trans (congrArg _ (response_S ht ha hl))
    · intro harr u
      exact (act_reach_of_arrives (runRspI m) harr).trans (congrArg _ (response_I ht ha hl))
    · intro harr u logged
      have hexec : exec (.rspMiss m) s = .next (response .rspMiss m s) := act_reach_of_arrives (runRspMiss m) harr
      rw [hexec, response_miss_eq ht ha hl]
      refine ⟨fun hno => ?_, fun ho hb => ?_, fun ho hb => ?_⟩
      · exact congrArg _ (if_neg hno)
      · rw [if_pos ho, hb]
        rfl
      · rw [if_pos ho, hb]
        rfl
    · intro harr u waits
      have hexec : exec (.rspEvicting m) s = .next (response .rspEvicting m s) := act_reach_of_arrives (runRspEvicting m) harr
      rw [hexec, response_evicting ht ha hl]
      exact ⟨fun hw => congrArg _ (if_pos hw), fun hw => congrArg _ (if_neg hw)⟩

end Sys2Proof.Machine
end

section
/-! How transactions of a home end, and what a requester does (R208, R211, R213, R214, R218, R221, R222, R224, R225, R229, R243). -/
namespace Sys2Proof.Machine

variable {m : Msg} {s : State} {t : HTrans} {h : Half} {op : MsgOp}

/-! ### The home -/

theorem runCack_of_grant (ht : tget none (s.home.get m.home).trans m.txid = some t) (hphase : t.phase = 1) (ha : t.m.agent = m.agent)
    (hsec : t.m.sector = m.sector) (hup : m.agent < 18) :
    runCack m s = settle m.home (endTx m.home m.txid t (setDir m.home (m.sector / 4)
      (fun e => addHolder m.agent (if m.opd1 = 1 then setOwner m.sector m.agent e else e)) (take .cack m s))) := by
  have hagent : upAgent m.agent = true := decide_eq_true hup
  simp only [runCack, take_home, ht, hphase, ha, hsec, hagent, and_self, if_true]

/-- A notice with data from the owner, whose victim buffer holds the sector, and that no transaction waits for. -/
theorem writeback_of_owner (hheld : (take .wbn m s).coh.victim.any (fun v => v.agent = m.agent && v.sector = m.sector) = true)
    (hv : (dirOf s (homeFor s m.from_ m.sector) (m.sector / 4)).v = true)
    (hown : ownerOf (dirOf s (homeFor s m.from_ m.sector) (m.sector / 4)) m.sector = m.agent) (hdata : m.hasData = true) :
    let g := homeFor s m.from_ m.sector
    let put := homePut m.from_ m.sector m.data m.poison (take .wbn m s)
    let seen := if m.poison = true then
      logNow g (rpt (homeSource (take .wbn m s) g m.from_ m.sector) 2 clsUC 0x0304 (logPa m.sector)) put else put
    let t := send .wback { bare m m.agent with home := g } (setDir g (m.sector / 4) (setOwner m.sector 31) seen)
    (∀ e ∈ (t.home.get g).trans, ∀ k, e.2 = some k → m.agent ∉ k.evicting) → writeback m s = t := by
  intro g put seen t hnone
  have hfind : (t.home.get g).trans.find? (fun e => match e.2 with
      | some k => locks k m.sector && k.evicting.contains m.agent
      | none => false) = none := by
    rw [List.find?_eq_none]
    rintro ⟨tx, k⟩ he
    cases k with
    | none => exact Bool.false_ne_true
    | some k =>
      intro hk
      rw [Bool.and_eq_true, List.contains_iff_mem] at hk
      exact hnone (tx, some k) he k rfl hk.2
  have hwb : writeback m s = match (t.home.get g).trans.find? (fun e => match e.2 with
      | some k => locks k m.sector && k.evicting.contains m.agent
      | none => false) with
    | some (tx, some k) => advance g tx { k with evicting := k.evicting.erase m.agent } t
    | _ => t := by
    unfold writeback
    simp only [hheld, dirOf_take, hv, hown, hdata, true_and, and_self, true_or, if_true]
    rfl
  rw [hwb, hfind]

theorem runHomeParkRelease_of_parked {q : HReq} {rest : List HReq} (hp : (s.home.get h).park = q :: rest) :
    runHomeParkRelease h s = homeServe h q (updHome h (fun k => { k with park := rest }) s) := by
  simp only [runHomeParkRelease, hp]

theorem runHomeParkRelease_of_none (hp : (s.home.get h).park = []) : runHomeParkRelease h s = s := by
  simp only [runHomeParkRelease, hp]

/-! ### The requester -/

/-- The grants' commands, with the state each installs (R208). -/
def grantRows : List ((Msg → Instr) × MsgOp × Moesi) := [(Instr.gntS, MsgOp.gntS, Moesi.s), (.gntE, .gntE, .e), (.gntM, .gntM, .m)]

theorem exec_grantRows (m : Msg) (s : State) : ∀ r ∈ grantRows, arrives r.2.1 m s →
    exec (r.1 m) s = .next (granted r.2.1 r.2.2 m s) := by
  simp only [grantRows, List.forall_mem_cons, List.not_mem_nil, false_implies, implies_true, and_true]
  exact ⟨act_reach_of_arrives (runGntS m), act_reach_of_arrives (runGntE m), act_reach_of_arrives (runGntM m)⟩

theorem granted_of_agent {st : Moesi} (hup : m.agent < 18) :
    granted op st m s = send .cack { bare m m.agent with opd1 := if st = .s then 0 else 1 }
      (install m.agent m.sector st (if m.hasData then some m.data else none) m.poison (take op m s)) := by
  rw [granted, if_pos (show upAgent m.agent = true from decide_eq_true hup)]

/-- A completion that reaches an agent of cores or of a hub is no maintenance slot's. -/
theorem runCmp_of_agent (hup : m.agent < 18) : runCmp m s = take .cmp m s := by
  have hfind : ([Half.a, Half.b].flatMap (fun h => (upTo 16).map (fun k => (h, k)))).find?
      (fun x => mntAgent x.1 x.2 == m.agent) = none := by
    rw [List.find?_eq_none]
    intro x _ hx
    rw [beq_iff_eq, mntAgent] at hx
    omega
  simp only [runCmp, hfind]

theorem runRetry_of_refused {q : HReq} (hq : s.coh.refused.find? (fun q => q.req == op && q.m.agent == m.agent && q.m.sector == m.sector) = some q) :
    runRetry op m s = updCoh (fun k => { k with
      refused := dropFirst (fun q => q.req == op && q.m.agent == m.agent && q.m.sector == m.sector) k.refused, retries := k.retries ++ [q] })
      (take .retry m s) := by
  simp only [runRetry, hq]

theorem runRetry_of_none (hq : s.coh.refused.find? (fun q => q.req == op && q.m.agent == m.agent && q.m.sector == m.sector) = none) :
    runRetry op m s = updCoh (fun k => { k with retries := k.retries ++ [{ req := op, m := m }] }) (take .retry m s) := by
  simp only [runRetry, hq]

theorem runRetryResend_of_waiting {a sec : Nat} {q : HReq} (hq : s.coh.retries.find? (fun q => q.m.agent == a && q.m.sector == sec) = some q) :
    runRetryResend a sec s = updCoh (fun k =>
      { k with retries := dropFirst (fun x => x == q) k.retries, net := k.net ++ [{ op := q.req, m := q.m }] }) s := by
  simp only [runRetryResend, hq]
  rfl

/-- Settles O38: what a home does with an acknowledgement, a notice, a parked request, a timer and PURGE; what a requester does
with each answer. -/
theorem homeEnds : Obligations.HomeEnds := by
  refine ⟨?_, ?_⟩
  · intro m s h
    refine ⟨?_, ?_, fun q rest hlive hp => ?_, fun hlive hp => ?_, ?_, ?_⟩
    · intro t s1 harr ht hphase ha hsec hup
      exact (act_reach_of_arrives (runCack m) harr).trans (congrArg _ (runCack_of_grant ht hphase ha hsec hup))
    · intro g s1 d harr hheld hv hown hdata put seen t hnone
      exact (act_reach_of_arrives (runWbn m) harr).trans (congrArg _ (writeback_of_owner hheld hv hown hdata hnone))
    · exact exec_of_live (f := runHomeParkRelease h) rfl hlive (runHomeParkRelease_of_parked hp)
    · exact exec_of_live (f := runHomeParkRelease h) rfl hlive (runHomeParkRelease_of_none hp)
    · intro tx t hlive ht f sec who s0 lost ended named
      refine exec_of_live (f := runHomeTimeout h tx) rfl hlive ?_
      simp only [runHomeTimeout, ht]
      rfl
    · intro die way line ue stateErr hlive slice set s0 dirty mask s1
      have hline : line * 4 / 4 = line := Nat.mul_div_cancel line (by decide)
      have hhere : ¬ (slice ≠ l3Slice (line * 4) ∨ set ≠ l3Set (line * 4)) := by
        rw [l3Slice, l3Set, hline]
        exact not_or.2 ⟨Classical.not_not.2 rfl, Classical.not_not.2 rfl⟩
      refine exec_of_live (f := runPurge die slice set way line ue stateErr) rfl hlive ?_
      rw [runPurge, if_neg hhere]
  · intro m s
    refine ⟨fun r hr harr hup => ?_, fun harr hup => ?_, fun harr => ?_, ?_, fun a sec q hlive hq => ?_⟩
    · rw [exec_grantRows m s r hr harr, granted_of_agent hup]
    · exact (act_reach_of_arrives (runCmp m) harr).trans (congrArg _ (runCmp_of_agent hup))
    · exact act_reach_of_arrives (runWback m) harr
    · intro op harr mine
      exact ⟨fun q hq => (act_reach_of_arrives (runRetry op m) harr).trans (congrArg _ (runRetry_of_refused hq)),
        fun hq => (act_reach_of_arrives (runRetry op m) harr).trans (congrArg _ (runRetry_of_none hq))⟩
    · exact exec_of_live (f := runRetryResend a sec) rfl hlive (runRetryResend_of_waiting hq)

end Sys2Proof.Machine
end

section
/-! Messages that do not arrive (R242, R253, R262), and requests that nobody has to be asked for (R200, R208, R209, R213–R215, R223,
R226, R236, R262, R275). -/
namespace Sys2Proof.Machine

variable {m : Msg} {s o u : State} {h : Half} {op : MsgOp} {tx : Nat}

/-! ### Messages that wait or are discarded -/

/-- A message that waits for a module of its path, or behind one of its flow, stays under way. -/
theorem reach_of_waits (f : State → State) (hb : bwStops s ⟨op, m⟩ = false)
    (hw : linksUp s ⟨op, m⟩ = false ∨ behind s ⟨op, m⟩ = true) : reach op m f s = s := by
  have hno : mayArrive s op m = false := by
    rw [mayArrive, hb]
    obtain hlinks | hbehind := hw
    · rw [hlinks]
      rfl
    · rw [hbehind]
      simp only [Bool.not_true, Bool.and_false, Bool.false_and]
  rw [reach, hb, if_neg Bool.false_ne_true, hno, if_neg Bool.false_ne_true]

/-- A message that the Breakwater's row does not carry is discarded (R262). -/
theorem reach_of_stopped (f : State → State) (hb : bwStops s ⟨op, m⟩ = true) :
    reach op m f s = if toFar op = true then updFab (fun x => { x with aerrs := x.aerrs ++ [(m.agent, m.sector)] }) (take op m s)
      else take op m s := by
  rw [reach, if_pos hb]
  rfl

theorem act_reach_stays (f : State → State) (hlive : live s = true) :
    (bwStops s ⟨op, m⟩ = false → (linksUp s ⟨op, m⟩ = false ∨ behind s ⟨op, m⟩ = true) → act (reach op m f) s = .next s) ∧
    (bwStops s ⟨op, m⟩ = true → act (reach op m f) s =
      .next (if toFar op = true then updFab (fun x => { x with aerrs := x.aerrs ++ [(m.agent, m.sector)] }) (take op m s)
        else take op m s)) := by
  rw [act, if_pos hlive]
  exact ⟨fun hb hw => congrArg _ (reach_of_waits f hb hw), fun hb => congrArg _ (reach_of_stopped f hb)⟩

/-! ### A request alone at its home -/

/-- A request that opens its transaction and asks nobody ends at once. -/
theorem request_alone (hopen : opensAlone op m s h tx o) : request op m s = finishTx h tx (newTx op m tx []) o := by
  obtain ⟨_, hh, hl, hf, hentry, hask, rfl⟩ := hopen
  have hroom : ¬ setFull h ⟨op, m⟩ (take op m s) := by
    rintro ⟨hneed, hv, hlen⟩
    obtain hno | hdir | hshort := hentry
    · rw [hneed] at hno
      cases hno
    · have hboth := hv.symm.trans hdir
      cases hboth
    · exact absurd hlen (Nat.not_le.2 hshort)
  have hserve : request op m s = homeServe h ⟨op, m⟩ (take op m s) := by
    rw [hh]
    rfl
  rw [hserve, homeServe_room (q := ⟨op, m⟩) hl hf hroom, startTx_eq]
  dsimp only
  rw [if_pos hask, hask]

theorem finishTx_wrf (m : Msg) : finishTx h tx (newTx .wrf m tx []) o =
    mirrorOrEnd h tx (newTx .wrf m tx []) none (homeFailed o m.from_ m.sector) (homePut m.from_ m.sector m.data m.poison o) := rfl

/-- A partial write merges, unless the half that is being copied to needs the whole sector (R49, R275). -/
theorem finishTx_wrp (m : Msg) :
    let p := placeOf o m.from_ (m.sector * 64)
    let merged := updMem p.half (fun k => mergeIn k (p.l / 64) m.mask m.data) o
    let mem := homeMem o m.from_ m.sector
    finishTx h tx (newTx .wrp m tx []) o = mirrorOrEnd h tx (newTx .wrp m tx []) none (homeFailed o m.from_ m.sector)
      (if effMode o = .degraded ∧ p.mirror.isSome = true then homePut m.from_ m.sector (overlay mem.1 m.data m.mask) mem.2 o
       else if (o.home.get h).stock.contains (m.sector / 4) = true then
         sramPut h (chanOf (o.mem.get h) p.l % 12) (m.sector / 4) merged
       else merged) := rfl

theorem finishTx_atm (m : Msg) :
    let v := stockRead h (m.sector / 4) o
    let mem := homeMem v m.from_ m.sector
    let n := atomSize m.aux
    let old := fieldAt mem.1 m.mask n
    let w := homePut m.from_ m.sector (splice mem.1 m.mask (toBytes n (atomNew m.aux n old m.opd1 m.opd2))) mem.2 v
    finishTx h tx (newTx .atm m tx []) o = mirrorOrEnd h tx (newTx .atm m tx []) (some (toBytes n old)) mem.2
      { w with latches := w.latches.filter (fun x => ¬ (x.unit = 1024 + h.n ∧ x.lcn = m.lcn ∧ x.ctx = m.ctx)) ++
        [{ unit := 1024 + h.n, lcn := m.lcn, ctx := m.ctx, rid := m.rid, reply := toBytes n old }] } := rfl

theorem finishTx_mnt (m : Msg) : finishTx h tx (newTx .mnt m tx []) o =
    if m.aux = 0 then endTx h tx (newTx .mnt m tx []) (complete .cmp (newTx .mnt m tx []) none (homeMem o m.from_ m.sector).2 o)
    else if m.aux = 1 then endTx h tx (newTx .mnt m tx []) (complete .cmp (newTx .mnt m tx []) none false o)
    else if m.aux = 2 then endTx h tx (newTx .mnt m tx []) (complete .cmp (newTx .mnt m tx []) none (homeMem o m.from_ m.sector).2 o)
    else mirrorOrEnd h tx (newTx .mnt m tx []) none false (homePut m.from_ m.sector (List.replicate 64 0) false o) := rfl

/-- A request's command, alone at its home. -/
theorem exec_alone {r : (Msg → Instr) × MsgOp} (hr : r ∈ homeRows) (hopen : opensAlone r.2 m s h tx o) (hnew : r.2 = .atm → atmNew m s) :
    exec (r.1 m) s = .next (finishTx h tx (newTx r.2 m tx []) o) := by
  rw [exec_homeRows m s r hr hopen.1 hnew, request_alone hopen]

/-- Settles O39: messages by whether their path is free, requests by how a transaction that asks nobody ends. -/
theorem coherentCompletion : Obligations.CoherentCompletion := by
  refine ⟨?_, ?_⟩
  · intro m s hlive
    simp only [List.forall_mem_cons, List.not_mem_nil, false_implies, implies_true, and_true]
    exact ⟨act_reach_stays (runRdx m) hlive, act_reach_stays (runWrf m) hlive, act_reach_stays (runWbn m) hlive,
      act_reach_stays (runSnpx m) hlive, act_reach_stays (runRspI m) hlive, act_reach_stays (runGntM m) hlive,
      act_reach_stays (runCack m) hlive, act_reach_stays (runWback m) hlive, act_reach_stays (runMirw m) hlive⟩
  · intro m s h tx o v mem grants own ends ended
    have hexec (k : Nat) (hk : k < homeRows.length) (hopen : opensAlone homeRows[k].2 m s h tx o) (hnew : homeRows[k].2 = .atm → atmNew m s) :
        exec (homeRows[k].1 m) s = .next (finishTx h tx (newTx homeRows[k].2 m tx []) o) :=
      exec_alone (List.getElem_mem hk) hopen hnew
    refine ⟨?_, fun ho => ?_, fun ho => ?_, fun ho => ?_, fun ho => ?_, ?_, ?_, fun ho => ⟨fun haux => ?_, fun haux => ?_, fun haux => ?_⟩⟩
    · intro ho d
      exact (hexec 0 (by decide) ho (fun h => nomatch h)).trans (congrArg _ (finishTx_rds rfl rfl rfl))
    · exact (hexec 1 (by decide) ho (fun h => nomatch h)).trans (congrArg _ (finishTx_rdx rfl rfl rfl))
    · exact (hexec 2 (by decide) ho (fun h => nomatch h)).trans (congrArg _ (finishTx_upg rfl rfl rfl))
    · exact (hexec 3 (by decide) ho (fun h => nomatch h)).trans (congrArg _ (finishTx_rdc rfl rfl rfl))
    · exact (hexec 4 (by decide) ho (fun h => nomatch h)).trans (congrArg _ (finishTx_wrf m))
    · intro ho p merged copied
      have hend := (hexec 5 (by decide) ho (fun h => nomatch h)).trans (congrArg _ (finishTx_wrp m))
      refine ⟨fun hno => hend.trans ?_, fun hcopy => hend.trans ?_⟩
      · rw [if_neg hno]
        rfl
      · rw [if_pos hcopy]
        rfl
    · intro ho hnew n old new w
      exact (hexec 6 (by decide) ho (fun _ => hnew)).trans (congrArg _ (finishTx_atm m))
    · refine (hexec 7 (by decide) ho (fun h => nomatch h)).trans (congrArg _ ((finishTx_mnt m).trans ?_))
      obtain h0 | h2 := haux
      · exact if_pos h0
      · rw [if_neg (by omega), if_neg (by omega), if_pos h2]
        rfl
    · refine (hexec 7 (by decide) ho (fun h => nomatch h)).trans (congrArg _ ((finishTx_mnt m).trans ?_))
      rw [if_neg (by omega), if_pos haux]
      rfl
    · refine (hexec 7 (by decide) ho (fun h => nomatch h)).trans (congrArg _ ((finishTx_mnt m).trans ?_))
      rw [if_neg (by omega), if_neg (by omega), if_neg (by omega)]
      rfl

end Sys2Proof.Machine
end

section
/-! Memory channels (R273–R292): alerts, retraining, merge entries, scrubbing, row disturbance, sparing. -/
namespace Sys2Proof.Machine

variable {h : Half} {c i err g w src port : Nat} {s : State}

/-! ### Alerts and retraining (R273, R283, R284) -/

theorem runRetrain_of_up (hd : (chOf s h c).st ≠ .down) (hf : (chOf s h c).st ≠ .failed) (ht : (chOf s h c).st ≠ .training) (n : Nat) :
    runRetrain h c n s = if n = 0 then s else fullRetrain h c (n = 1) s := by
  rw [runRetrain, if_neg (not_or.2 ⟨hd, not_or.2 ⟨hf, ht⟩⟩)]

theorem runCaParity_of_up (hd : (chOf s h c).st ≠ .down) (hf : (chOf s h c).st ≠ .failed) (n : Nat) :
    runCaParity h c n [] s = if n = 0 then logNow h (rpt (chUnit h c) 2 clsCE 0x0403 0) (memCe h c s)
      else fullRetrain h c (n = 1) (memUe h c 0 true (logNow h (rpt (chUnit h c) 2 clsUC 0x0403 0) s)) := by
  rw [runCaParity, if_neg (not_or.2 ⟨hd, hf⟩)]
  rfl

/-! ### Merge entries (R275, R276) -/

theorem runMergeDrain_of_channel {e : Merge} (hc : c < 16) (he : (chOf s h c).merges[i]? = some e) :
    runMergeDrain h c i err s = updMem h (fun m => memPut m e.sector (memBytes m e.sector) (m.poison.contains e.sector))
      (if e.mask = 2 ^ 64 - 1 then s else memErr h (e.sector * 64) err (bump (chUnit h c) 0x287 1 s)) := by
  rw [runMergeDrain, if_neg (Nat.not_le.2 hc)]
  simp only [he]

theorem runMergeDrain_of_sram : runMergeDrain h (16 + g) i err s = sramDrain h g i err s := by
  rw [runMergeDrain, if_pos (Nat.le_add_right 16 g), Nat.add_sub_cancel_left]

/-- An entry of an SRAM array group drains; a bad merge read loses a Stockpot line or damages a log entry. -/
theorem sramDrain_of_entry (hw : (tget [] s.units.sram (h.n * 16 + g))[i]? = some w) :
    let s1 := updSram (h.n * 16 + g) (fun l => l.eraseIdx i) s
    sramDrain h g i 0 s = s1 ∧
    (g < 12 → sramDrain h g i 2 s = updHome h (fun x => { x with stock := x.stock.erase w }) (bucketHit (srcOf h 0xFF 0xB 0) 0 s1).1) ∧
    (g = 14 → sramDrain h g i 2 s = updLog h (fun l =>
      { l with entries := l.entries.map (fun e => if e.index = w then { e with damaged := true } else e) }) s1) := by
  refine ⟨?_, fun hg => ?_, fun hg => ?_⟩
  · simp only [sramDrain, hw, if_true]
  · unfold sramDrain
    rw [hw]
    dsimp only
    rw [if_neg (by decide), if_pos hg, if_neg (by decide)]
    rfl
  · unfold sramDrain
    rw [hw]
    dsimp only
    rw [if_neg (by decide), if_neg (by omega), if_pos ⟨hg, by decide⟩]

/-! ### Scrubbing, refresh, zeroing (R279, R280, R291) -/

theorem runPatrol_of_slot {sl : Nat} (hs : (s.mem.get h).scrubH ≠ 0) (hst : (chOf s h c).st = .mapped ∨ (chOf s h c).st = .copying)
    (hslot : slotOf (s.mem.get h) c = some sl) :
    runPatrol h c err s =
      memErr h (slotLine (s.mem.get h) sl ((chOf s h c).scrub / 4) + (chOf s h c).scrub % 4 * 64) err
        (updCh h c (fun x => { x with scrub := (x.scrub + 1) % (2 ^ (s.mem.get h).kshift / 64) }) s) := by
  have hlive : chLive (chOf s h c) = true := by
    rw [chLive, Bool.or_eq_true, beq_iff_eq, beq_iff_eq]
    exact hst
  rw [runPatrol, if_neg (not_or.2 ⟨hs, Classical.not_not.2 hlive⟩)]
  simp only [scrubOne, hslot]
  rfl

theorem runZeroed_of_zeroing (hst : (chOf s h c).st = .zeroing) :
    runZeroed h c s = if orgOk s h c then updCh h c (fun x => { x with st := .unmapped }) s
      else memConfigLog h c (updCh h c (fun x => { x with st := .unmapped }) s) := by
  rw [runZeroed, if_neg (Classical.not_not.2 hst)]

/-! ### Row disturbance (R281, R282) -/

/-- A requester throttled at level 1. -/
def newThrottle (src port : Nat) : Throttle := { src := src, port := port, level := 1, fresh := true }

/-- It joins the throttled ones of the channel. -/
def addThrottle (h : Half) (c src port : Nat) (s : State) : State :=
  rhLog h c 1 (newThrottle src port)
    (updCh h c (fun x => { x with throttled := x.throttled ++ [newThrottle src port], rhSrc := src, rhPort := port }) s)

/-- The channel once its neighbours are refreshed and the detection is counted. -/
def aggressorSeen (h : Half) (c : Nat) (s : State) : State :=
  bump (chUnit h c) 0x284 1 (updCh h c (fun x => { x with rhDetect := sat (x.rhDetect + 1) 4095, rfm := x.rfm + 1 }) s)

section Aggressor

variable (hd : (chOf s h c).st ≠ .down)
include hd

theorem runAggressor_disabled (hen : (chOf s h c).rhEn = false) : runAggressor h c src port s = aggressorSeen h c s := by
  rw [runAggressor, if_neg hd]
  exact if_pos (ne_true_of_eq_false hen)

variable (hen : (chOf s h c).rhEn = true)
include hen

theorem runAggressor_known (hk : (chOf s h c).throttled.any (fun t => t.src == src && t.port == port) = true) :
    runAggressor h c src port s = updCh h c (fun x => { x with throttled := x.throttled.map (fun t =>
      if t.src = src ∧ t.port = port then { t with level := min 8 (t.level + 1), fresh := true } else t) }) (aggressorSeen h c s) := by
  rw [runAggressor, if_neg hd]
  dsimp only
  rw [if_neg (Classical.not_not.2 hen), if_pos hk]
  rfl

theorem runAggressor_new (hk : (chOf s h c).throttled.any (fun t => t.src == src && t.port == port) = false) :
    runAggressor h c src port s =
      if (chOf s h c).throttled.length < 4 then addThrottle h c src port (aggressorSeen h c s)
      else match lowestThr (chOf s h c).throttled with
        | none => addThrottle h c src port (aggressorSeen h c s)
        | some o => addThrottle h c src port (rhLog h c 0 { o with level := 0 }
            (updCh h c (fun x => { x with throttled := x.throttled.erase o }) (aggressorSeen h c s))) := by
  rw [runAggressor, if_neg hd]
  dsimp only
  rw [if_neg (Classical.not_not.2 hen), if_neg (ne_true_of_eq_false hk)]
  rfl

end Aggressor

/-- The lowest entry is one of them, and none is lower. -/
theorem lowestThr_spec {ts : List Throttle} {o : Throttle} (h : lowestThr ts = some o) : o ∈ ts ∧ ∀ t ∈ ts, o.level ≤ t.level := by
  induction ts generalizing o with
  | nil => cases h
  | cons x ts ih =>
    cases hrest : lowestThr ts with
    | none =>
      have hnil : ts = [] := by
        cases ts with
        | nil => rfl
        | cons y ts =>
          rw [lowestThr] at hrest
          split at hrest
          · cases hrest
          · split at hrest <;> cases hrest
      simp only [lowestThr, hrest, Option.some.injEq] at h
      subst hnil h
      exact ⟨List.mem_singleton_self x, fun t ht => (List.mem_singleton.1 ht) ▸ Nat.le_refl _⟩
    | some y =>
      obtain ⟨hy, hle⟩ := ih hrest
      simp only [lowestThr, hrest] at h
      by_cases hlt : y.level < x.level
      · rw [if_pos hlt, Option.some.injEq] at h
        subst h
        exact ⟨List.mem_cons_of_mem x hy, List.forall_mem_cons.2 ⟨Nat.le_of_lt hlt, hle⟩⟩
      · rw [if_neg hlt, Option.some.injEq] at h
        subst h
        exact ⟨List.mem_cons_self, List.forall_mem_cons.2 ⟨Nat.le_refl _, fun t ht => Nat.le_trans (Nat.not_lt.1 hlt) (hle t ht)⟩⟩

/-! ### Sparing (R286, R287) -/

/-- A line whose four reads are good is copied. -/
theorem runCopyLine_good {sl : Nat} (hcopy : (s.mem.get h).copy = true) (hslot : slotOf (s.mem.get h) (s.mem.get h).copySrc = some sl)
    (hlt : (s.mem.get h).copyPtr < 2 ^ (s.mem.get h).kshift / 256) :
    runCopyLine h [0, 0, 0, 0] s = updMem h (fun k => { k with copyPtr := k.copyPtr + 1 }) s := by
  have hgo : ¬ (¬ (s.mem.get h).copy = true ∨ 2 ^ (s.mem.get h).kshift / 256 ≤ (s.mem.get h).copyPtr) :=
    not_or.2 ⟨Classical.not_not.2 hcopy, Nat.not_le.2 hlt⟩
  have hreads : (upTo 4).foldl (fun t i => memErr h (slotLine (s.mem.get h) sl (s.mem.get h).copyPtr + i * 64)
      (([0, 0, 0, 0] : List Nat).getD i 0) t) s = s := by
    have hfour : upTo 4 = [0, 1, 2, 3] := rfl
    simp only [hfour, List.foldl_cons, List.foldl_nil, List.getD_cons_zero, List.getD_cons_succ, memErr_zero]
  simp only [runCopyLine, hslot]
  rw [if_neg hgo, hreads, if_pos hcopy]

theorem runCopyComplete_of_end (hcopy : (s.mem.get h).copy = true) (hend : 2 ^ (s.mem.get h).kshift / 256 ≤ (s.mem.get h).copyPtr) :
    let m := s.mem.get h
    let s1 := updCh h m.copyDst (fun x => { x with st := .mapped }) (updCh h m.copySrc (fun x => { x with st := .failed }) s)
    let s2 := updMem h (fun k => { k with map := k.map.map (fun c => if c = m.copySrc then m.copyDst else c), copy := false,
                                          copyCmd := none, spareCh := 15, failedHold := setIns k.failedHold m.copySrc }) s1
    runCopyComplete h s = finishOpt m.copyCmd stDone 1 m.copyDst
      (logNow h (rpt (chUnit h m.copySrc) 2 clsCR 0x0406 (res [(1, m.copySrc), (1, m.copyDst)])) s2) := by
  rw [runCopyComplete, if_neg (not_or.2 ⟨Classical.not_not.2 hcopy, Nat.not_lt.2 hend⟩)]

/-- Settles O42: each event by the channel's state and the outcome it brings. -/
theorem channels : Obligations.Channels := by
  refine ⟨?_, ?_, ?_⟩
  · intro h c s k hlive full
    refine ⟨fun hd hf ht => ⟨?_, ?_, ?_⟩, fun hd hf => ⟨?_, ?_, ?_⟩, ?_, ?_, fun sl err hs hst hslot => ?_, fun b hd => ?_, fun hst => ?_, ?_⟩
    · exact exec_of_live (f := runRetrain h c 0) rfl hlive ((runRetrain_of_up hd hf ht 0).trans (if_pos rfl))
    · exact exec_of_live (f := runRetrain h c 1) rfl hlive (runRetrain_of_up hd hf ht 1)
    · exact exec_of_live (f := runRetrain h c 2) rfl hlive (runRetrain_of_up hd hf ht 2)
    · exact exec_of_live (f := runCaParity h c 0 []) rfl hlive (runCaParity_of_up hd hf 0)
    · exact exec_of_live (f := runCaParity h c 1 []) rfl hlive (runCaParity_of_up hd hf 1)
    · exact exec_of_live (f := runCaParity h c 2 []) rfl hlive (runCaParity_of_up hd hf 2)
    · intro i e hc he put
      refine ⟨fun hfull err => ?_, fun hpart => ?_⟩
      · refine exec_of_live (f := runMergeDrain h c i err) rfl hlive ((runMergeDrain_of_channel hc he).trans ?_)
        rw [if_pos hfull]
      · refine exec_of_live (f := runMergeDrain h c i 0) rfl hlive ((runMergeDrain_of_channel hc he).trans ?_)
        rw [if_neg hpart, memErr_zero]
    · intro g i w hw s1
      obtain ⟨hgood, hstock, hlog⟩ := sramDrain_of_entry hw
      exact ⟨exec_of_live (f := runMergeDrain h (16 + g) i 0) rfl hlive (runMergeDrain_of_sram.trans hgood),
        fun hg => exec_of_live (f := runMergeDrain h (16 + g) i 2) rfl hlive (runMergeDrain_of_sram.trans (hstock hg)),
        fun hg => exec_of_live (f := runMergeDrain h (16 + g) i 2) rfl hlive (runMergeDrain_of_sram.trans (hlog hg))⟩
    · exact exec_of_live (f := runPatrol h c err) rfl hlive (runPatrol_of_slot hs hst hslot)
    · exact exec_of_live (f := runRfm h c b) rfl hlive (if_neg hd)
    · exact exec_of_live (f := runZeroed h c) rfl hlive (runZeroed_of_zeroing hst)
    · exact exec_of_live (f := runMemUeClear h c) rfl hlive rfl
  · intro h c src port s k hlive hd s1 known new add
    refine ⟨fun hen => ?_, fun hen hk => ?_, fun hen hk hlt => ?_, fun o hen hk hle ho => ?_, ?_, fun o ho => lowestThr_spec ho⟩
    · exact exec_of_live (f := runAggressor h c src port) rfl hlive (runAggressor_disabled hd hen)
    · exact exec_of_live (f := runAggressor h c src port) rfl hlive (runAggressor_known hd hen hk)
    · exact exec_of_live (f := runAggressor h c src port) rfl hlive ((runAggressor_new hd hen hk).trans (if_pos hlt))
    · refine exec_of_live (f := runAggressor h c src port) rfl hlive ((runAggressor_new hd hen hk).trans ((if_neg (Nat.not_lt.2 hle)).trans ?_))
      have hlow : lowestThr (chOf s h c).throttled = some o := ho
      rw [hlow]
      rfl
    · exact exec_of_live (f := runWindowEnd h c) rfl hlive rfl
  · intro h s m hlive hcopy
    refine ⟨fun sl hslot hlt => ?_, ?_⟩
    · exact exec_of_live (f := runCopyLine h [0, 0, 0, 0]) rfl hlive (runCopyLine_good hcopy hslot hlt)
    · intro hend s1 s2
      exact exec_of_live (f := runCopyComplete h) rfl hlive (runCopyComplete_of_end hcopy hend)

end Sys2Proof.Machine
end

section
/-! Starts, statuses and events of the channel subsystem, and its path ports (R302–R345). -/
namespace Sys2Proof.Machine

variable {h : Half} {i n pp : Nat} {e : Ift} {s s1 : State}

/-! ### Starts and statuses (R313, R314, R324, R325) -/

theorem dispatchNext_of_path {p : Nat} (ha : activeOf s h n = none) (hq : oldest (queuedOf s h n) = some (i, e))
    (hp : choosePath s (subOf s h n) (pathsUp s h (subOf s h n)) = some p) : dispatchNext h n s = dispatchOn h i p s := by
  simp only [dispatchNext, ha, hq, hp]

theorem dispatchNext_of_no_path (ha : activeOf s h n = none) (hq : oldest (queuedOf s h n) = some (i, e))
    (hp : choosePath s (subOf s h n) (pathsUp s h (subOf s h n)) = none) : dispatchNext h n s = decideOp h i 7 0 0 0 s := by
  simp only [dispatchNext, ha, hq, hp]

theorem runStartEntry_of_front {q p fn : Nat} {d : List Byte} (hd : qpFront s q 1 = some d) (ho : qpOwner s q = some (p, fn)) :
    let n := fieldAt d 0x20 2
    let b := subOf s (subHub s n) n
    let r := if subReach s (portHalf p) n ∧ b.otype = 1 ∧ b.owner = fnKey p fn then
        cssStart (subHub s n) n (fieldAt d 0 8) (fieldAt d 8 8) (bitOf (fieldAt d 0x10 2) 0) (fieldAt d 0x14 4) false s
      else (3, 0, s)
    runStartEntry q s = qpResult q r.2.1 (fieldAt d 0x22 2) r.1 r.2.2 := by
  simp only [runStartEntry, hd, ho]

theorem shownStatus_of_decided (hst : e.st = 6) : shownStatus e = (e.fstat, e.reason) := by
  rw [shownStatus, hst, if_neg (by decide)]

/-- A decided status goes to the tail slot of its queue with the queue's phase. -/
theorem runCqPost_of_decided (hst : (iftOf s h i).st = 6) (ho : (iftOf s h i).otype ≠ 2) (hw : waitsBehind s h i = false)
    (hroom : cqRoom (cqOf s h (cqKey s h (iftOf s h i))) = true)
    (hdma : let q := cqOf s h (cqKey s h (iftOf s h i))
      dmaWrite s h (q.base + q.tail * 32) (recordBytes (iftOf s h i) (iftOf s h i).fstat true q.phase (iftOf s h i).reason) =
        some (s1, false)) :
    let e := iftOf s h i
    let k := cqKey s h e
    let q := cqOf s h k
    let t := (q.tail + 1) % cqSlots q
    let s2 := updCq h k (fun x => { x with tail := t, phase := if t = 0 then !x.phase else x.phase }) s1
    let s3 := updIft h i (fun x => { x with st := 8, slot := q.tail, fstat := e.fstat, reason := e.reason }) s2
    runCqPost h i s = if e.notify then cqIrq q s3 else s3 := by
  simp only [runCqPost, if_pos (show _ ∧ _ ∧ ¬ waitsBehind s h i = true from ⟨hst, ho, ne_true_of_eq_false hw⟩), postRecord,
    if_neg (Classical.not_not.2 hroom), shownStatus_of_decided hst, hdma]

/-- Settles O43: dispatches, starts, posted statuses and retired entries, by the case each is in. -/
theorem channelQueues : Obligations.ChannelQueues := by
  intro h s hlive
  refine ⟨fun n i e ha hq => ?_, fun q d p fn hd ho => ?_, fun i s1 => ?_, fun k v => ?_⟩
  · intro b
    exact ⟨fun p hp => exec_of_live (f := dispatchNext h n) rfl hlive (dispatchNext_of_path ha hq hp),
      fun hp => exec_of_live (f := dispatchNext h n) rfl hlive (dispatchNext_of_no_path ha hq hp)⟩
  · intro n g mine
    refine ⟨fun hm => ?_, fun hm => ?_⟩
    · intro r
      refine exec_of_live (f := runStartEntry q) rfl hlive ((runStartEntry_of_front hd ho).trans ?_)
      rw [if_pos hm]
    · refine exec_of_live (f := runStartEntry q) rfl hlive ((runStartEntry_of_front hd ho).trans ?_)
      rw [if_neg hm]
  · intro e k q hst ho hw hroom hdma
    exact exec_of_live (f := runCqPost h i) rfl hlive (runCqPost_of_decided hst ho hw hroom hdma)
  · intro q n past
    refine ⟨fun hbad => ?_, fun hv hpast => ?_⟩
    · exact exec_of_live (f := runCqHead h k v) rfl hlive (if_pos hbad)
    · exact exec_of_live (f := runCqHead h k v) rfl hlive (if_neg (not_or.2 ⟨Nat.not_le.2 hv, Nat.not_lt.2 hpast⟩))

/-! ### What moves or ends an operation (R315–R317, R332, R333, R337, R342) -/

theorem runOpTimeout_of_limit (hl : (iftOf s h i).live = true) (ht : (iftOf s h i).tmo ≠ 0) :
    let e := iftOf s h i
    let n := (ppOf s e.pp).touts + 1
    let s1 := updPp e.pp (fun x => { x with touts := n }) s
    runOpTimeout h i s = losePath h i 2 (if 3 ≤ n ∧ (ppOf s e.pp).st = 2 then failPort e.pp 4 s1 else s1) := by
  rw [runOpTimeout, if_neg (not_or.2 ⟨Classical.not_not.2 hl, ht⟩)]

theorem runQueryEnd_of_query (hst : (iftOf s h i).st = 5) (hw : (iftOf s h i).why = 6) (o : Nat) :
    runQueryEnd h i o s = queryEnd h i o s := if_pos ⟨hst, hw⟩

theorem wakeOp_of_live (hl : (iftOf s h i).live = true) :
    let s1 := updIft h i (fun x => { x with evs := x.evs.lor 1 }) s
    wakeOp h i 0 s = if (iftOf s h i).parked = true ∧ bitOf (iftOf s h i).mask 0 = true then runEntry h i 1 s1 else s1 := by
  simp only [wakeOp, hl, true_and, Nat.pow_zero]

theorem runEventPage_of_parked {c k : Nat}
    (hf : (cssOf s h).ift.find? (fun x => x.2.live && x.2.cpe == c && x.2.park == some k && x.2.parked) = some (i, iftOf s h i)) :
    let s1 := updIft h i (fun x => { x with evs := x.evs.lor 1 }) s
    runEventPage h c k s = if bitOf (iftOf s h i).mask 0 = true then runEntry h i 1 s1 else s1 := by
  have hp := List.find?_some hf
  simp only [Bool.and_eq_true] at hp
  obtain ⟨⟨⟨hl, -⟩, -⟩, hparked⟩ := hp
  simp only [runEventPage, hf, wakeOp_of_live hl, hparked, true_and]

/-- Settles O44: each event under its guard, the recovery query by its outcome. -/
theorem operationEvents : Obligations.OperationEvents := by
  intro h i s e hlive
  refine ⟨fun hl ht => ?_, fun hl hp hst => ?_, fun o hst hw => ⟨fun ho => ?_, fun ho hr => ?_, fun ho hr => ?_⟩, fun hst => ?_,
    fun hl hf hd => ?_, fun hl => ?_, fun c k hf => ?_⟩
  · intro n s1
    exact exec_of_live (f := runOpTimeout h i) rfl hlive (runOpTimeout_of_limit hl ht)
  · exact exec_of_live (f := runPathdown h i) rfl hlive (if_pos ⟨hl, ne_true_of_eq_false hp, hst⟩)
  · exact exec_of_live (f := runQueryEnd h i o) rfl hlive ((runQueryEnd_of_query hst hw o).trans (if_pos ho))
  · exact exec_of_live (f := runQueryEnd h i o) rfl hlive
      ((runQueryEnd_of_query hst hw o).trans ((if_neg (Nat.not_le.2 ho)).trans (if_pos hr)))
  · exact exec_of_live (f := runQueryEnd h i o) rfl hlive
      ((runQueryEnd_of_query hst hw o).trans ((if_neg (Nat.not_le.2 ho)).trans (if_neg (Nat.not_le.2 hr))))
  · exact exec_of_live (f := runConfirmTimeout h i) rfl hlive (if_pos hst)
  · exact exec_of_live (f := runFreezeTimeout h i) rfl hlive (if_pos ⟨hl, hf, hd⟩)
  · intro s1
    exact exec_of_live (f := runDeviceEvent h i) rfl hlive ((if_pos hl).trans (wakeOp_of_live hl))
  · intro s1
    exact exec_of_live (f := runEventPage h c k) rfl hlive (runEventPage_of_parked hf)

/-! ### Path ports (R302–R305, R345) -/

theorem failPort_of_running {cause : Nat} (hst : (ppOf s pp).st ≠ 4) :
    failPort pp cause s = bump (pathUnit pp) 0x3C2 1 (logNow (portHub pp) (rpt (pathUnit pp) 2 clsCR 0x0601 (pp % 16 + cause * 256))
      (updPp pp (fun x => { x with st := 4, fails := sat (x.fails + 1) 255, cause := cause, cycle := 0, pathups := [],
                                   linkUp := x.linkUp && cause != 0,
                                   gen := if cause = 0 then 0 else x.gen, width := if cause = 0 then 0 else x.width }) s)) :=
  if_neg hst

theorem runPortFailed_of_running {cause : Nat} (hst : (ppOf s pp).st = 1 ∨ (ppOf s pp).st = 2) :
    runPortFailed pp cause s = failPort pp cause s := by
  have hne : (ppOf s pp).st ≠ 3 := by omega
  rw [runPortFailed, if_pos (by omega), if_neg hne]

theorem runPortFailed_of_offline (hst : (ppOf s pp).st = 3) :
    runPortFailed pp 0 s = updPp pp (fun x => { x with linkUp := false, gen := 0, width := 0 }) s := by
  rw [runPortFailed, if_pos (.inr (.inr ⟨rfl, hst⟩)), if_pos hst]

/-- A recovery cycle of a port that initialises: its link trains, then a wrong endpoint, no image to bring up, or PATHUP for each. -/
theorem runPathCycle_of_initialising {gen width : Nat} {sw : Bool} (hp : (ppOf s pp).perst = false) (hst : (ppOf s pp).st = 1) :
    let s1 := updPp pp (fun x => { x with linkUp := true, gen := gen % 8, width := width % 4 }) s
    runPathCycle pp gen width sw s = if sw then failPort pp 5 s1 else
      if pathupImages s pp = [] then portOnline pp s1 else (pathupImages s pp).foldl
        (fun t k => pushJob (halfOf (k / 16)) (freeVal t % 32) ⟨5, 0, pp, k % 16⟩ (drawn t))
        (updPp pp (fun x => { x with cycle := 3, pathups := pathupImages s pp }) s1) := by
  have hne : (ppOf s pp).st ≠ 4 := by omega
  rw [runPathCycle, if_neg (not_or.2 ⟨ne_true_of_eq_false hp, Classical.not_not.2 (.inl hst)⟩)]
  dsimp only
  rw [if_neg hne]

theorem runPathupEnd_of_awaited {im o : Nat} (hc : (ppOf s pp).cycle = 3) (hm : (ppOf s pp).pathups.contains im = true) :
    runPathupEnd pp im o s = if o ≠ 0 then updPp pp (fun x => { x with cycle := 4, pathups := [] }) s
      else if (ppOf s pp).pathups.erase im = [] then portOnline pp s
      else updPp pp (fun x => { x with pathups := (ppOf s pp).pathups.erase im }) s :=
  if_neg (not_or.2 ⟨Classical.not_not.2 hc, Classical.not_not.2 hm⟩)

/-- With nothing left on the port its going offline ends, the command that asked for it answered. -/
theorem runOfflineLimit_of_quiet (hst : (ppOf s pp).st = 3)
    (hq : ∀ g ∈ [Half.a, Half.b], ∀ e ∈ (cssOf s g).ift, ¬ (e.2.live = true ∧ e.2.pp = pp)) :
    runOfflineLimit pp s = finishOpt (ppOf s pp).cmd stDone 2 (subsMoved s pp) (updPp pp (fun x => { x with cmd := none }) s) := by
  have hnone (g : Half) (hg : g ∈ [Half.a, Half.b]) : (cssOf s g).ift.filter (fun e => e.2.live && e.2.pp == pp) = [] :=
    List.filter_eq_nil_iff.2 fun e he hon => hq g hg e he (by simpa using hon)
  rw [runOfflineLimit, if_neg (Classical.not_not.2 hst)]
  simp only [hnone .a (by decide), hnone .b (by decide), List.foldl_nil]

theorem runPathInbound_event_read {pa m c off : Nat} (hs : eventSlot (portHub pp) pa = some (c, off)) :
    runPathInbound pp pa m none s = pathSend pp (.cpl (List.replicate m 0) false) s := by
  simp only [runPathInbound, hs, Option.isSome_some, if_true]

theorem runPathInbound_event_write {pa m c off : Nat} {d : List Byte} (hs : eventSlot (portHub pp) pa = some (c, off))
    (hoff : off % 0x20 = 0) : runPathInbound pp pa m (some d) s = runEventPage (portHub pp) c (off / 0x20) s := by
  simp only [runPathInbound, hs, if_pos hoff]

section
variable {pa m : Nat} {d : List Byte} (hs : eventSlot (portHub pp) pa = none)
include hs

theorem runPathInbound_read {ep : Bool} (hr : endpointRead s pp pa m = some (d, ep)) :
    runPathInbound pp pa m none s = pathSend pp (.cpl d ep) s := by
  simp only [runPathInbound, hs, Option.isSome_none, Bool.false_eq_true, if_false, hr]

theorem runPathInbound_read_refused (hr : endpointRead s pp pa m = none) : runPathInbound pp pa m none s = pathUr pp s := by
  simp only [runPathInbound, hs, Option.isSome_none, Bool.false_eq_true, if_false, hr]

theorem runPathInbound_write {bad : Bool} (hw : endpointWrite s pp pa d = some (s1, bad)) :
    runPathInbound pp pa m (some d) s = s1 := by
  simp only [runPathInbound, hs, hw]

theorem runPathInbound_write_refused (hw : endpointWrite s pp pa d = none) : runPathInbound pp pa m (some d) s = pathUr pp s := by
  simp only [runPathInbound, hs, hw]
end

/-- Settles O45: each event of a port by the state it stands in, each request by where its address leads. -/
theorem pathPorts : Obligations.PathPorts := by
  intro pp s p hlive
  refine ⟨fun cause hst => ?_, fun hst => ?_, fun gen width hp hst => ?_, fun hst => ?_,
    fun im hc hm => ⟨fun o ho => ?_, fun he => ?_, fun he => ?_⟩, fun hst hq => ?_, fun pa n d ep hs hr => ?_,
    fun pa n d t bad hs hw => ?_, fun pa n d c off hs => ⟨?_, fun hoff => ?_⟩, fun pa n d hs => ?_⟩
  · exact exec_of_live (f := runPortFailed pp cause) rfl hlive
      ((runPortFailed_of_running hst).trans (failPort_of_running fun h4 => by simp [p, h4] at hst))
  · exact exec_of_live (f := runPortFailed pp 0) rfl hlive (runPortFailed_of_offline hst)
  · intro s1
    refine ⟨?_, fun hi => ?_, fun hi => ?_⟩
    · exact exec_of_live (f := runPathCycle pp gen width true) rfl hlive (runPathCycle_of_initialising hp hst)
    · exact exec_of_live (f := runPathCycle pp gen width false) rfl hlive ((runPathCycle_of_initialising hp hst).trans (if_pos hi))
    · exact exec_of_live (f := runPathCycle pp gen width false) rfl hlive ((runPathCycle_of_initialising hp hst).trans (if_neg hi))
  · exact exec_of_live (f := runPathTrainTimeout pp) rfl hlive (if_pos hst)
  · exact exec_of_live (f := runPathupEnd pp im o) rfl hlive ((runPathupEnd_of_awaited hc hm).trans (if_pos ho))
  · exact exec_of_live (f := runPathupEnd pp im 0) rfl hlive ((runPathupEnd_of_awaited hc hm).trans (if_pos he))
  · exact exec_of_live (f := runPathupEnd pp im 0) rfl hlive ((runPathupEnd_of_awaited hc hm).trans (if_neg he))
  · exact exec_of_live (f := runOfflineLimit pp) rfl hlive (runOfflineLimit_of_quiet hst hq)
  · exact exec_of_live (f := runPathInbound pp pa n none) rfl hlive (runPathInbound_read hs hr)
  · exact exec_of_live (f := runPathInbound pp pa n (some d)) rfl hlive (runPathInbound_write hs hw)
  · exact exec_of_live (f := runPathInbound pp pa n none) rfl hlive (runPathInbound_event_read hs)
  · rw [exec_eq_of_live (f := runPathInbound pp pa n (some d)) rfl hlive,
      exec_eq_of_live (f := runEventPage (portHub pp) c (off / 0x20)) rfl hlive, runPathInbound_event_write hs hoff]
  · intro ur
    exact ⟨fun hr => exec_of_live (f := runPathInbound pp pa n none) rfl hlive (runPathInbound_read_refused hs hr),
      fun hw => exec_of_live (f := runPathInbound pp pa n (some d)) rfl hlive (runPathInbound_write_refused hs hw)⟩

end Sys2Proof.Machine
end

section
/-! Instructions of the channel path engines (R329, R335, R339–R344). -/
namespace Sys2Proof.Machine

variable {o : CpeOp} {k : Cpe} {j : Job} {s : State}

/-! ### An instruction in its entry (R339–R341, R343) -/

theorem cpeDone_eq_cpeAfter (wr loads : List (Nat × W32)) (pc : Nat) : cpeDone o k wr loads pc s = cpeAfter o k wr loads pc s := by
  simp only [cpeDone, kcommit, kset, cpeAfter, List.foldl_append]

theorem onEntry_of_cpeIn {body : Cpe → Job → State → State} (hin : cpeIn o k j s) : onEntry o body s = body k j s := by
  obtain ⟨-, rfl, hcur, hal, hpc⟩ := hin
  simp only [onEntry, hcur]
  rw [if_neg (not_or.2 ⟨Classical.not_not.2 hal, Nat.not_le.2 hpc⟩)]

theorem onCpe_of_cpeRuns {body : Cpe → Job → State → State} (hr : cpeRuns o k j s) : onCpe o body s = body k j s := by
  obtain ⟨hin, hcount⟩ := hr
  rw [onCpe, onEntry_of_cpeIn hin, if_neg (Nat.not_le.2 hcount)]

theorem onCpe_of_spent {body : Cpe → Job → State → State} (hin : cpeIn o k j s) (hc : 65535 ≤ k.count) :
    onCpe o body s = cpeFault o.hub o.cpe j k.pc s := by
  rw [onCpe, onEntry_of_cpeIn hin, if_pos hc]

theorem onEntry_of_idle {body : Cpe → Job → State → State} (hcur : (cpeOf s o.hub o.cpe).cur = none) : onEntry o body s = s := by
  simp only [onEntry, hcur]

theorem onEntry_of_bad_pc {body : Cpe → Job → State → State} (hcur : (cpeOf s o.hub o.cpe).cur = some j)
    (hpc : (cpeOf s o.hub o.cpe).pc % 4 ≠ 0 ∨ 0x40000 ≤ (cpeOf s o.hub o.cpe).pc) :
    onEntry o body s = cpeFault o.hub o.cpe j (cpeOf s o.hub o.cpe).pc s := by
  simp only [onEntry, hcur]
  rw [if_pos hpc]

/-- An instruction that is performed within its entry, from what its body leaves. -/
theorem exec_of_cpeRuns {i : Instr} {body : Cpe → Job → State → State} {t : State} (hi : exec i s = act (onCpe o body) s)
    (hr : cpeRuns o k j s) (hbody : body k j s = t) : exec i s = .next t :=
  exec_of_live (f := onCpe o body) hi hr.1.1 ((onCpe_of_cpeRuns hr).trans hbody)

theorem exec_of_cpeIn {i : Instr} {body : Cpe → Job → State → State} {t : State} (hi : exec i s = act (onEntry o body) s)
    (hin : cpeIn o k j s) (hbody : body k j s = t) : exec i s = .next t :=
  exec_of_live (f := onEntry o body) hi hin.1 ((onEntry_of_cpeIn hin).trans hbody)

/-! ### Arithmetic, logic, branches and jumps -/

section
variable (hr : cpeRuns o k j s)
include hr

theorem exec_cpeAlu {i : Instr} {f : W32 → W32 → W32} (hi : exec i s = act (cpeAlu o f) s) (h0 : o.imm % 2048 = 0) :
    exec i s = .next (cpeAfter o k [(o.x, f (kget k o.y) (kget k (o.imm / 2048)))] [] (k.pc + 4) s) :=
  exec_of_cpeRuns hi hr ((if_neg (Classical.not_not.2 h0)).trans (cpeDone_eq_cpeAfter ..))

theorem exec_cpeImm {i : Instr} {f : W32 → W32} (hi : exec i s = act (cpeImm o f) s) :
    exec i s = .next (cpeAfter o k [(o.x, f (kget k o.y))] [] (k.pc + 4) s) :=
  exec_of_cpeRuns hi hr (cpeDone_eq_cpeAfter ..)

theorem exec_cpeBranch {i : Instr} {p : W32 → W32 → Bool} (hi : exec i s = act (cpeBranch o p) s) :
    exec i s = .next (cpeAfter o k [] [] (if p (kget k o.x) (kget k o.y) then k.pc + 4 + (imm16s o).toNat * 4 % 2 ^ 32 else k.pc + 4) s) :=
  exec_of_cpeRuns hi hr (cpeDone_eq_cpeAfter ..)

theorem exec_cpeJal (hy : o.y % 32 = 0) : exec (.cpeJal o) s =
    .next (cpeAfter o k [(o.x, BitVec.ofNat 32 (k.pc + 4))] [] (k.pc + 4 + (imm16s o).toNat * 4 % 2 ^ 32) s) :=
  exec_of_cpeRuns (i := .cpeJal o) rfl hr ((if_neg (Classical.not_not.2 hy)).trans (cpeDone_eq_cpeAfter ..))

theorem exec_cpeJr (hx : o.x % 32 = 0) (him : o.imm % 65536 = 0) :
    exec (.cpeJr o) s = .next (cpeAfter o k [] [] (kget k o.y).toNat s) :=
  exec_of_cpeRuns (i := .cpeJr o) rfl hr ((if_neg (not_or.2 ⟨Classical.not_not.2 hx, Classical.not_not.2 him⟩)).trans (cpeDone_eq_cpeAfter ..))
end

theorem imm16z_eq_zeroExtend : imm16z o = (BitVec.ofNat 16 o.imm).zeroExtend 32 :=
  BitVec.eq_of_toNat_eq (by simp [imm16z])

theorem upper_eq_shift : BitVec.ofNat 32 (o.imm % 65536 * 65536) = imm16z o <<< 16 :=
  BitVec.eq_of_toNat_eq (by simp [imm16z, Nat.shiftLeft_eq])

/-! ### Loads and stores (R339, R340, R343) -/

/-- Where the address of a load or store leads. -/
def cpeTarget (o : CpeOp) (k : Cpe) (j : Job) (n : Nat) (s : State) : CpeWhere :=
  cpeWhere s o.hub o.cpe k j (kget k o.y + imm16s o).toNat n

/-- What a load of memory leaves. -/
def cpeLoadedAt (o : CpeOp) (k : Cpe) (n pa : Nat) (d : List Byte) (s : State) : State :=
  cpeAfter o { k with stream := cpeStreamLoad pa k.stream } [] [(o.x, BitVec.ofNat 32 (ofBytes d % 256 ^ n))] (k.pc + 4)
    (cpeFill o.hub o.cpe pa s)

/-- What a store to memory leaves. -/
def cpeStoredAt (o : CpeOp) (k : Cpe) (pa : Nat) (d : List Byte) (s : State) : State :=
  cpeAfter o { k with stream := cpeStreamStore pa d.length k.stream } [] [] (k.pc + 4) (cpeWrite o.hub o.cpe pa d k.stream s)

theorem cpeLoaded_some {n a pa : Nat} {d : List Byte} {bad : Bool} :
    cpeLoaded n o k j a pa (some (d, bad)) s = cpeLoadedAt o k n pa d s := cpeDone_eq_cpeAfter ..

theorem cpeStored_eq {pa : Nat} {d : List Byte} : cpeStored o k pa d s = cpeStoredAt o k pa d s := cpeDone_eq_cpeAfter ..

section
variable {i : Instr} {n pa : Nat} {wr : Bool} (hr : cpeRuns o k j s)
include hr

section
variable (hi : exec i s = act (cpeLoad n o) s)
include hi

theorem exec_cpeLoad_image {d : List Byte} {bad : Bool} (hw : cpeTarget o k j n s = .img pa wr)
    (hd : dmaReadRaw s o.hub pa n = some (d, bad)) : exec i s = .next (cpeLoadedAt o k n pa d s) := by
  refine exec_of_cpeRuns hi hr ?_
  rw [cpeTarget] at hw
  simp only [hw, hd, cpeLoaded_some]

theorem exec_cpeLoad_dram {d : List Byte} {bad : Bool} (hw : cpeTarget o k j n s = .dram pa)
    (hd : dmaRead s o.hub pa n = some (d, bad)) : exec i s = .next (cpeLoadedAt o k n pa d s) := by
  refine exec_of_cpeRuns hi hr ?_
  rw [cpeTarget] at hw
  simp only [hw, hd, cpeLoaded_some]

theorem exec_cpeLoad_path {p off : Nat} (hw : cpeTarget o k j n s = .path p off) :
    exec i s = .next (cpeAfter o k [] [(o.x, BitVec.ofNat 32 (o.dev % 256 ^ n))] (k.pc + 4) s) := by
  refine exec_of_cpeRuns hi hr ?_
  rw [cpeTarget] at hw
  simp only [hw, cpeDone_eq_cpeAfter]

theorem exec_cpeLoad_nowhere (hw : cpeTarget o k j n s = .bad ∨
      (∃ pa wr, cpeTarget o k j n s = .img pa wr ∧ dmaReadRaw s o.hub pa n = none) ∨
      (∃ pa, cpeTarget o k j n s = .dram pa ∧ dmaRead s o.hub pa n = none)) :
    exec i s = .next (cpeFault o.hub o.cpe j (kget k o.y + imm16s o).toNat s) := by
  refine exec_of_cpeRuns hi hr ?_
  simp only [cpeTarget] at hw
  obtain hw | ⟨pa, wr, hw, hd⟩ | ⟨pa, hw, hd⟩ := hw
  · simp only [hw]
  · simp only [hw, hd, cpeLoaded]
  · simp only [hw, hd, cpeLoaded]
end

section
variable (hi : exec i s = act (cpeStore n o) s)
include hi

theorem exec_cpeStore_image (hw : cpeTarget o k j n s = .img pa true) (hd : dramRaw s o.hub pa n = true) :
    exec i s = .next (cpeStoredAt o k pa (toBytes n (kget k o.x).toNat) s) := by
  refine exec_of_cpeRuns hi hr ?_
  rw [cpeTarget] at hw
  simp only [hw, hd, Bool.and_self, if_true, cpeStored_eq]

theorem exec_cpeStore_dram (hw : cpeTarget o k j n s = .dram pa) (hd : dramOk s o.hub pa n = true) :
    exec i s = .next (cpeStoredAt o k pa (toBytes n (kget k o.x).toNat) s) := by
  refine exec_of_cpeRuns hi hr ?_
  rw [cpeTarget] at hw
  simp only [hw, hd, if_true, cpeStored_eq]

theorem exec_cpeStore_path {p off : Nat} (hw : cpeTarget o k j n s = .path p off) : exec i s =
    .next (cpeAfter o k [] [] (k.pc + 4) (pathSend p (.write off (toBytes n (kget k o.x).toNat)) s)) := by
  refine exec_of_cpeRuns hi hr ?_
  rw [cpeTarget] at hw
  simp only [hw, cpeDone_eq_cpeAfter]

theorem exec_cpeStore_nowhere (hw : cpeTarget o k j n s = .bad ∨ (∃ pa, cpeTarget o k j n s = .img pa false) ∨
      (∃ pa, cpeTarget o k j n s = .img pa true ∧ dramRaw s o.hub pa n = false) ∨
      (∃ pa, cpeTarget o k j n s = .dram pa ∧ dramOk s o.hub pa n = false)) :
    exec i s = .next (cpeFault o.hub o.cpe j (kget k o.y + imm16s o).toNat s) := by
  refine exec_of_cpeRuns hi hr ?_
  simp only [cpeTarget] at hw
  obtain hw | ⟨pa, hw⟩ | ⟨pa, hw, hd⟩ | ⟨pa, hw, hd⟩ := hw
  · simp only [hw]
  · simp only [hw, Bool.false_and, Bool.false_eq_true, if_false]
  · simp only [hw, hd, Bool.and_false, Bool.false_eq_true, if_false]
  · simp only [hw, hd, Bool.false_eq_true, if_false]
end
end

/-! ### What concerns the operation itself (R329, R335, R339–R344) -/

section
variable (hr : cpeRuns o k j s)
include hr

theorem exec_ckpt (hk : j.kind ≠ 5) : exec (.ckpt o) s = .next (updIft o.hub j.ift (fun x =>
    { x with touched := x.touched || bitOf (kget k o.y).toNat 0, nonidem := x.nonidem || bitOf (kget k o.y).toNat 1,
             sense := x.sense || bitOf (kget k o.y).toNat 2 }) (cpeAfter o k [] [] (k.pc + 4) s)) := by
  refine exec_of_cpeRuns (i := .ckpt o) rfl hr ((if_neg hk).trans ?_)
  rw [cpeDone_eq_cpeAfter]

theorem exec_evaddr {sl : Nat} (hk : j.kind ≠ 5) (hp : (iftOf s o.hub j.ift).park = some sl) :
    let a := eventAddr o.hub o.cpe sl
    exec (.evaddr o) s =
      .next (cpeAfter o k [(o.x, BitVec.ofNat 32 a), (o.x + 1, BitVec.ofNat 32 (a / 2 ^ 32))] [] (k.pc + 4) s) := by
  refine exec_of_cpeRuns (i := .evaddr o) rfl hr ?_
  simp only [if_neg hk, hp, cpeDone_eq_cpeAfter]

theorem exec_wset {g : Half} {p x : Nat} (him : o.imm % 65536 < 3) :
    let base := ((kget k o.y).toNat * 2 ^ 32 + (kget k o.x).toNat) % 2 ^ 52 / 2 ^ 30 * 2 ^ 30
    regionOf base = .path g p x → (jobPorts s o.hub j).contains (g.n * 16 + p) = true →
    exec (.wset o) s = .next (updCpe o.hub o.cpe (fun y =>
      { y with wins := (o.imm % 4, base) :: y.wins.filter (fun z => z.1 ≠ o.imm % 4) }) (cpeAfter o k [] [] (k.pc + 4) s)) := by
  intro base hb hp
  refine exec_of_cpeRuns (i := .wset o) rfl hr ?_
  have hw : o.imm % 4 ≠ 3 := by omega
  have hz : o.imm % 65536 / 4 = 0 := by omega
  dsimp only
  rw [show regionOf (((kget k o.y).toNat * 2 ^ 32 + (kget k o.x).toNat) % 2 ^ 52 / 2 ^ 30 * 2 ^ 30) = .path g p x from hb,
    if_neg (not_or.2 ⟨hw, not_or.2 ⟨Classical.not_not.2 hz, Classical.not_not.2 hp⟩⟩), cpeDone_eq_cpeAfter]

theorem exec_nxcmd_past_limit (hp : pastLimit s = true) : exec (.nxcmd o) s = .next s :=
  exec_of_cpeRuns (i := .nxcmd o) rfl hr (if_pos hp)

theorem exec_nxcmd_boundary (hp : pastLimit s = false) (hk : j.kind ≠ 5) (hs : (iftOf s o.hub j.ift).svc = false)
    (hb : (iftOf s o.hub j.ift).st ≠ 2 ∨ bitOf (iftOf s o.hub j.ift).evs 5 = true) : exec (.nxcmd o) s =
      .next (cpeNext o.hub o.cpe (parkedNext o.hub j.ift (updIft o.hub j.ift (fun x => { x with mask := 0 })
        (leaveCpe o.hub o.cpe s)))) :=
  exec_of_cpeRuns (i := .nxcmd o) rfl hr
    ((if_neg (ne_true_of_eq_false hp)).trans ((if_neg hk).trans (if_pos ⟨ne_true_of_eq_false hs, hb⟩)))

section
variable (hp : pastLimit s = false) (hk : j.kind ≠ 5)
  (hgo : (iftOf s o.hub j.ift).svc = true ∨ ((iftOf s o.hub j.ift).st = 2 ∧ bitOf (iftOf s o.hub j.ift).evs 5 = false))
include hp hk hgo

omit hr hp hk in
theorem not_boundary : ¬ (¬ (iftOf s o.hub j.ift).svc = true ∧
    ((iftOf s o.hub j.ift).st ≠ 2 ∨ bitOf (iftOf s o.hub j.ift).evs 5 = true)) := by
  rintro ⟨hs, hb⟩
  obtain h | ⟨h2, h5⟩ := hgo
  · exact hs h
  · exact hb.elim (fun h => h h2) (ne_true_of_eq_false h5)

theorem exec_nxcmd_not_fetched {f r l x : Nat}
    (hf : fetchCmd s o.hub (subOf s o.hub (iftOf s o.hub j.ift).sub) (iftOf s o.hub j.ift).cmdp (iftOf s o.hub j.ift).idle = .stop f r l x) :
    exec (.nxcmd o) s = .next (nxStop o j.ift f r l x s) := by
  refine exec_of_cpeRuns (i := .nxcmd o) rfl hr ((if_neg (ne_true_of_eq_false hp)).trans ((if_neg hk).trans
    ((if_neg (not_boundary hgo)).trans ?_)))
  simp only [hf]

section
variable {p q : Nat} {d : List Byte} (hf : fetchCmd s o.hub (subOf s o.hub (iftOf s o.hub j.ift).sub) (iftOf s o.hub j.ift).cmdp
  (iftOf s o.hub j.ift).idle = .cmd p d q)
include hf

theorem exec_nxcmd_faulty {f r x : Nat} : let e := iftOf s o.hub j.ift
    let ext := e.link % 4 = 2 ∧ e.lca ≠ 0
    checkCmd s o.hub (subOf s o.hub e.sub) (ccmdOf d) (if ext then e.kind else (ccmdOf d).kind) (if ext then some e.link else none) q =
      some (f, r, x) → exec (.nxcmd o) s = .next (nxStop o j.ift f r p x s) := by
  intro e ext hc
  refine exec_of_cpeRuns (i := .nxcmd o) rfl hr ((if_neg (ne_true_of_eq_false hp)).trans ((if_neg hk).trans
    ((if_neg (not_boundary hgo)).trans ?_)))
  simp only [hf]
  rw [hc]

theorem exec_nxcmd_good : let e := iftOf s o.hub j.ift
    let c := ccmdOf d
    let ext := e.link % 4 = 2 ∧ e.lca ≠ 0
    let kind := if ext then e.kind else c.kind
    checkCmd s o.hub (subOf s o.hub e.sub) c kind (if ext then some e.link else none) q = none →
      exec (.nxcmd o) s = .next (updIft o.hub j.ift (fun x => { x with
          lca := p, cmdp := p + 16, link := c.link, kind := kind,
          idle := if kind = 0x1E ∨ (kind = 0x12 ∧ c.count = 0) then q + 1 else 0, resid := c.count })
        (cpeAfter o k [] ((upTo 4).map (fun n => (24 + n, BitVec.ofNat 32 (fieldAt d (4 * n) 4)))) (k.pc + 4) s)) := by
  intro e c ext kind hc
  refine exec_of_cpeRuns (i := .nxcmd o) rfl hr ((if_neg (ne_true_of_eq_false hp)).trans ((if_neg hk).trans
    ((if_neg (not_boundary hgo)).trans ?_)))
  simp only [hf]
  rw [hc]
  simp only [nxLoad, cpeDone_eq_cpeAfter]
  rfl
end
end
end

/-! ### Leaving the engine (R339, R342) -/

section
variable (hin : cpeIn o k j s)
include hin

theorem exec_cpePost (hk : j.kind ≠ 5) : let e := iftOf s o.hub j.ift
    let v := (kget k o.y).toNat
    let done := updPp e.pp (fun p => { p with touts := 0 }) (leaveCpe o.hub o.cpe s)
    exec (.cpePost o) s = .next (cpeNext o.hub o.cpe (if e.st = 3 then decideOp o.hub j.ift 5 0 0 (kget k o.x).toNat done
      else if e.st = 4 ∧ ¬ e.svc then runEntry o.hub j.ift 4 done
      else decideOp o.hub j.ift (v % 256) (v / 256 % 256) (v / 65536 % 256) (kget k o.x).toNat done)) :=
  exec_of_cpeIn (i := .cpePost o) rfl hin (if_neg hk)

theorem exec_cpeWait (hk : j.kind ≠ 5) : exec (.cpeWait o) s = .next (cpeNext o.hub o.cpe (parkedNext o.hub j.ift
    (updIft o.hub j.ift (fun x => { x with parked := true, mask := o.imm % 65536 }) (leaveCpe o.hub o.cpe s)))) := by
  refine exec_of_cpeIn (i := .cpeWait o) rfl hin ?_
  dsimp only
  rw [if_neg hk]

theorem exec_cpeEnd_service (hk : j.kind ≠ 5) (hs : (iftOf s o.hub j.ift).svc = true) : exec (.cpeEnd o) s =
    .next (cpeNext o.hub o.cpe (serviceEnd o.hub j.ift (kget k o.y).toNat
      (updIft o.hub j.ift (fun x => { x with svc := false }) (leaveCpe o.hub o.cpe s)))) :=
  exec_of_cpeIn (i := .cpeEnd o) rfl hin ((if_neg hk).trans (if_neg (Classical.not_not.2 hs)))

theorem exec_cpeEnd_pathup (hk : j.kind = 5) : exec (.cpeEnd o) s =
    .next (cpeNext o.hub o.cpe (runPathupEnd j.pp (o.hub.n * 16 + j.image) (kget k o.y).toNat (leaveCpe o.hub o.cpe s))) :=
  exec_of_cpeIn (i := .cpeEnd o) rfl hin (if_pos hk)

theorem exec_of_spent {i : Instr} {f : State → State} {body : Cpe → Job → State → State} (hi : exec i s = act f s) (hf : f s = onCpe o body s) (hc : 65535 ≤ k.count) :
    exec i s = .next (cpeFault o.hub o.cpe j k.pc s) :=
  exec_of_live (f := f) hi hin.1 (hf.trans <| onCpe_of_spent hin hc)
end

/-- An instruction outside an entry does nothing; one at a bad address ends the entry with a fault. -/
theorem exec_outside_entry {i : Instr} {f : State → State} {body : Cpe → Job → State → State} (hi : exec i s = act f s)
    (hf : f s = onEntry o body s) (hlive : live s = true) :
    let k := cpeOf s o.hub o.cpe
    (k.cur = none → exec i s = .next s) ∧
    (∀ j, k.cur = some j → (k.pc % 4 ≠ 0 ∨ 0x40000 ≤ k.pc) → exec i s = .next (cpeFault o.hub o.cpe j k.pc s)) :=
  ⟨fun hc => exec_of_live (f := f) hi hlive (hf.trans <| onEntry_of_idle hc),
    fun _ hc hpc => exec_of_live (f := f) hi hlive (hf.trans <| onEntry_of_bad_pc hc hpc)⟩

/-! ### The rows of the instruction table -/

section
variable (hr : cpeRuns o k j s)
include hr

theorem exec_cpeAlu_rows (h0 : o.imm % 2048 = 0) : ∀ r ∈ [(Instr.cpeAdd, fun (x y : W32) => x + y), (.cpeSub, fun x y => x - y),
      (.cpeAnd, fun x y => x &&& y), (.cpeOr, fun x y => x ||| y), (.cpeXor, fun x y => x ^^^ y),
      (.cpeSll, fun x y => x <<< (y.toNat % 32)), (.cpeSrl, fun x y => x >>> (y.toNat % 32)),
      (.cpeSra, fun x y => x.sshiftRight (y.toNat % 32)), (.cpeSltu, fun x y => if x < y then 1 else 0)],
    exec (r.1 o) s = .next (cpeAfter o k [(o.x, r.2 (kget k o.y) (kget k (o.imm / 2048)))] [] (k.pc + 4) s) := by
  simp only [List.forall_mem_cons, List.not_mem_nil, false_implies, implies_true, and_true]
  exact ⟨exec_cpeAlu (i := .cpeAdd o) hr rfl h0, exec_cpeAlu (i := .cpeSub o) hr rfl h0, exec_cpeAlu (i := .cpeAnd o) hr rfl h0,
    exec_cpeAlu (i := .cpeOr o) hr rfl h0, exec_cpeAlu (i := .cpeXor o) hr rfl h0, exec_cpeAlu (i := .cpeSll o) hr rfl h0,
    exec_cpeAlu (i := .cpeSrl o) hr rfl h0, exec_cpeAlu (i := .cpeSra o) hr rfl h0, exec_cpeAlu (i := .cpeSltu o) hr rfl h0⟩

theorem exec_cpeImm_rows : ∀ r ∈ [(Instr.cpeAddi, fun (x : W32) (i : BitVec 16) => x + i.signExtend 32),
      (.cpeAndi, fun x i => x &&& i.zeroExtend 32), (.cpeOri, fun x i => x ||| i.zeroExtend 32),
      (.cpeLui, fun _ i => i.zeroExtend 32 <<< 16)],
    exec (r.1 o) s = .next (cpeAfter o k [(o.x, r.2 (kget k o.y) (BitVec.ofNat 16 o.imm))] [] (k.pc + 4) s) := by
  simp only [List.forall_mem_cons, List.not_mem_nil, false_implies, implies_true, and_true, ← imm16z_eq_zeroExtend, ← upper_eq_shift]
  exact ⟨exec_cpeImm (i := .cpeAddi o) (f := fun x => x + imm16s o) hr rfl, exec_cpeImm (i := .cpeAndi o) (f := fun x => x &&& imm16z o) hr rfl, exec_cpeImm (i := .cpeOri o) (f := fun x => x ||| imm16z o) hr rfl,
    exec_cpeImm (i := .cpeLui o) (f := fun _ => BitVec.ofNat 32 (o.imm % 65536 * 65536)) hr rfl⟩

theorem exec_cpeBranch_rows : ∀ r ∈ [(Instr.cpeBeq, fun (x y : W32) => x == y), (.cpeBne, fun x y => x != y),
      (.cpeBltu, fun x y => x < y), (.cpeBgeu, fun x y => y ≤ x)],
    exec (r.1 o) s = .next (cpeAfter o k [] []
      (if r.2 (kget k o.x) (kget k o.y) then k.pc + 4 + (imm16s o).toNat * 4 % 2 ^ 32 else k.pc + 4) s) := by
  simp only [List.forall_mem_cons, List.not_mem_nil, false_implies, implies_true, and_true]
  exact ⟨exec_cpeBranch (i := .cpeBeq o) hr rfl, exec_cpeBranch (i := .cpeBne o) hr rfl, exec_cpeBranch (i := .cpeBltu o) hr rfl,
    exec_cpeBranch (i := .cpeBgeu o) hr rfl⟩
end

theorem exec_outside_rows (hlive : live s = true) : let k := cpeOf s o.hub o.cpe
    ∀ i ∈ [Instr.cpeAdd, .cpeLw, .cpeSw, .cpeBeq, .nxcmd, .cpePost, .cpeWait, .cpeEnd],
      (k.cur = none → exec (i o) s = .next s) ∧
      (∀ j, k.cur = some j → (k.pc % 4 ≠ 0 ∨ 0x40000 ≤ k.pc) → exec (i o) s = .next (cpeFault o.hub o.cpe j k.pc s)) := by
  simp only [List.forall_mem_cons, List.not_mem_nil, false_implies, implies_true, and_true]
  exact ⟨exec_outside_entry (i := .cpeAdd o) (f := runCpeAdd o) rfl (by unfold runCpeAdd cpeAlu onCpe; rfl) hlive,
    exec_outside_entry (i := .cpeLw o) (f := runCpeLw o) rfl (by unfold runCpeLw cpeLoad onCpe; rfl) hlive,
    exec_outside_entry (i := .cpeSw o) (f := runCpeSw o) rfl (by unfold runCpeSw cpeStore onCpe; rfl) hlive,
    exec_outside_entry (i := .cpeBeq o) (f := runCpeBeq o) rfl (by unfold runCpeBeq cpeBranch onCpe; rfl) hlive,
    exec_outside_entry (i := .nxcmd o) (f := runNxcmd o) rfl (by unfold runNxcmd onCpe; rfl) hlive,
    exec_outside_entry (i := .cpePost o) (f := runCpePost o) rfl (by unfold runCpePost; rfl) hlive,
    exec_outside_entry (i := .cpeWait o) (f := runCpeWait o) rfl (by unfold runCpeWait; rfl) hlive,
    exec_outside_entry (i := .cpeEnd o) (f := runCpeEnd o) rfl (by unfold runCpeEnd; rfl) hlive⟩

theorem exec_spent_rows (hin : cpeIn o k j s) (hc : 65535 ≤ k.count) :
    ∀ i ∈ [Instr.cpeAdd, .cpeLw, .cpeSw, .cpeBeq, .cpeJal, .ckpt, .nxcmd], exec (i o) s = .next (cpeFault o.hub o.cpe j k.pc s) := by
  simp only [List.forall_mem_cons, List.not_mem_nil, false_implies, implies_true, and_true]
  exact ⟨exec_of_spent hin (i := .cpeAdd o) (f := runCpeAdd o) rfl (by unfold runCpeAdd cpeAlu; rfl) hc,
    exec_of_spent hin (i := .cpeLw o) (f := runCpeLw o) rfl (by unfold runCpeLw cpeLoad; rfl) hc,
    exec_of_spent hin (i := .cpeSw o) (f := runCpeSw o) rfl (by unfold runCpeSw cpeStore; rfl) hc,
    exec_of_spent hin (i := .cpeBeq o) (f := runCpeBeq o) rfl (by unfold runCpeBeq cpeBranch; rfl) hc,
    exec_of_spent hin (i := .cpeJal o) (f := runCpeJal o) rfl (by unfold runCpeJal; rfl) hc,
    exec_of_spent hin (i := .ckpt o) (f := runCkpt o) rfl (by unfold runCkpt; rfl) hc,
    exec_of_spent hin (i := .nxcmd o) (f := runNxcmd o) rfl (by unfold runNxcmd; rfl) hc⟩

/-- Settles O46: each instruction within its entry, by the outcome its operands call for. -/
theorem cpeInstructions : Obligations.CpeInstructions := by
  refine ⟨⟨?_, ?_⟩, ?_, ?_, ?_, ?_, ?_⟩
  · intro o k j s hr reg off tgt
    exact ⟨exec_cpeAlu_rows hr, exec_cpeImm_rows hr, exec_cpeBranch_rows hr, exec_cpeJal hr, exec_cpeJr hr⟩
  · exact fun o s hlive => exec_outside_rows hlive
  · intro o k j s hr a
    have hload (i : Instr) (n : Nat) (hi : exec i s = act (cpeLoad n o) s) := And.intro
      (fun pa wr d bad hw hd => exec_cpeLoad_image (pa := pa) (wr := wr) (d := d) (bad := bad) hr hi hw hd)
      (And.intro (fun pa d bad hw hd => exec_cpeLoad_dram (pa := pa) (d := d) (bad := bad) hr hi hw hd)
        (And.intro (fun p off hw => exec_cpeLoad_path (p := p) (off := off) hr hi hw) (exec_cpeLoad_nowhere hr hi)))
    have hstore (i : Instr) (n : Nat) (hi : exec i s = act (cpeStore n o) s) := And.intro
      (fun pa hw hd => exec_cpeStore_image (pa := pa) hr hi hw hd)
      (And.intro (fun pa hw hd => exec_cpeStore_dram (pa := pa) hr hi hw hd)
        (And.intro (fun p off hw => exec_cpeStore_path (p := p) (off := off) hr hi hw) (exec_cpeStore_nowhere hr hi)))
    simp only [List.forall_mem_cons, List.not_mem_nil, false_implies, implies_true, and_true]
    exact ⟨⟨hload (.cpeLw o) 4 rfl, hload (.cpeLhu o) 2 rfl, hload (.cpeLbu o) 1 rfl⟩,
      hstore (.cpeSw o) 4 rfl, hstore (.cpeSh o) 2 rfl, hstore (.cpeSb o) 1 rfl⟩
  · intro o k j s hr e next v
    refine ⟨fun hk => exec_ckpt hr hk, fun sl hk hp => exec_evaddr hr hk hp, fun g p x => ?_, exec_nxcmd_past_limit hr,
      fun hp hk hs hb => exec_nxcmd_boundary hr hp hk hs hb, fun hp hk hgo => ?_⟩
    · intro base him hb hp
      exact exec_wset hr him hb hp
    · intro b
      refine ⟨fun f r l x hf => exec_nxcmd_not_fetched hr hp hk hgo hf, fun p d q hf => ?_⟩
      intro c ext kind
      exact ⟨fun f r x hc => exec_nxcmd_faulty hr hp hk hgo hf hc, fun hc => exec_nxcmd_good hr hp hk hgo hf hc⟩
  · intro o k j s hin e v off done go
    refine ⟨fun hk => ⟨fun h3 => ?_, fun h4 hs => ?_, fun h3 hs => ?_⟩, fun hk => exec_cpeWait hin hk,
      fun hk hs => exec_cpeEnd_service hin hk hs, fun hk => exec_cpeEnd_pathup hin hk⟩
    · refine (exec_cpePost hin hk).trans ?_
      rw [if_pos h3]
      rfl
    · refine (exec_cpePost hin hk).trans ?_
      have h3 : (iftOf s o.hub j.ift).st ≠ 3 := fun h3 => absurd (h4.symm.trans h3) (by decide)
      rw [if_neg h3, if_pos ⟨h4, ne_true_of_eq_false hs⟩]
      rfl
    · refine (exec_cpePost hin hk).trans ?_
      rw [if_neg h3, if_neg fun ⟨h4, hns⟩ => hs.elim (fun h => h h4) hns]
      rfl
  · exact fun o k j s hin hc => exec_spent_rows hin hc
  · exact fun h q s hlive => exec_of_live (f := runInterruptedReport h q) rfl hlive rfl

end Sys2Proof.Machine
end

section
/-! Seal rings and jobs (R357–R385), and the movers (R386–R397). -/
namespace Sys2Proof.Machine

variable {h : Half} {r e m ch : Nat} {s : State}

/-! ### Seal rings (R357, R359, R366) -/

theorem bindEngine_eq_ite {n : Nat} : bindEngine s h n = if n < 8 then n else bindEngine s h n := by
  by_cases hn : n < 8
  · rw [if_pos hn, bindEngine, if_pos hn]
  · rw [if_neg hn]

theorem runSealEnable_of_disabled (hp : hubPresent s h = true) (hen : (sringOf s h r).en = false) :
    let g := sringOf s h r
    let s1 := updSring h r (fun x => { x with en := true, bound := if g.eng < 8 then g.eng else bindEngine s h g.eng }) s
    runSealEnable h r s = sealFetch h r 4 (sealDrainHeld h r (sringOf s1 h r).held.length s1) := by
  rw [runSealEnable, if_neg (Classical.not_not.2 hp)]
  dsimp only
  rw [if_neg fun hb => ne_true_of_eq_false hen hb.1, ← bindEngine_eq_ite]

/-- Whether a ring can fetch a descriptor now (R41, R356, R357). -/
abbrev cannotFetch (h : Half) (r : Nat) (s : State) : Prop :=
  let g := sringOf s h r
  ¬ g.en ∨ g.otype = 3 ∨ g.otype = 1 ∨ 4 ≤ ringJobs s h r ∨ g.head % slots8 g.size = g.tail % slots8 g.size ∨ draining s h ∨
    g.bound = 15 ∨ closing s (sealUnit h g.bound)

theorem sealFetch_idle (hi : cannotFetch h r s) (n : Nat) : sealFetch h r (n + 1) s = s := if_pos hi

theorem sealFetch_reads (hi : ¬ cannotFetch h r s) (n : Nat) {d : List Byte} :
    let g := sringOf s h r
    let at_ := g.head % slots8 g.size
    dmaRead s h (g.base / 128 * 128 + at_ * 128) 128 = some (d, false) →
    sealFetch h r (n + 1) s = sealFetch h r n (updSring h r (fun x =>
        { x with head := (at_ + 1) % slots8 x.size, fetched := x.fetched ++ [(at_, d)] }) s) := by
  intro g at_ hd
  rw [sealFetch]
  refine (if_neg hi).trans ?_
  rw [hd]

theorem sealFetch_fails (hi : ¬ cannotFetch h r s) (n : Nat)
    (hd : ∀ d, dmaRead s h ((sringOf s h r).base / 128 * 128 + (sringOf s h r).head % slots8 (sringOf s h r).size * 128) 128 ≠ some (d, false)) :
    sealFetch h r (n + 1) s = sealRingStop h r s := by
  rw [sealFetch]
  refine (if_neg hi).trans ?_
  cases hx : dmaRead s h ((sringOf s h r).base / 128 * 128 + (sringOf s h r).head % slots8 (sringOf s h r).size * 128) 128 with
  | none => rfl
  | some x =>
    obtain ⟨d, bad⟩ := x
    cases bad with
    | true => rfl
    | false => exact absurd hx (hd d)

theorem sealDrainHeld_one {d : List Byte} {nt : Bool} (hh : (sringOf s h r).held = [(d, nt)]) (hf : cringFull (sringOf s h r) = false)
    (hen : (sringOf s h r).en = true) :
    sealDrainHeld h r 1 s = sealPost h r d nt (updSring h r (fun x => { x with held := [] }) s) := by
  simp only [sealDrainHeld, hh]
  rw [if_neg (not_or.2 ⟨ne_true_of_eq_false hf, Classical.not_not.2 hen⟩)]

theorem sealDrainHeld_stays (hn : (sringOf s h r).held = [] ∨ cringFull (sringOf s h r) = true ∨ (sringOf s h r).en = false) (n : Nat) :
    sealDrainHeld h r n s = s := by
  cases n with
  | zero => rfl
  | succ n =>
    rw [sealDrainHeld]
    cases hh : (sringOf s h r).held with
    | nil => rfl
    | cons x t =>
      exact if_pos (hn.elim (fun h0 => absurd (hh.symm.trans h0) (by simp)) (fun ho => ho.imp id ne_true_of_eq_false))

/-! ### Seal jobs (R358, R363–R366, R382) -/

theorem rebind_all (hr : s.units.rings.all (fun x => rebind h (x.1 % 256) s == s) = true) :
    (s.units.rings.filter (fun x => x.1 / 256 == h.n)).foldl (fun t x => rebind h (x.1 % 256) t) s = s := by
  have hkeep (l : List (Nat × SRing)) (hl : ∀ x ∈ l, rebind h (x.1 % 256) s = s) :
      l.foldl (fun t x => rebind h (x.1 % 256) t) s = s := by
    induction l with
    | nil => rfl
    | cons x l ih => rw [List.foldl_cons, hl x List.mem_cons_self, ih fun y hy => hl y (List.mem_cons_of_mem _ hy)]
  refine hkeep _ fun x hx => ?_
  exact beq_iff_eq.1 (List.all_eq_true.1 hr x (List.mem_filter.1 hx).1)

/-- An engine with one ring bound takes the oldest descriptor of it. -/
theorem runSealStart_of_ring {slot : Nat} {d : List Byte} {t : List (Nat × List Byte)}
    (hr : s.units.rings.all (fun x => rebind h (x.1 % 256) s == s) = true) (hc : (sengOf s h e).cur = none) (hu : engineUp s h e = true)
    (hcl : closing s (sealUnit h e) = false) (hdr : draining s h = false) (hb : boundRings s h e = [r])
    (hf : (sringOf s h r).fetched = (slot, d) :: t) (hh : (sringOf s h r).held = [])
    (ho : (sringOf s h r).otype = 1 ∨ cringFull (sringOf s h r) = false) :
    let q := sringOf s h r
    runSealStart h e s = sealFetch h r 4 (updSeng h e (fun x =>
        { x with cur := some ⟨r, slot, d, sealCheck s h r d⟩, lastRing := r, secure := q.otype == 2 })
      (if (q.otype == 2) != (sengOf s h e).secure then
        bumpFor (q.otype == 2) (sealUnit h e) 0x404 1 (updSring h r (fun x => { x with fetched := t }) s)
       else updSring h r (fun x => { x with fetched := t }) s)) := by
  have hready : [r].filter (fun k => (sringOf s h k).fetched != [] && (sringOf s h k).held.isEmpty &&
      !((sringOf s h k).otype != 1 && cringFull (sringOf s h k))) = [r] := by
    obtain ho | ho := ho <;> simp [hf, hh, ho]
  have hord (n : Nat) : [r].filter (fun k => decide (n < k)) ++ [r].filter (fun k => decide (k ≤ n)) = [r] := by
    by_cases hn : n < r
    · simp [hn, Nat.not_le.2 hn]
    · simp [hn, Nat.not_lt.1 hn]
  have hgo : ¬ ((sengOf s h e).cur.isSome = true ∨ ¬ engineUp s h e = true ∨ closing s (sealUnit h e) = true ∨ draining s h = true) := by
    simp [hc, hu, hcl, hdr]
  simp only [runSealStart, rebind_all hr, if_neg hgo, hb, hready, hord, hf]

/-- A job ends: its engine is free, its counts stand, its completion is made. -/
def sealFinish (h : Half) (e : Nat) (j : SJob) (s : State) (o : JobOut) (u : State) : State :=
  let sec := (sringOf s h j.ring).otype == 2
  sealComplete h j.ring (sealRecord (descOf j.desc) j e o false) (bitOf (descOf j.desc).flags 6)
    (bumpFor sec (sealUnit h e) 0x401 1 (bumpFor sec (sealUnit h e) 0x402 (o.used / 64)
      (bumpFor sec (sealUnit h e) 0x403 (o.made / 64) (updSeng h e (fun x => { x with cur := none }) u))))

theorem runSealComplete_refused {j : SJob} {st rs : Nat} (hj : (sengOf s h e).cur = some j) (hv : j.verdict = some (st, rs)) (err : Bool) :
    runSealComplete h e err s = sealFinish h e j s (jobFail st rs) (if st = stFailed ∧ rs ≠ 8 then
      sealErr h e j.ring false (descOf j.desc).ctx ((sringOf s h j.ring).otype == 2) s else s) := by
  simp only [runSealComplete, hj, hv, sealFinish]

theorem runSealComplete_array_error {j : SJob} (hj : (sengOf s h e).cur = some j) (hv : j.verdict = none) :
    runSealComplete h e true s = sealFinish h e j s (jobFail stFailed 0x0B) (logNow h (rpt (sealUnit h e) 2 clsUC 0x0701 e) s) := by
  simp only [runSealComplete, hj, hv, sealFinish, if_true]

theorem runSealComplete_runs {j : SJob} (hj : (sengOf s h e).cur = some j) (hv : j.verdict = none) :
    runSealComplete h e false s = sealFinish h e j s (sealRun h e j s).2 (sealRun h e j s).1 := by
  simp only [runSealComplete, hj, hv, sealFinish, Bool.false_eq_true, if_false]

theorem sealEndEarly_of_job {j : SJob} (hj : (sengOf s h e).cur = some j) (st rs : Nat) :
    sealEndEarly h e st rs s = sealComplete h j.ring
      (sealRecord (descOf j.desc) j e { jobFail st rs with made := (earlyBytes s j).length } false) (bitOf (descOf j.desc).flags 6)
      (updSeng h e (fun x => { x with cur := none }) (earlyWrite h j s)) := by
  simp only [sealEndEarly, hj]

/-- Settles O47: the rings by what stands in them, the jobs by their verdict. -/
theorem sealEngines : Obligations.Seal := by
  refine ⟨?_, ?_⟩
  · intro h r v s g hlive
    refine ⟨fun hp => ⟨?_, fun hen => ?_⟩, fun hp => ⟨?_, ?_⟩, ?_, fun hen => ?_, fun s1 hp hs1 => ?_⟩
    · exact exec_of_live (f := runSealTail h r v) rfl hlive (if_neg (Classical.not_not.2 hp))
    · intro s1
      exact exec_of_live (f := runSealEnable h r) rfl hlive (runSealEnable_of_disabled hp hen)
    · exact exec_of_live (f := runSealTail h r v) rfl hlive (if_pos (ne_true_of_eq_false hp))
    · exact exec_of_live (f := runSealEnable h r) rfl hlive (if_pos (ne_true_of_eq_false hp))
    · intro at_ pa
      refine ⟨fun n hi => ?_, fun n hen ho hj hne hdr hb hcl => ?_⟩
      · exact sealFetch_idle (hi.elim (fun h1 => .inl (ne_true_of_eq_false h1)) fun h1 => .inr (.inr (.inr
          (h1.imp id (Or.imp id (Or.imp id Or.inl)))))) n
      · have hgo : ¬ cannotFetch h r s := by
          rintro (h1 | h1 | h1 | h1 | h1 | h1 | h1 | h1)
          · exact h1 hen
          · simp [g, h1] at ho
          · simp [g, h1] at ho
          · exact absurd h1 (Nat.not_le.2 hj)
          · exact hne h1
          · exact ne_true_of_eq_false hdr h1
          · exact hb h1
          · exact ne_true_of_eq_false hcl h1
        exact ⟨fun d hd => sealFetch_reads hgo n hd, fun hd => sealFetch_fails hgo n hd⟩
    · exact exec_of_live (f := runSealRingStop h r) rfl hlive (if_pos hen)
    · have hrun : runSealChead h r v s = sealDrainHeld h r (sringOf s1 h r).held.length s1 := by
        rw [hs1]
        simp only [runSealChead, if_pos hp]
      refine ⟨fun d nt hh hf hen => ?_, fun hn => ?_⟩
      · refine exec_of_live (f := runSealChead h r v) rfl hlive (hrun.trans ?_)
        rw [hh]
        exact sealDrainHeld_one hh hf hen
      · exact exec_of_live (f := runSealChead h r v) rfl hlive (hrun.trans (sealDrainHeld_stays hn _))
  · intro h e s g record finish hlive
    refine ⟨fun r slot d t hr hc hu hcl hdr hb => ?_, fun err j st rs hj hv => ?_, fun j hj hv => ⟨?_, ?_⟩, fun j hj hcl hs => ?_, ?_⟩
    · intro q hf hh ho
      exact exec_of_live (f := runSealStart h e) rfl hlive (runSealStart_of_ring hr hc hu hcl hdr hb hf hh ho)
    · exact exec_of_live (f := runSealComplete h e err) rfl hlive (runSealComplete_refused hj hv err)
    · exact exec_of_live (f := runSealComplete h e true) rfl hlive (runSealComplete_array_error hj hv)
    · exact exec_of_live (f := runSealComplete h e false) rfl hlive (runSealComplete_runs hj hv)
    · exact exec_of_live (f := runSealPreempt h e) rfl hlive
        ((if_pos ⟨hcl, ne_true_of_eq_false hs⟩).trans (sealEndEarly_of_job hj stPreempted 0))
    · exact exec_of_live (f := runSealErrClear h e) rfl hlive rfl

end Sys2Proof.Machine
end

section
/-! Movers (R386–R397). -/
namespace Sys2Proof.Machine

variable {h : Half} {m ch : Nat} {s : State}

/-! ### Starting a channel (R386, R391) -/

section
variable (hc : (moverOf s h m).cur = none) (hr : readyBit s h (rbMover m) = true) (hcl : closing s (moverUnit h m) = false)
  (hd : draining s h = false)
  (hch : ((upTo 8).map (fun i => ((moverOf s h m).lastCh + 1 + i) % 8)).find? (fun k => chWaits (mchOf s h m k)) = some ch)
include hc hr hcl hd hch

theorem runMoverStart_resumes (hdesc : (mchOf s h m ch).desc ≠ []) :
    runMoverStart h m s = updMch h m ch (fun x => { x with st := 2 }) (updMover h m (fun _ => ⟨ch, some ch⟩) s) := by
  simp only [runMoverStart, hc, hr, hcl, hd, hch, Option.isSome_none, Bool.false_eq_true, not_true_eq_false, or_self, if_false,
    if_pos hdesc]

theorem runMoverStart_reads {d : List Byte} (hdesc : (mchOf s h m ch).desc = []) :
    let c := mchOf s h m ch
    let s2 := updMch h m ch (fun x => { x with st := 2, desc := d, done := 0, buf := [] }) (updMover h m (fun _ => ⟨ch, some ch⟩) s)
    dmaRead s h (c.base / 64 * 64 + c.slot * 64) 64 = some (d, false) →
    (∀ st rs, moverCheck s h c d = some (st, rs) → runMoverStart h m s = moverFinish h m ch st rs s2) ∧
    (moverCheck s h c d = none → runMoverStart h m s = s2) := by
  intro c s2 hread
  refine ⟨fun st rs hv => ?_, fun hv => ?_⟩
  · simp only [runMoverStart, hc, hr, hcl, hd, hch, Option.isSome_none, Bool.false_eq_true, not_true_eq_false, or_self, if_false,
      if_neg (Classical.not_not.2 hdesc)]
    rw [hread]
    dsimp only
    rw [hv]
  · simp only [runMoverStart, hc, hr, hcl, hd, hch, Option.isSome_none, Bool.false_eq_true, not_true_eq_false, or_self, if_false,
      if_neg (Classical.not_not.2 hdesc)]
    rw [hread]
    dsimp only
    rw [hv]
end

/-! ### The running channel (R388, R392–R394) -/

section
variable (hc : (moverOf s h m).cur = some ch)
include hc

theorem runMoverBurst_copied {s1 : State} (hs1 : copyAhead h m ch s = .ok s1) :
    let c := mchOf s h m ch
    let n := 256 * 2 ^ (if 4 < c.burst then 4 else c.burst)
    let s2 := burstRun h m ch n n s1
    runMoverBurst h m s = bumpFor (c.otype == 2) (moverUnit h m) 0x483 1
      (bumpFor (c.otype == 2) (moverUnit h m) 0x482 (((mchOf s2 h m ch).done - c.done) / 64) s2) := by
  simp only [runMoverBurst, hc, hs1]

theorem runMoverComplete_moved (hl : (mdescOf (mchOf s h m ch).desc).len ≤ (mchOf s h m ch).done) :
    runMoverComplete h m s = moverFinish h m ch stDone 0 s := by
  simp only [runMoverComplete, hc, if_pos hl]

theorem runMoverPowerStop_closing (hcl : closing s (moverUnit h m) = true) : runMoverPowerStop h m s =
    updMch h m ch (fun x => { x with st := 1 }) (updMover h m (fun x => { x with cur := none }) s) := by
  simp only [runMoverPowerStop, hc, if_pos hcl]

theorem runMoverHalt_running (pa : Nat) (wr poison : Bool) : runMoverHalt h m pa wr poison s = moverHalt h m ch pa wr poison s := by
  simp only [runMoverHalt, hc]
end

/-- Settles O48: the mover by what it runs, the channel by whether it is halted. -/
theorem movers : Obligations.Movers := by
  intro h m s cur hlive
  refine ⟨fun ch v => ?_, fun ch d hc hr hcl hd hch => ?_, fun ch hc => ?_, fun ch hst => ?_⟩
  · exact exec_of_live (f := runMovTail h m ch v) rfl hlive rfl
  · intro c s1
    refine ⟨fun hdesc => ?_, fun hdesc hread => ?_⟩
    · exact exec_of_live (f := runMoverStart h m) rfl hlive (runMoverStart_resumes hc hr hcl hd hch hdesc)
    · intro s2
      obtain ⟨hbad, hgood⟩ := runMoverStart_reads hc hr hcl hd hch hdesc hread
      refine exec_of_live (f := runMoverStart h m) rfl hlive ?_
      cases hv : moverCheck s h c d with
      | none => exact hgood hv
      | some v => exact hbad v.1 v.2 hv
  · intro c sec
    refine ⟨fun s1 hs1 => ?_, fun hl => ?_, fun hcl => ?_, fun pa wr poison => ?_⟩
    · intro n s2
      exact exec_of_live (f := runMoverBurst h m) rfl hlive (runMoverBurst_copied hc hs1)
    · exact exec_of_live (f := runMoverComplete h m) rfl hlive (runMoverComplete_moved hc hl)
    · exact exec_of_live (f := runMoverPowerStop h m) rfl hlive (runMoverPowerStop_closing hc hcl)
    · exact exec_of_live (f := runMoverHalt h m pa wr poison) rfl hlive (runMoverHalt_running hc pa wr poison)
  · intro skipped
    have hskip : runMovSkip h m ch s = skipped := if_pos hst
    refine ⟨exec_of_live (f := runMovResume h m ch) rfl hlive (if_pos hst), exec_of_live (f := runMovSkip h m ch) rfl hlive hskip,
      exec_of_live (f := runMovAbort h m ch) rfl hlive ((if_pos hst).trans ?_)⟩
    rw [hskip]

end Sys2Proof.Machine
end

section
/-! Ledger engines: appends, completions, checkpoints and spools (R407–R433). -/
namespace Sys2Proof.Machine

variable {id : Nat} {t : Stream} {h : Half} {i : Nat} {s : State}

/-! ### Appends (R407, R408, R417) -/

/-- An entry for a stream the function may append to, of a record in its memory, is submitted. -/
theorem runAppendEntry_submits {q p fn : Nat} {d : List Byte} (hd : qpFront s q 3 = some d) (ho : qpOwner s q = some (p, fn))
    (ht : streamOf s (fieldAt d 0 4) = some t) (hot : t.otype = 1) (how : t.owner = fnKey p fn)
    (hid : fieldAt d 0 4 < 131072) (hp : hubPresent s (halfOf (fieldAt d 0 4 / 65536)) = true)
    (hm : effMode s ≠ .split ∨ halfOf (fieldAt d 0 4 / 65536) = portHalf p)
    (hin : inTarget (fnOf s (fnKey p fn)) (fieldAt d 8 8) (max (fieldAt d 0x10 4) 1) = true) :
    let a := ldgAppend (fieldAt d 0 4) (fieldAt d 8 8) (fieldAt d 0x10 4) (fieldAt d 0x14 2) (fieldAt d 0x16 2) s
    runAppendEntry q s = qpResult q a.2.1 (fieldAt d 0x14 2) a.1 a.2.2 := by
  have hok : (decide (fieldAt d 0 4 < 131072) && hubPresent s (halfOf (fieldAt d 0 4 / 65536)) &&
      (effMode s != .split || halfOf (fieldAt d 0 4 / 65536) == portHalf p)) = true := by
    simp only [hid, hp, decide_true, Bool.and_self, Bool.true_and, Bool.or_eq_true, bne_iff_ne, beq_iff_eq]
    exact hm
  simp only [runAppendEntry, hd, ho, ht, hot, how, and_self, decide_true, hok, hin, not_true_eq_false, or_self, if_false]

theorem ldgAppend_accepts {addr len tag flags : Nat} (ht : streamOf s id = some t) (hc : t.closing = false)
    (hr : readyBit s (strHub s id) rbLedger = true) (h0 : 0 < len) (hlen : len ≤ 65536) (hf : flags < 4)
    (ha : addr + len ≤ 0x100000000000) (hd : draining s (strHub s id) = false) (hn : t.appends.length < 64)
    (hall : (ldgOf s (strHub s id)).streams.foldl (fun (n : Nat) x => n + x.2.appends.length) 0 < 16384) :
    ldgAppend id addr len tag flags s = (0, t.nextSeq, updStream id (fun x => { x with
      appends := x.appends ++ [⟨t.nextSeq, addr, len, tag, bitOf flags 0, bitOf flags 1, false, [], [], 0⟩],
      nextSeq := x.nextSeq + 1 }) s) := by
  have hbad : ¬ (len = 0 ∨ 65536 < len ∨ 4 ≤ flags ∨ 0x100000000000 < addr + len) := by omega
  simp only [ldgAppend, ht]
  rw [if_neg (not_or.2 ⟨ne_true_of_eq_false hc, Classical.not_not.2 hr⟩), if_neg hbad,
    if_neg (not_or.2 ⟨ne_true_of_eq_false hd, not_or.2 ⟨Nat.not_le.2 hn, Nat.not_le.2 hall⟩⟩)]

/-- A frame is made of the oldest append not yet framed. -/
def framedAs (id : Nat) (a : Append) (ts : Nat) (hdr body : List Byte) (cause : Nat) (u : State) : State :=
  updStream id (fun x => { x with
    prevTs := ts,
    appends := x.appends.map (fun y => if y.seq = a.seq then { y with framed := true, hdr := hdr, body := body, cause := cause } else y) }) u

section
variable {a : Append} (ht : streamOf s id = some t) (ha : t.appends.find? (fun x => !x.framed) = some a)
include ht ha

theorem runAppendFormat_frames {x : List Byte} {fail : Bool} (hd : dmaRead s (strHub s id) a.addr a.len = some (x, false))
    (hf : fail = false ∨ bitOf t.policy 29 = false ∧ bitOf t.policy 30 = false) :
    let ts := max (hubTime (strHub s id) s) (t.prevTs + 1)
    let b := sealBody id t a ts x
    runAppendFormat id fail s = framedAs id a ts (frameHdr 1 b.2 id t.openId a.seq ts a.len b.1.length) b.1 0 s := by
  have hno : ¬ (fail = true ∧ (bitOf t.policy 29 = true ∨ bitOf t.policy 30 = true)) := by
    rintro ⟨h1, h2⟩
    obtain h0 | ⟨h29, h30⟩ := hf
    · exact ne_true_of_eq_false h0 h1
    · exact h2.elim (ne_true_of_eq_false h29) (ne_true_of_eq_false h30)
  simp only [runAppendFormat, ht, ha, hd, if_neg hno]
  rfl

theorem runAppendFormat_void {fail : Bool} (hd : dmaRead s (strHub s id) a.addr a.len = none) :
    let ts := max (hubTime (strHub s id) s) (t.prevTs + 1)
    runAppendFormat id fail s = framedAs id a ts (frameHdr 4 0 id t.openId a.seq ts 8 8)
      (pack [(1, 1), (1, 0), (2, a.tag), (4, a.len)]) 1 (ldgErr id 0 (badSector s (strHub s id) a.addr a.len) false s) := by
  simp only [runAppendFormat, ht, ha, hd]
  rfl
end

/-- The oldest append, framed and not durable, is chained and queued for its completion. -/
theorem runAppendChain_chains {a : Append} {rest : List Append} {s1 : State} {off n : Nat} (ht : streamOf s id = some t)
    (ha : t.appends = a :: rest) (hf : a.framed = true) (hh : t.held = []) (hc : a.cause = 0) (hd : a.durable = false)
    (hch : chainFrame id a.seq (fieldAt a.hdr 0x18 8) a.hdr a.body s = (s1, some (off, n))) :
    let e : LComp := ⟨a.seq, a.tag, 0, bitOf (fieldAt a.hdr 5 1) 0, bitOf (fieldAt a.hdr 5 1) 1, fieldAt a.hdr 0x18 8, off, n, a.notify⟩
    let s2 := queueComp id e (updStream id (fun x => { x with appends := rest }) s1)
    runAppendChain id s = closeCheck id (if t.n ≤ t.since + 1 then askCkpt id 1 s2 else s2) := by
  have hno : ¬ (¬ a.framed = true ∨ t.held ≠ []) := by simp [hf, hh]
  simp only [runAppendChain, ht, ha, if_neg hno, hch, hc, hd, Bool.false_eq_true, if_false, if_true, Nat.zero_ne_one,
    Nat.reduceEqDiff]

/-! ### Completions and checkpoints (R418–R422) -/

theorem runLedgerPost_posts {e : LComp} {rest : List LComp} {d : List Byte} {p : Bool} {s1 : State} (ht : streamOf s id = some t)
    (hh : t.held = e :: rest) (hd : dmaRead s (strHub s id) (t.base + 0x14) 4 = some (d, p))
    (hroom : (t.ctail + 1) % 1024 ≠ ofBytes d % 1024)
    (hw : ldgWrite id (t.base + 0x1000 + t.ctail * 32) (compBytes id e t.phase) s = (s1, true)) :
    let n := (t.ctail + 1) % 1024
    let s2 := (ldgWrite id (t.base + 0x10) (toBytes 4 n)
      (updStream id (fun x => { x with held := rest, ctail := n, phase := if n = 0 then !x.phase else x.phase }) s1)).1
    runLedgerPost id s = if e.notify then ringIrq (fld t.intctl 29 28) (fld t.intctl 27 20) (fld t.intctl 10 0) t.otype t.owner s2 else s2 := by
  simp only [runLedgerPost, ht, hh, hd, if_neg hroom, hw, not_true_eq_false, if_false]

theorem runCkptTimer_of_open (ht : streamOf s id = some t) : runCkptTimer id s = if 0 < t.since then askCkpt id 2 s else s := by
  simp only [runCkptTimer, ht]

theorem runCkptSign_signs {q : List Nat} {s1 : State} {off : Nat} (ht : streamOf s id = some t) (hq : (ldgOf s h).sigq = id :: q) :
    let hd := headOf s id
    let body0 := ckptBody s h id t (t.ckpt.getD 0)
    let body := body0 ++ ecdsaSign t.sigKey body0 (freeVal s)
    let d := frameBytes (frameHdr 5 0 id t.openId hd.seq (hubTime h s) 240 240) body (slice hd.chain 0 48)
    placeFrame id hd.seq d (drawn s) = (s1, some off) →
    let s2 := updStream id (fun x => { x with ckpt := none, since := 0, ckptCmd := none }) (updLdg h (fun l => { l with sigq := q }) s1)
    let s3 := queueComp id ⟨hd.seq, 0, 2, false, false, hubTime h s, off, d.length, false⟩ s2
    let s4 := bump (ldgUnit h) 0x503 1 (finishOpt t.ckptCmd stDone 8 hd.seq s3)
    runCkptSign h s = if t.ending ∧ t.appends = [] then finishOpt t.closeCmd stDone 8 hd.seq (dropStream id s4) else s4 := by
  intro hd body0 body d hp
  simp only [d, body, body0, hd, hubTime] at hp
  simp only [runCkptSign, hq, ht, hp]
  rfl

theorem runCloseTimeout_of_open (ht : streamOf s id = some t) : runCloseTimeout id s =
    finishOpt t.closeCmd stTimeout 0 0 (updStream id (fun x => { x with ending := false, closeCmd := none }) s) := by
  simp only [runCloseTimeout, ht]

/-! ### Spools (R423–R425, R430, R431) -/

theorem runSpoolStart_stays (ht : streamOf s id = some t)
    (hn : t.spool = none ∨ t.spoolFailed = true ∨ 2 ≤ t.ops.length ∨ t.spoolTo = t.rtail) : runSpoolStart id s = s := by
  simp only [runSpoolStart, ht]
  cases hsp : t.spool with
  | none => rfl
  | some sub =>
    refine if_pos ?_
    obtain h0 | h1 | h2 | h3 := hn
    · exact absurd (hsp.symm.trans h0) (by simp)
    · exact .inl h1
    · exact .inr (.inl h2)
    · exact .inr (.inr (.inl h3))

section
variable {sub : Nat} {s1 : State} (ht : streamOf s id = some t) (hsp : t.spool = some sub) (hf : t.spoolFailed = false) (ho : t.ops = [])
  (hnx : t.spoolNext = none) (hlt : t.spoolTo < t.rtail)
include ht hsp hf ho hnx hlt

/-- The first operation of a spool, over the whole span up to the ring's tail: refused by the channel subsystem, or under way. -/
theorem runSpoolStart_starts :
    let lba := 512 * 2 ^ t.spShift
    let first := t.spoolTo / lba * lba
    let stop := (t.rtail + lba - 1) / lba * lba
    let h := strHub s id
    stop ≤ first + 2 ^ 20 → stop < t.rsize →
    ldgWrite id (t.base + 0x9000) (spoolProgram (t.base + 0x9000) (t.spLba + first / lba) (stop - first) (t.base + 0x10000) first) s = (s1, true) →
    let firstSeq := match t.frames with | f :: _ => f.2.2 | [] => t.dseq + 1
    let whole := t.frames.filter (fun f => decide (t.spoolTo < f.1 + f.2.1 ∧ f.1 + f.2.1 ≤ stop))
    let q := cssStart h (id / 65536 * 2048 + sub % 2048) (t.base + 0x9000) (id % 65536 * 2 ^ 48 + firstSeq % 2 ^ 48) false 0 true s1
    (q.1 ≥ 2 → runSpoolStart id s = q.2.2) ∧
    let mine := (cssOf q.2.2 h).ift.find? (fun e => e.2.opno == (cssOf s1 h).opCtr && e.2.otype == 2 && e.2.st != 0)
    (q.1 < 2 → ∀ i e, mine = some (i, e) → runSpoolStart id s =
      updStream id (fun x => { x with ops := x.ops ++ [⟨i, t.rtail, whole.foldl (fun (n : Nat) f => max n f.2.2) t.dseq, whole.length⟩],
                                      spoolTo := t.rtail }) q.2.2) := by
  intro lba first stop h hspan hring hw firstSeq whole q
  have hgo : ¬ (t.spoolFailed = true ∨ 2 ≤ t.ops.length ∨ t.spoolTo = t.rtail ∨ t.spoolNext.isSome = true) := by
    simp [hf, ho, hnx, Nat.ne_of_lt hlt]
  have hback : ¬ t.rtail < t.spoolTo := Nat.not_lt.2 (Nat.le_of_lt hlt)
  have hmin : min stop (first + 2 ^ 20) = stop := Nat.min_eq_left hspan
  have hend : ¬ stop = t.rsize := Nat.ne_of_lt hring
  have hto : ¬ (t.rtail < t.spoolTo ∨ stop < stop) := not_or.2 ⟨hback, Nat.lt_irrefl _⟩
  have hrun : runSpoolStart id s = if q.1 ≥ 2 then q.2.2 else
      updStream id (fun x => { x with
        ops := x.ops ++ [⟨(match (cssOf q.2.2 h).ift.find? (fun e => e.2.opno == (cssOf s1 h).opCtr && e.2.otype == 2 && e.2.st != 0) with
          | some e => e.1 | none => 0), t.rtail, whole.foldl (fun (n : Nat) f => max n f.2.2) t.dseq, whole.length⟩],
        spoolTo := t.rtail }) q.2.2 := by
    simp only [stop, first, lba] at hmin hend hto
    simp only [stop, first, lba, h] at hw
    simp only [runSpoolStart, ht, hsp]
    rw [if_neg hgo]
    simp only [if_neg hback, ho, List.foldl_nil, List.drop_zero, if_true, Nat.add_zero, hmin, if_neg hend, if_neg hto, hw,
      not_true_eq_false, if_false]
    rfl
  refine ⟨fun hq => hrun.trans (if_pos hq), ?_⟩
  intro mine hq i e hm
  rw [hrun, if_neg (Nat.not_le.2 hq), show (cssOf q.2.2 h).ift.find? _ = some (i, e) from hm]
end

theorem runSpoolStatus_ends {o : SpoolOp} {rest : List SpoolOp} (hot : (iftOf s h i).otype = 2) (hst : (iftOf s h i).st = 6)
    (ht : streamOf s (spoolStream (iftOf s h i)) = some t) (hops : t.ops = o :: rest) (hi : o.ift = i) :
    runSpoolStatus h i s = applySpool (spoolStream (iftOf s h i))
      (let s1 := updIft h i (fun _ => Ift.free) s
        if t.spoolFailed then updStream (spoolStream (iftOf s h i)) (fun x => { x with ops := x.ops.drop 1 }) s1
        else if (iftOf s h i).fstat = 0 ∨ (iftOf s h i).fstat = 1 then spoolDone (spoolStream (iftOf s h i)) o s1
        else failSpool (spoolStream (iftOf s h i)) s1) := by
  have h10 : ¬ (iftOf s h i).st = 10 := by omega
  simp only [runSpoolStatus, if_neg (Classical.not_not.2 hot), if_neg h10, if_neg (Classical.not_not.2 hst), ht, hops, if_neg (Classical.not_not.2 hi)]

theorem runSpoolStatus_interrupted (hot : (iftOf s h i).otype = 2) (hst : (iftOf s h i).st = 10) : runSpoolStatus h i s =
    if (iftOf s h i).halfLoss ∧ strHub s (spoolStream (iftOf s h i)) ≠ halfOf (spoolStream (iftOf s h i) / 65536 % 2) then
      updIft h i (fun _ => Ift.free) s
    else loseSpool h (spoolStream (iftOf s h i)) s := by
  simp only [runSpoolStatus, if_neg (Classical.not_not.2 hot), if_pos hst]

/-- Settles O49: each event of an open stream by what waits on it. -/
theorem ledger : Obligations.Ledger := by
  refine ⟨?_, ?_⟩
  · intro id t s h hlive ht
    refine ⟨fun q d p fn hd ho hid hot how hlt hp hm hin => ?_, fun addr len tag flags hc hr h0 hlen hf ha hd hn hall => ?_,
      fun a fail ha => ?_, fun a rest s1 off n ha hf hh hc hdur => ?_, fun e rest d p s1 hh hd hroom hw => ?_, ?_⟩
    · subst hid
      exact exec_of_live (f := runAppendEntry q) rfl hlive (runAppendEntry_submits hd ho ht hot how hlt hp hm hin)
    · exact ldgAppend_accepts ht hc hr h0 hlen hf ha hd hn hall
    · intro ts put
      refine ⟨fun x hd hf => ?_, fun hd => ?_⟩
      · intro b
        exact exec_of_live (f := runAppendFormat id fail) rfl hlive (runAppendFormat_frames ht ha hd hf)
      · exact exec_of_live (f := runAppendFormat id fail) rfl hlive (runAppendFormat_void ht ha hd)
    · intro ts hch e s2 t2
      have hrun : runAppendChain id s = t2 := runAppendChain_chains ht ha hf hh hc hdur hch
      exact ⟨exec_of_live (f := runAppendChain id) rfl hlive hrun, exec_of_live (f := runRingSpace id) rfl hlive hrun⟩
    · exact exec_of_live (f := runLedgerPost id) rfl hlive (runLedgerPost_posts ht hh hd hroom hw)
    · exact exec_of_live (f := runCkptTimer id) rfl hlive (runCkptTimer_of_open ht)
  · intro id t s hlive ht
    refine ⟨fun h q s1 off hq => ?_, ?_, fun hn => ?_, fun sub s1 hsp hf ho hnx hlt => ?_, fun h i o rest => ?_, fun h i => ?_,
      fun h i => ?_, fun h => ?_⟩
    · intro hd body0 body d hp s2 s3 s4
      exact exec_of_live (f := runCkptSign h) rfl hlive (runCkptSign_signs ht hq hp)
    · exact exec_of_live (f := runCloseTimeout id) rfl hlive (runCloseTimeout_of_open ht)
    · exact exec_of_live (f := runSpoolStart id) rfl hlive (runSpoolStart_stays ht hn)
    · intro lba first stop h hspan hring hw firstSeq whole q
      obtain ⟨hrefused, hstarted⟩ := runSpoolStart_starts ht hsp hf ho hnx hlt hspan hring hw
      exact ⟨fun hq => exec_of_live (f := runSpoolStart id) rfl hlive (hrefused hq),
        fun hq i e hm => exec_of_live (f := runSpoolStart id) rfl hlive (hstarted hq i e hm)⟩
    · intro e hot hst hid hops hi
      have hid' : spoolStream (iftOf s h i) = id := hid
      subst hid'
      exact exec_of_live (f := runSpoolStatus h i) rfl hlive (runSpoolStatus_ends hot hst ht hops hi)
    · intro e hot hst hl hid hne
      subst hid
      exact exec_of_live (f := runSpoolStatus h i) rfl hlive ((runSpoolStatus_interrupted hot hst).trans (if_pos ⟨hl, hne⟩))
    · intro e hot hst hl hid
      subst hid
      exact exec_of_live (f := runSpoolStatus h i) rfl hlive
        ((runSpoolStatus_interrupted hot hst).trans (if_neg fun hb => ne_true_of_eq_false hl hb.1))
    · exact exec_of_live (f := runLdgErrClear h) rfl hlive rfl

end Sys2Proof.Machine
end

section
/-! Requests of the host at an attach port (R436, R440, R455, R456, R459). -/
namespace Sys2Proof.Machine

variable {r : InReq} {p fn off tag : Nat} {s : State}

/-! ### Configuration requests (R436) -/

theorem runConfig_of_port (hp : portPresent s p = true) (hr : (portOf s p).perst = false) (wr : Option (Nat × Nat)) :
    runConfig p fn off tag wr s = if ¬ readyBit s (portHalf p) (rbAtt (p % 2)) then portSend p (.cpl fn tag 2 [] false) s
      else if ¬ cfgFn s p fn then portSend p (.cpl fn tag 1 [] false) s
      else match wr with
        | none => portSend p (.cpl fn tag 0 (toBytes 4 (cfgWord s (fnKey p fn) (off / 4 * 4))) false) s
        | some (be, v) => portSend p (.cpl fn tag 0 [] false) (cfgWrite (fnKey p fn) (off / 4 * 4) be v s) :=
  if_neg (not_or.2 ⟨Classical.not_not.2 hp, ne_true_of_eq_false hr⟩)

theorem cfgFn_iff : cfgFn s p fn = true ↔ fn = 0 ∨ fn ≤ numVfs s p := by
  simp only [cfgFn, Bool.or_eq_true, beq_iff_eq, decide_eq_true_eq]

/-! ### Memory requests (R440, R455, R459) -/

/-- The request of a port that is present and not reset meets the function's state. -/
theorem runInbound_of_port (hp : portPresent s r.port = true) (hr : (portOf s r.port).perst = false) :
    let k := fnKey r.port r.fn
    let u := bump (portUnit r.port) 0x581 1 s
    runInbound r s = if ¬ cfgFn u r.port r.fn ∨ ¬ memSpaceEn u k ∨ inD3 u k ∨ ¬ fnLive u r.port r.fn then inUr r u
      else if r.bar = 0 then
        match r.kind with
        | .wr d _ => regPut k r.off d u
        | .rd n => portSend r.port (.cpl r.fn r.tag 0 (regBytes u k r.off n) false) u
        | .atom _ _ _ _ => inUr r u
      else bar2 r u :=
  if_neg (not_or.2 ⟨Classical.not_not.2 hp, ne_true_of_eq_false hr⟩)

section
variable {w : Win} (hw : winHit (fnOf s (fnKey r.port r.fn)) r.off (inLen r.kind) = some w)
include hw

theorem bar2_refused (hn : (∃ op size x y, r.kind = .atom op size x y ∧ atomOk s op size r.off = false) ∨ winAllows w r.kind = false ∨
    dramOk s (portHalf r.port) (w.tgt + (r.off - w.off)) (inLen r.kind) = false) : bar2 r s = inUr r s := by
  simp only [bar2, hw]
  refine if_neg ?_
  rintro ⟨hok, hal, hdr⟩
  obtain ⟨op, size, x, y, hk, ha⟩ | ha | ha := hn
  · simp only [hk] at hok
    exact ne_true_of_eq_false ha hok
  · exact ne_true_of_eq_false ha hal
  · exact ne_true_of_eq_false ha hdr

theorem bar2_performed (ha : ∀ op size x y, r.kind = .atom op size x y → atomOk s op size r.off = true)
    (hal : winAllows w r.kind = true) (hdr : dramOk s (portHalf r.port) (w.tgt + (r.off - w.off)) (inLen r.kind) = true) :
    bar2 r s = inPerform r (w.tgt + (r.off - w.off)) s := by
  simp only [bar2, hw]
  refine if_pos ⟨?_, hal, hdr⟩
  cases hk : r.kind with
  | atom op size x y => exact ha op size x y hk
  | wr d ep => rfl
  | rd n => rfl
end

theorem bar2_no_window (hw : winHit (fnOf s (fnKey r.port r.fn)) r.off (inLen r.kind) = none)
    (hn : r.fn ≠ 0 ∨ peerHit (portOf s r.port) r.off (inLen r.kind) = none) (hpf : isPf (fnKey r.port r.fn) = decide (r.fn = 0)) :
    bar2 r s = inUr r s := by
  have hnone : (if isPf (fnKey r.port r.fn) = true then peerHit (portOf s r.port) r.off (inLen r.kind) else none) = none := by
    obtain h | h := hn
    · rw [if_neg (by simp [hpf, h])]
    · rw [h, ite_self]
  simp only [bar2, hw, hnone]

/-! ### Peer windows (R456) -/

theorem runPeer_of_window {w : Peer} (hfn : r.fn = 0) (hm : memSpaceEn s (fnKey r.port 0) = true) (hd : inD3 s (fnKey r.port 0) = false)
    (hw : winHit (fnOf s (fnKey r.port 0)) r.off (inLen r.kind) = none)
    (hp : peerHit (portOf s r.port) r.off (inLen r.kind) = some w) : runPeer r s = peerForward r w s := by
  simp only [runPeer, hw, hp]
  exact if_pos ⟨hfn, hm, ne_true_of_eq_false hd⟩

theorem peerForward_write {w : Peer} {d : List Byte} {ep : Bool} (hk : r.kind = .wr d ep) : peerForward r w s =
    if peerUp s r.port w.tport = true ∧ w.wr = true then portSend w.tport (.write 0 (w.haddr + (r.off - w.off)) d ep) s else inUr r s := by
  simp only [peerForward, hk]
  cases peerUp s r.port w.tport with
  | true => simp only [not_true_eq_false, if_false, true_and]
  | false => simp only [Bool.false_eq_true, not_false_eq_true, if_true, false_and, if_false]

/-- Settles O50: configuration requests, memory requests by the function's state and the window, peer requests. -/
theorem attachRequests : Obligations.AttachRequests := by
  intro s hlive
  refine ⟨fun p fn off tag wr hp hr => ?_, fun r hp hr => ?_, fun r w d ep hfn hm hd hw hpw hk => ?_⟩
  · intro w
    have hrun (wr) := runConfig_of_port (fn := fn) (off := off) (tag := tag) hp hr wr
    refine ⟨fun hb => ?_, fun hb => ⟨fun h0 hv => ?_, fun hv => ⟨?_, fun be v => ?_⟩⟩⟩
    · exact exec_of_live (f := runConfig p fn off tag wr) rfl hlive ((hrun wr).trans (if_pos (ne_true_of_eq_false hb)))
    · have hno : ¬ cfgFn s p fn = true := fun hc => (cfgFn_iff.1 hc).elim h0 (Nat.not_le.2 hv)
      exact exec_of_live (f := runConfig p fn off tag wr) rfl hlive ((hrun wr).trans ((if_neg (Classical.not_not.2 hb)).trans (if_pos hno)))
    · exact exec_of_live (f := runConfig p fn off tag none) rfl hlive
        ((hrun none).trans ((if_neg (Classical.not_not.2 hb)).trans (if_neg (Classical.not_not.2 (cfgFn_iff.2 hv)))))
    · exact exec_of_live (f := runConfig p fn off tag (some (be, v))) rfl hlive
        ((hrun (some (be, v))).trans ((if_neg (Classical.not_not.2 hb)).trans (if_neg (Classical.not_not.2 (cfgFn_iff.2 hv)))))
  · intro k u n
    have hrun := runInbound_of_port hp hr
    refine ⟨fun hoff => ?_, fun hc hm hd hl => ?_⟩
    · refine exec_of_live (f := runInbound r) rfl hlive (hrun.trans (if_pos (.inr ?_)))
      exact hoff.imp ne_true_of_eq_false (Or.imp id ne_true_of_eq_false)
    · have hgo := hrun.trans (if_neg (not_or.2 ⟨Classical.not_not.2 hc, not_or.2 ⟨Classical.not_not.2 hm, not_or.2 ⟨ne_true_of_eq_false hd, Classical.not_not.2 hl⟩⟩⟩))
      refine ⟨fun d ep hb hk => ?_, fun m hb hk => ?_, fun w hb hw => ?_, fun hb hw hn hpf => ?_⟩
      · refine exec_of_live (f := runInbound r) rfl hlive (hgo.trans ((if_pos hb).trans ?_))
        rw [hk]
      · refine exec_of_live (f := runInbound r) rfl hlive (hgo.trans ((if_pos hb).trans ?_))
        rw [hk]
      · intro pa
        exact ⟨fun hn => exec_of_live (f := runInbound r) rfl hlive (hgo.trans ((if_neg hb).trans (bar2_refused hw hn))),
          fun ha hal hdr => exec_of_live (f := runInbound r) rfl hlive (hgo.trans ((if_neg hb).trans (bar2_performed hw ha hal hdr)))⟩
      · exact exec_of_live (f := runInbound r) rfl hlive (hgo.trans ((if_neg hb).trans (bar2_no_window hw hn hpf)))
  · have hrun := (runPeer_of_window hfn hm hd hw hpw).trans (peerForward_write hk)
    refine ⟨fun hu hwr => ?_, fun hn => ?_⟩
    · exact exec_of_live (f := runPeer r) rfl hlive (hrun.trans (if_pos ⟨hu, hwr⟩))
    · refine exec_of_live (f := runPeer r) rfl hlive (hrun.trans (if_neg fun ⟨hu, hwr⟩ => ?_))
      exact hn.elim (fun h => ne_true_of_eq_false h hu) (fun h => ne_true_of_eq_false h hwr)

end Sys2Proof.Machine
end

section
/-! Queue pairs, reads of the host, ports and functions (R436–R478). -/
namespace Sys2Proof.Machine

variable {q p k : Nat} {s : State}

/-! ### Reading a submission queue (R449) -/

/-- The span a read of a submission queue asks for: entries not yet read, and the read itself. -/
def sqTodo (x : Qp) : Nat := (x.sqTail % qpSlots x.sqSize + qpSlots x.sqSize - x.sqSlot) % qpSlots x.sqSize
def sqSpan (x : Qp) : Nat := min 16 (min (sqTodo x) (qpSlots x.sqSize - x.sqSlot))

theorem portRead_of_tag {fn addr n t : Nat} {why : HostFor} (ht : freeTag (portOf s p) = some t) : portRead p fn addr n why s =
    portSend p (.read fn addr n t) (updPort p (fun x => { x with reqs := x.reqs ++ [⟨t, fn, why⟩], nextTag := (t + 1) % 1024 }) s) := by
  simp only [portRead, ht]

theorem portRead_waits {fn addr n : Nat} {why : HostFor} (ht : freeTag (portOf s p) = none) : portRead p fn addr n why s =
    updPort p (fun x => { x with waiting := x.waiting ++ [⟨fn, addr, n, why⟩] }) s := by
  simp only [portRead, ht]

section
variable {fn : Nat} (ho : qpOwner s q = some (p, fn))
include ho

theorem qpRead_nothing (h0 : sqTodo (qpOf s q) = 0) : qpRead q s = s := by
  simp only [qpRead, ho]
  exact if_pos (.inr (.inr (.inr h0)))

theorem qpRead_reads (hm : sqMay s q = true) (hg : (qpOf s q).got = []) (hr : sqReading s p q = false) (h0 : sqTodo (qpOf s q) ≠ 0) :
    let x := qpOf s q
    qpRead q s = portRead p fn (x.sqAt + x.sqSlot * sqEntry x.typ) (sqSpan x * sqEntry x.typ) (.sq q (sqSpan x)) s := by
  simp only [qpRead, ho]
  exact if_neg (not_or.2 ⟨Classical.not_not.2 hm, not_or.2 ⟨Classical.not_not.2 hg, not_or.2 ⟨ne_true_of_eq_false hr, h0⟩⟩⟩)
end

theorem qpRead_draining (hd : draining s (halfOf (q / 2048)) = true) : qpRead q s = s := by
  have hmay : ¬ sqMay s q = true := by simp [sqMay, hd]
  rw [qpRead]
  cases qpOwner s q with
  | none => rfl
  | some o => exact if_pos (.inl hmay)

/-! ### A core's accesses and the answers to reads (R451, R461, R463) -/

theorem attLoad_refused {lcn ctx rid off n : Nat} (hn : winUp s p = false ∨ winShape off n = false) :
    attLoad lcn ctx rid p off n s = loadReply p lcn ctx rid 1 [] s := by
  exact if_neg fun ⟨hu, hsh⟩ => hn.elim (fun h => ne_true_of_eq_false h hu) (fun h => ne_true_of_eq_false h hsh)

theorem attLoad_sent {lcn ctx rid off n : Nat} (hu : winUp s p = true) (hsh : winShape off n = true) :
    attLoad lcn ctx rid p off n s = portRead p 0 off n (.load lcn ctx rid n) s :=
  if_pos ⟨hu, hsh⟩

section
variable {tag : Nat} {r : HostReq} (hr : (portOf s p).reqs.find? (fun r => r.tag == tag) = some r)
include hr

theorem runReadCompletion_awaited (st : Nat) (d : List Byte) (ep : Bool) :
    let s1 := updPort p (fun y => { y with reqs := y.reqs.filter (fun z => z.tag != tag) }) s
    runReadCompletion p tag st d ep s = portPump p (if st = 0 then reqDone p r d ep s1 else reqFail p r s1) := by
  simp only [runReadCompletion, hr]

theorem runReadTimeout_awaited : runReadTimeout p tag s = portPump p (reqFail p r (aerSet (fnKey p r.fn) 14
    (updPort p (fun y => { y with reqs := y.reqs.filter (fun z => z.tag != tag) }) s))) := by
  simp only [runReadTimeout, hr]
end

section
variable {tag : Nat} (hr : (portOf s p).reqs.find? (fun r => r.tag == tag) = none)
include hr

theorem runReadCompletion_unexpected (st : Nat) (d : List Byte) (ep : Bool) : runReadCompletion p tag st d ep s =
    if (portOf s p).quar.any (fun q => q.1 == tag) then s else aerSet (p * 64) 16 s := by
  simp only [runReadCompletion, hr]

theorem runReadTimeout_quarantined : runReadTimeout p tag s =
    portPump p (updPort p (fun y => { y with quar := y.quar.filter (fun q => q.1 != tag) }) s) := by
  simp only [runReadTimeout, hr]
end

/-- Settles O51: the doorbells, one read of a queue, and each answer by the read it belongs to. -/
theorem queuePairs : Obligations.QueuePairs := by
  refine ⟨?_, ?_⟩
  · intro q v s hlive
    refine ⟨exec_of_live (f := runQpTail q v) rfl hlive rfl, exec_of_live (f := runQpCqHead q v) rfl hlive rfl,
      exec_of_live (f := runMsgTx q v) rfl hlive rfl, exec_of_live (f := runMsgRx q v) rfl hlive rfl,
      fun hen => exec_of_live (f := runQpStop q v) rfl hlive (if_pos hen), fun p fn ho hm hg hr => ?_, qpRead_draining⟩
    intro x n todo k
    refine ⟨fun h0 => qpRead_nothing ho h0, fun t h0 ht => ?_, fun h0 ht => ?_⟩
    · exact (qpRead_reads ho hm hg hr h0).trans (portRead_of_tag ht)
    · exact (qpRead_reads ho hm hg hr h0).trans (portRead_waits ht)
  · intro p s x hlive
    refine ⟨fun lcn ctx off n => ?_, fun tag r hr => ?_, fun tag st d ep hr => ⟨fun hq => ?_, fun hq => ?_, ?_⟩⟩
    · intro rid
      refine ⟨fun hu hsh => ?_, fun hn => ?_, fun d hu hsh => ?_⟩
      · exact exec_of_live (f := runWindowAccess lcn ctx p off n none) rfl hlive (attLoad_sent hu hsh)
      · exact exec_of_live (f := runWindowAccess lcn ctx p off n none) rfl hlive (attLoad_refused hn)
      · exact exec_of_live (f := runWindowAccess lcn ctx p off n (some d)) rfl hlive ((if_pos hsh).trans (if_pos hu))
    · intro s1
      exact ⟨fun d ep => exec_of_live (f := runReadCompletion p tag 0 d ep) rfl hlive (runReadCompletion_awaited hr 0 d ep),
        fun st d ep hst => exec_of_live (f := runReadCompletion p tag st d ep) rfl hlive
          ((runReadCompletion_awaited hr st d ep).trans (congrArg _ (if_neg hst))),
        exec_of_live (f := runReadTimeout p tag) rfl hlive (runReadTimeout_awaited hr)⟩
    · exact exec_of_live (f := runReadCompletion p tag st d ep) rfl hlive ((runReadCompletion_unexpected hr st d ep).trans (if_pos hq))
    · exact exec_of_live (f := runReadCompletion p tag st d ep) rfl hlive
        ((runReadCompletion_unexpected hr st d ep).trans (if_neg (ne_true_of_eq_false hq)))
    · exact exec_of_live (f := runReadTimeout p tag) rfl hlive (runReadTimeout_quarantined hr)

/-! ### Window sets (R457) -/

theorem runWinCommit_of_port (hp : portPresent s p = true) (v : Nat) :
    let s1 := updPort p (fun x => { x with err := x.err && !bitOf v 30, set := v % 128 }) s
    runWinCommit p v s = if ¬ bitOf v 31 then s1
      else if v % 128 < 64 ∧ winsOk s (p * 64 + v % 128) then updFn (p * 64 + v % 128) (fun f => { f with active := f.shadow }) s1
      else if v % 128 = 64 ∧ peersOk s p then updPort p (fun x => { x with peers := x.peersS }) s1
      else updPort p (fun x => { x with err := true }) s1 :=
  if_neg (Classical.not_not.2 hp)

/-- Settles O52: each event of a port or function under its guard. -/
theorem attachFunctions : Obligations.AttachFunctions := by
  intro p k s hlive
  refine ⟨fun v hp => ?_, fun hk => ?_, ⟨?_, ?_⟩, fun hp hr => ?_, fun gen width hl hr => ?_, fun hb => ⟨?_, fun hbl => ?_⟩,
    fun hb => ⟨?_, ?_⟩, fun hn => ?_, fun hon hne => ?_, fun v => ?_, fun g hg => ?_⟩
  · intro s1
    have hrun := runWinCommit_of_port hp v
    refine ⟨fun hgo => ?_, fun hgo hlt hok => ?_, fun hgo heq hok => ?_, fun hgo hbad => ?_⟩
    · exact exec_of_live (f := runWinCommit p v) rfl hlive (hrun.trans (if_pos (ne_true_of_eq_false hgo)))
    · exact exec_of_live (f := runWinCommit p v) rfl hlive (hrun.trans ((if_neg (Classical.not_not.2 hgo)).trans (if_pos ⟨hlt, hok⟩)))
    · exact exec_of_live (f := runWinCommit p v) rfl hlive
        (hrun.trans ((if_neg (Classical.not_not.2 hgo)).trans ((if_neg fun h => by omega).trans (if_pos ⟨heq, hok⟩))))
    · have hw : ¬ (v % 128 < 64 ∧ winsOk s (p * 64 + v % 128) = true) := by
        rintro ⟨hlt, hok⟩
        obtain h | ⟨-, h⟩ | ⟨h, -⟩ := hbad
        · omega
        · exact ne_true_of_eq_false h hok
        · omega
      have hpe : ¬ (v % 128 = 64 ∧ peersOk s p = true) := by
        rintro ⟨heq, hok⟩
        obtain h | ⟨h, -⟩ | ⟨-, h⟩ := hbad
        · omega
        · omega
        · exact ne_true_of_eq_false h hok
      exact exec_of_live (f := runWinCommit p v) rfl hlive
        (hrun.trans ((if_neg (Classical.not_not.2 hgo)).trans ((if_neg hw).trans (if_neg hpe))))
  · exact exec_of_live (f := runFlr k) rfl hlive (if_neg (ne_true_of_eq_false hk))
  · exact exec_of_live (f := runHotReset p false) rfl hlive rfl
  · exact exec_of_live (f := runHotReset p true) rfl hlive rfl
  · exact exec_of_live (f := runPerst p false) rfl hlive (if_neg (Classical.not_not.2 hp))
  · exact exec_of_live (f := runLinkTrained p gen width) rfl hlive (if_pos ⟨hl, ne_true_of_eq_false hr⟩)
  · exact exec_of_live (f := runBmeOff k) rfl hlive (if_pos hb)
  · exact exec_of_live (f := runBmeClear k) rfl hlive (if_pos ⟨hb, hbl⟩)
  · exact exec_of_live (f := runBmeOff k) rfl hlive (if_neg (ne_true_of_eq_false hb))
  · exact exec_of_live (f := runBmeClear k) rfl hlive (if_neg fun h => ne_true_of_eq_false hb h.1)
  · exact exec_of_live (f := runLtr p) rfl hlive (if_pos (hn.imp ne_true_of_eq_false id))
  · exact exec_of_live (f := runLtr p) rfl hlive (if_neg (not_or.2 ⟨Classical.not_not.2 hon, hne⟩))
  · exact exec_of_live (f := runIsrClear k v) rfl hlive rfl
  · intro s1
    have hrun : runQuiesceLimit k s = if inFlight s k then finish g stFailed 8 (res [(4, 0x20), (4, openWork s k)]) s1
        else finish g stDone 4 0 s1 := by
      simp only [runQuiesceLimit, hg]
      rfl
    exact ⟨fun hf => exec_of_live (f := runQuiesceLimit k) rfl hlive (hrun.trans (if_pos hf)),
      fun hf => exec_of_live (f := runQuiesceLimit k) rfl hlive (hrun.trans (if_neg (ne_true_of_eq_false hf)))⟩

end Sys2Proof.Machine
end

section
/-! The Lighthouse: mailbox, tokens, lifecycle, images, ST64 (R484–R520). -/
namespace Sys2Proof.Machine

variable {h : Half} {p t : List Byte} {s : State}

/-! ### The mailbox (R484, R486) -/

theorem mbLen_of_no_type {n : Nat} (hn : n = 0 ∨ 6 ≤ n) : mbLen n = none := by
  obtain rfl | h6 := hn
  · rfl
  · obtain ⟨m, rfl⟩ := Nat.exists_eq_add_of_le' h6
    rfl

/-- The slot a taken request came from, and the state with it taken. -/
def mbTake (h : Half) (k : Nat) (s : State) : State :=
  updLh h (fun x => { x with inpend := setDel x.inpend k, lastSlot := k, taken := some (k, slice (tget [] (lhOf s h).mbIn k) 0 256) }) s

section
variable {k : Nat} (ht : (lhOf s h).taken = none)
  (hk : ((upTo 16).map (fun i => ((lhOf s h).lastSlot + 1 + i) % 16)).find?
    (fun k => (lhOf s h).inpend.contains k && !(lhOf s h).outpend.contains k) = some k)
include ht hk

theorem runMailboxTake_no_type (hn : let m := slice (tget [] (lhOf s h).mbIn k) 0 256; fieldAt m 0 2 = 0 ∨ 6 ≤ fieldAt m 0 2) :
    runMailboxTake h s = mbAnswer h stBadOpcode [] (mbTake h k s) := by
  simp only [runMailboxTake, ht, hk, Option.isSome_none, Bool.false_eq_true, if_false, mbLen_of_no_type hn]
  rfl

theorem runMailboxTake_stage (hn : fieldAt (slice (tget [] (lhOf s h).mbIn k) 0 256) 0 2 = 5) :
    runMailboxTake h s = if fieldAt (slice (tget [] (lhOf s h).mbIn k) 0 256) 4 2 = 13 then mbTake h k s
      else mbAnswer h stBadParam [] (mbTake h k s) := by
  simp only [runMailboxTake, ht, hk, Option.isSome_none, Bool.false_eq_true, if_false, hn]
  rfl
end

theorem runDbgChallenge_taken (ht : mbTaken s h 1 = some p) : runDbgChallenge h s =
    mbAnswer h stDone (drbg s.nonce 16 ++ pack [(4, otpSerial), (1, (lhOf s h).lc)])
      (updLh h (fun x => { x with nonce := some (drbg s.nonce 16) }) (drawn s)) := by
  simp only [runDbgChallenge, ht]

theorem runDbgRelock_taken (ht : mbTaken s h 3 = some p) (hl : s.units.dbg.left ≠ 0) :
    runDbgRelock h s = mbAnswer h stDone (pack [(4, lhDbgReg (endGrant s) h)]) (endGrant s) := by
  simp only [runDbgRelock, ht, runGrantExpiry, if_neg hl]

/-! ### Tokens (R489, R512, R513) -/

/-- Every token uses its nonce up. -/
def nonceUsed (h : Half) (s : State) : State := updLh h (fun l => { l with nonce := none }) s

section
variable (ht : mbTaken s h 2 = some t)
include ht

theorem runDbgUnlock_malformed (hst : tokenCheck s h [0x4C, 0x44, 0x54, 0x31] t = stBadParam) :
    runDbgUnlock h s = mbAnswer h stBadParam [] (nonceUsed h s) := by
  simp only [runDbgUnlock, ht]
  exact if_pos (.inl hst)

section
variable (hg : fieldAt t 0x18 1 ≤ 15) (h0 : 0 < fieldAt t 0x1C 4) (hd : fieldAt t 0x1C 4 < 2 ^ 24)
include hg h0 hd

omit ht in
theorem token_in_form (hst : tokenCheck s h [0x4C, 0x44, 0x54, 0x31] t ≠ stBadParam) :
    ¬ (tokenCheck s h [0x4C, 0x44, 0x54, 0x31] t = stBadParam ∨ 15 < fieldAt t 0x18 1 ∨ fieldAt t 0x1C 4 = 0 ∨
      2 ^ 24 ≤ fieldAt t 0x1C 4) :=
  not_or.2 ⟨hst, not_or.2 ⟨Nat.not_lt.2 hg, not_or.2 ⟨Nat.ne_of_gt h0, Nat.not_le.2 hd⟩⟩⟩

theorem runDbgUnlock_denied (hst : tokenCheck s h [0x4C, 0x44, 0x54, 0x31] t = stDenied) :
    runDbgUnlock h s = mbAnswer h stDenied [] (nonceUsed h s) := by
  simp only [runDbgUnlock, ht]
  exact (if_neg (token_in_form hg h0 hd (by rw [hst]; decide))).trans (if_pos (.inl (by rw [hst]; decide)))

/-- A token in form, signed, that asks for what the lifecycle allows. -/
theorem runDbgUnlock_granting (hst : tokenCheck s h [0x4C, 0x44, 0x54, 0x31] t = 0)
    (hgr : (fieldAt t 0x18 1).land (15 - dbgGrantable (lcOf s)) = 0) : runDbgUnlock h s =
    if bitOf (fieldAt t 0x18 1) 1 ∧ (anyStream s ∨ secureWork s .a ∨ secureWork s .b) then mbAnswer h stNotQuiesced [] (nonceUsed h s)
    else
      let s1 := setDbg (fun d => { d with grant := fieldAt t 0x18 1, left := hubTime h s + fieldAt t 0x1C 4 * 1000000000 })
        (if bitOf (fieldAt t 0x18 1) 1 then bothHubs openSecure (nonceUsed h s) else nonceUsed h s)
      mbAnswer h stDone (pack [(4, lhDbgReg s1 h)]) s1 := by
  simp only [runDbgUnlock, ht]
  refine (if_neg (token_in_form hg h0 hd (by rw [hst]; decide))).trans ((if_neg ?_).trans rfl)
  rw [hst]
  exact not_or.2 ⟨Classical.not_not.2 rfl, Classical.not_not.2 hgr⟩
end
end

section
variable (ht : mbTaken s h 4 = some t)
include ht

theorem runLcAdvance_rejected (hst : tokenCheck s h [0x4C, 0x4C, 0x43, 0x31] t ≠ 0) :
    runLcAdvance h s = mbAnswer h (tokenCheck s h [0x4C, 0x4C, 0x43, 0x31] t) [] (nonceUsed h s) := by
  simp only [runLcAdvance, ht]
  exact if_pos hst

theorem runLcAdvance_no_step (hst : tokenCheck s h [0x4C, 0x4C, 0x43, 0x31] t = 0) (hn : lcStep (lcOf s) (fieldAt t 0x18 1) = false) :
    runLcAdvance h s = mbAnswer h stBadParam [] (nonceUsed h s) := by
  simp only [runLcAdvance, ht]
  exact (if_neg (Classical.not_not.2 hst)).trans (if_pos (ne_true_of_eq_false hn))

theorem runLcAdvance_steps (hst : tokenCheck s h [0x4C, 0x4C, 0x43, 0x31] t = 0) (hn : lcStep (lcOf s) (fieldAt t 0x18 1) = true)
    (h4 : fieldAt t 0x18 1 ≠ 4) : runLcAdvance h s = mbAnswer h stDone (pack [(1, fieldAt t 0x18 1)])
      (bothHubs (fun g x => updLh g (fun l => { l with lc := fieldAt t 0x18 1 }) x) (nonceUsed h s)) := by
  simp only [runLcAdvance, ht]
  rw [if_neg (Classical.not_not.2 hst), if_neg (Classical.not_not.2 hn), if_neg fun hx => h4 hx.1, if_neg h4]
  rfl
end

/-! ### Images (R492, R495) -/

section
variable {d : List Byte} (ht : mbTaken s h 5 = some p) (hslot : fieldAt p 12 1 ≤ 15) (hn : 320 ≤ fieldAt p 8 4)
  (hd : dmaRead s h (fieldAt p 0 8) (fieldAt p 8 4) = some (d, false))
include ht hslot hn hd

theorem runFwStage_not_accepted (he : envelope s h none d = none) :
    runFwStage h s = mbAnswer h stDenied [] (logNow h (rpt (lhUnit h) 2 clsUC 0x0905 (fieldAt d 4 1 * 256)) s) := by
  simp only [runFwStage, ht, if_neg (not_or.2 ⟨Nat.not_lt.2 hslot, Nat.not_lt.2 hn⟩), hd, he]
  rfl

theorem runFwStage_caches {k : Nat} {i : Image} {c : Bool} (he : envelope s h none d = some (k, i, c)) (hk : k ≠ 4) :
    runFwStage h s = mbAnswer h stDone (pack [(4, i.version)]) (cacheImage h k i c s) := by
  simp only [runFwStage, ht, if_neg (not_or.2 ⟨Nat.not_lt.2 hslot, Nat.not_lt.2 hn⟩), hd, he, if_neg hk]
end

/-! ### ST64 (R506) -/

section
variable (hp : hubPresent s .b = true) (hb : bwaterReady s = true)
  (hm : s.pkg.mode = .unified ∨ s.pkg.mode = .mirrored ∨ s.pkg.mode = .split) (hs : s.pkg.stopped = false)
include hp hb hm hs

/-- Hub B's ST64 steps, slews forward, or waits. -/
theorem runSt64Steer_of_running (d : Nat) :
    let a := hubTime .a s
    let b := hubTime .b s
    runSt64Steer d s = if b + 1000 < a then updPkg (fun p => { p with slow := 0 }) { s with st64 := { s.st64 with b := BitVec.ofNat 64 a } }
      else if b ≤ a then updPkg (fun p => { p with slow := 0 })
        { s with st64 := { s.st64 with b := BitVec.ofNat 64 (b + min (a - b) (d / 1000)) } }
      else updPkg (fun p => { p with slow := min (b - a) (d / 1000) }) s := by
  refine if_neg ?_
  rintro (h | h | h | h | h)
  · exact h hp
  · exact ne_true_of_eq_false hs h
  · exact h hb
  · obtain hm | hm | hm := hm <;> simp [hm] at h
  · obtain hm | hm | hm := hm <;> simp [hm] at h
end

theorem countSt64_counts (hw : slewWaits h s = false) : countSt64 h s = { s with st64 := s.st64.set h (s.st64.get h + 1) } :=
  if_pos (ne_true_of_eq_false hw)

theorem slewWaits_b (hs : s.pkg.slow ≠ 0) : slewWaits .b s = true := by
  simp [slewWaits, hs]

/-! ### Work at its power limit (R520) -/

theorem runDeferredLimit_seal {u : Nat} (hq : s.units.preq.any (fun r => r.unit == u && r.deferred) = true) (hu : unitType u = 4)
    (hsec : (sengOf s (unitHalf u) (unitInst u)).secure = true) :
    runDeferredLimit u s = updUnits (fun x => { x with preq := x.preq.map (fun r =>
      if r.unit = u then { r with deferred := false } else r) }) (sealEndEarly (unitHalf u) (unitInst u) stPreempted 0 s) := by
  simp only [runDeferredLimit, if_neg (Classical.not_not.2 hq), hu, if_pos hsec]

/-- Settles O53: each request by what it asks and the state it meets. -/
theorem lighthouse : Obligations.Lighthouse := by
  refine ⟨?_, ?_⟩
  · intro h s l hlive
    refine ⟨fun m => exec_of_live (f := runMbDoorbell h m) rfl hlive rfl, fun m => exec_of_live (f := runMbClear h m) rfl hlive rfl,
      fun k ht hk => ?_, fun p ht => exec_of_live (f := runDbgChallenge h) rfl hlive (runDbgChallenge_taken ht),
      fun p ht hl => exec_of_live (f := runDbgRelock h) rfl hlive (runDbgRelock_taken ht hl)⟩
    intro m s1
    refine ⟨fun hn => ?_, fun hn hlen => ?_, fun hn hlen => ?_⟩
    · exact exec_of_live (f := runMailboxTake h) rfl hlive (runMailboxTake_no_type ht hk hn)
    · exact exec_of_live (f := runMailboxTake h) rfl hlive ((runMailboxTake_stage ht hk hn).trans (if_neg hlen))
    · exact exec_of_live (f := runMailboxTake h) rfl hlive ((runMailboxTake_stage ht hk hn).trans (if_pos hlen))
  · intro h s hlive used
    refine ⟨fun t ht => ?_, fun t ht => ?_, fun p d ht hslot hn hd => ⟨fun he => ?_, fun t i c he ht4 => ?_⟩, ?_,
      fun d hp hb hm hs => ?_, ⟨?_, fun h0 => ?_, fun h0 hlt => ?_, fun h0 hge => ?_⟩, fun u hq hu hsec => ?_⟩
    · intro st g dur
      refine ⟨fun hst => ?_, fun hst hg h0 hd => ?_, fun hst hg h0 hd hgr => ⟨fun h1 hw => ?_, fun h1 => ?_⟩⟩
      · exact exec_of_live (f := runDbgUnlock h) rfl hlive (runDbgUnlock_malformed ht hst)
      · exact exec_of_live (f := runDbgUnlock h) rfl hlive (runDbgUnlock_denied ht hg h0 hd hst)
      · exact exec_of_live (f := runDbgUnlock h) rfl hlive ((runDbgUnlock_granting ht hg h0 hd hst hgr).trans (if_pos ⟨h1, hw⟩))
      · intro s1
        refine exec_of_live (f := runDbgUnlock h) rfl hlive ((runDbgUnlock_granting ht hg h0 hd hst hgr).trans
          ((if_neg fun hx => ne_true_of_eq_false h1 hx.1).trans ?_))
        rw [if_neg (ne_true_of_eq_false h1)]
        rfl
    · intro new
      exact ⟨fun hst => exec_of_live (f := runLcAdvance h) rfl hlive (runLcAdvance_rejected ht hst),
        fun hst hn => exec_of_live (f := runLcAdvance h) rfl hlive (runLcAdvance_no_step ht hst hn),
        fun hst hn h4 => exec_of_live (f := runLcAdvance h) rfl hlive (runLcAdvance_steps ht hst hn h4)⟩
    · exact exec_of_live (f := runFwStage h) rfl hlive (runFwStage_not_accepted ht hslot hn hd he)
    · exact exec_of_live (f := runFwStage h) rfl hlive (runFwStage_caches ht hslot hn hd he ht4)
    · exact exec_of_live (f := runGrantExpiry) rfl hlive rfl
    · intro a b slow
      have hrun := runSt64Steer_of_running hp hb hm hs d
      refine ⟨fun hlt => ?_, fun hge hle => ?_, fun hlt => ?_⟩
      · exact exec_of_live (f := runSt64Steer d) rfl hlive (hrun.trans (if_pos hlt))
      · have hnear : ¬ hubTime .b s + 1000 < hubTime .a s := by
          have h1 : hubTime .a s - 1000 ≤ hubTime .b s := hge
          omega
        exact exec_of_live (f := runSt64Steer d) rfl hlive (hrun.trans ((if_neg hnear).trans (if_pos hle)))
      · have hahead : hubTime .a s < hubTime .b s := hlt
        exact exec_of_live (f := runSt64Steer d) rfl hlive
          (hrun.trans ((if_neg (by omega)).trans (if_neg (Nat.not_le.2 hahead))))
    · exact countSt64_counts rfl
    · exact countSt64_counts (by simp [slewWaits, h0])
    · exact (if_neg (Classical.not_not.2 (slewWaits_b h0))).trans (if_neg (Nat.not_le.2 hlt))
    · exact (if_neg (Classical.not_not.2 (slewWaits_b h0))).trans (if_pos hge)
    · exact exec_of_live (f := runDeferredLimit u) rfl hlive (runDeferredLimit_seal hq hu hsec)

end Sys2Proof.Machine
end

section
/-! Supplies, sideband inputs, clocks and temperature (R39, R43, R522–R541, R618–R631). -/
namespace Sys2Proof.Machine

variable {k i : Nat} {s : State}

/-! ### Supplies (R39, R522–R524, R540) -/

theorem runFeedLoss_first (hm : s.pkg.mode ≠ .off) (hl : (feedOf s.units.pwr k).lost = false) :
    let s1 := updFeed k (fun f => { f with ok := false, lost := true, sticky := true, losses := sat (f.losses + 1) 255 }) s
    runFeedLoss k s = if s.pkg.stopped then s1 else logNow (leader s) (rpt (srcOf (leader s) 0xFF 0x16 k) 3 clsCE 0x0804 k) s1 :=
  if_neg (not_or.2 ⟨ne_true_of_eq_false hl, hm⟩)

/-- Both feeds gone, the package draws on VHOLD while that is in range. -/
def onReserve (s : State) : State :=
  updPwr (fun p => { p with feedA := feedGone p.feedA, feedB := feedGone p.feedB, onHold := p.hOk }) s

theorem runBothLost_of_powered (hm : s.pkg.mode ≠ .off) : runBothLost s =
    if s.units.pwr.hOk then (if s.pkg.stopped then onReserve s else forceHold (onReserve s)) else goOff (onReserve s) :=
  if_neg hm

theorem runSupplyRange_of_feed {ok : Bool} (hk : k ≠ 2) (hm : s.pkg.mode ≠ .off) :
    runSupplyRange k ok s = updFeed k (fun f => if f.lost then f else { f with ok := ok }) s := by
  simp only [runSupplyRange, if_neg hk, if_neg hm]

theorem bothHubs_pwr {f : Half → State → State} (hf : ∀ h u, (f h u).units.pwr = u.units.pwr) : (bothHubs f s).units.pwr = s.units.pwr := by
  unfold bothHubs
  split
  · rw [hf, hf]
  · rw [hf]

theorem hubPowerUp_lh (h : Half) : (hubPowerUp h s).units.lh = s.units.lh.set h { s.units.lh.get h with otp := true } := rfl

theorem hubPowerUp_otp (h : Half) : (lhOf (hubPowerUp h s) h).otp = true := by
  rw [lhOf, hubPowerUp_lh, Pair.get_set_same]

theorem hubPowerUp_b_otp (hs : (lhOf s .a).otp = true) : (lhOf (hubPowerUp .b s) .a).otp = true := by
  rw [lhOf, hubPowerUp_lh, Pair.get_set_ne _ _ _ _ (by decide)]
  exact hs

theorem hubPowerUp_pwr (h : Half) : (hubPowerUp h s).units.pwr = s.units.pwr := rfl

/-- Hub A reads its OTP as hold power comes up. -/
theorem runHoldPowerUp_otp (k : Nat) (h : s.pkg.mode = .off) : (lhOf (runHoldPowerUp k s) .a).otp = true := by
  rw [runHoldPowerUp_of_off k h, bothHubs]
  split
  · exact hubPowerUp_b_otp (hubPowerUp_otp .a)
  · exact hubPowerUp_otp .a

theorem runHoldPowerUp_pwr (k : Nat) (h : s.pkg.mode = .off) :
    (runHoldPowerUp k s).units.pwr = supplyPowerUp k (goOff s).units.pwr := by
  rw [runHoldPowerUp_of_off k h, bothHubs_pwr fun g _ => hubPowerUp_pwr g]
  rfl

/-- Settles O54: each supply's change under its guard, and what hold power finds. -/
theorem supplies : Obligations.Supplies := by
  intro s
  refine ⟨fun k hm hl => ?_, fun k hl => ?_, fun k hl => ?_, fun hm => ?_, fun hm ho => ?_, fun ho => ?_, fun ok => ?_,
    fun k ok hk hm => ?_, fun k hm => ⟨runHoldPowerUp k s, rfl, runHoldPowerUp_mode k hm, runHoldPowerUp_otp k hm, ?_, ?_⟩, fun v hlive => ?_⟩
  · exact congrArg Host.Outcome.next (runFeedLoss_first hm hl)
  · exact congrArg Host.Outcome.next (if_neg (Classical.not_not.2 hl))
  · exact congrArg Host.Outcome.next (if_pos (ne_true_of_eq_false hl))
  · intro s1
    have hrun := runBothLost_of_powered hm
    exact ⟨fun hh => congrArg Host.Outcome.next (hrun.trans (if_neg (ne_true_of_eq_false hh))),
      fun hh hs => congrArg Host.Outcome.next (hrun.trans ((if_pos hh).trans (if_neg (ne_true_of_eq_false hs))))⟩
  · exact congrArg Host.Outcome.next (if_pos ⟨ho, hm⟩)
  · exact congrArg Host.Outcome.next (if_neg fun hx => ne_true_of_eq_false ho hx.1)
  · rfl
  · exact congrArg Host.Outcome.next (runSupplyRange_of_feed hk hm)
  · rintro rfl
    rw [runHoldPowerUp_pwr 0 hm]
    simp [supplyPowerUp]
  · rintro rfl
    rw [runHoldPowerUp_pwr 2 hm]
    simp [supplyPowerUp]
  · exact exec_of_live (f := runLostClear v) rfl hlive rfl

/-! ### Modes that RESET_N brings (R541) -/

theorem toMode_mode (m : Mode) (status : Nat) : (toMode m status s).pkg.mode = m :=
  congrArg (fun x => x.pkg.mode) (standing_logNow _)

theorem standing_endHeld (mine : Src → Bool) (own : Option Prog) : standing (endHeld mine own s) = standing s := by
  unfold endHeld
  dsimp only
  rw [standing_foldl fun _ _ => standing_postReply _, standing_foldl fun _ _ => ?_]
  · rfl
  · simp only [apply_ite standing, standing_postReply, ite_self]

theorem goHold_mode (loss : Bool) (status : Nat) (own : Option Prog) : (goHold loss status own s).pkg.mode = .hold :=
  (congrArg (fun x => x.pkg.mode) (standing_endHeld _ _)).trans (toMode_mode .hold status)

theorem enterHold_mode (loss : Bool) (status : Nat) (own : Option Prog) (hr : s.units.pwr.resetPend = false) :
    (enterHold loss status own s).pkg.mode = .hold := by
  rw [enterHold]
  rw [if_neg fun hx => ne_true_of_eq_false hr hx.1, goHold_mode]

theorem goBringup_mode (status : Nat) : (goBringup status s).pkg.mode = .bringup := by
  unfold goBringup
  dsimp only
  split
  · exact (congrArg (fun x => x.pkg.mode) (standing_logNow _)).trans (toMode_mode .bringup status)
  · exact toMode_mode .bringup status

theorem failOpt_mode (g : Option Prog) (n : Nat) : (failOpt g n s).pkg.mode = s.pkg.mode :=
  congrArg (fun x => x.pkg.mode) (standing_failOpt g n)

/-- A package with power is in HOLD when HOLD is forced on it. -/
theorem forceHold_mode (hm : s.pkg.mode ≠ .off) : (forceHold s).pkg.mode = .hold := by
  unfold forceHold
  split
  · contradiction
  next hhold =>
    split
    · exact (failOpt_mode _ _).trans hhold
    · exact hhold
  · exact enterHold_mode false 0xFF none rfl

theorem mode_of_live (hlive : live s = true) : s.pkg.mode ≠ .off := fun hoff => by
  simp [live_of_off hoff] at hlive

/-! ### Sideband inputs (R525, R526, R535, R618–R625) -/

/-- Settles O55: each input by whether it is masked and at which level it stands. -/
theorem sidebandInputs : Obligations.SidebandInputs := by
  refine ⟨?_, ?_⟩
  · intro s hlive p
    refine ⟨fun hm hn => ?_, fun ha => ?_, fun hm => ⟨?_, ?_⟩, fun hm => ⟨?_, ?_⟩, fun on hm hn => ?_, ?_, fun i hi hm ha hA hB => ?_, ?_,
      fun i hi hm => ?_, fun i hs => ?_⟩
    · exact exec_of_live (f := runPfw) rfl hlive (if_neg (not_or.2 ⟨ne_true_of_eq_false hm, ne_true_of_eq_false hn⟩))
    · exact exec_of_live (f := runPfwRelease) rfl hlive (if_pos ha)
    · exact exec_of_live (f := runResetAssert) rfl hlive (if_neg (ne_true_of_eq_false hm))
    · exact exec_of_live (f := runResetRelease) rfl hlive (if_neg (ne_true_of_eq_false hm))
    · exact exec_of_live (f := runResetAssert) rfl hlive (if_pos hm)
    · exact exec_of_live (f := runResetRelease) rfl hlive (if_pos hm)
    · have hnew : ¬ (masked s 2 = true ∨ s.units.pwr.active.contains 2 = on) := by
        rw [hm, show s.units.pwr.active.contains 2 = !on from hn]
        cases on <;> decide
      exact exec_of_live (f := runThrottle on) rfl hlive (if_neg hnew)
    · exact exec_of_live (f := runSvcClear) rfl hlive rfl
    · have hgo : ¬ (i = 0 ∨ 3 < i ∨ masked s i = true ∨ ¬ s.units.pwr.active.contains i = true ∨
          i = 1 ∧ ¬ (s.units.pwr.feedA.ok = true ∧ s.units.pwr.feedB.ok = true)) := by
        rintro (h | h | h | h | h)
        · omega
        · omega
        · exact ne_true_of_eq_false hm h
        · exact h ha
        · exact h.2 ⟨hA, hB⟩
      exact exec_of_live (f := runStuck i) rfl hlive ((if_neg hgo).trans (if_neg (by omega)))
    · exact exec_of_live (f := runStuck 0) rfl hlive (if_pos (.inl rfl))
    · have hin : ¬ (3 < i ∨ masked s i = true) := not_or.2 ⟨by omega, ne_true_of_eq_false hm⟩
      have h0 : ¬ (i = 0 ∧ ¬ s.units.pwr.active.contains 0 = true) := by
        rintro ⟨rfl, hno⟩
        obtain h | h | h | h := hi
        · omega
        · omega
        · exact hno h.2
        · omega
      have h2 : ¬ (i = 2 ∧ s.units.pwr.active.contains 2 = true) := by
        rintro ⟨rfl, hyes⟩
        obtain h | h | h | h := hi
        · omega
        · omega
        · omega
        · exact ne_true_of_eq_false h.2 hyes
      exact exec_of_live (f := runChatter i) rfl hlive ((if_neg hin).trans ((if_neg h0).trans (if_neg h2)))
    · exact exec_of_live (f := runMaskEnd i) rfl hlive (if_pos hs)
  · intro s hlive hm
    refine ⟨⟨_, exec_of_live (f := runResetAssert) rfl hlive (if_neg (ne_true_of_eq_false hm)), ?_⟩, fun hh hf hc =>
      ⟨_, exec_of_live (f := runResetRelease) rfl hlive (if_neg (ne_true_of_eq_false hm)), ?_⟩⟩
    · exact forceHold_mode (s := setLevel 0 true s) (mode_of_live hlive)
    · have hrun : resetRelease (setLevel 0 false s) = goBringup 0xFF (setLevel 0 false s) :=
        (if_neg (Classical.not_not.2 hc)).trans ((if_pos hh).trans (if_pos hf))
      rw [hrun, goBringup_mode]

/-! ### Clocks and temperature (R528–R531, R535, R631) -/

/-- A window of the clock monitor as it stands in the record. -/
def windowNoted (x i : Nat) (s : State) : State :=
  updPwr (fun q => { q with
    xcnt := x % 2 ^ 32, icnt := i % 2 ^ 32
    good := if windowOk x i then sat (q.good + 1) 16 else 0, xok := windowOk x i && decide (16 ≤ q.good + 1) }) s

theorem runClockWindow_of_running {x : Nat} (hm : s.pkg.mode ≠ .off) (hi : s.units.pwr.irok = true) : runClockWindow x i s =
    if windowOk x i ∨ ¬ s.units.pwr.lock ∨ s.units.pwr.ref then windowNoted x i s
    else
      let s2 := clockLossAll (updPwr (fun q => { q with ref := true, losses := sat (q.losses + 1) 255 }) (windowNoted x i s))
      let s3 := bothHubs (fun h t => updLh h (fun l => { l with att := false }) t) s2
      logNow (leader s3) (rpt (srcOf (leader s3) 0xFF 0x15 0) 3 clsCR 0x0801 (res [(4, x), (4, i)])) s3 :=
  if_neg (not_or.2 ⟨hm, Classical.not_not.2 hi⟩)

theorem runDieTemp_of_die {d : Nat} {t : Int} (hp : diePresent s d = true) (hl : (dieOf s d).lost = false) : runDieTemp d t s =
    if 840 ≤ t ∧ ¬ (dieOf s d).hot then thermal 1 (updDie d (fun y => { y with hot := true }) (updDie d (fun y => { y with temp := t }) s))
    else if t < 800 ∧ (dieOf s d).hot then thermal 2 (updDie d (fun y => { y with hot := false }) (updDie d (fun y => { y with temp := t }) s))
    else updDie d (fun y => { y with temp := t }) s :=
  if_neg (not_or.2 ⟨Classical.not_not.2 hp, ne_true_of_eq_false hl⟩)

/-- Settles O56: windows by their counts, dies by the threshold they cross. -/
theorem clocks : Obligations.Clocks := by
  intro s hlive hm p
  refine ⟨fun x i hi => ?_, fun hi => ?_, ?_, fun d t hp hl => ?_, ⟨?_, ?_⟩, fun d hd hp hl => ?_⟩
  · intro ok s1
    have hrun := runClockWindow_of_running (x := x) (i := i) hm hi
    refine ⟨fun hok => ?_, fun hok hlock href => ?_⟩
    · exact exec_of_live (f := runClockWindow x i) rfl hlive (hrun.trans (if_pos (hok.imp id (Or.imp ne_true_of_eq_false id))))
    · exact exec_of_live (f := runClockWindow x i) rfl hlive
        (hrun.trans (if_neg (not_or.2 ⟨ne_true_of_eq_false hok, not_or.2 ⟨Classical.not_not.2 hlock, ne_true_of_eq_false href⟩⟩)))
  · exact exec_of_live (f := runIroFailure) rfl hlive (if_neg (not_or.2 ⟨hm, Classical.not_not.2 hi⟩))
  · exact exec_of_live (f := runAllClocksLost) rfl hlive (if_neg hm)
  · intro s1
    have hrun := runDieTemp_of_die (t := t) hp hl
    refine ⟨fun ht hh => ?_, fun ht hh => ?_, fun hn => ?_⟩
    · exact exec_of_live (f := runDieTemp d t) rfl hlive (hrun.trans (if_pos ⟨ht, ne_true_of_eq_false hh⟩))
    · exact exec_of_live (f := runDieTemp d t) rfl hlive (hrun.trans ((if_neg fun h => h.2 hh).trans (if_pos ⟨ht, hh⟩)))
    · refine exec_of_live (f := runDieTemp d t) rfl hlive (hrun.trans ((if_neg ?_).trans (if_neg ?_)))
      · rintro ⟨ht, hh⟩
        obtain h | h := hn
        · exact hh h.1
        · omega
      · rintro ⟨ht, hh⟩
        obtain h | h := hn
        · omega
        · exact ne_true_of_eq_false h.1 hh
  · exact exec_of_live (f := runOvertemp 16) rfl hlive rfl
  · exact exec_of_live (f := runOvertemp 17) rfl hlive rfl
  · exact exec_of_live (f := runOvertemp d) rfl hlive ((if_pos hd).trans (if_neg (not_or.2 ⟨Classical.not_not.2 hp, ne_true_of_eq_false hl⟩)))

end Sys2Proof.Machine
end

section
/-! Bring-up and block power (R161, R247, R493, R518, R538–R550). -/
namespace Sys2Proof.Machine

variable {h : Half} {k d u : Nat} {s : State}

/-! ### Readiness (R542–R545) -/

theorem runUnitReady_not_yet {pass : Bool} (hn : readyDeps s h k = false ∨ hubPresent s h = false ∨ bitOff s h k = true) :
    runUnitReady h k pass s = s := by
  refine if_pos ?_
  obtain hn | hn | hn := hn
  · exact .inr (.inl (ne_true_of_eq_false hn))
  · exact .inl (ne_true_of_eq_false hn)
  · exact .inr (.inr hn)

section
variable (hp : hubPresent s h = true) (hd : readyDeps s h k = true) (ho : bitOff s h k = false)
include hp hd ho

/-- A unit that is no die sets its bit when its self-test passes; the hub fabric and the Stockpot go on from there. -/
theorem runUnitReady_of_hub (hr : readyBit s h k = false) (hk : k < 20 ∨ 28 ≤ k) {pass : Bool} : runUnitReady h k pass s =
    if ¬ pass then s
    else if k = rbHfab then
      let s2 := trainLinks h (readyBit s h.other rbHfab && s.cfg.part != .q0800a) (setReady h k true s)
      if s.units.spTest.get h then s2 else trainAll h s2
    else if k = rbStock ∧ s.units.spTest.get h then
      trainAll h (updUnits (fun u => { u with spTest := u.spTest.set h false }) (setReady h k true s))
    else if k = rbLedger then updLdg h (fun l => { l with lanes := 8 }) (setReady h k true s)
    else setReady h k true s := by
  have hdie : ¬ (20 ≤ k ∧ k < 28) := by omega
  simp only [runUnitReady, hp, hd, ho, hr, hdie, not_true_eq_false, Bool.false_eq_true, or_self, or_false, if_false]

/-- A die site is ready, or lost when its self-test fails. -/
theorem runUnitReady_of_die (h20 : 20 ≤ k) (h28 : k < 28) (hr : (dieOf s (h.n * 8 + (k - 20))).ready = false) (pass : Bool) :
    let s1 := updDie (h.n * 8 + (k - 20)) (fun x => { x with ready := pass, lost := !pass }) s
    runUnitReady h k pass s = if ¬ pass ∧ testsDone s1 h then giveSpares h s1 else s1 := by
  have hgo : ¬ (¬ hubPresent s h = true ∨ ¬ readyDeps s h k = true ∨ bitOff s h k = true) :=
    not_or.2 ⟨Classical.not_not.2 hp, not_or.2 ⟨Classical.not_not.2 hd, ne_true_of_eq_false ho⟩⟩
  exact (if_neg hgo).trans ((if_pos ⟨h20, h28⟩).trans (if_neg (ne_true_of_eq_false hr)))
end

/-! ### The package reset, the images and the cores (R161, R493, R540) -/

theorem runPackageReset_of_unready (hm : s.pkg.mode = .bringup) (ha : s.units.ready.a = []) (hb : s.units.ready.b = []) :
    runPackageReset s = packageReset s := by
  refine if_pos ⟨hm, List.all_eq_true.2 fun g _ => ?_⟩
  cases g with
  | a => exact List.all_eq_true.2 fun k hk => by simp [Pair.get, ha] at hk
  | b => exact List.all_eq_true.2 fun k hk => by simp [Pair.get, hb] at hk

section
variable (hp : hubPresent s h = true) (ho : (lhOf s h).otp = true) (hon : halfOn s h = true)
include hp ho hon

theorem runLighthouseBoot_hub_image (hc : cacheFull s h = true) :
    runLighthouseBoot h 3 s = updLh h (fun x => { x with hmok := true }) s := by
  simp only [runLighthouseBoot, hp, ho, hon, hc, not_true_eq_false, or_self, if_false, if_true]

theorem runLighthouseBoot_die_image (hc : cacheFull s h = true) (hr : readyBit s h rbHfab = true) :
    runLighthouseBoot h 4 s = updLh h (fun x => { x with cfwok := true }) s := by
  simp only [runLighthouseBoot, hp, ho, hon, hc, hr, not_true_eq_false, or_self, if_false, and_self, if_true]
end

/-- The record of a die's self-test: its good cores and those that failed. -/
def coresTested (d : Nat) (bad : List Nat) (s : State) : State :=
  updDie d (fun y => { y with
    tested := true
    coreReady := (upTo 68).filter (fun x => !bad.contains x && !(dieOf s d).failed.contains x)
    failed := (bad.filter (fun x => x < 68)).foldl setIns y.failed }) s

/-- The LCN stands on a core of the die that failed the test, and on any core of the die. -/
def onFailedCore (d : Nat) (good : List Nat) (s : State) (l : Nat) : Bool :=
  match coreOf s l with
  | some c => c / 128 == d && !good.contains (c % 128)
  | none => false

def onDie (d : Nat) (s : State) (l : Nat) : Bool :=
  match coreOf s l with
  | some c => c / 128 == d
  | none => false

theorem onFailedCore_of_free {good : List Nat} {l : Nat} (hf : ∀ c, coreOf s l = some c → c / 128 ≠ d) : onFailedCore d good s l = false := by
  unfold onFailedCore
  split
  next c hc => simp [hf c hc]
  · rfl

theorem onDie_of_free {l : Nat} (hf : ∀ c, coreOf s l = some c → c / 128 ≠ d) : onDie d s l = false := by
  unfold onDie
  split
  next c hc => simp [hf c hc]
  · rfl

/-- With no LCN on the die, before or after, the self-test only writes its record. -/
theorem runSelfTest_unused {bad : List Nat} (hp : diePresent s d = true) (hr : (dieOf s d).ready = true) (hl : (dieOf s d).lost = false)
    (hh : (dieOf s d).heldOut = false) (ht : (dieOf s d).tested = false)
    (hfree : ∀ t ∈ [s, coresTested d bad s], ∀ l, l < lcnCount s → ∀ c, coreOf t l = some c → c / 128 ≠ d) :
    let s1 := coresTested d bad s
    runSelfTest d bad s = if testsDone s1 (dieHalf d) then giveSpares (dieHalf d) s1 else s1 := by
  have hgo : ¬ (¬ diePresent s d = true ∨ ¬ (dieOf s d).ready = true ∨ (dieOf s d).lost = true ∨ (dieOf s d).heldOut = true ∨
      (dieOf s d).tested = true) := by
    simp [hp, hr, hl, hh, ht]
  have hrun : runSelfTest d bad s =
      let good := (upTo 68).filter (fun p => !bad.contains p && !(dieOf s d).failed.contains p)
      let s2 := ((upTo (lcnCount s)).filter (onFailedCore d good s)).foldl
        (fun t l => bareLcn l (updLcn l (fun k => { k with last := coreOf s l, attempt := 6 }) t)) (coresTested d bad s)
      let s3 := ((upTo (lcnCount s2)).filter (onDie d s2)).foldl (fun t l => startLcn l t) s2
      if testsDone s3 (dieHalf d) then giveSpares (dieHalf d) s3 else s3 := if_neg hgo
  have hhit (good : List Nat) : (upTo (lcnCount s)).filter (onFailedCore d good s) = [] :=
    List.filter_eq_nil_iff.2 fun l hl => ne_true_of_eq_false (onFailedCore_of_free (hfree s (by simp) l (List.mem_range.1 hl)))
  have hstart : (upTo (lcnCount (coresTested d bad s))).filter (onDie d (coresTested d bad s)) = [] :=
    List.filter_eq_nil_iff.2 fun l hl => ne_true_of_eq_false (onDie_of_free (hfree _ (by simp) l (List.mem_range.1 hl)))
  rw [hrun]
  dsimp only
  rw [hhit, List.foldl_nil, hstart, List.foldl_nil]

/-! ### Pairing and the automatic mode (R548, R550) -/

/-- Every hub's stepping has the features, and every die's that is not held out. -/
theorem pairing_features : (((halvesOf s).map (fun h => s.cfg.step.get h)).all stepFeat &&
      ((upTo 16).filter (fun d => diePresent s d && !dieHeld s d)).all (fun d => stepFeat (dieStepOf s d))) =
    ((halvesOf s).all (fun g => stepFeat (s.cfg.step.get g)) &&
      (upTo 16).all (fun d => !diePresent s d || dieHeld s d || stepFeat (dieStepOf s d))) := by
  rw [List.all_map, List.all_filter]
  congr 2
  funext d
  simp [Bool.not_and]

/-- The package once its pairing is decided. -/
def paired (v : Nat) (s : State) : State :=
  let feat := (halvesOf s).all (fun g => stepFeat (s.cfg.step.get g)) &&
    (upTo 16).all (fun d => !diePresent s d || dieHeld s d || stepFeat (dieStepOf s d))
  updUnits (fun u => { u with pairing := ⟨true, v, feat, feat⟩ }) ((upTo 16).foldl (fun t d =>
    if diePresent s d then updDie d (fun x => { x with heldOut := dieHeld s d && !x.ready }) t else t) s)

theorem runPairing_decides {v : Nat} (hm : s.pkg.mode ≠ .hold) (hoff : s.pkg.mode ≠ .off)
    (hv : s.cfg.part ≠ .q0800a ∧ bwaterReady s = true ∧ v = pairVerdict s.cfg.step.a s.cfg.step.b ∨
      s.cfg.part = .q0800a ∧ readyBit s .a rbHfab = true ∧ v = pairVerdict s.cfg.step.a s.cfg.step.a) :
    runPairing s = if hubPresent s .b ∧ (lhOf s .a).lc ≠ (lhOf s .b).lc then
      logNow (leader (paired v s)) (rpt (lhUnit (leader (paired v s))) 3 clsUC 0x0905 1) (paired v s) else paired v s := by
  have hready : (if s.cfg.part = .q0800a then readyBit s .a rbHfab else bwaterReady s) = true := by
    obtain ⟨hp, hr, -⟩ | ⟨hp, hr, -⟩ := hv
    · rw [if_neg hp, hr]
    · rw [if_pos hp, hr]
  have hverdict : (if s.cfg.part = .q0800a then pairVerdict s.cfg.step.a s.cfg.step.a else pairVerdict s.cfg.step.a s.cfg.step.b) = v := by
    obtain ⟨hp, -, hv⟩ | ⟨hp, -, hv⟩ := hv
    · rw [if_neg hp, hv]
    · rw [if_pos hp, hv]
  rw [runPairing]
  simp only [hready, hverdict, pairing_features, not_true_eq_false, hm, hoff, or_self, if_false]
  rfl

section
variable {w : Bool} (hm : s.pkg.mode = .bringup) (ha : (s.units.auto.get (leader s)).en = true)
  (ht : (s.units.auto.get (leader s)).target = 3 ∨ (s.units.auto.get (leader s)).target = 4 ∨ (s.units.auto.get (leader s)).target = 5)
  (hd : s.units.autoDone = false) (hw : w = true ∨ autoReady s (s.units.auto.get (leader s)).target = true)
  {m : Mode} (hmode : modeOf (s.units.auto.get (leader s)).target = some m)
include hm ha ht hd hw hmode

theorem runSysAuto_issues : let s1 := updUnits (fun u => { u with autoDone := true }) s
    (∀ st, firstFail (modeChecks s true (s.units.auto.get (leader s)).target 0xFF 0) = some st →
      runSysAuto w s = modeLog .bringup .bringup st s1) ∧
    (firstFail (modeChecks s true (s.units.auto.get (leader s)).target 0xFF 0) = none → runSysAuto w s = modeStart none m 0xFF 0 s1) := by
  have hgo : ¬ (s.pkg.mode ≠ .bringup ∨ ¬ (s.units.auto.get (leader s)).en = true ∨
      ¬ ((s.units.auto.get (leader s)).target = 3 ∨ (s.units.auto.get (leader s)).target = 4 ∨ (s.units.auto.get (leader s)).target = 5) ∨
      s.units.autoDone = true ∨ ¬ (w = true ∨ autoReady s (s.units.auto.get (leader s)).target = true)) :=
    not_or.2 ⟨Classical.not_not.2 hm, not_or.2 ⟨Classical.not_not.2 ha, not_or.2 ⟨Classical.not_not.2 ht, not_or.2 ⟨ne_true_of_eq_false hd, Classical.not_not.2 hw⟩⟩⟩⟩
  refine ⟨fun st hf => ?_, fun hf => ?_⟩
  · simp only [runSysAuto, if_neg hgo, hf, hmode]
  · simp only [runSysAuto, if_neg hgo, hf, hmode]
end

/-! ### Block power (R247, R518, R538) -/

/-- A block emptied and idle reaches DROWSE or GATED, and wakes at once where a wake is pending. -/
theorem runPowerReached_reaches {r : PowerReq} (hr : s.units.preq.find? (fun r => r.unit == u) = some r)
    (hsec : r.deferred = false ∨ unitSecure s u = false) (ht : r.target = 1 ∨ r.target = 2)
    (hi : unitIdle (unitEmpty u r.target s) u = true) (hs : unitSecure (unitEmpty u r.target s) u = unitSecure s u) :
    let s2 := finishOpt r.cmd stDone 1 r.target (setPstate u r.target
      (updUnits (fun x => { x with preq := x.preq.filter (fun q => q.unit != u) }) (unitEmpty u r.target s)))
    runPowerReached u s = if r.wake then wakeUnit u s2 else s2 := by
  have hgo : ¬ ((r.deferred = true ∧ unitSecure (unitEmpty u r.target s) u = true) ∨
      (r.target ≠ 0 ∧ ¬ unitIdle (unitEmpty u r.target s) u = true)) := by
    rintro (⟨h1, h2⟩ | ⟨-, h2⟩)
    · rw [hs] at h2
      exact hsec.elim (fun h => ne_true_of_eq_false h h1) (fun h => ne_true_of_eq_false h h2)
    · exact h2 hi
  have h3 (x : Nat) : ¬ (r.target = 3 ∧ x ≠ 3) := by omega
  have h0 (x : Nat) : ¬ (r.target = 0 ∧ x = 3) := by omega
  simp only [runPowerReached, hr, if_neg hgo, if_neg (h3 _), if_neg (h0 _)]

theorem runDebugWakeExpiry_idle (hw : s.units.dbg.woken.contains u = true) (hi : unitIdle s u = true) : runDebugWakeExpiry u s =
    setPstate u 2 (updUnits (fun x => { x with dbg := { x.dbg with woken := setDel x.dbg.woken u } }) s) :=
  (if_neg (Classical.not_not.2 hw)).trans (if_pos hi)

/-- Settles O57: each event of bring-up and of block power by what it depends on. -/
theorem bringUp : Obligations.BringUp := by
  intro h s hlive
  refine ⟨fun k pass hn => ?_, fun k hp hd ho hr hk => ?_, fun k hp hd ho h20 h28 hr => ?_, fun hm ha hb => ?_,
    fun hp ho hon hc => ⟨?_, fun hr => ?_⟩, fun d bad hn => ?_, fun d bad hp hr hl hh ht => ?_, fun hp hn => ?_, fun v hm hv => ?_, ?_,
    fun u r hr hsec ht s1 hs1 hi hs => ?_, fun u hw hi => ?_⟩
  · exact exec_of_live (f := runUnitReady h k pass) rfl hlive (runUnitReady_not_yet hn)
  · intro s1
    have hrun (pass : Bool) := runUnitReady_of_hub hp hd ho hr hk (pass := pass)
    refine ⟨fun hkl => ?_, fun hks => ?_, ?_, fun h1 h2 h3 => ?_⟩
    · subst hkl
      exact exec_of_live (f := runUnitReady h rbLedger true) rfl hlive (hrun true)
    · subst hks
      refine exec_of_live (f := runUnitReady h rbStock true) rfl hlive ((hrun true).trans ?_)
      cases s.units.spTest.get h <;> rfl
    · exact exec_of_live (f := runUnitReady h k false) rfl hlive (hrun false)
    · refine exec_of_live (f := runUnitReady h k true) rfl hlive ((hrun true).trans ?_)
      rw [if_neg (Classical.not_not.2 rfl), if_neg h1, if_neg fun hx => h2 hx.1, if_neg h3]
  · intro s1
    refine ⟨?_, ?_⟩
    · exact exec_of_live (f := runUnitReady h k true) rfl hlive
        ((runUnitReady_of_die hp hd ho h20 h28 hr true).trans (if_neg fun hx => hx.1 rfl))
    · refine exec_of_live (f := runUnitReady h k false) rfl hlive ((runUnitReady_of_die hp hd ho h20 h28 hr false).trans ?_)
      simp only [Bool.false_eq_true, not_false_eq_true, true_and]
      rfl
  · exact exec_of_live (f := runPackageReset) rfl hlive (runPackageReset_of_unready hm ha hb)
  · exact exec_of_live (f := runLighthouseBoot h 3) rfl hlive (runLighthouseBoot_hub_image hp ho hon hc)
  · exact exec_of_live (f := runLighthouseBoot h 4) rfl hlive (runLighthouseBoot_die_image hp ho hon hc hr)
  · refine exec_of_live (f := runSelfTest d bad) rfl hlive (if_pos ?_)
    obtain hn | hn | hn := hn
    · exact .inl (ne_true_of_eq_false hn)
    · exact .inr (.inl (ne_true_of_eq_false hn))
    · exact .inr (.inr (.inr (.inr hn)))
  · intro s1 hfree
    exact exec_of_live (f := runSelfTest d bad) rfl hlive (runSelfTest_unused hp hr hl hh ht hfree)
  · refine exec_of_live (f := runPairing) rfl hlive (if_pos ?_)
    rw [if_neg hp]
    exact hn.imp ne_true_of_eq_false .inl
  · intro feat s1 differ
    have hrun := runPairing_decides hm (mode_of_live hlive) hv
    exact ⟨fun hn => exec_of_live (f := runPairing) rfl hlive (hrun.trans (if_neg hn)),
      fun hd => exec_of_live (f := runPairing) rfl hlive (hrun.trans (if_pos hd))⟩
  · refine ⟨fun w hn => ?_, fun w m hm ha ht hd hw hmode => ?_⟩
    · refine exec_of_live (f := runSysAuto w) rfl hlive (if_pos ?_)
      obtain hn | hn | hn := hn
      · exact .inl hn
      · exact .inr (.inl (ne_true_of_eq_false hn))
      · exact .inr (.inr (.inr (.inl hn)))
    · intro s1
      obtain ⟨hbad, hgood⟩ := runSysAuto_issues hm ha ht hd hw hmode
      exact ⟨fun st hf => exec_of_live (f := runSysAuto w) rfl hlive (hbad st hf),
        fun hf => exec_of_live (f := runSysAuto w) rfl hlive (hgood hf)⟩
  · subst hs1
    exact exec_of_live (f := runPowerReached u) rfl hlive (runPowerReached_reaches hr hsec ht hi hs)
  · exact exec_of_live (f := runDebugWakeExpiry u) rfl hlive (runDebugWakeExpiry_idle hw hi)

end Sys2Proof.Machine
end

section
/-! Log reports, collector, sample and trace records (R565–R592, R607, R608). -/
namespace Sys2Proof.Machine

variable {h : Half} {l ctx : Nat} {s : State}

/-! ### Reports (R565–R571) -/

theorem takeReport_writes {r : Report} (hp : hubPresent s h = true) (hm : s.pkg.mode ≠ .off) (hl : (s.log.get h).latches = [])
    (hmay : logMay s h = true) : takeReport h r s = logWrite h ⟨hubTime h s, r⟩ s := by
  have hgo : ¬ (¬ hubPresent s h = true ∨ s.pkg.mode = .off) := not_or.2 ⟨Classical.not_not.2 hp, hm⟩
  exact (if_neg hgo).trans (if_pos ⟨hl, hmay⟩)

theorem takeReport_waits {r : Report} (hp : hubPresent s h = true) (hm : s.pkg.mode ≠ .off)
    (hn : (s.log.get h).latches ≠ [] ∨ logMay s h = false) : takeReport h r s = updLog h (fun k =>
      if latchFull (s.log.get h) r then logDrop k r.source else { k with latches := k.latches ++ [⟨hubTime h s, r⟩] }) s := by
  have hgo : ¬ (¬ hubPresent s h = true ∨ s.pkg.mode = .off) := not_or.2 ⟨Classical.not_not.2 hp, hm⟩
  have hno : ¬ ((s.log.get h).latches = [] ∧ logMay s h = true) := fun hx => hn.elim (fun h1 => h1 hx.1) fun h2 => ne_true_of_eq_false h2 hx.2
  refine ((if_neg hgo).trans (if_neg hno)).trans ?_
  by_cases hf : latchFull (s.log.get h) r = true
  · simp only [if_pos hf]
  · simp only [if_neg hf]
    rfl

/-! ### The collector (R584) -/

theorem runFreezePulse_of_running (hr : (collOf s h).run = true) (hc : collects s h = true) (busy : Bool) : runFreezePulse h busy s =
    if busy then updColl h (fun x => { x with miss := sat (x.miss + 1) 0xFFFFFFFF, missed := sat (x.missed + 1) 0xFFFFFFFF }) s
    else pulse h false s :=
  if_neg (not_or.2 ⟨Classical.not_not.2 hr, Classical.not_not.2 hc⟩)

/-! ### Sample and trace records (R591, R607, R608) -/

theorem runSampleRecord_of_running (hr : lcnRuns s l = true) (hn : (lcnOf s l).samp.n ≠ 0) (r : SampleOp) :
    let k := (lcnOf s l).samp
    runSampleRecord l none s = updLcn l (fun x => { x with samp := { x.samp with missed := sat (x.samp.missed + 1) 65535 } }) s ∧
    runSampleRecord l (some r) s = updLcn l (fun x => { x with samp := { x.samp with
        off := if k.size < k.off + 128 then 0 else k.off + 64, seq := x.samp.seq + 1, missed := 0 } })
      (recordOut (lcnHalf s l) (k.base + k.off) (sampleBytes s l r) s) := by
  have hgo : ¬ ((lcnOf s l).samp.n = 0 ∨ ¬ lcnRuns s l = true) := not_or.2 ⟨hn, Classical.not_not.2 hr⟩
  exact ⟨if_neg hgo, if_neg hgo⟩

theorem runTraceRecord_of_traced {r : TraceOp} (he : (lcnOf s l).trcEn = true) (hb : bitOf (lcnOf s l).trcCtx ctx = true)
    (hr : lcnRuns s l = true) (h1 : 1 ≤ r.typ) (h5 : r.typ ≤ 5) : runTraceRecord l ctx r s =
    if r.busy then updLcn l (fun x => { x with trcLost := x.trcLost + 1 }) s
    else
      let m := modeByte (ctxOf s l ctx) ctx
      let s1 := if (lcnOf s l).trcLost = 0 then s else tracePut l (traceBytes 0 r.delta (lcnOf s l).trcLost 6 m) s
      updLcn l (fun x => { x with trcLost := 0, trcCount := 0 }) (tracePut l (traceBytes r.target r.delta (lcnOf s l).trcCount r.typ m) s1) :=
  if_neg (not_or.2 ⟨Classical.not_not.2 he, not_or.2 ⟨Classical.not_not.2 hb, not_or.2 ⟨Classical.not_not.2 hr, Classical.not_not.2 ⟨h1, h5⟩⟩⟩⟩)

/-- Settles O58: each record by whether it can be written now. -/
theorem records : Obligations.Records := by
  intro h s hlive
  refine ⟨fun r s1 hs1 hp hm => ?_, fun r => ⟨fun hc => ?_, fun hc hu => ?_, fun hc hu => ?_⟩, fun hr hc => ⟨?_, ?_⟩, fun hr busy => ?_,
    fun l hr => ?_, fun l ctx r => ?_⟩
  · subst hs1
    intro l x
    exact ⟨fun hl hmay => exec_of_live (f := runLogReport h r) rfl hlive (takeReport_writes hp hm hl hmay),
      fun hn => exec_of_live (f := runLogReport h r) rfl hlive (takeReport_waits hp hm hn)⟩
  · exact if_pos hc
  · exact (if_neg (by rw [hc]; decide)).trans (if_pos ⟨hc, hu⟩)
  · exact (if_neg hc).trans (if_neg fun hx => hu.elim (fun h1 => h1 hx.1) (fun h2 => h2 hx.2))
  · exact exec_of_live (f := runFreezePulse h true) rfl hlive ((runFreezePulse_of_running hr hc true).trans (if_pos rfl))
  · exact exec_of_live (f := runFreezePulse h false) rfl hlive ((runFreezePulse_of_running hr hc false).trans (if_neg Bool.false_ne_true))
  · exact exec_of_live (f := runFreezePulse h busy) rfl hlive (if_pos (.inl (ne_true_of_eq_false hr)))
  · intro k
    refine ⟨fun hn r => exec_of_live (f := runSampleRecord l r) rfl hlive (if_pos (.inl hn)), fun hn => ⟨?_, fun r => ?_⟩⟩
    · exact exec_of_live (f := runSampleRecord l none) rfl hlive (if_neg (not_or.2 ⟨hn, Classical.not_not.2 hr⟩))
    · exact exec_of_live (f := runSampleRecord l (some r)) rfl hlive (runSampleRecord_of_running hr hn r).2
  · intro k
    refine ⟨fun hn => ?_, fun he hb hr h1 h5 => ⟨fun hbusy => ?_, fun hbusy hlost => ?_⟩⟩
    · refine exec_of_live (f := runTraceRecord l ctx r) rfl hlive (if_pos ?_)
      exact hn.elim (fun h1 => .inl (ne_true_of_eq_false h1)) (fun h2 => .inr (.inl (ne_true_of_eq_false h2)))
    · exact exec_of_live (f := runTraceRecord l ctx r) rfl hlive ((runTraceRecord_of_traced he hb hr h1 h5).trans (if_pos hbusy))
    · refine exec_of_live (f := runTraceRecord l ctx r) rfl hlive
        ((runTraceRecord_of_traced he hb hr h1 h5).trans ((if_neg (ne_true_of_eq_false hbusy)).trans ?_))
      have h0 : (lcnOf s l).trcLost = 0 := hlost
      dsimp only
      rw [if_pos h0]

end Sys2Proof.Machine
end

section
/-! The test access chain and run control of cores (R595–R606). -/
namespace Sys2Proof.Machine

variable {h : Half} {l mask ctx b n : Nat} {s : State}

/-! ### The test access chain (R595–R601) -/

theorem setIr_of_not_in_chain {ir dr : Nat} (hn : inChain s n = false) : setIr n ir dr s = s := if_neg (ne_true_of_eq_false hn)

/-- A controller's instruction and the register it selects. -/
def selected (n ir dr : Nat) (s : State) : State := updTap (fun t => { t with ir := tset 1 t.ir n ir, dr := tset 0 t.dr n dr }) s

theorem setIr_of_in_chain {ir dr : Nat} (hn : inChain s n = true) : setIr n ir dr s = selected n ir dr s := if_pos hn

theorem runIjtag_of_in_chain (hn : inChain s n = true) : runIjtag n s = selected n 0x10 (freeVal s) (drawn s) :=
  (if_pos hn).trans (setIr_of_in_chain (s := drawn s) hn)

theorem runSamplePreload_of_in_chain {v : Nat} (hn : inChain s (16 + h.n) = true) : runSamplePreload h v s =
    selected (16 + h.n) 2 (freeVal s) (updTap (fun t => { t with bsr := t.bsr.set h v }) (drawn s)) :=
  (if_pos hn).trans (setIr_of_in_chain (s := updTap (fun t => { t with bsr := t.bsr.set h v }) (drawn s)) hn)

theorem landsOpen_iff : landsOpen s h = true ↔ s.pkg.mode = .bringup ∧ readyBit s h rbHm = false := by
  simp [landsOpen]

theorem runExtest_of_in_chain {v : Nat} (hn : inChain s (16 + h.n) = true) : runExtest h v s =
    if s.pkg.mode = .bringup ∧ readyBit s h rbHm = false then
      updTap (fun t => { t with bsr := t.bsr.set h v }) (selected (16 + h.n) 3 0 s)
    else selected (16 + h.n) 3 0 s := by
  simp only [runExtest, setIr_of_in_chain hn, landsOpen_iff, hn, and_true]

section
variable {op size addr data : Nat} (hn : inChain s (16 + h.n) = true)
include hn

theorem runDbgap_polls (ho : op = 0 ∨ op = 3) : runDbgap h op size addr data s = selected (16 + h.n) 0x20 0 s := by
  rw [runDbgap, if_neg (Classical.not_not.2 hn), setIr_of_in_chain hn]
  exact if_pos (.inr (by omega))

theorem runDbgap_accesses (hs : s.pkg.stopped = false) (ho : op = 1 ∨ op = 2) : runDbgap h op size addr data s =
    apRun h op size (addr % 2 ^ 52) (data % 2 ^ 64) (selected (16 + h.n) 0x20 0 s) := by
  have hop : op % 4 = op := by omega
  rw [runDbgap, if_neg (Classical.not_not.2 hn), setIr_of_in_chain hn, hop]
  exact if_neg (not_or.2 ⟨ne_true_of_eq_false hs, Classical.not_not.2 ho⟩)
end

theorem apRun_refused {op size addr data : Nat} (hr : (apTarget s h addr (if size % 4 = 3 then 8 else 4) (op == 2)).resp ≠ 0) :
    apRun h op size addr data s = apDone h (apTarget s h addr (if size % 4 = 3 then 8 else 4) (op == 2)).resp addr 0 s :=
  if_pos hr

theorem apRun_performed {op size addr data : Nat} :
    let n := if size % 4 = 3 then 8 else 4
    let t := apTarget s h addr n (op == 2)
    t.resp = 0 → apWaits s t.unit = false →
    let r := apAccess h addr n data (op == 2) t.sec (dbgWake t.unit s)
    apRun h op size addr data s = apDone h 0 addr r.1 r.2 := by
  intro n t hr hw
  exact (if_neg (Classical.not_not.2 hr)).trans (if_neg (ne_true_of_eq_false hw))

/-! ### Run control (R602–R605) -/

theorem dbgLcn_dbgRunReg : dbgLcn (dbgRunReg l) = some l := by
  have hsub : (dbgRunReg l - 0x100000) / 256 = l := by rw [dbgRunReg]; omega
  rw [dbgLcn, if_pos (by rw [dbgRunReg]; omega), hsub]

theorem dbgBlockWrite_refused {o v : Nat} (hr : dbgBlockResp s h o true ≠ 0) : dbgBlockWrite h o v s = s := if_pos hr

/-- A write of DBG_RUN that R516 lets act wakes the LCN's die and runs or halts what it names. -/
theorem dbgBlockWrite_run {v : Nat} (hr : dbgBlockResp s h (dbgRunReg l) true = 0) :
    dbgBlockWrite h (dbgRunReg l) v s = dbgRunWrite l v (dbgWake (some (lcnUnit s l)) s) := by
  have hreg : dbgRunReg l % 256 = 0 := by rw [dbgRunReg]; omega
  rw [dbgBlockWrite, if_neg (Classical.not_not.2 hr), dbgLcn_dbgRunReg, dbgWrite, dbgLcn_dbgRunReg]
  dsimp only
  rw [hreg]
  rfl

/-- The contexts a mask names. -/
def named (mask : Nat) : List Nat := (if bitOf mask 0 then [0] else []) ++ (if bitOf mask 1 then [1] else [])

theorem ctxBits_of_mask : ∀ mask < 4, ∀ w ∈ [2 ^ 29, 2 ^ 30, 2 ^ 31 + 2 ^ 30], ctxBits (w + mask % 4 * 2 ^ 27) = named mask := by
  decide

theorem halt_word_bits : ∀ mask < 4, bitOf (2 ^ 29 + mask % 4 * 2 ^ 27) 29 = true ∧ bitOf (2 ^ 29 + mask % 4 * 2 ^ 27) 30 = false := by
  decide

theorem resume_word_bits : ∀ mask < 4, bitOf (2 ^ 30 + mask % 4 * 2 ^ 27) 29 = false ∧ bitOf (2 ^ 30 + mask % 4 * 2 ^ 27) 30 = true ∧
    bitOf (2 ^ 30 + mask % 4 * 2 ^ 27) 31 = false := by
  decide

theorem step_word_bits : ∀ mask < 4, bitOf (2 ^ 31 + 2 ^ 30 + mask % 4 * 2 ^ 27) 29 = false ∧
    bitOf (2 ^ 31 + 2 ^ 30 + mask % 4 * 2 ^ 27) 30 = true ∧ bitOf (2 ^ 31 + 2 ^ 30 + mask % 4 * 2 ^ 27) 31 = true := by
  decide

section
variable (hm : mask < 4)
include hm

theorem dbgRunWrite_halts : dbgRunWrite l (2 ^ 29 + mask % 4 * 2 ^ 27) s = dbgHalt l (named mask) s := by
  obtain ⟨h29, h30⟩ := halt_word_bits mask hm
  rw [dbgRunWrite, if_pos h29, ctxBits_of_mask mask hm _ (by decide)]
  exact if_neg (ne_true_of_eq_false h30)

theorem dbgRunWrite_resumes : dbgRunWrite l (2 ^ 30 + mask % 4 * 2 ^ 27) s = dbgResume l (named mask) s := by
  obtain ⟨h29, h30, h31⟩ := resume_word_bits mask hm
  rw [dbgRunWrite, if_neg (ne_true_of_eq_false h29), ctxBits_of_mask mask hm _ (by decide)]
  exact (if_pos h30).trans (if_neg (ne_true_of_eq_false h31))

theorem dbgRunWrite_steps : dbgRunWrite l (2 ^ 31 + 2 ^ 30 + mask % 4 * 2 ^ 27) s = dbgStep l (named mask) s := by
  obtain ⟨h29, h30, h31⟩ := step_word_bits mask hm
  rw [dbgRunWrite, if_neg (ne_true_of_eq_false h29), ctxBits_of_mask mask hm _ (by decide)]
  exact (if_pos h30).trans (if_pos h31)
end

/-! ### Breakpoints (R606) -/

theorem runBreakpoint_off {acc : Option (Nat × Bool)} (hn : dbgenN s = false ∨ bpOn s l ctx b = false) : runBreakpoint l ctx b acc s = s :=
  if_pos (hn.elim (fun h1 => .inl (ne_true_of_eq_false h1)) fun h2 => .inr (.inr (ne_true_of_eq_false h2)))

section
variable (he : dbgenN s = true) (hr : ctxRuns s l ctx = true) (hb : bpOn s l ctx b = true)
include he hr hb

theorem runBreakpoint_at_instruction (hx : fld (tget 0 (lcnOf s l).bp b).toNat 62 61 = 0)
    (hpc : (ctxOf s l ctx).pc.toNat % 2 ^ 57 = (tget 0 (lcnOf s l).bp b).toNat % 2 ^ 57) :
    runBreakpoint l ctx b none s = updCtx l ctx (haltCtx 3) (retireGroup l ctx s) :=
  (if_neg (not_or.2 ⟨Classical.not_not.2 he, not_or.2 ⟨Classical.not_not.2 hr, Classical.not_not.2 hb⟩⟩)).trans (if_pos ⟨hx, hpc⟩)

theorem runBreakpoint_at_access {a : Nat} {wr : Bool} (ha : a % 2 ^ 57 / 8 = (tget 0 (lcnOf s l).bp b).toNat % 2 ^ 57 / 8)
    (hw : (if wr then bitOf (tget 0 (lcnOf s l).bp b).toNat 62 else bitOf (tget 0 (lcnOf s l).bp b).toNat 61) = true) :
    runBreakpoint l ctx b (some (a, wr)) s = updCtx l ctx (haltCtx 4) (retireGroup l ctx s) :=
  (if_neg (not_or.2 ⟨Classical.not_not.2 he, not_or.2 ⟨Classical.not_not.2 hr, Classical.not_not.2 hb⟩⟩)).trans (if_pos ⟨ha, hw⟩)
end

/-- Settles O59: the test access port by whether the controller is in the chain, run control by what R516 answers. -/
theorem testDebug : Obligations.TestDebug := by
  refine ⟨?_, ?_⟩
  · intro s
    refine ⟨rfl, fun n hn => ⟨?_, ?_, ?_⟩, fun n hn => ?_, fun h hn => ?_⟩
    · exact congrArg Host.Outcome.next (setIr_of_not_in_chain hn)
    · exact congrArg Host.Outcome.next (setIr_of_not_in_chain hn)
    · exact congrArg Host.Outcome.next (if_neg (ne_true_of_eq_false hn))
    · intro sel
      exact ⟨congrArg Host.Outcome.next (setIr_of_in_chain hn), congrArg Host.Outcome.next (setIr_of_in_chain hn),
        congrArg Host.Outcome.next (runIjtag_of_in_chain hn)⟩
    · intro sel
      refine ⟨congrArg Host.Outcome.next (setIr_of_in_chain hn), congrArg Host.Outcome.next (setIr_of_in_chain hn),
        fun v => congrArg Host.Outcome.next (runSamplePreload_of_in_chain hn),
        fun v => congrArg Host.Outcome.next (runExtest_of_in_chain hn), fun op size addr data hs => ?_⟩
      intro n s1 t
      refine ⟨fun ho => congrArg Host.Outcome.next (runDbgap_polls hn ho), fun ho hr => ?_, fun ho hr hw => ?_⟩
      · exact congrArg Host.Outcome.next ((runDbgap_accesses hn hs ho).trans (apRun_refused hr))
      · exact congrArg Host.Outcome.next ((runDbgap_accesses hn hs ho).trans (apRun_performed hr hw))
  · intro h l mask s hlive hl hm block s1 cs
    refine ⟨fun hr => ⟨?_, ?_, ?_⟩, fun hr => ⟨?_, ?_, ?_⟩, fun ctx b => ?_⟩
    · exact exec_of_live (f := runDbgHalt h l mask) rfl hlive (dbgBlockWrite_refused hr)
    · exact exec_of_live (f := runDbgResume h l mask) rfl hlive (dbgBlockWrite_refused hr)
    · exact exec_of_live (f := runDbgStep h l mask) rfl hlive (dbgBlockWrite_refused hr)
    · exact exec_of_live (f := runDbgHalt h l mask) rfl hlive ((dbgBlockWrite_run hr).trans (dbgRunWrite_halts hm))
    · exact exec_of_live (f := runDbgResume h l mask) rfl hlive ((dbgBlockWrite_run hr).trans (dbgRunWrite_resumes hm))
    · exact exec_of_live (f := runDbgStep h l mask) rfl hlive ((dbgBlockWrite_run hr).trans (dbgRunWrite_steps hm))
    · intro x va
      refine ⟨fun hn acc => exec_of_live (f := runBreakpoint l ctx b acc) rfl hlive (runBreakpoint_off hn),
        fun he hr hb => ⟨fun hx hpc => ?_, fun a wr ha hw => ?_⟩⟩
      · exact exec_of_live (f := runBreakpoint l ctx b none) rfl hlive (runBreakpoint_at_instruction he hr hb hx hpc)
      · exact exec_of_live (f := runBreakpoint l ctx b (some (a, wr))) rfl hlive (runBreakpoint_at_access he hr hb ha hw)

end Sys2Proof.Machine
end

section
/-! Register writes, the ends of long work, training (R14, R31, R66, R228, R291, R610). -/
namespace Sys2Proof.Machine

variable {h : Half} {k c pp : Nat} {s : State}

/-! ### Register writes and maintenance slots (R14, R31, R228) -/

theorem runRegisterWrite_words {off n v : Nat} (hon : halfOn s h = true) (ha : off % n = 0) (hn : n = 4 ∨ n = 8) :
    runRegisterWrite h off n v s = kick s (regWriteN h false off (toBytes n v) s) :=
  if_neg (not_or.2 ⟨Classical.not_not.2 hon, not_or.2 ⟨Classical.not_not.2 hn, Classical.not_not.2 ha⟩⟩)

theorem runRegisterWrite_refused {off n v : Nat} (hn : n ≠ 4 ∧ n ≠ 8 ∨ off % n ≠ 0) : runRegisterWrite h off n v s = s := by
  refine if_pos ?_
  obtain ⟨h4, h8⟩ | ha := hn
  · exact .inr (.inl (not_or.2 ⟨h4, h8⟩))
  · exact .inr (.inr ha)

theorem runMntStart_of_free {v : Nat} (hk : k < 16) (hb : (maintOf s h k).busy = false) :
    let s1 := updMaint h k (fun x => { x with err := x.err && !bitOf v 30, op := fld v 29 28, count := fld v 19 0 }) s
    runMntStart h k v s = if bitOf v 31 then
      mntSend h k (updMaint h k (fun x => { x with busy := true, cur := x.addr / 64, left := fld v 19 0 + 1 }) s1) else s1 :=
  if_neg (not_or.2 ⟨ne_true_of_eq_false hb, Nat.not_le.2 hk⟩)

/-! ### Ends of long work (R66) -/

section
variable {src : Src} {tag : Nat} {pass : Bool} {errs : List (Nat × Nat)} {g : Prog}
  (hg : s.prog.find? (fun x => x.pkt.src == src && x.pkt.tag == tag) = some g)
include hg

theorem runAsyncComplete_key (ho : g.pkt.op = 0x0601) : runAsyncComplete src tag pass errs s = harbourRun (generateEnd g s) := by
  simp only [runAsyncComplete, hg, ho]

theorem runAsyncComplete_scrub (ho : g.pkt.op = 0x0A01) : runAsyncComplete src tag pass errs s = harbourRun (scrubEnd g errs s) := by
  simp only [runAsyncComplete, hg, ho]

theorem runAsyncComplete_core_test (ho : g.pkt.op = 0x0A03) : runAsyncComplete src tag true errs s = harbourRun (finish g stDone 1 1 s) := by
  simp only [runAsyncComplete, hg, ho]
  rfl
end

/-! ### Training (R291, R610) -/

theorem runTrainingEnd_of_kind {ok : Bool} (hst : (chOf s h c).st = .training) (hk : (dimmOf s h c).kind = pkgKind s) :
    let d := dimmOf s h c
    runTrainingEnd h c ok s = if ¬ ok then updCh h c (fun x => { x with st := .down }) s
      else updCh h c (fun x => { x with
        st := .zeroing, speed := if d.kind = 2 then 2 else 1, kind := d.kind, dpc := d.dpc, rankb := d.rankb, row17 := d.d32 }) s :=
  (if_neg (Classical.not_not.2 hst)).trans (if_neg (Classical.not_not.2 hk))

/-- Settles O60: register writes by their size, the other events by what they end. -/
theorem registerWrites : Obligations.RegisterWrites := by
  intro h s hlive
  refine ⟨fun off n v hon ha hn => ?_, fun off n v hn => ?_, fun src tag pass errs g hg => ⟨fun ho => ?_, fun ho => ?_, fun ho => ?_⟩,
    fun k v hk hb => ?_, fun k v hb => ?_, fun c hst hk => ?_, fun c ok hst => ?_, fun pp hp hst hr => ?_⟩
  · exact exec_of_live (f := runRegisterWrite h off n v) rfl hlive (runRegisterWrite_words hon ha hn)
  · exact exec_of_live (f := runRegisterWrite h off n v) rfl hlive (runRegisterWrite_refused hn)
  · exact exec_of_live (f := runAsyncComplete src tag pass errs) rfl hlive (runAsyncComplete_key hg ho)
  · exact exec_of_live (f := runAsyncComplete src tag pass errs) rfl hlive (runAsyncComplete_scrub hg ho)
  · exact exec_of_live (f := runAsyncComplete src tag true errs) rfl hlive (runAsyncComplete_core_test hg ho)
  · intro s1
    exact exec_of_live (f := runMntStart h k v) rfl hlive (runMntStart_of_free hk hb)
  · exact exec_of_live (f := runMntStart h k v) rfl hlive (if_pos (.inl hb))
  · intro d
    exact ⟨exec_of_live (f := runTrainingEnd h c false) rfl hlive ((runTrainingEnd_of_kind hst hk).trans (if_pos Bool.false_ne_true)),
      exec_of_live (f := runTrainingEnd h c true) rfl hlive ((runTrainingEnd_of_kind hst hk).trans (if_neg (Classical.not_not.2 rfl)))⟩
  · exact exec_of_live (f := runTrainingEnd h c ok) rfl hlive (if_pos hst)
  · exact exec_of_live (f := runPerstRelease pp) rfl hlive (if_pos ⟨hp, hst, hr⟩)

end Sys2Proof.Machine
end

section
/-! # The front of the queue, and what reset leaves (the package's notes, logs 6 and 16; R34, R42, R143, R540) -/

namespace Sys2Proof.Machine

/-- The front command leaves the queue and runs. -/
theorem step_of_pending {s : State} {c : Instr} {rest : List Instr} (hq : s.pending = c :: rest) :
    step s = exec c { s with pending := rest } := by
  simp only [step, hq]

/-- With nothing waiting a nanosecond passes. -/
theorem step_of_idle {s : State} (hq : s.pending = []) : step s = .next (tick s) := by
  simp only [step, hq]

theorem step_enqueueFront (s : State) (c : Instr) : step (s.enqueueFront c) = exec c s := rfl

/-- Every command answers a next state: the common form runs only while the package is live, the others always. -/
theorem exec_next (c : Instr) (s : State) : ∃ t, exec c s = .next t := by
  obtain hacts | ⟨f, hf⟩ := exec_eq_act c
  · cases c
    case feedLoss | feedReturn | bothFeedsLost | vholdLoss | holdPowerUp | supplyRangeChange => exact ⟨_, rfl⟩
    case trstN | idcode | samplePreload | extest | clamp | highz | ijtag | bypass | dbgap => exact ⟨_, rfl⟩
    all_goals cases hacts
  · exact ⟨_, hf s⟩

theorem answers (s : State) : Answers s := by
  unfold Answers
  cases hq : s.pending with
  | nil => exact ⟨_, step_of_idle hq⟩
  | cons c rest => exact step_of_pending hq ▸ exec_next c _

/-- Settles O1: a step is the front command, or a nanosecond; both always answer a next state. -/
theorem front : Obligations.Front := by
  unfold Obligations.Front
  refine ⟨fun s => ⟨fun c rest => step_of_pending, step_enqueueFront s, fun hq => ⟨step_of_idle hq, fun hdead => ?_⟩⟩,
    exec_next, answers⟩
  rw [step_of_idle hq, tick_of_not_live hdead]

/-- Settles O2: the words are read back from the reset state, and every table of it is empty. -/
theorem resetValues : Obligations.ResetValues := by
  unfold Obligations.ResetValues
  exact ⟨by decide +kernel, by decide +kernel, by decide +kernel, rfl, fun _ _ => ⟨rfl, rfl⟩, fun _ _ => ⟨rfl, rfl⟩,
    fun _ => rfl, fun _ => rfl, rfl, rfl, ⟨rfl, rfl⟩⟩

end Sys2Proof.Machine
end
